-- ==== Sys2Proof/Word.lean ====
section
/-! DEFINITION. The word of the register maps (32 bits, R374), the byte, and the two list types that hold sparse memories. -/

namespace Sys2Proof

/-- A register word, an OMP word, a DMA descriptor word: 32 bits (R3, R374). -/
abbrev Word := BitVec 32

/-- A byte of DRAM, of the Landing, of the flash or of a bulk payload. -/
abbrev Byte := BitVec 8

/-- A sparse memory: (address, value) pairs in one canonical form (`Mem.wf` in Machine/Mem.lean). -/
abbrev Sparse (α : Type) := List (Nat × α)

/-- An OMP message: 1 to 16 words, the header first (R345). -/
abbrev Msg := List Word

end Sys2Proof
end

