-- ==== Sys2Proof/Operand.lean ====
section
/-! DEFINITION. The operand types of the commands: what a step of the environment carries. -/

namespace Sys2Proof

/-- What the analogue stage senses on a current channel in one sample (Table 4.1): current in OUT units, drive at 4.4 V or more,
node voltage in SHORT_TH steps. -/
structure Sensed where
  current : Nat
  driveHigh : Bool
  node : Nat
  deriving DecidableEq, Repr

/-- The grandmaster that an Announce describes, in the order in which the default best master clock algorithm compares (R274; PRESUMED,
log entry 95). -/
structure PtpClock where
  priority1 : Nat
  clockClass : Nat
  accuracy : Nat
  variance : Nat
  priority2 : Nat
  identity : Nat
  steps : Nat
  deriving DecidableEq, Repr

/-- What a PTP message carries (R274): timestamps in ns of the PTP timescale. -/
inductive PtpBody where
  | announce (clock : PtpClock) (utcOffset : Int)
  | sync (twoStep : Bool) (origin : Nat)
  | followUp (origin : Nat)
  | delayReq
  | delayResp (forUs : Bool) (receive : Nat)
  | pdelayReq
  | pdelayResp (forUs twoStep : Bool) (receive : Nat)
  | pdelayRespFollowUp (forUs : Bool) (response : Nat)
  /-- A management message with the action GET. -/
  | managementGet
  /-- A message that uses another option outside Table 15.5. -/
  | unsupported
  deriving DecidableEq, Repr

/-- A received PTP message (R274, R275): the Ethernet port it arrives on, its header's domain, source, sequence number and correction in 2^-16 ns,
and the device time, in units of 0.25 ns, at which its start of frame delimiter reaches the Porch. -/
structure PtpMessage where
  port : Fin 2
  domain : Fin 256
  source : Nat
  seq : Fin 65536
  correction : Int
  sfd : Nat
  body : PtpBody
  deriving DecidableEq, Repr

/-- The path of a host-map access: requester 1 PCIe (2 in the secure lock window), 3 Study, 4 SPI, 5 debug (R354). -/
inductive Path where
  | pcie
  | study
  | spi
  | debug
  deriving DecidableEq, Repr

/-- A lock access: its path, and whether it goes through LOCKSk (R354). -/
structure LockAccess where
  path : Path
  secure : Bool
  deriving DecidableEq, Repr

/-- A write of bit `bit` of the control-page word at `word` (R378). -/
structure AliasAccess where
  path : Path
  word : Fin 256
  bit : Fin 32
  v : Bool
  deriving DecidableEq, Repr

/-- What a word of ST2, ST3, ST4, ST5 or ST11 belongs to (Table 1.4). -/
inductive Traced where
  /-- ST2: full-rate rows, decimated rows. -/
  | fullRow
  | decimatedRow
  /-- ST3: corner-turned blocks. -/
  | block
  /-- ST4: chain outputs, Raman snapshots. -/
  | chainRow
  | snapshot
  /-- ST5: result writes, fire tokens to the copier. -/
  | result
  | fireToken
  /-- ST11: arm, fire and synchronising-reset tokens. -/
  | ringToken
  deriving DecidableEq, Repr

/-- A word that leaves a strait (R15, R16). -/
inductive StraitWord where
  /-- ST0: the coherent codes XI, XQ, YI, YQ of a leg (14 bits each) with bits [15:0] of the sample index; `crcBad`: the die-to-die CRC failed. -/
  | coherent (leg : Fin 2) (tag : Fin 65536) (xi xq yi yq : Fin 16384) (crcBad : Bool)
  /-- ST0: the Stokes and anti-Stokes codes of a leg. -/
  | direct (leg : Fin 2) (tag : Fin 65536) (st as_ : Fin 16384) (crcBad : Bool)
  /-- ST2, ST3, ST4, ST5 or ST11: a word with leg, slot row, bits [15:0] of the trace number and the point or location index. -/
  | traced (kind : Traced) (leg : Fin 2) (slot : Fin 8) (tag : Fin 65536) (index : Nat)
  deriving DecidableEq, Repr

/-- What the ECC decoder finds in a codeword read (R287, R288). -/
inductive ReadCheck where
  | clean
  /-- One symbol in error: corrected. -/
  | symbol (j : Fin 18)
  /-- More than one: cannot be corrected; the symbol syndrome. -/
  | beyond (syndrome : Fin 65536)
  deriving DecidableEq, Repr

/-- A codeword of a Loft memory (R193, R194). -/
inductive LoftMemory where
  | data (c : Fin 72) (cw : Fin 4096)
  | program (c : Fin 72)
  | landing (cw : Fin 262144)
  deriving DecidableEq, Repr

/-- The fixed fields of a Causeway frame as it arrives (R331): port, SRC_ID, HOPS, SEQ, and whether CHECK holds. -/
structure CwHeader where
  port : Fin 2
  src : Fin 256
  hops : Fin 256
  seq : Fin 65536
  good : Bool
  deriving DecidableEq, Repr

/-- A record of the Larder that an uncorrectable codeword lies in (R420). -/
inductive LarderRecord where
  | calBase
  | calLast
  | dramTrain
  | repair
  | rollback
  | faultCfg
  | other
  deriving DecidableEq, Repr

/-- A report to the fault collector (R387): source, detail byte, the condition of an L source after it, and the record that LARDER_UNCORR names. -/
structure FaultReport where
  source : Fin 128
  detail : Fin 256
  holds : Bool
  record : LarderRecord
  deriving DecidableEq, Repr

/-- A failing bit that a BIST slice found (R417). -/
structure FailingBit where
  memory : Fin 65536
  word : Fin 1048576
  bit : Fin 256
  deriving DecidableEq, Repr

/-- A device-to-host descriptor as the device reads it from host memory (R310): its address, BUF_ADDR, BUF_LEN, OWN, INT, NEXT. -/
structure D2hDescriptor where
  addr : Nat
  bufAddr : Nat
  bufLen : Nat
  own : Bool
  int : Bool
  next : Nat
  deriving DecidableEq, Repr

/-- A PHY block (Table 16.6). -/
structure Phy where
  wl : Vector Word 9 := Vector.replicate 9 0
  gate : Vector Word 9 := Vector.replicate 9 0
  rdq : Vector Word 72 := Vector.replicate 72 0x40
  wdq : Vector Word 72 := Vector.replicate 72 0x40
  vref : Word := 0x1820
  deriving DecidableEq, Repr

/-- A host-to-device descriptor as the device reads it from host memory (R310, R318): its address, OWN, NEXT, and the BUF_LEN bytes of its buffer. -/
structure H2dDescriptor where
  addr : Nat
  own : Bool
  next : Nat
  data : List Byte
  deriving DecidableEq, Repr

/-- What a received Ethernet frame carries (Table 18.3). Addresses are numbers, an IPv4 address of 32 bits. -/
inductive EthBody where
  | pause
  /-- ARP: a request for `target`, or a reply from `sender`. -/
  | arp (request : Bool) (sender target : Nat)
  /-- NDP: a neighbour solicitation for `target`, or an advertisement from `sender`. -/
  | neighbour (solicit : Bool) (sender target : Nat)
  /-- An ICMP or ICMPv6 echo request. -/
  | echo (v6 : Bool) (dst : Nat)
  | routerAdvertisement
  /-- An IGMPv2 or MLDv1 query, of all groups or of a PTP group (`ptp`), or of another group. -/
  | query (ptp : Bool)
  /-- The DHCPv4 server's acknowledgement of an address. -/
  | lease (address : Nat)
  /-- A UDP datagram whose checksum holds. -/
  | udp (v6 : Bool) (src dst : Nat) (dstPort : Fin 65536) (data : List Byte)
  /-- Anything outside Table 18.3: a fragment, an IP option, an extension header, TCP, a bad checksum, another ICMP type. -/
  | other
  deriving DecidableEq, Repr

/-- A frame received on a port: its 802.1Q VID, if tagged, and what it carries. -/
structure EthFrame where
  port : Fin 2
  vid : Option (Fin 4096)
  body : EthBody
  deriving DecidableEq, Repr

/-- The register maps: the host map of chapter 21, and the rooms' blocks in the Study's address space (Tables 4.2, 5.7, 6.2, 7.7, 8.5, 9.5, 10.9, 11.7,
13.8, 14.4, 15.9, 16.5, 17.6, 18.6, 23.3). -/
inductive RegBlock where
  | hostMap
  | hearth
  | threshold
  | hall
  | loft
  | timeBase
  | cellar
  | compression
  | porch
  | startup
  deriving DecidableEq, Repr

end Sys2Proof
end

