-- ==== Sys2Proof/Syntax.lean ====
section
/-! DEFINITION. The commands of the block: one constructor per row of spec/opcode_table.json, in the table's order. The operands
are what the environment supplies with the step: the carrier, the channel, the word written, the measured value. -/

namespace Sys2Proof

/-- A command or event (95_what_each_step_holds.md: each is one whole, indivisible step). -/
inductive Instr where
  /-- IDENTIFY (R368): Query command that returns the device ID, revision, firmware and OMP versions, serial and Larder wear. -/
  | identify (c : Fin 9)
  /-- STATUS (R368): Query command that returns mode, legs on, current traces, running long operation, safe-state flag and raised-fault count. -/
  | status (c : Fin 9)
  /-- PROGRESS (R366): Query command that returns the code, state and progress value of the running or last long operation. -/
  | progress (c : Fin 9)
  /-- MODE_SET (R33): Checks a plan against R31 and, if it passes, schedules a mode or excitation change at a frame-boundary effective trace; leaving REST makes it a long operation. -/
  | modeSet (c : Fin 9)
  /-- PLAN_CHECK (R31): Checks a plan and returns the first failed condition and the Hall and P0 loads, without applying it. -/
  | planCheck (c : Fin 9)
  /-- PLAN_SUGGEST (R32): Runs the plan helper for the given fibre lengths and returns mode, S, T_f, L and chirp. -/
  | planSuggest (c : Fin 9)
  /-- TABLE_LOAD (R50): Loads an arbitrary-waveform table for one slot of one leg after checking its format. -/
  | tableLoad (c : Fin 9)
  /-- GAIN_SET (R87): Schedules a commanded coherent gain change and new automatic-gain limits at the playout index of the effective trace. -/
  | gainSet (c : Fin 9)
  /-- FRONT_SET (R126): Schedules changes of receive window, combining half-width, fading threshold settings and tau for one leg. -/
  | frontSet (c : Fin 9)
  /-- CHAIN_SET (R183): Schedules a chain response change as a cross-faded swap, or as a synchronising reset when DECIM changes. -/
  | chainSet (c : Fin 9)
  /-- CHAIN_RESET (R187): Schedules a synchronising reset of the chains of the named legs at a frame boundary. -/
  | chainReset (c : Fin 9)
  /-- MAP_SET (R209): Schedules the band-map switch and band edges of one leg. -/
  | mapSet (c : Fin 9)
  /-- CELL_LOAD (R205): Checks a cell program image and stores it in the program store. -/
  | cellLoad (c : Fin 9)
  /-- POOL_SET (R201): Schedules a cell pool's membership, work, program and budget. -/
  | poolSet (c : Fin 9)
  /-- ZONE_SET (R233): Configures a zone context and its pages, and restarts it at the effective trace. -/
  | zoneSet (c : Fin 9)
  /-- ZONE_PARAM (R233): Replaces a zone's parameter page without restarting it, from the first evaluation at or after the effective trace. -/
  | zoneParam (c : Fin 9)
  /-- ZONE_ENABLE (R230): Enables or disables a range of zones after checking each zone's binding. -/
  | zoneEnable (c : Fin 9)
  /-- ZONE_READ (R368): Query command that returns a zone's status and its detectors' status. -/
  | zoneRead (c : Fin 9)
  /-- TRIG_SET (R259): Configures a trigger unit, computing the minimum HOLD where asked, after checking spans and pattern. -/
  | trigSet (c : Fin 9)
  /-- ARM (R256): Arms the named trigger units at the arming frame. -/
  | arm (c : Fin 9)
  /-- DISARM (R256): Returns the named trigger units to IDLE at the effective frame. -/
  | disarm (c : Fin 9)
  /-- FIRE (R255): Asserts a unit's host source at a frame, or in REST copies a record from the retained ring at once. -/
  | fire (c : Fin 9)
  /-- RECORD_LIST (R368): Query command that lists records whose headers are written, from a given SEQ. -/
  | recordList (c : Fin 9)
  /-- RECORD_DELETE (R368): Deletes the records in a SEQ range that are not still being copied. -/
  | recordDelete (c : Fin 9)
  /-- STREAM_SET (R300): Defines a stream's source, carrier, selection and buffers after checking its selection. -/
  | streamSet (c : Fin 9)
  /-- STREAM_START (R301): Starts a stream, emitting a START block and taking items from the effective trace. -/
  | streamStart (c : Fin 9)
  /-- STREAM_STOP (R313): Stops a stream at acceptance and ends it with an END block. -/
  | streamStop (c : Fin 9)
  /-- TEMP_SET (R162): Enables or reconfigures a leg's temperature channel and restarts it at a start trace. -/
  | tempSet (c : Fin 9)
  /-- TEMP_CAL (R163): Sets the calibration mode, constants and reference sections of a leg's temperature channel without restarting it. -/
  | tempCal (c : Fin 9)
  /-- CALIBRATE (R112): Starts a full calibration in REST as a long operation. -/
  | calibrate (c : Fin 9)
  /-- RETRIM_DEFER (R106): Sets or ends a retrim deferral and reports whether a retrim is due and its latest start. -/
  | retrimDefer (c : Fin 9)
  /-- TRIM_SET (R114): Writes the trim monitor configuration. -/
  | trimSet (c : Fin 9)
  /-- SURVEY_READ (R38): Query command that returns survey length, reflections, loss profile or Rayleigh baseline of a leg. -/
  | surveyRead (c : Fin 9)
  /-- TIME_CFG (R269): Sets the discipline source and the PTP port parameters. -/
  | timeCfg (c : Fin 9)
  /-- TIME_SET (R270): Steps device time to a given value while no plan runs. -/
  | timeSet (c : Fin 9)
  /-- TIU_MEASURE (R277): Runs one time-interval measurement and returns its results. -/
  | tiuMeasure (c : Fin 9)
  /-- TACH_CFG (R283): Configures a tach, re-enabling it and restarting its bound zones when an enabled tach changes. -/
  | tachCfg (c : Fin 9)
  /-- TACH_STATUS (R282): Query command that returns a tach's count, period, belt speed and status. -/
  | tachStatus (c : Fin 9)
  /-- TIME_READ (R273): Query command that returns device time, time status, steering and PTP offset. -/
  | timeRead (c : Fin 9)
  /-- FAULT_READ (R368): Query command that returns the state, severity, reactions and counts of fault sources. -/
  | faultRead (c : Fin 9)
  /-- FAULT_CLEAR (R390): Clears raised fault sources whose causes are gone, refusing those still present. -/
  | faultClear (c : Fin 9)
  /-- FAULT_CFG (R399): Sets a fault source's severity, reactions, k and W and journals the change. -/
  | faultCfg (c : Fin 9)
  /-- LOG_READ (R442): Query command that returns entries of the Larder fault history and event log. -/
  | logRead (c : Fin 9)
  /-- NET_SET (R321): Sets a network item: port, destination entry, allow list, control port or MAC address. -/
  | netSet (c : Fin 9)
  /-- MEM_MAP (R298): Sets the sizes of the record store and history rings in REST. -/
  | memMap (c : Fin 9)
  /-- REPLAY_START (R25): Puts a leg into replay from the effective trace. -/
  | replayStart (c : Fin 9)
  /-- REPLAY_STOP (R25): Ends replay on a leg. -/
  | replayStop (c : Fin 9)
  /-- FW_STAGE (R368): Writes a chunk of a firmware image into a flash slot, checking the image on its last chunk. -/
  | fwStage (c : Fin 9)
  /-- FW_ACTIVATE (R369): Checks and starts the staged firmware image, answering from the new image. -/
  | fwActivate (c : Fin 9)
  /-- BIST (R416): Starts a self-test run of SRAM slices within a budget as a long operation. -/
  | bist (c : Fin 9)
  /-- TRAIN (R296): Starts DRAM training in REST as a long operation. -/
  | train (c : Fin 9)
  /-- SHUTDOWN (R414): Starts the orderly shutdown that ends with POWER_OFF_OK. -/
  | shutdown (c : Fin 9)
  /-- SEC_CHALLENGE (R370): Returns a nonce for one secure unlock. -/
  | secChallenge (c : Fin 9)
  /-- SEC_UNLOCK (R370): Verifies a signature over nonce and serial and sets the secure unlock. -/
  | secUnlock (c : Fin 9)
  /-- SEC_REVOKE (R343): Revokes the secure unlock and empties MB4 and MB5. -/
  | secRevoke (c : Fin 9)
  /-- SEC_KEY (R370): Sets the public key for secure unlocks. -/
  | secKey (c : Fin 9)
  /-- BULK_TIMEOUT (R362): A bulk buffer not arrived within 1 s of acceptance refuses its command with BULK. -/
  | bulkTimeout (c : Fin 9)
  /-- STAMPED_CHANGE_APPLY (R17): An isle switches a shadowed configuration change in when the first word tagged with its effective trace arrives. -/
  | stampedChangeApply (k : Nat)
  /-- LAUNCH (R43): The scheduler starts playout of a slot's chirp at its staggered frame time, numbering the trace and driving gate and Raman burst. -/
  | launch (leg : Fin 2) (slot : Fin 8) (late gateOpen gateShort : Bool)
  /-- QUIET_INTERVAL_END (R61): After one old frame period of silence the new plan's first frame begins. -/
  | quietIntervalEnd
  /-- PROBE_START (R410): After TECs settle and pumps fade in, the probe starts at the next frame boundary. -/
  | probeStart
  /-- TEC_SETTLE_TIMEOUT (R410): The 45 s wait for TEC settling ends and the start proceeds with FLAGS[1] set. -/
  | tecSettleTimeout
  /-- REST_POWER_DOWN (R40): Once pumps have faded, the probe has stopped and copies and streams have completed, the front, Loft and Hearth domains are powered down. -/
  | restPowerDown
  /-- SURVEY_WINDOW_DONE (R37): A survey window's averaging of 2,048 traces completes and firmware moves to the next window, finishing the survey after the last. -/
  | surveyWindowDone (leg : Fin 2) (loss : List Nat) (ends : Bool) (length : Nat) (places strengths : List Nat)
  /-- STRAIT_WORD_ARRIVAL (R15): A word leaving a strait is placed by its trace tag and index at the receiver. -/
  | straitWordArrival (w : StraitWord)
  /-- GAIN_CHANGE (R86): A gain code change takes effect at sample index n_G, marking the settling samples. -/
  | gainChange (leg : Fin 2) (direct : Bool)
  /-- AUTO_GAIN_DECISION (R88): At the end of a 64-trace evaluation window Threshold steps the coherent gain down, up or holds. -/
  | autoGainDecision (leg : Fin 2)
  /-- TRACE_PROCESS (R138): The Hall compresses, combines and differences one trace, updates slot-row state and emits a stored row with quality and reasons. -/
  | traceProcess (leg : Fin 2)
  /-- RAMAN_CHANNEL_START (R162): At the start trace the accumulators are cleared and the code phase returns to A. -/
  | ramanChannelStart (leg : Fin 2)
  /-- RAMAN_SPAN_SNAPSHOT (R154): After a span's last frame of a phase, the Hall reads that phase's accumulators out across ST4. -/
  | ramanSpanSnapshot (leg : Fin 2)
  /-- CHAIN_TRACE (R173): The chain engine processes one merged sample for every location, emitting a decimated row at each output boundary. -/
  | chainTrace (leg : Fin 2)
  /-- SYNCHRONISING_RESET (R186): At a frame boundary the chain zeroes its state, abandons fades and applies the latest response in full. -/
  | synchronisingReset (leg : Fin 2)
  /-- REPLAY_BLOCK (R99): The Hall consumes the next replay block once it is in the buffer, stopping replay on a format error. -/
  | replayBlock (leg : Fin 2)
  /-- H2D_DESCRIPTOR_READ (R318): A host-to-device DMA channel reads a buffer whose OWN is set, marks it done and follows NEXT. -/
  | h2dDescriptorRead (ch : Fin 3) (d : H2dDescriptor)
  /-- CELLAR_PORT_WRITE (R292): A word reaches P0 or P5; if the buffer is full the row is discarded and marked overrun. -/
  | cellarPortWrite (p5 : Bool) (n : Nat)
  /-- CELLAR_GRANT (R291): The arbiter grants a 64 B burst by weighted round-robin or panic priority, entering or leaving panic by buffer level. -/
  | cellarGrant (p : Fin 6) (blocked : Bool) (drain : Nat)
  /-- CELLAR_READ (R288): A DRAM read is delivered, correcting single-symbol errors or handling an uncorrectable codeword by port. -/
  | cellarRead (p : Fin 6) (a : Nat) (k : ReadCheck)
  /-- CORRECTED_WRITEBACK (R288): A corrected codeword is written back within 1 µs unless a newer write is pending. -/
  | correctedWriteback
  /-- REFRESH_DUE (R295): A rank's tREFI expires and a refresh is issued, postponed in panic or forced. -/
  | refreshDue (rank : Fin 4)
  /-- PATROL_SCRUB (R289): The patrol scrubber reads the next codeword at lowest priority. -/
  | patrolScrub (k : ReadCheck)
  /-- BLOCK_DELIVERY (R198): The Cellar delivers a corner-turned block into a free Landing slot, or withholds it under the guard band. -/
  | blockDelivery (leg : Fin 2)
  /-- JOB_START (R202): The dispatcher starts a ready job in trace order on the lowest idle cell of its pool, loading its image and pages. -/
  | jobStart (kind : Fin 3) (item : Fin 8192) (k : ReadCheck)
  /-- LOFT_SCRUB (R194): The Loft scrubber reads a codeword in an unclaimed port cycle. -/
  | loftScrub (m : LoftMemory) (k : ReadCheck)
  /-- NOP (R218): Cell operation that does nothing. -/
  | nop (c : Fin 72)
  /-- ADD (R218): Lane add with rounding shift and saturation. -/
  | add (c : Fin 72)
  /-- SUB (R218): Lane subtract with rounding shift and saturation. -/
  | sub (c : Fin 72)
  /-- BFY (R218): Butterfly writing sum and difference to two registers. -/
  | bfy (c : Fin 72)
  /-- NEG (R218): Lane negate with saturation. -/
  | neg (c : Fin 72)
  /-- ABS (R218): Lane absolute value with saturation. -/
  | abs (c : Fin 72)
  /-- MIN (R218): Lane minimum. -/
  | min (c : Fin 72)
  /-- MAX (R218): Lane maximum. -/
  | max (c : Fin 72)
  /-- SHR (R218): Lane rounding right shift. -/
  | shr (c : Fin 72)
  /-- SHL (R218): Lane saturating left shift. -/
  | shl (c : Fin 72)
  /-- BCAST (R218): Broadcast the shared operand to every lane. -/
  | bcast (c : Fin 72)
  /-- TRN4 (R218): Transpose a 4 × 4 block of lanes. -/
  | trn4 (c : Fin 72)
  /-- MAC (R218): Multiply lanes by the shared operand and accumulate. -/
  | mac (c : Fin 72)
  /-- MACSQ (R218): Accumulate the square of each lane. -/
  | macsq (c : Fin 72)
  /-- MOVAD (R218): Move an accumulator to a D register with rounding and saturation. -/
  | movad (c : Fin 72)
  /-- MOVDA (R218): Move a shifted D register into an accumulator. -/
  | movda (c : Fin 72)
  /-- CMAC (R218): Complex multiply-accumulate in a complex cell. -/
  | cmac (c : Fin 72)
  /-- CMAGSQ (R218): Complex squared magnitude accumulate. -/
  | cmagsq (c : Fin 72)
  /-- CROT (R218): Rotate complex pairs by a power of j. -/
  | crot (c : Fin 72)
  /-- LD (R220): Load four half-words through a generator into a D register. -/
  | ld (c : Fin 72) (k : ReadCheck)
  /-- ST (R220): Store four lanes through a generator, optionally tracking PEAK. -/
  | st (c : Fin 72)
  /-- LDS (R220): Load a scalar half-word or word. -/
  | lds (c : Fin 72)
  /-- STS (R220): Store a scalar half-word or word. -/
  | sts (c : Fin 72)
  /-- LDL (R221): Load a Landing codeword into data memory, trapping outside the job's windows. -/
  | ldl (c : Fin 72) (k : ReadCheck)
  /-- STL (R221): Store data memory to a Landing codeword. -/
  | stl (c : Fin 72)
  /-- SCALE (R223): Apply the block exponent shift to a block and clear PEAK. -/
  | scale (c : Fin 72)
  /-- GSET (R220): Set a field of an address generator. -/
  | gset (c : Fin 72)
  /-- SLI (R220): Load an immediate into a scalar. -/
  | sli (c : Fin 72)
  /-- SALU (R220): Scalar ALU operation on two scalars. -/
  | salu (c : Fin 72)
  /-- SALUI (R220): Scalar ALU operation with an immediate. -/
  | salui (c : Fin 72)
  /-- SDIV (R224): One step of unsigned division. -/
  | sdiv (c : Fin 72)
  /-- SRED (R220): Read one lane or the lane sum into a scalar. -/
  | sred (c : Fin 72)
  /-- SGET (R220): Read a special value into a scalar. -/
  | sget (c : Fin 72)
  /-- SPUT (R220): Write BEXP from a scalar. -/
  | sput (c : Fin 72)
  /-- LOOP (R225): Start a zero-overhead loop on a counter. -/
  | loop (c : Fin 72)
  /-- BR (R226): Conditional branch on a scalar. -/
  | br (c : Fin 72)
  /-- BXADD (R220): Add an immediate to BEXP with clamping. -/
  | bxadd (c : Fin 72)
  /-- HALT (R227): Copy the state page to the Landing and end the job as completed. -/
  | halt (c : Fin 72)
  /-- ZONE_RESTART (R240): At a stated frame boundary a zone clears its state and bits and reports CLEARED if any bit was set. -/
  | zoneRestart (z : Fin 256)
  /-- VERSION_COMMIT (R239): Once every zone has delivered and every trigger queue has room, the vector unit commits the version of a frame. -/
  | versionCommit
  /-- TRIGGER_VERSION (R256): A trigger unit takes the next committed version, makes its state change and evaluates its sources. -/
  | triggerVersion (u : Fin 16)
  /-- VERDICT_TIMEOUT (R260): A ring verdict not arrived 10 ms after its frame is taken as 0 and reported. -/
  | verdictTimeout
  /-- COPY_ROW (R262): The copier copies or reduces the next row of a record once it is copyable, writing the header after the last. -/
  | copyRow
  /-- STREAM_ITEM_READ (R301): The stream reader takes the next readable item, cuts and compresses blocks and writes them to buffers or staging. -/
  | streamItemRead (n : Fin 8) (mem : List D2hDescriptor)
  /-- STREAM_FLUSH_TIMEOUT (R311): A buffer that has held a block for FLUSH_MS is closed. -/
  | streamFlushTimeout (n : Fin 8) (mem : List D2hDescriptor)
  /-- UDP_BLOCK_SEND (R312): A staged block is sent in order as datagrams to its destination. -/
  | udpBlockSend (n : Fin 8)
  /-- CALIBRATION_GAP_START (R103): A due retrim starts its gap at the first allowed frame boundary and switches lanes to the reference tone. -/
  | calibrationGapStart
  /-- CALIBRATION_GAP_END (R103): The 1.2 ms gap ends with references latched and counts incremented. -/
  | calibrationGapEnd (moves : List (List (Fin 3) × List (Fin 3)))
  /-- TRIM_REQ (R104): A write of TRIM_CTRL.REQ makes a retrim due. -/
  | trimReq (w : Word)
  /-- TRIM_DEFER_TICK (R106): Each second the deferral counts down, releasing a held retrim at zero or at 600 s past due. -/
  | trimDeferTick
  /-- HK_ENTRY_CONVERSION (R94): The sequencer completes one entry's conversions and open-wire check and writes its result. -/
  | hkEntryConversion (codes : List (Fin 4096)) (check : Fin 4096)
  /-- ADC_SELF_CALIBRATION_DONE (R92): Converter self-calibration completes and housekeeping self-calibration follows. -/
  | adcSelfCalibrationDone (factors : List (List Word)) (fails : List (Fin 12))
  /-- HK_SELF_CALIBRATION_DONE (R92): Housekeeping self-calibration completes. -/
  | hkSelfCalibrationDone
  /-- CALIBRATE_DONE (R112): Full calibration completes its steps and journals CAL_BASE. -/
  | calibrateDone (taps : List (Fin 256))
  /-- GAIN_REQ_ARM (R100): A GAIN_REQn write with ARM set arms a gain request for GAIN_ATn. -/
  | gainReqArm (leg : Fin 2) (w : Word)
  /-- HD_LOOP_UPDATE (R65): Every 1 µs each HD or HS channel updates OUT along its fade and samples open and short conditions. -/
  | hdLoopUpdate (m : List Sensed)
  /-- HD_SETPOINT_WRITE (R69): A SETPOINT write starts a new fade from the present OUT. -/
  | hdSetpointWrite (ch : Fin 12) (setpoint : BitVec 16)
  /-- SETPOINT_STEP (R68): A SET write with STEP sets OUT to the setpoint at once. -/
  | setpointStep (ch : Fin 12) (setpoint : BitVec 16)
  /-- CHANNEL_ENABLE (R69): Setting a channel's ENABLE starts a fade from 0; clearing it cuts OUT at once. -/
  | channelEnable (ch : Fin 14) (w : Word)
  /-- TEC_LOOP_UPDATE (R73): Every 1 ms a TEC controller updates its integrator and duty from the latest housekeeping result. -/
  | tecLoopUpdate (t : Fin 2)
  /-- TEC_LIMIT (R74): Duty held at DUTY_MAX for 60 s raises TEC_LIMIT. -/
  | tecLimit (t : Fin 2)
  /-- CHAIN_GO (R77): A GO starts a chain-port transfer or is held pending. -/
  | chainGo
  /-- CHAIN_TRANSFER_DONE (R76): A chain transfer completes, verifies and latches or flags a mismatch, then starts any pending GO. -/
  | chainTransferDone (din : List Word)
  /-- ILOCK_FALL (R78): A taken low on ILOCK_N cuts the gates and killable channels within 10 µs and latches ILOCK. -/
  | ilockFall
  /-- TACH_EDGE (R278): A tach level change that holds for FILT + 1 samples is stamped and counted. -/
  | tachEdge (k : Fin 8) (level : Bool) (held stamp : Nat) (both : Bool)
  /-- TACH_STALL (R280): No counted edge for STALL_MS sets STOPPED. -/
  | tachStall (k : Fin 8)
  /-- TACH_ENABLE (R283): Setting a tach's ENABLE clears its count and edge history. -/
  | tachEnable (k : Fin 8) (w : Word)
  /-- PPS_EDGE (R271): An accepted PPS_IN edge is timestamped for discipline, or rejected and counted. -/
  | ppsEdge (stamp : Nat)
  /-- PPS_MISSING (R271): No accepted PPS edge for 1.1 s declares PPS_IN missing. -/
  | ppsMissing
  /-- REF_10M_LOSS (R271): No REF_10M edge for 300 ns declares the reference missing. -/
  | ref10mLoss
  /-- REF_10M_RETURN (R271): Continuous edges for 100 ms within 20 ppm declare the reference present and end holdover. -/
  | ref10mReturn (ppb : Int)
  /-- HOLDOVER_LIMIT (R272): Holdover seconds exceeding HOLD_MAX raise TIME_HOLDOVER_LIMIT. -/
  | holdoverLimit
  /-- PTP_EVENT_MESSAGE (R275): A received PTP event message is timestamped and used by the PTP port. -/
  | ptpEventMessage (m : PtpMessage)
  /-- PTP_TIMEOUT (R271): Missing Sync for 4 intervals or an announce timeout declares PTP missing. -/
  | ptpTimeout
  /-- DISCIPLINE_UPDATE (R269): The firmware loop writes a limited frequency correction to TB_STEER. -/
  | disciplineUpdate (freq err : Int) (elapsedMs : Nat) (locked : Bool)
  /-- TIME_STEP (R270): TB_CTRL.STEP loads TB_SET into device time, refused while a plan runs. -/
  | timeStep
  /-- PPS_OUT_PULSE (R268): PPS_OUT rises at each whole second of device time for 100 ms. -/
  | ppsOutPulse
  /-- TIU_GO (R277): GO starts a TIU measurement with interpolator calibration and arming. -/
  | tiuGo (one two : List Int)
  /-- TIU_START_EVENT (R277): The start event latches its coarse count, code and time. -/
  | tiuStartEvent (count : Nat) (code : Int) (time : Nat)
  /-- TIU_STOP_EVENT (R277): A stop's qualifying event latches its result. -/
  | tiuStopEvent (j : Fin 8) (count : Nat) (code : Int)
  /-- TIU_RANGE_END (R277): The range expires and results are written with DONE. -/
  | tiuRangeEnd
  /-- TIU_NO_START (R277): No start within 1 s ends the measurement with NO_START. -/
  | tiuNoStart
  /-- MB_IN_WRITE (R346): A write to MBc_IN pushes a word, completing the message and ringing the doorbell when full. -/
  | mbInWrite (p : Path) (c : Fin 8) (first : Fin 16) (ws : List Word) (whole : Bool)
  /-- MB_OUT_READ (R347): A read of MBc_OUT removes the next outbound word, clearing OUT_FULL after the last. -/
  | mbOutRead (p : Path) (c : Fin 8) (first n : Fin 17) (whole : Bool)
  /-- MB_IN_DISCARD (R346): IN_DISCARD empties a partly written inbound queue. -/
  | mbInDiscard (p : Path) (c : Fin 8)
  /-- FIRMWARE_TAKE_INBOUND (R348): Firmware takes one inbound message per channel per visit into its pending store. -/
  | firmwareTakeInbound
  /-- FIRMWARE_OUTBOUND_COMPLETE (R347): Firmware completes the next response, event or alarm in an emptied outbound queue and rings the doorbell. -/
  | firmwareOutboundComplete
  /-- MB_STALL_TIMEOUT (R349): Both queues full for MBX_STALL.MS set STALL and ring the stall doorbells. -/
  | mbStallTimeout (c : Fin 8)
  /-- MB_SLEEP (R344): In REST with every queue empty firmware puts the mailbox block to sleep. -/
  | mbSleep
  /-- MAILBOX_WAKE (R344): A write of 1 to DB_H2D wakes the mailbox block within 1 ms. -/
  | mailboxWake (w : Word)
  /-- LONG_OPERATION_ABORT (R366): DB_H2D bit 8 aborts a running CALIBRATE, BIST, TRAIN or FW_STAGE at its next boundary. -/
  | longOperationAbort
  /-- STREAM_BUFFERS_ADDED (R311): A DB_H2D stream bit makes the device re-read NEXT and resume the stream. -/
  | streamBuffersAdded (n : Fin 8) (mem : List D2hDescriptor)
  /-- H2D_CHAIN_EXTENDED (R318): A DB_H2D DMA bit resumes a waiting host-to-device chain. -/
  | h2dChainExtended (ch : Fin 3)
  /-- DB_D2H_CLEAR (R351): The host clears DB_D2H bits by writing 1. -/
  | dbD2hClear (w : Word)
  /-- DB_D2H_MASK_WRITE (R351): Writing the mask sends one MSI-X for each unmasked set bit. -/
  | dbD2hMaskWrite (w : Word)
  /-- HINT_ENABLE_SET (R384): Setting HINT_CFG.ENABLE sends one message per set unmasked bit. -/
  | hintEnableSet (p : Path) (w : Word)
  /-- MSIX_HOLDOFF_END (R384): At the end of a holdoff one message follows for a still set unmasked bit. -/
  | msixHoldoffEnd (v : Fin 32)
  /-- LOCK_READ (R355): A read of a free lock acquires it; of an owned lock returns the owner. -/
  | lockRead (k : Fin 32) (reads : List LockAccess) (writes : List (LockAccess × Word))
  /-- LOCK_WRITE (R355): A write by the owner with its number releases the lock; any other is ignored and flagged. -/
  | lockWrite (k : Fin 32) (a : LockAccess) (w : Word)
  /-- ALIAS_WRITE (R379): A bit-alias write acts on its one control-page bit by the bit's type. -/
  | aliasWrite (ws : List AliasAccess)
  /-- WIDE_SEL_WRITE (R380): Writing WIDE_SEL starts a wide-value snapshot, abandoning one in progress. -/
  | wideSelWrite (p : Path) (index : Fin 256)
  /-- WIDE_CAPTURE_DONE (R380): The snapshot is captured into WIDE_DATA and VALID is set. -/
  | wideCaptureDone (p : Path)
  /-- WIDE_DATA3_READ (R380): Reading WIDE_DATA3 clears VALID. -/
  | wideData3Read (p : Path)
  /-- VEC_FRAME_LO_READ (R251): Reading VEC_FRAME_LO latches the detector vector words and frame from one version. -/
  | vecFrameLoRead
  /-- TRIG_FIRE_LO_READ (R266): Reading TRIGu_FIRE_LO latches TRIGu_FIRE_HI. -/
  | trigFireLoRead (u : Fin 16)
  /-- STR_HEAD_LO_READ (R314): Reading STRs_HEAD_LO latches STRs_HEAD_HI. -/
  | strHeadLoRead (n : Fin 8)
  /-- REGISTER_WRITE (R6): A write to a register without a row of its own acts by field type, ignoring and capturing gated RWE changes. -/
  | registerWrite (b : RegBlock) (off : Fin 65536) (p : Path) (be : Fin 16) (w : Word)
  /-- SPI_TRANSACTION (R326): A management SPI transaction framed by CS_N reads or writes host-map words and returns status. -/
  | spiTransaction (bytes : List Byte) (cut : Bool)
  /-- DBG_UPDATE_DR (R342): An Update-DR with GO starts one host-map access from the debug port. -/
  | dbgUpdateDr (reg : BitVec 52)
  /-- DEBUG_DISCONNECT (R357): TRST_N or Test-Logic-Reset disconnects the debug port and frees its locks. -/
  | debugDisconnect
  /-- PERST_N_ASSERT (R319): PERST_N stops DMA, empties host queues, frees host locks and revokes the unlock. -/
  | perstNAssert
  /-- FLR (R319): A function-level reset acts as R319 states. -/
  | flr
  /-- D3HOT_ENTRY (R319): Entry to D3hot stops DMA and mailboxes as FLR does. -/
  | d3hotEntry
  /-- ETH_FRAME_RECEIVED (R320): A received Ethernet frame is handled by its protocol or discarded and counted. -/
  | ethFrameReceived (f : EthFrame)
  /-- ADDRESS_PROBE (R321): Once per second an unresolved destination is probed by ARP or NDP. -/
  | addressProbe
  /-- I2C_MODULE_POLL (R328): Each second the SFP modules are read, retrying and freeing a stuck bus. -/
  | i2cModulePoll (b : Fin 3) (pages : Option (List Byte × List Byte)) (stuck : Bool)
  /-- CW_HELLO_SEND (R332): Every 1 ms a device sends HELLO on both ports. -/
  | cwHelloSend
  /-- CW_HELLO (R332): A received HELLO updates membership and is flooded onward. -/
  | cwHello (h : CwHeader) (serial : Fin (2 ^ 64)) (strap : Bool) (sending : Fin 2) (seen : Fin 256) (locked : Bool)
  /-- MEMBERSHIP_STABLE (R333): Membership unchanged for 100 ms becomes stable and the master is elected. -/
  | membershipStable
  /-- HOP_MEASUREMENT (R334): A device measures each port's hop delay over 64 exchanges and takes the median. -/
  | hopMeasurement (p : Fin 2)
  /-- CW_DELAY_REQ (R334): A received delay request is answered with the turnaround. -/
  | cwDelayReq (h : CwHeader) (rb : BitVec 32)
  /-- CW_DELAY_RESP (R334): A received delay response completes one hop-delay exchange. -/
  | cwDelayResp (h : CwHeader) (ra : Nat) (rb : BitVec 32)
  /-- CW_TIME_SEND (R335): Every 1 ms the master sends TIME on both ports. -/
  | cwTimeSend
  /-- CW_TIME (R335): A non-master takes TIME from its neighbour, updates its phase error and resends it. -/
  | cwTime (h : CwHeader) (time : Fin (2 ^ 64)) (hops : Fin 256) (own : Fin (2 ^ 72))
  /-- CW_EPOCH (R42): A received EPOCH gives the ring's frame grid. -/
  | cwEpoch (h : CwHeader) (e : Fin (2 ^ 64)) (tF : BitVec 32)
  /-- CW_ARM (R260): A received ARM token arms the ring units of its group at the named frame. -/
  | cwArm (h : CwHeader) (group : Fin 4) (time : Fin (2 ^ 64))
  /-- CW_VERDICT (R260): A received verdict word is held for the ring units' decision on its frame. -/
  | cwVerdict (h : CwHeader) (time : Fin (2 ^ 64)) (groups : Fin 16)
  /-- CW_RESET (R188): A reset token schedules a synchronising reset at the first frame boundary at or after its time. -/
  | cwReset (h : CwHeader) (time : Fin (2 ^ 64))
  /-- CW_MEMBER (R338): A MEMBER frame sets the set of members whose verdicts are awaited from its frame. -/
  | cwMember (h : CwHeader) (mask : Fin 256) (time : Fin (2 ^ 64))
  /-- CW_PORT_DOWN (R337): Loss of lock, commas or HELLO marks a port down and the ring becomes a line. -/
  | cwPortDown (p : Fin 2) (hello : Bool)
  /-- RING_SPLIT (R338): Members unreachable for 1 s split the line and each segment master sends MEMBER. -/
  | ringSplit
  /-- CW_LINK_RETURN (R339): A returning link is measured and the rejoined set is announced by MEMBER. -/
  | cwLinkReturn (p : Fin 2)
  /-- FAULT_OCCURRENCE (R389): A source's report is counted and, if k within W, raises it and applies its reactions. -/
  | faultOccurrence (rs : List FaultReport)
  /-- JOURNALLED_PLAN_RESTART (R394): After a chip reset firmware restarts the journalled plan at a frame boundary at least 8 frames after ready. -/
  | journalledPlanRestart
  /-- COLLECTOR_CFG_CHECK (R398): Every 1 ms the two configuration copies are checked, a mismatch raising COLLECTOR_CFG. -/
  | collectorCfgCheck (bad : Bool)
  /-- WATCHDOG (R388): The always-on watchdog unserved for 100 ms reports an occurrence. -/
  | watchdog
  /-- RAIL_DIE_SAMPLE (R388): Every 1 ms the rail and die comparators are sampled for their sources. -/
  | railDieSample (low high hot crit drive : Option (Fin 256))
  /-- RAILS_GOOD (R403): Every rail reaching 94 % with RESET_N high starts the 2 ms to power-on reset release. -/
  | railsGood
  /-- RESET_N_LOW (R403): A RESET_N low of 1 µs or more resets the whole device as at power-on. -/
  | resetNLow
  /-- POR_RELEASE (R405): Power-on reset is released; the boot ROM mounts the Larder, applies repairs, loads the collector configuration and reads the first stage. -/
  | porRelease (masterSel : Bool)
  /-- BOOT_IMAGE_LOADED (R408): The first stage has been read and the boot ROM checks it, falling back or holding, then starts firmware. -/
  | bootImageLoaded (memDesc : Word)
  /-- FW_READY (R405): Self-calibration and DRAM start complete and firmware releases the mailbox block in the start state. -/
  | fwReady (ok : Bool)
  /-- TRAINING_DONE (R297): Full or stored DRAM training completes, journalling the result or raising DRAM_TRAIN. -/
  | trainingDone (phy : Vector Phy 4) (fail : Option (Fin 2 × Fin 2 × Fin 72))
  /-- TRN_GO (R299): TRN_CTRL.GO runs the pattern and compare helpers on a rank. -/
  | trnGo
  /-- BIST_SLICE_DONE (R416): A BIST slice completes, allocates spares and advances the cursor, ending the run when the budget is spent. -/
  | bistSliceDone (fails : List FailingBit)
  /-- SHUTDOWN_DRAIN_DONE (R414): Every stream has delivered its END block, or 5 s have passed, and the Larder is committed. -/
  | shutdownDrainDone
  /-- ILOCK_N_RISE (R79): ILOCK_N returns high, which updates HEARTH_STAT.ILOCK_LEVEL and ends the ILOCK cause, while the cut outputs stay off. -/
  | ilockNRise
  /-- SAMPLE_PLL_LOCK_CHANGE (R388): The sample PLL on the analogue die loses or regains lock, which starts or ends the SAMPLE_PLL cause. -/
  | samplePllLockChange (locked : Bool)
  /-- TPLL_LOCK_CHANGE (R268): TPLL loses or regains lock on TCXO_IN, which starts or ends the TCXO_LOSS cause. -/
  | tpllLockChange (locked : Bool)
  /-- ETH_LINK_CHANGE (R320): An Ethernet port's PCS gains or loses lock, which sets or clears ETHp_STAT.LINK and the ETH_LINK cause. -/
  | ethLinkChange (p : Fin 2) (link at25 : Bool)
  /-- PCIE_LINK_CHANGE (R315): The PCIe link trains up or goes down, or an uncorrectable AER error occurs, which reports PCIE_LINK. -/
  | pcieLinkChange (up aer : Bool)
  /-- PERST_N_RELEASE (R316): PERST_N is released and configuration space becomes ready within 100 ms. -/
  | perstNRelease
  /-- RAIL_REMOVAL (R404): The board removes the rails, after POWER_OFF_OK or abruptly, and the device stops until the next rails good. -/
  | railRemoval (torn : Bool)
  /-- TRN_COMPARE_DONE (R299): The training helpers finish the write and compare, set TRN_STAT.DONE, clear BUSY and GO, and latch TRN_FAIL and TRN_ERRORS. -/
  | trnCompareDone (fail0 fail1 : Word) (fail2 : Byte) (errors : Word)
  /-- HS_PWM_ON_WINDOW (R71): In PWM mode an HS sink's on-window opens, and the channel is sampled 15 ns after the on edge for open and short. -/
  | hsPwmOnWindow (n : Fin 4) (m : Sensed)
  /-- FLASH_WRITE_DONE (R329): A QSPI page program or erase issued for FW_STAGE completes, and staging continues or the long operation ends with its response. -/
  | flashWriteDone
  deriving DecidableEq, Repr

end Sys2Proof
end

