-- ==== Sys2Proof/Config.lean ====
section
/-! DEFINITION. What the manual leaves open: free values, and frozen ROM contents that it does not print. None has a body, so no
proof can rest on a value of one (DESIGN CHOICE, log entries 1, 8, 9). -/

namespace Sys2Proof.Config

/-- The n-th free value drawn (DESIGN CHOICE, log entry 1). -/
opaque freeValue : Nat → BitVec 64

/-- A value that the manual leaves open and that is a function of the inputs (R20): the place that leaves it open, and what it depends on (DESIGN CHOICE,
log entry 1). -/
opaque openValue : Nat → List Nat → BitVec 64

/-- The window ROM: window index 0 to 5, entry 0 to 4,095, a Q1.15 value (R49; contents not printed, DESIGN CHOICE, log entry 8). -/
opaque windowRom : Nat → Nat → BitVec 16

/-- Whether a 64-byte signature is a valid Ed25519 signature of a message under a key (R370, R408; DESIGN CHOICE, log entry 9). -/
opaque ed25519 : List (BitVec 32) → List (BitVec 8) → List (BitVec 8) → Bool

/-- Morvafen's public key, whose digest the fuses hold (R408; DESIGN CHOICE, log entry 9). -/
opaque vendorKey : List (BitVec 32)

/-- Whether a quadrature pair counts up when input A leads B: R278 fixes no sign (DESIGN CHOICE, log entry 11). -/
opaque quadUpWhenALeads : Bool

/-- The receive window ROM: RX_WIN 0 to 3, entry 0 to 4,095, a Q1.15 value (R118; contents not printed, DESIGN CHOICE, log entry 8). -/
opaque receiveRom : Nat → Nat → BitVec 16

/-- The generator that a GSET word with these slot B bits names: format G of Table 12.3 has no field for it (DESIGN CHOICE, log entry 24). -/
opaque gsetGenerator : Nat → Nat

/-- The fixed PHY and MAC latency of an Ethernet port in units of 0.25 ns: at 25G, with RS-FEC on, on transmission (R275 gives no figure; DESIGN CHOICE,
log entry 101). -/
opaque ptpLatency : Bool → Bool → Bool → Nat

end Sys2Proof.Config
end

