-- ==== Sys2Proof/Machine/Bits.lean ====
section
/-! DEFINITION. Bit fields of words, the register write of R6 and R375 to R377, signed views, little-endian bytes (R3, R4)
and fixed-size vectors read and written at a natural number. -/

namespace Sys2Proof.Machine

/-- A register field: its lowest bit and its width. -/
structure Fld where
  lo : Nat
  len : Nat
  deriving DecidableEq, Repr

/-- The value a field of a word holds. -/
def fget (w : Word) (f : Fld) : Nat := w.toNat / 2 ^ f.lo % 2 ^ f.len

/-- The word with a field set to a value modulo the field's range. -/
def fset (w : Word) (f : Fld) (v : Nat) : Word :=
  BitVec.ofNat 32 (w.toNat - fget w f * 2 ^ f.lo + (v % 2 ^ f.len) * 2 ^ f.lo)

/-- A one-bit field as a Bool. -/
def fbit (w : Word) (f : Fld) : Bool := fget w f != 0

/-- A one-bit field set from a Bool. -/
def fsetB (w : Word) (f : Fld) (b : Bool) : Word := fset w f b.toNat

/-- A counting field stepped by one, wrapping at its width. -/
def finc (w : Word) (f : Fld) : Word := fset w f (fget w f + 1)

/-- A counting field stepped by `n`, wrapping at its width. -/
def faddW (w : Word) (f : Fld) (n : Nat) : Word := fset w f (fget w f + n)

/-- A counting field stepped by one, held at its largest value. -/
def fincSat (w : Word) (f : Fld) : Word := fset w f (min (fget w f + 1) (2 ^ f.len - 1))

/-- The bits of a word that each field type of R6 covers; a bit in none of them is RO, WO or ZERO. -/
structure RegKind where
  rw : Word := 0
  rwe : Word := 0
  w1c : Word := 0
  w1s : Word := 0
  keep : Word := 0
  deriving DecidableEq, Repr

/-- What a register write leaves: the new word, whether an RWE field was ignored (R375), whether a KEEP field was
altered (R377). -/
structure RegWritten where
  word : Word
  ignored : Bool
  keepAltered : Bool
  deriving DecidableEq, Repr

/-- A write of `w` to the bits of `sel` of a register that holds `old`, with its block's ENABLE at `gate` before the
write (R6, R375, R377). A word write selects all bits; an alias write selects one (R379). -/
def regWriteSel (k : RegKind) (gate : Bool) (sel old w : Word) : RegWritten :=
  let rwe := if gate then 0 else k.rwe
  let take := (k.rw ||| rwe ||| k.keep) &&& sel
  let plain := (old &&& ~~~take) ||| (w &&& take)
  { word := (plain &&& ~~~(w &&& k.w1c &&& sel)) ||| (w &&& k.w1s &&& sel)
    ignored := gate && ((w &&& k.rwe &&& sel) != (old &&& k.rwe &&& sel))
    keepAltered := (w &&& k.keep &&& sel) != (old &&& k.keep &&& sel) }

/-- A whole-word register write. -/
def regWrite (k : RegKind) (gate : Bool) (old w : Word) : RegWritten := regWriteSel k gate 0xFFFFFFFF old w

/-- Bit `i` of a natural number. -/
def nbit (v i : Nat) : Bool := v / 2 ^ i % 2 == 1

/-- Bits [lo + len - 1 : lo] of a natural number. -/
def nbits (v lo len : Nat) : Nat := v / 2 ^ lo % 2 ^ len

/-- The low `n` bits of `v` as a two's-complement number. -/
def sx (n v : Nat) : Int :=
  let r := v % 2 ^ n
  if 2 ^ (n - 1) ≤ r then (r : Int) - (2 ^ n : Nat) else (r : Int)

/-- A signed number as its low `n` bits. -/
def wrapTo (n : Nat) (z : Int) : Nat := (z % ((2 ^ n : Nat) : Int)).toNat

/-- A signed number wrapped to `n` bits, read signed. -/
def wrapS (n : Nat) (z : Int) : Int := sx n (wrapTo n z)

/-- A signed number saturated to `n` bits. -/
def satS (n : Nat) (z : Int) : Int :=
  max (-((2 ^ (n - 1) : Nat) : Int)) (min ((2 ^ (n - 1) - 1 : Nat) : Int) z)

/-- Division by 2^k rounded half upwards (towards plus infinity). -/
def rshRound (k : Nat) (z : Int) : Int :=
  if k = 0 then z else (z + ((2 ^ (k - 1) : Nat) : Int)) / ((2 ^ k : Nat) : Int)

/-- Division by 2^k rounded towards minus infinity. -/
def rshFloor (k : Nat) (z : Int) : Int := z / ((2 ^ k : Nat) : Int)

/-- p / q (q > 0) rounded half away from zero. -/
def divHalfAway (p : Int) (q : Nat) : Int :=
  if q = 0 then 0
  else if 0 ≤ p then (2 * p + q) / (2 * q) else -((2 * (-p) + q) / (2 * q))

/-- p / q (q > 0) rounded to nearest, half to even. -/
def divHalfEven (p : Int) (q : Nat) : Int :=
  if q = 0 then 0
  else
    let f := p / (q : Int)
    let r := p % (q : Int)
    if 2 * r < q then f else if (q : Int) < 2 * r then f + 1 else if f % 2 = 0 then f else f + 1

/-- ceil(p / q). -/
def cdiv (p q : Nat) : Nat := if q = 0 then 0 else (p + q - 1) / q

/-- Floor of the square root, by bisection on `fuel` bits. -/
def isqrtAux (n : Nat) : Nat → Nat → Nat
  | 0, acc => acc
  | k + 1, acc =>
    let t := acc + 2 ^ k
    isqrtAux n k (if t * t ≤ n then t else acc)

/-- Floor of the square root. -/
def isqrt (n : Nat) : Nat := isqrtAux n (n.log2 / 2 + 1) 0

/-- `n` little-endian bytes of a number (R4). -/
def leBytes : Nat → Nat → List Byte
  | 0, _ => []
  | n + 1, v => BitVec.ofNat 8 v :: leBytes n (v / 256)

/-- The number that little-endian bytes spell (R4). -/
def ofLeBytes : List Byte → Nat
  | [] => 0
  | b :: bs => b.toNat + 256 * ofLeBytes bs

/-- `n` big-endian bytes of a number (network headers, R4). -/
def beBytes (n v : Nat) : List Byte := (leBytes n v).reverse

/-- The number that big-endian bytes spell. -/
def ofBeBytes (bs : List Byte) : Nat := ofLeBytes bs.reverse

/-- Bytes [at, at + n) of a byte list, 0 where the list has ended. -/
def bytesAt (bs : List Byte) (at_ n : Nat) : List Byte :=
  (List.range n).map (fun i => (bs[at_ + i]?).getD 0)

/-- The little-endian number at a place of a byte list. -/
def leAt (bs : List Byte) (at_ n : Nat) : Nat := ofLeBytes (bytesAt bs at_ n)

/-- Bytes cut into little-endian 32-bit words, the last one padded with zeros. -/
def wordsOfBytes (bs : List Byte) : List Word :=
  (List.range (cdiv bs.length 4)).map (fun i => BitVec.ofNat 32 (leAt bs (4 * i) 4))

/-- Words as little-endian bytes. -/
def bytesOfWords (ws : List Word) : List Byte := ws.flatMap (fun w => leBytes 4 w.toNat)

/-- Word `i` of a list of words, 0 beyond its end (R373: a missing word is taken as 0). -/
def wat (ws : List Word) (i : Nat) : Word := (ws[i]?).getD 0

/-- The 64-bit value in two words at `i`, low word first (R362). -/
def wat64 (ws : List Word) (i : Nat) : Nat := (wat ws i).toNat + 2 ^ 32 * (wat ws (i + 1)).toNat

/-- A 32-bit word of a number. -/
def w32 (n : Nat) : Word := BitVec.ofNat 32 n

/-- A 64-bit value as two words, low word first (R442). -/
def w64 (n : Nat) : List Word := [w32 n, w32 (n / 2 ^ 32)]

/-- 64 ones, the value of an item that concerns nothing (R442). -/
def allOnes64 : Nat := 0xFFFFFFFFFFFFFFFF

/-- Element `i` of a vector, `d` beyond its end. -/
def vget {α : Type} {n : Nat} (v : Vector α n) (i : Nat) (d : α) : α := (v.toList[i]?).getD d

/-- The vector with element `i` replaced (unchanged beyond its end). -/
def vset {α : Type} {n : Nat} (v : Vector α n) (i : Nat) (x : α) : Vector α n := v.setIfInBounds i x

/-- The vector with `f` applied to element `i` (unchanged beyond its end). -/
def vmod {α : Type} {n : Nat} (v : Vector α n) (i : Nat) (f : α → α) : Vector α n :=
  match v.toList[i]? with
  | some x => v.setIfInBounds i (f x)
  | none => v

/-- Indices of the ones of a mask below `n`, ascending. -/
def onesOf (mask n : Nat) : List Nat := (List.range n).filter (fun i => nbit mask i)

end Sys2Proof.Machine
end

