-- ==== Sys2Proof/Machine/Fields.lean ====
section
/-! DEFINITION. Every register field of the register tables as a place in its word (lowest bit, width), and for every
register the masks of its field types (R6). One name per field, as the manual spells it; the register index letters (n, s, k ...) are left
out. An undefined Reset entry of a KEEP field is 0 in `rst` (DESIGN CHOICE, log entry 3). -/

namespace Sys2Proof.Machine.F

/-! LEG_W0: 03_probe_plan.md, Table 3.3 -/
def LEG_W0.LEG_ON : Fld := ⟨0, 1⟩
def LEG_W0.RAMAN_EN : Fld := ⟨1, 1⟩
def LEG_W0.RAMAN_LEN : Fld := ⟨2, 3⟩
def LEG_W0.GATE_LEAD : Fld := ⟨8, 8⟩
def LEG_W0.GATE_LAG : Fld := ⟨16, 8⟩
def LEG_W0.kind : RegKind := { rw := 0x00FFFF1F }
/-! LEG_W1: 03_probe_plan.md, Table 3.3 -/
def LEG_W1.HEAD_DELAY : Fld := ⟨0, 12⟩
def LEG_W1.RAMAN_DELAY : Fld := ⟨16, 10⟩
def LEG_W1.kind : RegKind := { rw := 0x03FF0FFF }
/-! LEG_W2: 03_probe_plan.md, Table 3.3 -/
def LEG_W2.L : Fld := ⟨0, 17⟩
def LEG_W2.GAUGE : Fld := ⟨17, 6⟩
def LEG_W2.kind : RegKind := { rw := 0x007FFFFF }
/-! LEG_W3: 03_probe_plan.md, Table 3.3 -/
def LEG_W3.RAMAN_OFFSET : Fld := ⟨0, 17⟩
def LEG_W3.kind : RegKind := { rw := 0x0001FFFF }
/-! SLOT_W0: 03_probe_plan.md, Table 3.4 -/
def SLOT_W0.ACTIVE : Fld := ⟨0, 1⟩
def SLOT_W0.SOURCE : Fld := ⟨1, 1⟩
def SLOT_W0.WINDOW : Fld := ⟨2, 3⟩
def SLOT_W0.kind : RegKind := { rw := 0x0000001F }
/-! SLOT_W1: 03_probe_plan.md, Table 3.4 -/
def SLOT_W1.FREQ_START_31_0 : Fld := ⟨0, 32⟩
def SLOT_W1.kind : RegKind := { rw := 0xFFFFFFFF }
/-! SLOT_W2: 03_probe_plan.md, Table 3.4 -/
def SLOT_W2.FREQ_START_47_32 : Fld := ⟨0, 16⟩
def SLOT_W2.PHASE_START : Fld := ⟨16, 16⟩
def SLOT_W2.kind : RegKind := { rw := 0xFFFFFFFF }
/-! SLOT_W3: 03_probe_plan.md, Table 3.4 -/
def SLOT_W3.RATE_31_0 : Fld := ⟨0, 32⟩
def SLOT_W3.kind : RegKind := { rw := 0xFFFFFFFF }
/-! SLOT_W4: 03_probe_plan.md, Table 3.4 -/
def SLOT_W4.RATE_47_32 : Fld := ⟨0, 16⟩
def SLOT_W4.kind : RegKind := { rw := 0x0000FFFF }
/-! SLOT_W5: 03_probe_plan.md, Table 3.4 -/
def SLOT_W5.DURATION : Fld := ⟨0, 14⟩
def SLOT_W5.kind : RegKind := { rw := 0x00003FFF }
/-! SLOT_W6: 03_probe_plan.md, Table 3.4 -/
def SLOT_W6.AMPLITUDE : Fld := ⟨0, 15⟩
def SLOT_W6.kind : RegKind := { rw := 0x00007FFF }
/-! SLOT_W7: 03_probe_plan.md, Table 3.4 -/
def SLOT_W7.TABLE_LEN : Fld := ⟨0, 14⟩
def SLOT_W7.kind : RegKind := { rw := 0x00003FFF }
/-! HD_CFG: 04_hearth_source_drive.md, Table 4.3 -/
def HD_CFG.ENABLE : Fld := ⟨0, 1⟩
def HD_CFG.KILL : Fld := ⟨1, 1⟩
def HD_CFG.DET_EN : Fld := ⟨2, 1⟩
def HD_CFG.SHAPE : Fld := ⟨3, 1⟩
def HD_CFG.PWM : Fld := ⟨4, 1⟩
def HD_CFG.SHORT_TH : Fld := ⟨8, 8⟩
def HD_CFG.FADE_MS : Fld := ⟨16, 16⟩
def HD_CFG.kind : RegKind := { rw := 0x00000001, rwe := 0xFFFFFF1E, keep := 0x000000E0 }
/-! HD_SET: 04_hearth_source_drive.md, Table 4.4 -/
def HD_SET.SETPOINT : Fld := ⟨0, 16⟩
def HD_SET.STEP : Fld := ⟨31, 1⟩
def HD_SET.kind : RegKind := { rw := 0x0000FFFF }
/-! HD_STAT: 04_hearth_source_drive.md, Table 4.4 -/
def HD_STAT.OUT : Fld := ⟨0, 16⟩
def HD_STAT.FADING : Fld := ⟨16, 1⟩
def HD_STAT.OPEN : Fld := ⟨17, 1⟩
def HD_STAT.SHORT : Fld := ⟨18, 1⟩
def HD_STAT.CUT : Fld := ⟨19, 1⟩
def HD_STAT.kind : RegKind := { w1c := 0x00060000 }
/-! TEC_CFG: 04_hearth_source_drive.md, Table 4.5 -/
def TEC_CFG.ENABLE : Fld := ⟨0, 1⟩
def TEC_CFG.HK_SEL : Fld := ⟨1, 5⟩
def TEC_CFG.SIGN : Fld := ⟨6, 1⟩
def TEC_CFG.DUTY_MAX : Fld := ⟨8, 12⟩
def TEC_CFG.kind : RegKind := { rw := 0x00000001, rwe := 0x000FFF7E, keep := 0x00000080 }
/-! TEC_TGT: 04_hearth_source_drive.md, Table 4.5 -/
def TEC_TGT.TARGET : Fld := ⟨0, 12⟩
def TEC_TGT.BAND : Fld := ⟨12, 8⟩
def TEC_TGT.kind : RegKind := { rw := 0x00000FFF, rwe := 0x000FF000 }
/-! TEC_STAT: 04_hearth_source_drive.md, Table 4.5 -/
def TEC_STAT.DUTY : Fld := ⟨0, 13⟩
def TEC_STAT.SETTLED : Fld := ⟨13, 1⟩
def TEC_STAT.SENSOR : Fld := ⟨14, 1⟩
def TEC_STAT.LIMIT : Fld := ⟨15, 1⟩
def TEC_STAT.kind : RegKind := { w1c := 0x0000C000 }
/-! HCHAIN_CFG: 04_hearth_source_drive.md, Table 4.6 -/
def HCHAIN_CFG.ENABLE : Fld := ⟨0, 1⟩
def HCHAIN_CFG.CHAIN_LEN : Fld := ⟨1, 4⟩
def HCHAIN_CFG.VERIFY : Fld := ⟨5, 1⟩
def HCHAIN_CFG.SAFE_EN : Fld := ⟨6, 1⟩
def HCHAIN_CFG.DIV : Fld := ⟨8, 10⟩
def HCHAIN_CFG.kind : RegKind := { rw := 0x00000001, rwe := 0x0003FF7E, keep := 0x00000080 }
/-! HCHAIN_STAT: 04_hearth_source_drive.md, Table 4.6 -/
def HCHAIN_STAT.BUSY : Fld := ⟨0, 1⟩
def HCHAIN_STAT.PENDING : Fld := ⟨1, 1⟩
def HCHAIN_STAT.MISMATCH : Fld := ⟨2, 1⟩
def HCHAIN_STAT.COALESCED : Fld := ⟨8, 8⟩
def HCHAIN_STAT.kind : RegKind := { w1c := 0x00000004 }
/-! HEARTH_STAT: 04_hearth_source_drive.md, Table 4.6 -/
def HEARTH_STAT.ILOCK_LEVEL : Fld := ⟨0, 1⟩
def HEARTH_STAT.ILOCK_LATCHED : Fld := ⟨1, 1⟩
def HEARTH_STAT.WRITE_IGNORED : Fld := ⟨2, 1⟩
def HEARTH_STAT.kind : RegKind := { w1c := 0x00000006 }
/-! LEG_CFG: 05_threshold_converters.md, Table 5.8 -/
def LEG_CFG.ENABLE : Fld := ⟨0, 1⟩
def LEG_CFG.AUTO : Fld := ⟨1, 1⟩
def LEG_CFG.GAIN_MIN : Fld := ⟨2, 3⟩
def LEG_CFG.GAIN_MAX : Fld := ⟨5, 3⟩
def LEG_CFG.kind : RegKind := { rw := 0x000000FF, keep := 0x0000FF00 }
/-! GAIN_REQ: 05_threshold_converters.md, Table 5.8 -/
def GAIN_REQ.COH_G : Fld := ⟨0, 3⟩
def GAIN_REQ.ST_G : Fld := ⟨3, 3⟩
def GAIN_REQ.AS_G : Fld := ⟨6, 3⟩
def GAIN_REQ.ARM : Fld := ⟨31, 1⟩
def GAIN_REQ.kind : RegKind := { rw := 0x000001FF }
/-! GAIN_STAT: 05_threshold_converters.md, Table 5.8 -/
def GAIN_STAT.COH_G : Fld := ⟨0, 3⟩
def GAIN_STAT.ST_G : Fld := ⟨3, 3⟩
def GAIN_STAT.AS_G : Fld := ⟨6, 3⟩
def GAIN_STAT.PENDING : Fld := ⟨9, 1⟩
def GAIN_STAT.AUTO_STEPPED : Fld := ⟨10, 1⟩
def GAIN_STAT.AUTO_COUNT : Fld := ⟨16, 16⟩
def GAIN_STAT.kind : RegKind := { w1c := 0x00000400 }
/-! LANE_STAT: 05_threshold_converters.md, Table 5.8 -/
def LANE_STAT.OVR : Fld := ⟨0, 6⟩
def LANE_STAT.CAL_FAIL : Fld := ⟨6, 6⟩
def LANE_STAT.kind : RegKind := { w1c := 0x0000003F }
/-! HK_CFG: 05_threshold_converters.md, Table 5.9 -/
def HK_CFG.ENABLE : Fld := ⟨0, 1⟩
def HK_CFG.COUNT : Fld := ⟨1, 5⟩
def HK_CFG.kind : RegKind := { rw := 0x00000001, rwe := 0x0000003E, keep := 0x000000C0 }
/-! HK_SWEEP: 05_threshold_converters.md, Table 5.9 -/
def HK_SWEEP.PERIOD : Fld := ⟨0, 16⟩
/-! HK_OPEN: 05_threshold_converters.md, Table 5.9 -/
def HK_OPEN.OPEN : Fld := ⟨0, 24⟩
def HK_OPEN.kind : RegKind := { w1c := 0x00FFFFFF }
/-! HK_ENT: 05_threshold_converters.md, Table 5.9 -/
def HK_ENT.SEL : Fld := ⟨0, 5⟩
def HK_ENT.AVG : Fld := ⟨5, 4⟩
def HK_ENT.SETTLE : Fld := ⟨9, 4⟩
def HK_ENT.PULL : Fld := ⟨13, 2⟩
def HK_ENT.kind : RegKind := { rwe := 0x00007FFF, keep := 0x00008000 }
/-! HK_RES: 05_threshold_converters.md, Table 5.9 -/
def HK_RES.RESULT : Fld := ⟨0, 12⟩
def HK_RES.OPEN : Fld := ⟨12, 1⟩
def HK_RES.VALID : Fld := ⟨13, 1⟩
def HK_RES.SWEEP : Fld := ⟨16, 16⟩
/-! THR_STAT: 05_threshold_converters.md, Table 5.9 -/
def THR_STAT.WRITE_IGNORED : Fld := ⟨0, 1⟩
def THR_STAT.ADC_CAL_DONE : Fld := ⟨1, 1⟩
def THR_STAT.HK_CAL_DONE : Fld := ⟨2, 1⟩
def THR_STAT.kind : RegKind := { w1c := 0x00000001 }
/-! TRIM_CFG: 06_calibration_trim.md, Table 6.3 -/
def TRIM_CFG.ENABLE : Fld := ⟨0, 1⟩
def TRIM_CFG.TH : Fld := ⟨1, 8⟩
def TRIM_CFG.kind : RegKind := { rw := 0x00000001, rwe := 0x000001FE, keep := 0x00000200 }
/-! TRIM_CTRL: 06_calibration_trim.md, Table 6.3 -/
def TRIM_CTRL.REQ : Fld := ⟨0, 1⟩
def TRIM_CTRL.kind : RegKind := { w1s := 0x00000001 }
/-! TRIM_DEFER: 06_calibration_trim.md, Table 6.3 -/
def TRIM_DEFER.SECONDS : Fld := ⟨0, 10⟩
def TRIM_DEFER.kind : RegKind := { rw := 0x000003FF }
/-! TRIM_STAT: 06_calibration_trim.md, Table 6.3 -/
def TRIM_STAT.DUE : Fld := ⟨0, 1⟩
def TRIM_STAT.HOLDOFF : Fld := ⟨1, 1⟩
def TRIM_STAT.DEFERRED : Fld := ⟨2, 1⟩
def TRIM_STAT.RUNNING : Fld := ⟨3, 1⟩
def TRIM_STAT.RANGE : Fld := ⟨4, 1⟩
def TRIM_STAT.DAY_COUNT : Fld := ⟨8, 8⟩
def TRIM_STAT.COUNT : Fld := ⟨16, 16⟩
def TRIM_STAT.kind : RegKind := { w1c := 0x00000010 }
/-! TRIM_REF: 06_calibration_trim.md, Table 6.3 -/
def TRIM_REF.CODE : Fld := ⟨0, 12⟩
/-! DLY: 06_calibration_trim.md, Table 6.3 -/
def DLY.TAP : Fld := ⟨0, 8⟩
def DLY.kind : RegKind := { rwe := 0x000000FF }
/-! FRONT_CFG: 07_hall_demodulation.md, Table 7.8 -/
def FRONT_CFG.RX_WIN : Fld := ⟨0, 3⟩
def FRONT_CFG.COMB_HALF : Fld := ⟨3, 6⟩
def FRONT_CFG.FADE_REF : Fld := ⟨9, 1⟩
def FRONT_CFG.FADE_MUL : Fld := ⟨16, 12⟩
def FRONT_CFG.kind : RegKind := { rw := 0x0FFF03FF, keep := 0x0000FC00 }
/-! FRONT_REL: 07_hall_demodulation.md, Table 7.8 -/
def FRONT_REL.FADE_REL : Fld := ⟨0, 16⟩
def FRONT_REL.kind : RegKind := { rw := 0x0000FFFF }
/-! FRONT_STAT: 07_hall_demodulation.md, Table 7.8 -/
def FRONT_STAT.OVL_TRACES : Fld := ⟨0, 16⟩
def FRONT_STAT.SAT_POINTS : Fld := ⟨16, 16⟩
/-! FRONT_FADED: 07_hall_demodulation.md, Table 7.8 -/
def FRONT_FADED.FADED_POINTS : Fld := ⟨0, 32⟩
/-! FRONT_NREF: 07_hall_demodulation.md, Table 7.8 -/
def FRONT_NREF.NREF : Fld := ⟨0, 32⟩
def FRONT_NREF.kind : RegKind := { rw := 0xFFFFFFFF }
/-! PHASE_CFG: 08_hall_phase.md, Table 8.6 -/
def PHASE_CFG.TAU : Fld := ⟨0, 7⟩
def PHASE_CFG.kind : RegKind := { rw := 0x0000007F, keep := 0x00000080 }
/-! ALIGN_K: 08_hall_phase.md, Table 8.6 -/
def ALIGN_K.ALIGN_K : Fld := ⟨0, 24⟩
def ALIGN_K.kind : RegKind := { rw := 0x00FFFFFF }
/-! PHASE_SET: 08_hall_phase.md, Table 8.6 -/
def PHASE_SET.SETTLE_FRAMES : Fld := ⟨0, 19⟩
def PHASE_SET.kind : RegKind := { rw := 0x0007FFFF }
/-! PHASE_STAT: 08_hall_phase.md, Table 8.6 -/
def PHASE_STAT.SUBST : Fld := ⟨0, 16⟩
def PHASE_STAT.SLEW_COUNT : Fld := ⟨16, 16⟩
/-! RAMAN_CFG: 09_temperature_channel.md, Table 9.6 -/
def RAMAN_CFG.ENABLE : Fld := ⟨0, 1⟩
def RAMAN_CFG.SPANS : Fld := ⟨1, 3⟩
def RAMAN_CFG.kind : RegKind := { rw := 0x00000001, rwe := 0x0000000E, keep := 0x000000F0 }
/-! RAMAN_SPAN: 09_temperature_channel.md, Table 9.6 -/
def RAMAN_SPAN.SPAN_FRAMES : Fld := ⟨0, 21⟩
def RAMAN_SPAN.kind : RegKind := { rwe := 0x001FFFFF }
/-! RAMAN_START: 09_temperature_channel.md, Table 9.6 -/
def RAMAN_START.START_TRACE : Fld := ⟨0, 32⟩
/-! RAMAN_STAT: 09_temperature_channel.md, Table 9.6 -/
def RAMAN_STAT.SNAPSHOTS : Fld := ⟨0, 16⟩
def RAMAN_STAT.EXCL_ENTRIES : Fld := ⟨16, 13⟩
def RAMAN_STAT.EXCL_FULL : Fld := ⟨29, 1⟩
def RAMAN_STAT.WRITE_IGNORED : Fld := ⟨30, 1⟩
def RAMAN_STAT.RUNNING : Fld := ⟨31, 1⟩
def RAMAN_STAT.kind : RegKind := { w1c := 0x60000000 }
/-! RAMAN_WI: 09_temperature_channel.md, Table 9.6 -/
def RAMAN_WI.OFFSET : Fld := ⟨0, 5⟩
/-! CHAIN_CFG: 10_filter_chain.md, Table 10.10 -/
def CHAIN_CFG.ENABLE : Fld := ⟨0, 1⟩
def CHAIN_CFG.FADE_LEN : Fld := ⟨1, 13⟩
def CHAIN_CFG.kind : RegKind := { rw := 0x00003FFF, keep := 0x0000C000 }
/-! CHAIN_RESP: 10_filter_chain.md, Table 10.10 -/
def CHAIN_RESP.RESP : Fld := ⟨0, 16⟩
def CHAIN_RESP.kind : RegKind := { rw := 0x0000FFFF }
/-! CHAIN_CTRL: 10_filter_chain.md, Table 10.10 -/
def CHAIN_CTRL.RESET : Fld := ⟨0, 1⟩
def CHAIN_CTRL.kind : RegKind := { w1s := 0x00000001 }
/-! CHAIN_STAT: 10_filter_chain.md, Table 10.10 -/
def CHAIN_STAT.FADING : Fld := ⟨0, 1⟩
def CHAIN_STAT.PENDING : Fld := ⟨1, 1⟩
def CHAIN_STAT.SETTLING : Fld := ⟨2, 1⟩
def CHAIN_STAT.SWAP_COALESCED : Fld := ⟨8, 8⟩
def CHAIN_STAT.CLIP_COUNT : Fld := ⟨16, 16⟩
/-! CHAIN_GD: 10_filter_chain.md, Table 10.10 -/
def CHAIN_GD.GD_SAMPLES : Fld := ⟨0, 8⟩
def CHAIN_GD.D_SETTLE : Fld := ⟨9, 17⟩
/-! CHAIN_OUT: 10_filter_chain.md, Table 10.10 -/
def CHAIN_OUT.OUT_INDEX : Fld := ⟨0, 32⟩
/-! LOFT_CFG: 11_loft_cells.md, Table 11.8 -/
def LOFT_CFG.ENABLE : Fld := ⟨0, 1⟩
def LOFT_CFG.SCRUB_EN : Fld := ⟨1, 1⟩
def LOFT_CFG.kind : RegKind := { rw := 0x00000001, rwe := 0x00000002, keep := 0x0000000C }
/-! LOFT_STAT: 11_loft_cells.md, Table 11.8 -/
def LOFT_STAT.WRITE_IGNORED : Fld := ⟨0, 1⟩
def LOFT_STAT.LAG : Fld := ⟨1, 1⟩
def LOFT_STAT.SLOTS_USED : Fld := ⟨2, 6⟩
def LOFT_STAT.BUSY_CELLS : Fld := ⟨8, 8⟩
def LOFT_STAT.TRAPS : Fld := ⟨16, 16⟩
def LOFT_STAT.kind : RegKind := { w1c := 0x00000003 }
/-! LOFT_ECC: 11_loft_cells.md, Table 11.8 -/
def LOFT_ECC.CORRECTED : Fld := ⟨0, 16⟩
def LOFT_ECC.UNCORRECTED : Fld := ⟨16, 16⟩
/-! MAP_CFG: 11_loft_cells.md, Table 11.8 -/
def MAP_CFG.ON : Fld := ⟨0, 1⟩
def MAP_CFG.EDGE0 : Fld := ⟨2, 7⟩
def MAP_CFG.EDGE8 : Fld := ⟨9, 8⟩
def MAP_CFG.kind : RegKind := { rw := 0x0001FFFC, rwe := 0x00000001, keep := 0x00000002 }
/-! MAP_EDGE: 11_loft_cells.md, Table 11.8 -/
def MAP_EDGE.EDGE : Fld := ⟨0, 12⟩
def MAP_EDGE.kind : RegKind := { rw := 0x00000FFF }
/-! POOL_CFG: 11_loft_cells.md, Table 11.8 -/
def POOL_CFG.ENABLE : Fld := ⟨0, 1⟩
def POOL_CFG.WORK : Fld := ⟨1, 3⟩
def POOL_CFG.PROGRAM : Fld := ⟨4, 6⟩
def POOL_CFG.kind : RegKind := { rw := 0x000003FF }
/-! POOL_CELLS: 11_loft_cells.md, Table 11.8 -/
def POOL_CELLS.CELLS : Fld := ⟨0, 8⟩
def POOL_CELLS.kind : RegKind := { rwe := 0x000000FF }
/-! POOL_CPLX: 11_loft_cells.md, Table 11.8 -/
def POOL_CPLX.INSTR_BUDGET : Fld := ⟨8, 24⟩
def POOL_CPLX.kind : RegKind := { rw := 0xFFFFFF00 }
/-! CELL_STAT: 11_loft_cells.md, Table 11.8 -/
def CELL_STAT.BUSY : Fld := ⟨0, 1⟩
def CELL_STAT.TRAPPED : Fld := ⟨1, 1⟩
def CELL_STAT.POOL : Fld := ⟨2, 3⟩
def CELL_STAT.CAUSE : Fld := ⟨8, 8⟩
def CELL_STAT.JOBS : Fld := ⟨16, 16⟩
def CELL_STAT.kind : RegKind := { w1c := 0x00000002 }
/-! ZONE_CFG: 13_zones_detectors.md, Table 13.9 -/
def ZONE_CFG.ENABLE : Fld := ⟨0, 1⟩
def ZONE_CFG.LEG : Fld := ⟨1, 1⟩
def ZONE_CFG.SOURCE : Fld := ⟨2, 2⟩
def ZONE_CFG.PROGRAM : Fld := ⟨4, 6⟩
def ZONE_CFG.N_DET : Fld := ⟨10, 4⟩
def ZONE_CFG.TACH : Fld := ⟨14, 3⟩
def ZONE_CFG.TACH_EN : Fld := ⟨17, 1⟩
def ZONE_CFG.EVERY : Fld := ⟨18, 13⟩
def ZONE_CFG.kind : RegKind := { rw := 0x00000001, rwe := 0x7FFFFFFE, keep := 0x80000000 }
/-! ZONE_SPAN: 13_zones_detectors.md, Table 13.9 -/
def ZONE_SPAN.FIRST : Fld := ⟨0, 17⟩
def ZONE_SPAN.COUNT : Fld := ⟨17, 13⟩
def ZONE_SPAN.kind : RegKind := { rwe := 0x3FFFFFFF }
/-! ZONE_PAGE: 13_zones_detectors.md, Table 13.9 -/
def ZONE_PAGE.PARAM_AT : Fld := ⟨0, 15⟩
def ZONE_PAGE.STATE_AT : Fld := ⟨16, 15⟩
def ZONE_PAGE.kind : RegKind := { rwe := 0x7FFF7FFF }
/-! ZONE_OUT: 13_zones_detectors.md, Table 13.9 -/
def ZONE_OUT.PARAM_LEN : Fld := ⟨0, 12⟩
def ZONE_OUT.PUBLISH : Fld := ⟨12, 8⟩
def ZONE_OUT.kind : RegKind := { rwe := 0x000FFFFF }
/-! ZONE_STAT: 13_zones_detectors.md, Table 13.9 -/
def ZONE_STAT.RAW : Fld := ⟨0, 8⟩
def ZONE_STAT.DET : Fld := ⟨8, 8⟩
def ZONE_STAT.VALID : Fld := ⟨16, 1⟩
def ZONE_STAT.EVALS : Fld := ⟨18, 14⟩
/-! ZONE_APPLY: 13_zones_detectors.md, Table 13.9 -/
def ZONE_APPLY.APPLY : Fld := ⟨0, 16⟩
def ZONE_APPLY.kind : RegKind := { rwe := 0x0000FFFF }
/-! DET_CFG: 13_zones_detectors.md, Table 13.9 -/
def DET_CFG.WIN : Fld := ⟨0, 8⟩
def DET_CFG.K_SET : Fld := ⟨8, 8⟩
def DET_CFG.K_CLEAR : Fld := ⟨16, 8⟩
def DET_CFG.ALARM : Fld := ⟨24, 1⟩
def DET_CFG.kind : RegKind := { rwe := 0x01FFFFFF }
/-! DET_STAT: 13_zones_detectors.md, Table 13.9 -/
def DET_STAT.COUNT : Fld := ⟨0, 8⟩
def DET_STAT.TRANSIENT : Fld := ⟨16, 16⟩
/-! DETVEC: 13_zones_detectors.md, Table 13.9 -/
def DETVEC.BITS : Fld := ⟨0, 32⟩
/-! VEC_FRAME_LO: 13_zones_detectors.md, Table 13.9 -/
def VEC_FRAME_LO.FRAME_31_0 : Fld := ⟨0, 32⟩
/-! VEC_FRAME_HI: 13_zones_detectors.md, Table 13.9 -/
def VEC_FRAME_HI.FRAME_63_32 : Fld := ⟨0, 32⟩
/-! ZONE_WI: 13_zones_detectors.md, Table 13.9 -/
def ZONE_WI.OFFSET : Fld := ⟨0, 16⟩
/-! VEC_STAT: 13_zones_detectors.md, Table 13.9 -/
def VEC_STAT.WAITS : Fld := ⟨0, 16⟩
/-! TRIG_CFG: 14_acquisition_trigger.md, Table 14.5 -/
def TRIG_CFG.ENABLE : Fld := ⟨0, 1⟩
def TRIG_CFG.SRC_PAT : Fld := ⟨1, 1⟩
def TRIG_CFG.SRC_HOST : Fld := ⟨2, 1⟩
def TRIG_CFG.SRC_TIMER : Fld := ⟨3, 1⟩
def TRIG_CFG.EDGE : Fld := ⟨4, 1⟩
def TRIG_CFG.AUTO : Fld := ⟨5, 1⟩
def TRIG_CFG.RING : Fld := ⟨6, 1⟩
def TRIG_CFG.GROUP : Fld := ⟨7, 2⟩
def TRIG_CFG.LEGS : Fld := ⟨9, 2⟩
def TRIG_CFG.HIST : Fld := ⟨11, 1⟩
def TRIG_CFG.OVERVIEW : Fld := ⟨12, 1⟩
def TRIG_CFG.kind : RegKind := { rw := 0x00000001, rwe := 0x00001FFE, keep := 0x0000E000 }
/-! TRIG_PRE: 14_acquisition_trigger.md, Table 14.5 -/
def TRIG_PRE.PRE : Fld := ⟨0, 24⟩
def TRIG_PRE.kind : RegKind := { rwe := 0x00FFFFFF }
/-! TRIG_POST: 14_acquisition_trigger.md, Table 14.5 -/
def TRIG_POST.POST : Fld := ⟨0, 24⟩
def TRIG_POST.kind : RegKind := { rwe := 0x00FFFFFF }
/-! TRIG_HOLD: 14_acquisition_trigger.md, Table 14.5 -/
def TRIG_HOLD.HOLD : Fld := ⟨0, 24⟩
def TRIG_HOLD.kind : RegKind := { rwe := 0x00FFFFFF }
/-! TRIG_FIRST: 14_acquisition_trigger.md, Table 14.5 -/
def TRIG_FIRST.FIRST : Fld := ⟨0, 17⟩
def TRIG_FIRST.kind : RegKind := { rwe := 0x0001FFFF }
/-! TRIG_COUNT: 14_acquisition_trigger.md, Table 14.5 -/
def TRIG_COUNT.COUNT : Fld := ⟨0, 17⟩
def TRIG_COUNT.kind : RegKind := { rwe := 0x0001FFFF }
/-! TRIG_INTERVAL: 14_acquisition_trigger.md, Table 14.5 -/
def TRIG_INTERVAL.INTERVAL : Fld := ⟨0, 17⟩
def TRIG_INTERVAL.kind : RegKind := { rwe := 0x0001FFFF }
/-! TRIG_PERIOD: 14_acquisition_trigger.md, Table 14.5 -/
def TRIG_PERIOD.PERIOD : Fld := ⟨0, 24⟩
def TRIG_PERIOD.kind : RegKind := { rwe := 0x00FFFFFF }
/-! TRIG_CTRL: 14_acquisition_trigger.md, Table 14.5 -/
def TRIG_CTRL.ARM : Fld := ⟨0, 1⟩
def TRIG_CTRL.DISARM : Fld := ⟨1, 1⟩
def TRIG_CTRL.FIRE : Fld := ⟨2, 1⟩
def TRIG_CTRL.kind : RegKind := { w1s := 0x00000007 }
/-! TRIG_STAT: 14_acquisition_trigger.md, Table 14.5 -/
def TRIG_STAT.STATE : Fld := ⟨0, 2⟩
def TRIG_STAT.WAITING : Fld := ⟨2, 1⟩
def TRIG_STAT.TRUNCATED : Fld := ⟨3, 1⟩
def TRIG_STAT.WAITS : Fld := ⟨4, 12⟩
def TRIG_STAT.RECORDS : Fld := ⟨16, 16⟩
def TRIG_STAT.kind : RegKind := { w1c := 0x00000008 }
/-! TRIG_TALLY: 14_acquisition_trigger.md, Table 14.5 -/
def TRIG_TALLY.EARLY : Fld := ⟨0, 16⟩
def TRIG_TALLY.REARM : Fld := ⟨16, 16⟩
/-! TRIG_FIRE_LO: 14_acquisition_trigger.md, Table 14.5 -/
def TRIG_FIRE_LO.FIRE_31_0 : Fld := ⟨0, 32⟩
/-! TRIG_FIRE_HI: 14_acquisition_trigger.md, Table 14.5 -/
def TRIG_FIRE_HI.FIRE_63_32 : Fld := ⟨0, 32⟩
/-! TRIG_VALUE: 14_acquisition_trigger.md, Table 14.5 -/
def TRIG_VALUE.BITS : Fld := ⟨0, 32⟩
def TRIG_VALUE.kind : RegKind := { rw := 0xFFFFFFFF }
/-! COPY_STAT: 14_acquisition_trigger.md, Table 14.5 -/
def COPY_STAT.QUEUED : Fld := ⟨0, 8⟩
def COPY_STAT.BUSY : Fld := ⟨8, 1⟩
def COPY_STAT.STORE_WAIT : Fld := ⟨9, 1⟩
/-! COPY_LOST: 14_acquisition_trigger.md, Table 14.5 -/
def COPY_LOST.ROWS : Fld := ⟨0, 32⟩
/-! TRIG_WI: 14_acquisition_trigger.md, Table 14.5 -/
def TRIG_WI.OFFSET : Fld := ⟨0, 16⟩
/-! TIME_LO: 15_time_base.md, Table 15.10 -/
def TIME_LO.TIME_31_0 : Fld := ⟨0, 32⟩
/-! TIME_HI: 15_time_base.md, Table 15.10 -/
def TIME_HI.TIME_63_32 : Fld := ⟨0, 32⟩
/-! TIME_STAT: 15_time_base.md, Table 15.10 -/
def TIME_STAT.SRC : Fld := ⟨0, 3⟩
def TIME_STAT.LOCKED : Fld := ⟨3, 1⟩
def TIME_STAT.HOLDOVER : Fld := ⟨4, 1⟩
def TIME_STAT.REF_PRESENT : Fld := ⟨5, 1⟩
def TIME_STAT.PPS_PRESENT : Fld := ⟨6, 1⟩
def TIME_STAT.PTP_PRESENT : Fld := ⟨7, 1⟩
def TIME_STAT.HOLD_SECONDS : Fld := ⟨8, 24⟩
/-! TB_CFG: 15_time_base.md, Table 15.10 -/
def TB_CFG.ENABLE : Fld := ⟨0, 1⟩
def TB_CFG.SRC : Fld := ⟨1, 3⟩
def TB_CFG.PPS_POL : Fld := ⟨4, 1⟩
def TB_CFG.HOLD_MAX : Fld := ⟨8, 17⟩
def TB_CFG.kind : RegKind := { rw := 0x00000001, rwe := 0x01FFFF1E, keep := 0x000000E0 }
/-! TB_STEER: 15_time_base.md, Table 15.10 -/
def TB_STEER.STEER : Fld := ⟨0, 32⟩
def TB_STEER.kind : RegKind := { rw := 0xFFFFFFFF }
/-! TB_SET: 15_time_base.md, Table 15.10 -/
def TB_SET.SET : Fld := ⟨0, 32⟩
def TB_SET.kind : RegKind := { rw := 0xFFFFFFFF }
/-! TB_CTRL: 15_time_base.md, Table 15.10 -/
def TB_CTRL.STEP : Fld := ⟨0, 1⟩
def TB_CTRL.kind : RegKind := { w1s := 0x00000001 }
/-! TB_STAT: 15_time_base.md, Table 15.10 -/
def TB_STAT.WRITE_IGNORED : Fld := ⟨0, 1⟩
def TB_STAT.STEP_REFUSED : Fld := ⟨1, 1⟩
def TB_STAT.PPS_REJECT : Fld := ⟨16, 16⟩
def TB_STAT.kind : RegKind := { w1c := 0x00000003 }
/-! TIU_CFG: 15_time_base.md, Table 15.10 -/
def TIU_CFG.ENABLE : Fld := ⟨0, 1⟩
def TIU_CFG.START : Fld := ⟨1, 4⟩
def TIU_CFG.NSTOP : Fld := ⟨5, 3⟩
def TIU_CFG.kind : RegKind := { rw := 0x00000001, rwe := 0x000000FE, keep := 0x00000100 }
/-! TIU_STOPSEL: 15_time_base.md, Table 15.10 -/
def TIU_STOPSEL.STOPj : Fld := ⟨0, 32⟩
def TIU_STOPSEL.kind : RegKind := { rwe := 0xFFFFFFFF }
/-! TIU_CTRL: 15_time_base.md, Table 15.10 -/
def TIU_CTRL.GO : Fld := ⟨0, 1⟩
def TIU_CTRL.kind : RegKind := { w1s := 0x00000001 }
/-! TIU_STAT: 15_time_base.md, Table 15.10 -/
def TIU_STAT.BUSY : Fld := ⟨0, 1⟩
def TIU_STAT.DONE : Fld := ⟨1, 1⟩
def TIU_STAT.CAL_FAIL : Fld := ⟨2, 1⟩
def TIU_STAT.NO_START : Fld := ⟨3, 1⟩
def TIU_STAT.SEEN : Fld := ⟨8, 8⟩
def TIU_STAT.kind : RegKind := { w1c := 0x0000000E }
/-! TIU_CAL: 15_time_base.md, Table 15.10 -/
def TIU_CAL.K1 : Fld := ⟨0, 16⟩
def TIU_CAL.K2 : Fld := ⟨16, 16⟩
/-! TIU_RES: 15_time_base.md, Table 15.10 -/
def TIU_RES.RESULT : Fld := ⟨0, 32⟩
/-! TACH_CFG: 15_time_base.md, Table 15.10 -/
def TACH_CFG.ENABLE : Fld := ⟨0, 1⟩
def TACH_CFG.EDGE : Fld := ⟨1, 2⟩
def TACH_CFG.QUAD : Fld := ⟨3, 1⟩
def TACH_CFG.FILT : Fld := ⟨8, 12⟩
def TACH_CFG.kind : RegKind := { rw := 0x00000001, rwe := 0x000FFF0E, keep := 0x000000F0 }
/-! TACH_STALL: 15_time_base.md, Table 15.10 -/
def TACH_STALL.STALL_MS : Fld := ⟨0, 16⟩
def TACH_STALL.kind : RegKind := { rwe := 0x0000FFFF }
/-! TACH_PERIOD: 15_time_base.md, Table 15.10 -/
def TACH_PERIOD.PERIOD : Fld := ⟨0, 32⟩
/-! TACH_STAT: 15_time_base.md, Table 15.10 -/
def TACH_STAT.STOPPED : Fld := ⟨0, 1⟩
def TACH_STAT.DIR : Fld := ⟨1, 1⟩
def TACH_STAT.QUAD_ERR : Fld := ⟨2, 1⟩
def TACH_STAT.REJECTED : Fld := ⟨16, 16⟩
def TACH_STAT.kind : RegKind := { w1c := 0x00000004 }
/-! CELLAR_CFG: 16_cellar_memory.md, Table 16.6 -/
def CELLAR_CFG.ENABLE : Fld := ⟨0, 1⟩
def CELLAR_CFG.SCRUB_EN : Fld := ⟨1, 1⟩
def CELLAR_CFG.kind : RegKind := { rw := 0x00000001, rwe := 0x00000002, keep := 0x000000FC }
/-! CELLAR_STAT: 16_cellar_memory.md, Table 16.6 -/
def CELLAR_STAT.WRITE_IGNORED : Fld := ⟨0, 1⟩
def CELLAR_STAT.TRAINED : Fld := ⟨1, 1⟩
def CELLAR_STAT.FROM_STORE : Fld := ⟨2, 1⟩
def CELLAR_STAT.PANIC : Fld := ⟨3, 1⟩
def CELLAR_STAT.OVERRUN : Fld := ⟨4, 1⟩
def CELLAR_STAT.UNCORR : Fld := ⟨5, 1⟩
def CELLAR_STAT.kind : RegKind := { w1c := 0x00000031 }
/-! MEM_DESC: 16_cellar_memory.md, Table 16.6 -/
def MEM_DESC.WIDTH : Fld := ⟨0, 2⟩
def MEM_DESC.DENSITY : Fld := ⟨2, 2⟩
def MEM_DESC.RANKS : Fld := ⟨4, 1⟩
def MEM_DESC.BIN : Fld := ⟨5, 1⟩
def MEM_DESC.kind : RegKind := { rwe := 0x0000003F, keep := 0x000000C0 }
/-! REFRESH_CFG: 16_cellar_memory.md, Table 16.6 -/
def REFRESH_CFG.REF2X : Fld := ⟨0, 1⟩
def REFRESH_CFG.POSTPONE_MAX : Fld := ⟨1, 4⟩
def REFRESH_CFG.OWED : Fld := ⟨8, 8⟩
def REFRESH_CFG.FORCED : Fld := ⟨16, 16⟩
def REFRESH_CFG.kind : RegKind := { rwe := 0x0000001F }
/-! SCRUB_CFG: 16_cellar_memory.md, Table 16.6 -/
def SCRUB_CFG.HOURS : Fld := ⟨0, 8⟩
def SCRUB_CFG.kind : RegKind := { rwe := 0x000000FF }
/-! SCRUB_STAT: 16_cellar_memory.md, Table 16.6 -/
def SCRUB_STAT.PASSES : Fld := ⟨0, 16⟩
def SCRUB_STAT.BEHIND : Fld := ⟨16, 1⟩
/-! ECC_STAT: 16_cellar_memory.md, Table 16.6 -/
def ECC_STAT.CORRECTED : Fld := ⟨0, 16⟩
def ECC_STAT.UNCORRECTED : Fld := ⟨16, 16⟩
/-! PORT_CFG: 16_cellar_memory.md, Table 16.6 -/
def PORT_CFG.WEIGHT : Fld := ⟨0, 8⟩
def PORT_CFG.PANIC_ON : Fld := ⟨8, 8⟩
def PORT_CFG.PANIC_OFF : Fld := ⟨16, 8⟩
def PORT_CFG.kind : RegKind := { rwe := 0x00FFFFFF }
/-! PORT_STAT: 16_cellar_memory.md, Table 16.6 -/
def PORT_STAT.LEVEL : Fld := ⟨0, 10⟩
def PORT_STAT.PANIC : Fld := ⟨10, 1⟩
def PORT_STAT.PANICS : Fld := ⟨16, 16⟩
/-! PORT_COUNT: 16_cellar_memory.md, Table 16.6 -/
def PORT_COUNT.COUNT : Fld := ⟨0, 32⟩
/-! REGION: 16_cellar_memory.md, Table 16.6 -/
def REGION.BASE : Fld := ⟨0, 12⟩
def REGION.SIZE : Fld := ⟨12, 12⟩
def REGION.kind : RegKind := { rwe := 0x00FFFFFF }
/-! TRN_CFG: 16_cellar_memory.md, Table 16.6 -/
def TRN_CFG.ENABLE : Fld := ⟨0, 1⟩
def TRN_CFG.CH : Fld := ⟨1, 1⟩
def TRN_CFG.RANK : Fld := ⟨2, 1⟩
def TRN_CFG.MODE : Fld := ⟨3, 2⟩
def TRN_CFG.PATTERN : Fld := ⟨5, 2⟩
def TRN_CFG.SEED : Fld := ⟨8, 24⟩
def TRN_CFG.kind : RegKind := { rw := 0x00000001, rwe := 0xFFFFFF7E, keep := 0x00000080 }
/-! TRN_ADDR: 16_cellar_memory.md, Table 16.6 -/
def TRN_ADDR.BURST : Fld := ⟨0, 32⟩
def TRN_ADDR.kind : RegKind := { rwe := 0xFFFFFFFF }
/-! TRN_LEN: 16_cellar_memory.md, Table 16.6 -/
def TRN_LEN.BURSTS : Fld := ⟨0, 24⟩
def TRN_LEN.kind : RegKind := { rwe := 0x00FFFFFF }
/-! TRN_CTRL: 16_cellar_memory.md, Table 16.6 -/
def TRN_CTRL.GO : Fld := ⟨0, 1⟩
def TRN_CTRL.kind : RegKind := { w1s := 0x00000001 }
/-! TRN_STAT: 16_cellar_memory.md, Table 16.6 -/
def TRN_STAT.BUSY : Fld := ⟨0, 1⟩
def TRN_STAT.DONE : Fld := ⟨1, 1⟩
def TRN_STAT.kind : RegKind := { w1c := 0x00000002 }
/-! TRN_FAIL01: 16_cellar_memory.md, Table 16.6 -/
def TRN_FAIL01.FAIL : Fld := ⟨0, 32⟩
/-! TRN_FAIL2: 16_cellar_memory.md, Table 16.6 -/
def TRN_FAIL2.FAIL : Fld := ⟨0, 8⟩
/-! TRN_ERRORS: 16_cellar_memory.md, Table 16.6 -/
def TRN_ERRORS.BITS : Fld := ⟨0, 32⟩
/-! WLGATE_DLY: 16_cellar_memory.md, Table 16.6 -/
def WLGATE_DLY.TAP : Fld := ⟨0, 10⟩
def WLGATE_DLY.kind : RegKind := { rwe := 0x000003FF }
/-! DQ_DLY: 16_cellar_memory.md, Table 16.6 -/
def DQ_DLY.TAP : Fld := ⟨0, 7⟩
def DQ_DLY.kind : RegKind := { rwe := 0x0000007F }
/-! VREF: 16_cellar_memory.md, Table 16.6 -/
def VREF.RD : Fld := ⟨0, 6⟩
def VREF.WR : Fld := ⟨8, 6⟩
def VREF.kind : RegKind := { rwe := 0x00003F3F }
/-! COMP_CFG: 17_compression_streams.md, Table 17.7 -/
def COMP_CFG.ENABLE : Fld := ⟨0, 1⟩
def COMP_CFG.kind : RegKind := { rw := 0x00000001, keep := 0x0000000E }
/-! COMP_STAT: 17_compression_streams.md, Table 17.7 -/
def COMP_STAT.WRITE_IGNORED : Fld := ⟨0, 1⟩
def COMP_STAT.BUSY : Fld := ⟨1, 1⟩
def COMP_STAT.ACTIVE : Fld := ⟨8, 8⟩
def COMP_STAT.kind : RegKind := { w1c := 0x00000001 }
/-! STR_CFG: 17_compression_streams.md, Table 17.7 -/
def STR_CFG.ENABLE : Fld := ⟨0, 1⟩
def STR_CFG.SOURCE : Fld := ⟨1, 3⟩
def STR_CFG.CARRIER : Fld := ⟨4, 1⟩
def STR_CFG.PRE : Fld := ⟨5, 2⟩
def STR_CFG.CODE_EN : Fld := ⟨7, 1⟩
def STR_CFG.ITEM_CLOSE : Fld := ⟨8, 1⟩
def STR_CFG.LEGS : Fld := ⟨9, 2⟩
def STR_CFG.FLUSH_MS : Fld := ⟨12, 10⟩
def STR_CFG.kind : RegKind := { rw := 0x00000001, rwe := 0x003FF7FE, keep := 0x00000800 }
/-! STR_SPAN: 17_compression_streams.md, Table 17.7 -/
def STR_SPAN.FIRST4 : Fld := ⟨0, 15⟩
def STR_SPAN.COUNT4 : Fld := ⟨15, 15⟩
def STR_SPAN.kind : RegKind := { rwe := 0x3FFFFFFF }
/-! STR_SEL: 17_compression_streams.md, Table 17.7 -/
def STR_SEL.SEL : Fld := ⟨0, 16⟩
def STR_SEL.kind : RegKind := { rwe := 0x0000FFFF }
/-! STR_HEAD: 17_compression_streams.md, Table 17.7 -/
def STR_HEAD.HEAD : Fld := ⟨0, 32⟩
def STR_HEAD.kind : RegKind := { rwe := 0xFFFFFFFF }
/-! STR_UDP: 17_compression_streams.md, Table 17.7 -/
def STR_UDP.DEST : Fld := ⟨0, 4⟩
def STR_UDP.DGRAM : Fld := ⟨4, 11⟩
def STR_UDP.STAGE : Fld := ⟨15, 9⟩
def STR_UDP.kind : RegKind := { rwe := 0x00FFFFFF }
/-! STR_STAT: 17_compression_streams.md, Table 17.7 -/
def STR_STAT.RUNNING : Fld := ⟨0, 1⟩
def STR_STAT.AWAIT_BUFFER : Fld := ⟨1, 1⟩
def STR_STAT.STOPPING : Fld := ⟨2, 1⟩
def STR_STAT.GAP : Fld := ⟨3, 1⟩
def STR_STAT.BUFFERS : Fld := ⟨16, 16⟩
def STR_STAT.kind : RegKind := { w1c := 0x00000008 }
/-! STR_BLOCKS: 17_compression_streams.md, Table 17.7 -/
def STR_BLOCKS.BLOCKS : Fld := ⟨0, 32⟩
/-! STR_GAPS: 17_compression_streams.md, Table 17.7 -/
def STR_GAPS.GAPS : Fld := ⟨0, 16⟩
/-! ETH_CFG: 18_host_ports_causeway.md, Table 18.7 -/
def ETH_CFG.ENABLE : Fld := ⟨0, 1⟩
def ETH_CFG.RATE : Fld := ⟨1, 2⟩
def ETH_CFG.FEC : Fld := ⟨3, 1⟩
def ETH_CFG.VLAN_EN : Fld := ⟨4, 1⟩
def ETH_CFG.PCP : Fld := ⟨5, 3⟩
def ETH_CFG.VID : Fld := ⟨8, 12⟩
def ETH_CFG.DHCP : Fld := ⟨20, 1⟩
def ETH_CFG.MTU64 : Fld := ⟨24, 8⟩
def ETH_CFG.kind : RegKind := { rw := 0x00000001, rwe := 0xFF1FFFFE, keep := 0x00E00000 }
/-! ETH_STAT: 18_host_ports_causeway.md, Table 18.7 -/
def ETH_STAT.LINK : Fld := ⟨0, 1⟩
def ETH_STAT.AT_25G : Fld := ⟨1, 1⟩
def ETH_STAT.MODULE : Fld := ⟨2, 1⟩
def ETH_STAT.WRITE_IGNORED : Fld := ⟨3, 1⟩
def ETH_STAT.kind : RegKind := { w1c := 0x00000008 }
/-! CW_CFG: 18_host_ports_causeway.md, Table 18.7 -/
def CW_CFG.ENABLE : Fld := ⟨0, 1⟩
def CW_CFG.PORT0_EN : Fld := ⟨1, 1⟩
def CW_CFG.PORT1_EN : Fld := ⟨2, 1⟩
def CW_CFG.kind : RegKind := { rw := 0x00000001, rwe := 0x00000006, keep := 0x000000F8 }
/-! CW_STAT: 18_host_ports_causeway.md, Table 18.7 -/
def CW_STAT.READY : Fld := ⟨0, 1⟩
def CW_STAT.MASTER : Fld := ⟨1, 1⟩
def CW_STAT.LINE : Fld := ⟨2, 1⟩
def CW_STAT.STRAP : Fld := ⟨3, 1⟩
def CW_STAT.SRC_ID : Fld := ⟨4, 3⟩
def CW_STAT.MEMBERS : Fld := ⟨7, 4⟩
def CW_STAT.WRITE_IGNORED : Fld := ⟨11, 1⟩
def CW_STAT.LOCKED : Fld := ⟨12, 1⟩
def CW_STAT.kind : RegKind := { w1c := 0x00000800 }
/-! CW_HOP: 18_host_ports_causeway.md, Table 18.7 -/
def CW_HOP.DELAY : Fld := ⟨0, 32⟩
/-! CW_ERR: 18_host_ports_causeway.md, Table 18.7 -/
def CW_ERR.CHECK_ERR : Fld := ⟨0, 16⟩
def CW_ERR.DOWNS : Fld := ⟨16, 15⟩
def CW_ERR.UP : Fld := ⟨31, 1⟩
/-! MB_IN: 19_mailboxes_locks.md, Table 19.4 -/
def MB_IN.WORD : Fld := ⟨0, 32⟩
/-! MB_OUT: 19_mailboxes_locks.md, Table 19.4 -/
def MB_OUT.WORD : Fld := ⟨0, 32⟩
/-! DB_H2D: 19_mailboxes_locks.md, Table 19.4 -/
def DB_H2D.BITS : Fld := ⟨0, 27⟩
def DB_H2D.kind : RegKind := { w1s := 0x07FFFFFF }
/-! DB_D2H: 19_mailboxes_locks.md, Table 19.4 -/
def DB_D2H.BITS : Fld := ⟨0, 32⟩
def DB_D2H.kind : RegKind := { w1c := 0xFFFFFFFF }
/-! DB_D2H_MASK: 19_mailboxes_locks.md, Table 19.4 -/
def DB_D2H_MASK.MASK : Fld := ⟨0, 32⟩
def DB_D2H_MASK.kind : RegKind := { rw := 0xFFFFFFFF }
/-! MB_AVAIL: 19_mailboxes_locks.md, Table 19.4 -/
def MB_AVAIL.STATE : Fld := ⟨0, 2⟩
/-! MBX_STALL: 19_mailboxes_locks.md, Table 19.4 -/
def MBX_STALL.MS : Fld := ⟨0, 10⟩
def MBX_STALL.kind : RegKind := { rw := 0x000003FF }
/-! MB_SEC: 19_mailboxes_locks.md, Table 19.4 -/
def MB_SEC.UNLOCKED : Fld := ⟨0, 1⟩
def MB_SEC.DENIED : Fld := ⟨16, 16⟩
/-! MB_STAT: 19_mailboxes_locks.md, Table 19.4 -/
def MB_STAT.IN_FULL : Fld := ⟨0, 1⟩
def MB_STAT.IN_WORDS : Fld := ⟨1, 5⟩
def MB_STAT.OUT_FULL : Fld := ⟨6, 1⟩
def MB_STAT.OUT_LEFT : Fld := ⟨7, 5⟩
def MB_STAT.IN_OVF : Fld := ⟨12, 1⟩
def MB_STAT.OUT_UNDER : Fld := ⟨13, 1⟩
def MB_STAT.SIZE_ERR : Fld := ⟨14, 1⟩
def MB_STAT.STALL : Fld := ⟨15, 1⟩
def MB_STAT.STALLS : Fld := ⟨16, 16⟩
def MB_STAT.kind : RegKind := { w1c := 0x0000F000 }
/-! MB_CTRL: 19_mailboxes_locks.md, Table 19.4 -/
def MB_CTRL.IN_DISCARD : Fld := ⟨0, 1⟩
def MB_CTRL.kind : RegKind := { w1s := 0x00000001 }
/-! MB_COUNT: 19_mailboxes_locks.md, Table 19.4 -/
def MB_COUNT.IN_MSGS : Fld := ⟨0, 16⟩
def MB_COUNT.OUT_MSGS : Fld := ⟨16, 16⟩
/-! LOCK: 19_mailboxes_locks.md, Table 19.4 -/
def LOCK.OWNER : Fld := ⟨0, 3⟩
def LOCK.kind : RegKind := { rw := 0x00000007 }
/-! LOCK_OWN: 19_mailboxes_locks.md, Table 19.4 -/
def LOCK_OWN.OWNERj : Fld := ⟨0, 32⟩
/-! LOCK_STAT: 19_mailboxes_locks.md, Table 19.4 -/
def LOCK_STAT.BAD_RELEASE : Fld := ⟨0, 1⟩
def LOCK_STAT.LOCK : Fld := ⟨8, 5⟩
def LOCK_STAT.REQ : Fld := ⟨16, 3⟩
def LOCK_STAT.BAD_COUNT : Fld := ⟨24, 8⟩
def LOCK_STAT.kind : RegKind := { w1c := 0x00000001 }
/-! ID_DEVICE: 21_register_interface.md, Table 21.3 -/
def ID_DEVICE.DEVICE : Fld := ⟨0, 16⟩
def ID_DEVICE.REVISION : Fld := ⟨16, 8⟩
/-! ID_VENDOR: 21_register_interface.md, Table 21.3 -/
def ID_VENDOR.VENDOR : Fld := ⟨0, 16⟩
/-! ID_FW: 21_register_interface.md, Table 21.3 -/
def ID_FW.PATCH : Fld := ⟨0, 8⟩
def ID_FW.MINOR : Fld := ⟨8, 8⟩
def ID_FW.MAJOR : Fld := ⟨16, 8⟩
def ID_FW.OMP_MINOR : Fld := ⟨24, 8⟩
/-! ID_STAT: 21_register_interface.md, Table 21.3 -/
def ID_STAT.FW_READY : Fld := ⟨0, 1⟩
def ID_STAT.KEEP_ALTERED : Fld := ⟨1, 1⟩
def ID_STAT.BOOT_SLOT : Fld := ⟨2, 1⟩
def ID_STAT.BIST_STALE : Fld := ⟨3, 1⟩
def ID_STAT.SAFE : Fld := ⟨4, 1⟩
def ID_STAT.kind : RegKind := { keep := 0x000000E0 }
/-! HINT_CFG: 21_register_interface.md, Table 21.4 -/
def HINT_CFG.ENABLE : Fld := ⟨0, 1⟩
def HINT_CFG.HOLDOFF_US : Fld := ⟨1, 10⟩
def HINT_CFG.kind : RegKind := { rw := 0x00000001, rwe := 0x000007FE, keep := 0x0000F800 }
/-! HINT_PEND: 21_register_interface.md, Table 21.4 -/
def HINT_PEND.PEND : Fld := ⟨0, 32⟩
/-! HINT_SENT: 21_register_interface.md, Table 21.4 -/
def HINT_SENT.SENT : Fld := ⟨0, 32⟩
/-! PROG_STAT: 21_register_interface.md, Table 21.5 -/
def PROG_STAT.CODE : Fld := ⟨0, 12⟩
def PROG_STAT.STATE : Fld := ⟨12, 3⟩
def PROG_STAT.UNIT : Fld := ⟨15, 1⟩
/-! PROG_VALUE: 21_register_interface.md, Table 21.5 -/
def PROG_VALUE.VALUE : Fld := ⟨0, 32⟩
/-! MODE_SUM: 21_register_interface.md, Table 21.5 -/
def MODE_SUM.MODE : Fld := ⟨0, 3⟩
def MODE_SUM.LEG0_ON : Fld := ⟨3, 1⟩
def MODE_SUM.LEG1_ON : Fld := ⟨4, 1⟩
def MODE_SUM.PENDING : Fld := ⟨5, 1⟩
def MODE_SUM.LOG2S0 : Fld := ⟨8, 2⟩
def MODE_SUM.LOG2S1 : Fld := ⟨10, 2⟩
def MODE_SUM.T_F : Fld := ⟨12, 20⟩
/-! LEG_SUM: 21_register_interface.md, Table 21.5 -/
def LEG_SUM.L : Fld := ⟨0, 17⟩
def LEG_SUM.GAUGE : Fld := ⟨17, 6⟩
def LEG_SUM.RATE : Fld := ⟨23, 5⟩
/-! SUM_GEN: 21_register_interface.md, Table 21.5 -/
def SUM_GEN.GEN : Fld := ⟨0, 32⟩
/-! WIDE_SEL: 21_register_interface.md, Table 21.6 -/
def WIDE_SEL.INDEX : Fld := ⟨0, 8⟩
def WIDE_SEL.kind : RegKind := { rw := 0x000000FF }
/-! WIDE_STAT: 21_register_interface.md, Table 21.6 -/
def WIDE_STAT.VALID : Fld := ⟨0, 1⟩
def WIDE_STAT.BUSY : Fld := ⟨1, 1⟩
def WIDE_STAT.ERR : Fld := ⟨2, 2⟩
def WIDE_STAT.INDEX : Fld := ⟨8, 8⟩
/-! WIDE_DATA0: 21_register_interface.md, Table 21.6 -/
def WIDE_DATA0.DATA : Fld := ⟨0, 32⟩
/-! WIDE_DATA3: 21_register_interface.md, Table 21.6 -/
def WIDE_DATA3.DATA : Fld := ⟨0, 32⟩
/-! WI_STAT: 21_register_interface.md, Table 21.7 -/
def WI_STAT.HINT : Fld := ⟨0, 1⟩
def WI_STAT.FAULT : Fld := ⟨1, 1⟩
def WI_STAT.PARTIAL : Fld := ⟨2, 1⟩
def WI_STAT.COUNT : Fld := ⟨16, 16⟩
def WI_STAT.kind : RegKind := { w1c := 0x00000007 }
/-! WI_CAPT: 21_register_interface.md, Table 21.7 -/
def WI_CAPT.OFFSET : Fld := ⟨0, 16⟩
def WI_CAPT.REQ : Fld := ⟨16, 3⟩
/-! WI_DATA: 21_register_interface.md, Table 21.7 -/
def WI_DATA.DATA : Fld := ⟨0, 32⟩
/-! WI_ROOMS: 21_register_interface.md, Table 21.7 -/
def WI_ROOMS.ROOMS : Fld := ⟨0, 9⟩
/-! FC_STAT: 22_faults_safe_state.md, Table 22.5 -/
def FC_STAT.SAFE : Fld := ⟨0, 1⟩
def FC_STAT.FAULT_N : Fld := ⟨1, 1⟩
def FC_STAT.CLEAR_REFUSED : Fld := ⟨2, 1⟩
def FC_STAT.CFG_ERR : Fld := ⟨3, 1⟩
def FC_STAT.RAISED : Fld := ⟨8, 8⟩
def FC_STAT.CLEAR_REFUSALS : Fld := ⟨16, 16⟩
def FC_STAT.kind : RegKind := { w1c := 0x00000004 }
/-! FC_EVENT: 22_faults_safe_state.md, Table 22.5 -/
def FC_EVENT.LAST : Fld := ⟨0, 7⟩
def FC_EVENT.SAFE_SRC : Fld := ⟨8, 7⟩
def FC_EVENT.SAFE_VALID : Fld := ⟨15, 1⟩
/-! FC_RAISED: 22_faults_safe_state.md, Table 22.5 -/
def FC_RAISED.RAISED : Fld := ⟨0, 32⟩
/-! FC_SRC: 22_faults_safe_state.md, Table 22.5 -/
def FC_SRC.EN : Fld := ⟨0, 1⟩
def FC_SRC.SEVERITY : Fld := ⟨1, 2⟩
def FC_SRC.REACT : Fld := ⟨3, 6⟩
def FC_SRC.K : Fld := ⟨9, 4⟩
def FC_SRC.UNIT : Fld := ⟨13, 1⟩
def FC_SRC.W : Fld := ⟨14, 18⟩
def FC_SRC.kind : RegKind := { rw := 0x00000001, rwe := 0xFFFFFFFE }
/-! FC_CNT: 22_faults_safe_state.md, Table 22.5 -/
def FC_CNT.OCCUR : Fld := ⟨0, 16⟩
def FC_CNT.TRANSIENT : Fld := ⟨16, 8⟩
def FC_CNT.RAISED : Fld := ⟨24, 1⟩
def FC_CNT.CAUSE : Fld := ⟨25, 1⟩
def FC_CNT.SEEN : Fld := ⟨26, 1⟩
def FC_CNT.kind : RegKind := { w1c := 0x04000000 }
/-! BOOT_STAT: 23_startup_shutdown.md, Table 23.4 -/
def BOOT_STAT.SLOT : Fld := ⟨0, 1⟩
def BOOT_STAT.FALLBACK : Fld := ⟨1, 1⟩
def BOOT_STAT.ROM_HOLD : Fld := ⟨2, 1⟩
def BOOT_STAT.ROLLBACK : Fld := ⟨8, 16⟩
def BOOT_STAT.kind : RegKind := { w1c := 0x00000002 }
/-! LARDER_STAT: 23_startup_shutdown.md, Table 23.4 -/
def LARDER_STAT.MOUNTED : Fld := ⟨0, 1⟩
def LARDER_STAT.TORN : Fld := ⟨1, 1⟩
def LARDER_STAT.UNCORR : Fld := ⟨2, 1⟩
def LARDER_STAT.BUDGET : Fld := ⟨3, 1⟩
def LARDER_STAT.WEAR : Fld := ⟨16, 14⟩
def LARDER_STAT.kind : RegKind := { w1c := 0x0000000E }
/-! BIST_STAT: 23_startup_shutdown.md, Table 23.4 -/
def BIST_STAT.RUNNING : Fld := ⟨0, 1⟩
def BIST_STAT.STALE : Fld := ⟨1, 1⟩
def BIST_STAT.CURSOR : Fld := ⟨8, 7⟩
def BIST_STAT.REPAIRS : Fld := ⟨16, 12⟩
/-! PWR_CTRL: 23_startup_shutdown.md, Table 23.4 -/
def PWR_CTRL.POWER_OFF_OK : Fld := ⟨0, 1⟩
def PWR_CTRL.kind : RegKind := { w1s := 0x00000001 }

end Sys2Proof.Machine.F
end

