-- ==== Sys2Proof/Machine/Mem.lean ====
section
/-! DEFINITION. Sparse memories in one canonical form: addresses strictly rising, no entry equal to what an unlisted
address reads as. DRAM, Landing, flash and the cells' data memories are held in it (DESIGN CHOICE, log entry 2). -/

namespace Sys2Proof.Machine

/-- The value at address `a`; an unlisted address reads as `d`. -/
def Mem.read {α : Type} (d : α) (m : Sparse α) (a : Nat) : α :=
  match m with
  | [] => d
  | (b, v) :: rest => if a = b then v else if a < b then d else Mem.read d rest a

/-- Store `v` at `a`; storing what an unlisted address reads as removes the entry. -/
def Mem.write {α : Type} [DecidableEq α] (d : α) (m : Sparse α) (a : Nat) (v : α) : Sparse α :=
  match m with
  | [] => if v = d then [] else [(a, v)]
  | (b, u) :: rest =>
    if a < b then (if v = d then (b, u) :: rest else (a, v) :: (b, u) :: rest)
    else if a = b then (if v = d then rest else (a, v) :: rest)
    else (b, u) :: Mem.write d rest a v

/-- Every address of the list is above `lo`, rising, and no value is `d`. -/
def Mem.wfFrom {α : Type} [DecidableEq α] (d : α) (lo : Option Nat) (m : Sparse α) : Bool :=
  match m with
  | [] => true
  | (b, v) :: rest =>
    (match lo with | none => true | some l => decide (l < b)) && decide (v ≠ d) && Mem.wfFrom d (some b) rest

/-- The canonical form. -/
def Mem.wf {α : Type} [DecidableEq α] (d : α) (m : Sparse α) : Bool := Mem.wfFrom d none m

/-- `n` values from address `a` upwards. -/
def Mem.readN {α : Type} (d : α) (m : Sparse α) (a n : Nat) : List α :=
  (List.range n).map (fun i => Mem.read d m (a + i))

/-- Store a list of values from address `a` upwards, in rising order. -/
def Mem.writeN {α : Type} [DecidableEq α] (d : α) (m : Sparse α) (a : Nat) (vs : List α) : Sparse α :=
  match vs with
  | [] => m
  | v :: rest => Mem.writeN d (Mem.write d m a v) (a + 1) rest

/-- Remove every entry from `a` to `a + n - 1`: those addresses read as `d` again. -/
def Mem.clearRange {α : Type} (m : Sparse α) (a n : Nat) : Sparse α :=
  m.filter (fun e => e.1 < a || a + n ≤ e.1)

/-- `n` values from address `a` of a memory whose entries below `a` have been passed, in one walk. -/
def Mem.walk {α : Type} (d : α) : Nat → Sparse α → Nat → List α
  | 0, _, _ => []
  | n + 1, m, a =>
    match m with
    | [] => d :: Mem.walk d n [] (a + 1)
    | (b, v) :: rest => if b = a then v :: Mem.walk d n rest (a + 1) else d :: Mem.walk d n ((b, v) :: rest) (a + 1)

/-- `n` values from address `a`, in one walk of a memory in canonical form. -/
def Mem.slice {α : Type} (d : α) (m : Sparse α) (a n : Nat) : List α :=
  Mem.walk d n (m.dropWhile (fun e => e.1 < a)) a

end Sys2Proof.Machine
end

