-- ==== Sys2Proof/Rooms/Cellar.lean ====
section
/-! DEFINITION. State of the Cellar (chapter 16): registers, DRAM, ports, refresh, scrub and training; and the history rings and
frame indexes of R252 and R253. -/

namespace Sys2Proof.Machine

/-- A 64 B request in a port buffer (R290, R291): its address, length in bytes, and whether it writes. -/
structure PortRequest where
  addr : Nat
  bytes : Nat
  write : Bool
  deriving DecidableEq, Repr

/-- A Cellar port. LEVEL and PANIC of PORTp_STAT read from `queue` and `panic`. -/
structure CellarPort where
  cfg : Word
  stat : Word := 0
  count : Word := 0
  /-- Requests in the buffer, oldest first (R290). -/
  queue : List PortRequest := []
  panic : Bool := false
  /-- Grants taken in the present round (R291). -/
  used : Nat := 0
  /-- Uptimes before which the cap of R27 allows no further read and no further write. -/
  readUp : Nat := 0
  writeUp : Nat := 0
  deriving DecidableEq, Repr

/-- The reset ports of Table 16.3. -/
def CellarPort.resetAll : Vector CellarPort 6 :=
  #v[{ cfg := 0x00408008 }, { cfg := 6 }, { cfg := 2 }, { cfg := 3 }, { cfg := 1 }, { cfg := 0x00408004 }]

/-- A request in a bank queue (R294): channel, rank, bank group and bank as one number, its row, and its direction. -/
structure BankRequest where
  bank : Nat
  row : Nat
  write : Bool
  deriving DecidableEq, Repr

/-- A row of a history ring (R252): its place P in the stream and what its reader needs of it. -/
structure RingRow where
  p : Nat
  len : Nat
  leg : Nat
  row : Nat
  trace : Nat
  stamp : Nat
  /-- Launch frame, the device time of its boundary, and T_f of its plan in 2.5 ns. -/
  frame : Nat
  boundary : Nat
  tF : Nat := 0
  overrun : Bool := false
  tach : Vector Nat 8 := Vector.replicate 8 0
  deriving DecidableEq, Repr

/-- An entry of a frame index (R252, R292): frame, device time of its boundary, P of its first row, and bit 63 of P. -/
structure FrameEntry where
  frame : Nat
  time : Nat
  p : Nat
  /-- T_f of its plan in 2.5 ns: of the model, which the 16 B entry does not hold. -/
  tF : Nat := 0
  allOverrun : Bool := false
  deriving DecidableEq, Repr

/-- A history ring. The rows' bytes lie in DRAM. -/
structure Ring where
  /-- P of the next row: bytes written since power-up. -/
  pos : Nat := 0
  /-- BASE and SIZE in bytes, as the memory map places the ring (R298). -/
  base : Nat
  size : Nat
  /-- Rows written since power-up and not discarded, oldest first; those that later rows overwrote are lost (R254). -/
  rows : List RingRow := []
  /-- Frame index, oldest entry first, at most 2,097,152. -/
  index : List FrameEntry := []
  /-- Entries written to the index since power-up. -/
  entries : Nat := 0
  /-- First frame of the present index epoch (R253). -/
  epoch : Nat := 0
  /-- Bytes of the row at the front of the Hall's output that have reached the port, and whether the rest is discarded (R292). -/
  taken : Nat := 0
  dropping : Bool := false
  deriving DecidableEq, Repr

/-- One correction, for DRAM_CORR_RATE (R289): uptime and symbol. -/
structure Correction where
  up : Nat
  symbol : Nat
  deriving DecidableEq, Repr

/-- The Cellar. -/
structure Cellar where
  cfg : Word := 2
  stat : Word := 0
  wi : Word := 0
  memDesc : Word := 4
  refresh : Word := 0x10
  scrub : Word := 0x18
  scrubStat : Word := 0
  inorder : Word := 0
  ecc : Vector Word 2 := Vector.replicate 2 0
  sym : Vector (Vector Word 18) 2 := Vector.replicate 2 (Vector.replicate 18 0)
  port : Vector CellarPort 6 := CellarPort.resetAll
  /-- REGIONr, BASE and SIZE of Table 16.4. -/
  region : Vector Word 11 := #v[0x20000, 0x4020, 0x4024, 0x4028, 0x402C, 0x10030, 0x20040, 0x20060, 0xC0080, 0xC0140, 0x600200]
  trnCfg : Word := 0x120
  trnAddr : Word := 0
  trnLen : Word := 0x4000
  trnCtrl : Word := 0
  trnStat : Word := 0
  trnFail : Vector Word 3 := Vector.replicate 3 0
  trnErrors : Word := 0
  phy : Vector Phy 4 := Vector.replicate 4 {}
  /-- DRAM by Cellar byte address (DESIGN CHOICE, log entry 2). -/
  mem : Sparse Byte := []
  /-- Codewords (address / 16) that a read cannot correct, until a write covers them. -/
  bad : List Nat := []
  /-- Corrected codewords that wait for their write-back (R288). -/
  owedBack : List Nat := []
  /-- ECC_LAST: address low and high word, and channel, rank, syndrome (Table 21.2). -/
  eccLast : Vector Word 3 := Vector.replicate 3 0
  /-- Corrections of the last hour per channel, newest first, at most 1,025. -/
  corrections : Vector (List Correction) 2 := Vector.replicate 2 []
  /-- Bank queues in order of arrival, and banks in in-order mode (R294). -/
  banks : List BankRequest := []
  inOrder : List Nat := []
  /-- Both ports in panic: P5 takes the next grant (R291). -/
  turn5 : Bool := false
  /-- Refreshes owed by rank 2c + k (R295), and refreshes issued. -/
  owed : Vector Nat 4 := Vector.replicate 4 0
  issued : Vector Nat 4 := Vector.replicate 4 0
  /-- Next codeword of the patrol, and uptime at which the pass began. -/
  scrubNext : Nat := 0
  scrubUp : Nat := 0
  /-- Headers of overrun rows that wait in the overrun queue (R292): address and bytes. -/
  overruns : List (Nat × List Byte) := []
  full : Ring := { base := 0x200000000, size := 0x600000000 }
  dec : Ring := { base := 0x140000000, size := 0xC0000000 }
  /-- Sizes that MEM_MAP gave regions 8 to 10, effective at the next measuring mode (R298). -/
  nextMap : Option (Nat × Nat × Nat) := none
  /-- What the Study's last read on P4 returned; none: a bus error (Table 16.2). -/
  studyRead : Option (List Byte) := some []
  deriving DecidableEq, Repr

end Sys2Proof.Machine
end

