-- ==== Sys2Proof/Rooms/Collector.lean ====
section
/-! DEFINITION. State of the fault collector (chapter 22) and of the start-up block, BIST and Larder (chapter 23). -/

namespace Sys2Proof.Machine

/-- One fault source (R387, R389). FC_CNT holds OCCUR, TRANSIENT and SEEN; RAISED and CAUSE are the two Bools. -/
structure FaultSource where
  src : Word := 0
  cnt : Word := 0
  raised : Bool := false
  /-- The condition of an L source, as its room last reported it. -/
  cond : Bool := false
  /-- Detail byte of the latest report. -/
  detail : Nat := 0
  /-- Always-on millisecond counts of the latest occurrences, newest first, at most k. -/
  history : List Nat := []
  /-- Reactions applied at the raise (R391 rule 3). -/
  applied : Nat := 0
  /-- Second of the last logged transient occurrence (R392). -/
  loggedSecond : Option Nat := none
  deriving DecidableEq, Repr

/-- The fault collector (R387 to R400). -/
structure Collector where
  stat : Word := 0
  event : Word := 0
  sources : Vector FaultSource 128
  /-- The configuration has been loaded and checked, so L conditions are watched and FAULT_N follows R395. -/
  watching : Bool := false
  /-- N and B reactions held until the target is out of reset (R391 rule 5): source and detail. -/
  held : List (Nat × Nat) := []
  /-- Reports that a block reset owes: source and detail (R393). -/
  owed : List (Nat × Nat) := []
  /-- An NMI is pending at both Study cores (R392). -/
  nmi : Bool := false
  /-- A copy or code mismatch was found (R398). -/
  corrupt : Bool := false
  deriving DecidableEq, Repr

/-- One entry of the fault history or the event log (Table 20.6, LOG_READ). -/
structure LogEntry where
  number : Nat
  time : Nat
  /-- 0 raise, 1 clear, 2 transient, 3 log event. -/
  kind : Nat
  source : Nat
  detail : Nat
  arg : Nat
  severity : Nat
  reactions : Nat
  deriving DecidableEq, Repr

/-- A repair of R418. -/
structure Repair where
  memory : Nat
  word : Nat
  bit : Nat
  /-- true: a spare row, false: a spare column. -/
  row : Bool
  spare : Nat
  deriving DecidableEq, Repr

/-- A calibration record, CAL_BASE or CAL_LAST (R113). -/
structure CalRecord where
  refs : Vector Word 4 := Vector.replicate 4 0
  taps : Vector Word 12 := Vector.replicate 12 0x80
  factors : Vector (Vector Word 48) 12 := Vector.replicate 12 (Vector.replicate 48 0)
  time : Nat := 0
  /-- Firmware version in the ID_FW layout. -/
  fw : Word := 0
  /-- The record can be read. -/
  valid : Bool := false
  deriving DecidableEq, Repr

/-- DRAM_TRAIN (R297): MEM_DESC and the trained PHY settings. -/
structure DramTrain where
  memDesc : Word
  phy : Vector Phy 4
  deriving DecidableEq, Repr

/-- The entries before the newest of each record kind (R420). -/
structure LarderOld where
  calBase : CalRecord := {}
  calLast : CalRecord := {}
  dramTrain : Option DramTrain := none
  repairs : List Repair := []
  rollback : Nat := 0
  faultCfg : List (Nat × Word) := []
  deriving DecidableEq, Repr

/-- The Larder journal (R420, R421): the value of each record kind is its newest counted entry. -/
structure Larder where
  calBase : CalRecord := {}
  calLast : CalRecord := {}
  dramTrain : Option DramTrain := none
  repairs : List Repair := []
  rollback : Nat := 0
  cursor : Nat := 0
  /-- FAULT_CFG: journalled FC_SRC words of changed sources (R399). -/
  faultCfg : List (Nat × Word) := []
  old : LarderOld := {}
  faultLog : List LogEntry := []
  eventLog : List LogEntry := []
  /-- Entries written since production (LOG_READ). -/
  written : Nat := 0
  /-- Dropped entries not yet reported in a LOG_DROPS entry. -/
  drops : Nat := 0
  /-- The newest entry is SHUTDOWN_OK (R419). -/
  shutdownOk : Bool := true
  /-- BIST_STALE stands: it outlasts a power cycle whose SHUTDOWN completed no run (R419). -/
  bistStale : Bool := false
  /-- A torn entry stands at the head (R420). -/
  torn : Bool := false
  lastTime : Nat := 0
  /-- Codewords written since production; the journal spreads them over its 524,288 codewords (R420, R421). -/
  wearCount : Nat := 0
  dayBytes : Nat := 0
  /-- Uptime at which the 24 h of `dayBytes` began. -/
  dayUp : Nat := 0
  /-- UDP sessions' highest accepted SEQ (R393): session and SEQ. -/
  udpSeq : List (Nat × Nat) := []
  /-- Per leg: surveyed length in points and reflections (R38). -/
  surveyLength : Vector Nat 2 := Vector.replicate 2 0
  surveyReflections : Vector (List (Nat × Nat)) 2 := Vector.replicate 2 []
  deriving DecidableEq, Repr

/-- What runs on the Study (R405, R408). -/
inductive BootPhase where
  | off
  | rom
  | hold
  | firmware
  | ready
  deriving DecidableEq, Repr

/-- A BIST run (R416, R417): failing bits found, each with whether a spare covers it, and the spares allocated, oldest first. -/
structure Bist where
  running : Bool := false
  budgetMs : Nat := 0
  usedMs : Nat := 0
  /-- Data background of the present pass, 0 to 3: all zero, checkerboard, row stripe, column stripe. -/
  background : Nat := 0
  failing : List (Nat × Nat × Nat × Bool) := []
  repaired : List Repair := []
  deriving DecidableEq, Repr

/-- Start-up registers of Table 23.4 and the boot flow. BIST_STAT.CURSOR and REPAIRS read from the Larder. -/
structure Startup where
  bootStat : Word := 0
  larderStat : Word := 0
  bistStat : Word := 0
  pwrCtrl : Word := 0
  phase : BootPhase := .off
  /-- Uptime at which the boot ROM began to read the first stage (R405 step 4). -/
  bootUp : Nat := 0
  image : Word := 0
  imageRollback : Nat := 0
  /-- The rails are good and RESET_N is high, so power-on reset may be released (R403). -/
  railsGood : Bool := true
  /-- A chip reset's restart of the journalled plan is due (R394). -/
  restartPlan : Bool := false
  /-- Uptime of the watchdog's last service (R388). -/
  watchdogUp : Nat := 0
  bist : Bist := {}
  /-- Production repairs in the fuses (R417). -/
  fuses : List Repair := []
  /-- The start follows an abrupt power loss (R419). -/
  powerLoss : Bool := false
  /-- The slot that FW_ACTIVATE starts (R369). -/
  activate : Option Nat := none
  /-- DRAM training in progress (R296, R297): uptime at which it began, and whether it is full training. -/
  training : Option (Nat × Bool) := none
  deriving DecidableEq, Repr

/-- The power domains of Table 1.2 and the pins sampled at reset. -/
structure Power where
  study : Bool := false
  cellar : Bool := false
  front : Bool := false
  loft : Bool := false
  hearth : Bool := false
  /-- MASTER_SEL as latched at power-on reset release (R403). -/
  masterSel : Bool := false
  deriving DecidableEq, Repr

end Sys2Proof.Machine
end

