-- ==== Sys2Proof/Rooms/Probe.lean ====
section
/-! DEFINITION. State of the probe scheduler and synthesiser (chapter 3, R42 to R64). -/

namespace Sys2Proof.Machine

/-- A leg of a probe table bank: leg descriptor W0 to W3 and eight slot descriptors W0 to W7 (Tables 3.3 and 3.4). -/
structure LegBank where
  w : Vector Word 4
  slot : Vector (Vector Word 8) 8
  deriving DecidableEq, Repr

/-- The reset leg descriptor and slot descriptors. -/
def LegBank.reset : LegBank :=
  { w := #v[0x0008080C, 0, 0x00140040, 0]
    slot := Vector.replicate 8 #v[0x8, 0, 0, 0, 0, 0x640, 0x7333, 0x640] }

/-- A probe table bank: the frame descriptor and both legs (R62). -/
structure Bank where
  tF : Nat := 0
  e : Nat := 0
  leg : Vector LegBank 2 := Vector.replicate 2 LegBank.reset
  deriving DecidableEq, Repr

/-- A table memory (R50): loaded entries I and Q of one slot. -/
structure SlotTable where
  i : List Int := []
  q : List Int := []
  loaded : Bool := false
  deriving DecidableEq, Repr

/-- A plan change that waits for its effective frame (R33, R61, R62). -/
structure PendingPlan where
  bank : Bank
  mode : Nat
  ng : Nat
  /-- Effective frame of the plan in force; none when the device is not measuring. -/
  atFrame : Option Nat
  /-- Table memories as the command found them (R50, TABLE_LOAD). -/
  tables : Vector (Vector SlotTable 8) 2
  deriving DecidableEq, Repr

/-- A plan that has been in force, or is to be: the number, over all plans, of its frame 0, its table with E, its first trace numbers and mode. -/
structure PastPlan where
  base : Nat
  bank : Bank
  planTrace : Vector (Vector Nat 8) 2
  mode : Nat
  deriving DecidableEq, Repr

/-- The probe scheduler. -/
structure Probe where
  /-- The bank that launches use, and the one that firmware writes (R62). -/
  active : Bank := {}
  shadow : Bank := {}
  /-- n_g × 10,000 (R9), newest first: the frame, counted over all plans, from which each value holds. -/
  ngs : List (Nat × Nat) := [(0, 14682)]
  running : Bool := false
  /-- The plan in force left REST, the start state or SURVEY (R365). -/
  fresh : Bool := false
  /-- Frame number k and index j of the next launch of each leg (R42, R43). -/
  frame : Vector Nat 2 := Vector.replicate 2 0
  next : Vector Nat 2 := Vector.replicate 2 0
  /-- Next trace number of each slot row (R60). -/
  trace : Vector (Vector Nat 8) 2 := Vector.replicate 2 (Vector.replicate 8 0)
  /-- Effective trace of the plan in force per slot row (R146). -/
  planTrace : Vector (Vector Nat 8) 2 := Vector.replicate 2 (Vector.replicate 8 0)
  /-- Number, over all plans, of frame 0 of the plan in force: the model's own count. -/
  frameBase : Nat := 0
  /-- The plan before the one in force: traces and versions of its last frames may still be to come. -/
  past : Option PastPlan := none
  /-- Table memories as loaded (R50), and as the plan in force uses them. -/
  tables : Vector (Vector SlotTable 8) 2 := Vector.replicate 2 (Vector.replicate 8 {})
  inUse : Vector (Vector SlotTable 8) 2 := Vector.replicate 2 (Vector.replicate 8 {})
  pending : Option PendingPlan := none
  /-- Frame, counted over all plans, in which the Raman channel of each leg started (R57). -/
  ramanFrame : Vector Nat 2 := Vector.replicate 2 0
  ramanOn : Vector Bool 2 := Vector.replicate 2 false
  /-- DAC lanes I, Q of each leg as last driven: the codes of the last launch's playout (R48, R52). -/
  played : Vector (List (Int × Int)) 2 := Vector.replicate 2 []
  /-- Device time of their first playout clock. -/
  playedAt : Vector Nat 2 := Vector.replicate 2 0
  /-- Chips of the last Raman burst of each leg, and the device time of their first playout clock (R56, R57). -/
  burst : Vector (List Bool) 2 := Vector.replicate 2 []
  burstAt : Vector Nat 2 := Vector.replicate 2 0
  /-- First and last device time of the last gate on-window of each leg (R53). -/
  gateWindow : Vector (Nat × Nat) 2 := Vector.replicate 2 (0, 0)
  deriving DecidableEq, Repr

end Sys2Proof.Machine
end

