-- ==== Sys2Proof/Rooms/Firmware.lean ====
section
/-! DEFINITION. State of Study firmware that the manual describes: OMP stores, stamped changes, the long operation, modes,
survey, security, staging (chapters 2, 13, 19, 20, 23). -/

namespace Sys2Proof.Machine

/-- Where a UDP request came from (R323). -/
structure UdpTag where
  session : Nat
  seq : Nat
  source : Nat
  deriving DecidableEq, Repr

/-- A request in a pending store (R348, R363). -/
structure Request where
  msg : Msg
  udp : Option UdpTag := none
  /-- Payload after the message in its datagram (R362). -/
  bulk : List Byte := []
  /-- Uptime of acceptance of a bulk command that waits for its buffer. -/
  waitUp : Option Nat := none
  deriving DecidableEq, Repr

/-- A stamped change (R22, R364, R365). -/
structure Stamped where
  code : Nat
  tag : Nat
  leg : Nat
  /-- Effective trace in the lowest active slot row of the leg, and its frame, counted over all plans; none: held until the next MODE_SET that
  starts a measuring mode. -/
  eff : Option Nat
  frame : Option Nat
  /-- It was accepted before its plan (R365), so its application is reported. -/
  held : Bool
  /-- Parameters after the AT block, and the bulk payload. -/
  words : List Word
  bulk : List Byte
  /-- A second part of the change before it: counted and reported with that one. -/
  also : Bool := false
  deriving DecidableEq, Repr

/-- The running long operation (R366). -/
structure LongOp where
  code : Nat
  tag : Nat
  /-- Mailbox channel 0 to 7, or 8 for UDP. -/
  carrier : Nat
  udp : Option UdpTag
  /-- Lock taken by its LOCK word (R367). -/
  lock : Option Nat
  abort : Bool := false
  /-- Parameter words. -/
  words : List Word := []
  /-- Steps done. -/
  step : Nat := 0
  deriving DecidableEq, Repr

/-- An event waiting to be sent (R371): its code, its sequence count, its payload words, its place in the order of readiness (R250), and
the device time that orders it where it carries a trace or time stamp. -/
structure EventMsg where
  code : Nat
  seq : Nat
  payload : List Word
  order : Nat
  stamp : Option Nat := none
  deriving DecidableEq, Repr

/-- A message of a response that waits for its outbound queue, with its place in the order of readiness (R250, R360). -/
structure OutMsg where
  order : Nat
  msg : Msg
  deriving DecidableEq, Repr

/-- Survey results of one leg (R37 to R39). -/
structure SurveyLeg where
  on : Bool := false
  /-- Windows completed, 0 to 80, and traces averaged in the present window. -/
  windows : Nat := 0
  traces : Nat := 0
  /-- Coherent gain code set for the present window, and the sum of A² over its points and traces so far. -/
  gain : Nat := 0
  power : Nat := 0
  complete : Bool := false
  length : Nat := 0
  /-- Position and strength. -/
  reflections : List (Nat × Nat) := []
  loss : List Nat := []
  baseline : List Nat := []
  /-- Energy of the survey's compression reference (R126). -/
  refEnergy : Nat := 0
  deriving DecidableEq, Repr

/-- The security state (R370). -/
structure Security where
  key : Option (List Word) := none
  nonce : Option (List Word) := none
  nonceUp : Nat := 0
  /-- Uptimes of the latest refusals, newest first. -/
  refusals : List Nat := []
  lockUntil : Option Nat := none
  deriving DecidableEq, Repr

/-- A firmware image staged by FW_STAGE. -/
structure Staging where
  /-- Bytes staged per slot A, B. -/
  staged : Vector Nat 2 := Vector.replicate 2 0
  deriving DecidableEq, Repr

/-- Phases of the optical start and stop (R40, R41, R61, R410, R414). -/
inductive Optical where
  | idle
  | selfCal
  | tecWait
  | fadeIn
  | running
  | quiet
  | surveyDone
  | fadeOut
  | draining
  deriving DecidableEq, Repr

/-- Study firmware. -/
structure Firmware where
  /-- Pending stores of MB0 to MB7 (64 messages each), and the UDP receive queue. -/
  inbox : Vector (List Request) 9 := Vector.replicate 9 []
  /-- Messages waiting for each outbound queue. -/
  out : Vector (List OutMsg) 8 := Vector.replicate 8 []
  /-- Event and alarm queues, with their sequence counts and dropped alarms: 0 MB0, 1 MB6, 2 + d UDP destination d (R250, R371). -/
  events : Vector (List EventMsg) 18 := Vector.replicate 18 []
  eventSeq : Vector Nat 18 := Vector.replicate 18 0
  alarms : Vector (List EventMsg) 18 := Vector.replicate 18 []
  alarmDropped : Vector Nat 18 := Vector.replicate 18 0
  /-- Messages that have become ready so far. -/
  order : Nat := 0
  /-- Bulk buffers read on DMA channel 2 and not yet taken, oldest first. -/
  bulk : List (List Byte) := []
  stamped : List Stamped := []
  long : Option LongOp := none
  /-- A MODE_SET to SURVEY that was accepted during SURVEY: it begins as the old one ends, at its effective trace (R36). -/
  surveyNext : Option LongOp := none
  /-- An accepted SHUTDOWN that waits for the running operation to end (R415). -/
  down : Option LongOp := none
  /-- Mode in force, coded as MODE_SET; the start state reads 0. -/
  mode : Nat := 0
  startState : Bool := true
  optical : Optical := .idle
  /-- Uptime at which the optical phase began. -/
  opticalUp : Nat := 0
  /-- FLAGS of the MODE_SET response: ILOCK asserted, TEC not settled. -/
  flags : Nat := 0
  /-- A retrim is due at the first frame boundary of the plan (R107). -/
  survey : Vector SurveyLeg 2 := Vector.replicate 2 {}
  surveyPartial : Bool := false
  /-- The last completed SURVEY of each leg since power-up (R126). -/
  surveyDone : Vector SurveyLeg 2 := Vector.replicate 2 {}
  sec : Security := {}
  staging : Staging := {}
  /-- Journalled plan, and the stamped settings that have taken effect, for a restart after chip reset (R394). -/
  journal : Option PendingPlan := none
  journalStamped : List Stamped := []
  /-- SHUTDOWN has completed; class Q only (R414). -/
  shut : Bool := false
  deriving DecidableEq, Repr

end Sys2Proof.Machine
end

