-- ==== Sys2Proof/Rooms/Hall.lean ====
section
/-! DEFINITION. State of the Hall: received samples, slot rows, Raman accumulators, filter chain and replay (chapters 1, 5, 7 to 10). -/

namespace Sys2Proof.Machine

/-- The coherent words of one converter cycle of a leg (R84 to R86): codes, OVR on any of them (R85, R98), gap and gain-step markers,
gain code. -/
structure CohWord where
  xi : Int
  xq : Int
  yi : Int
  yq : Int
  ovr : Bool
  gap : Bool
  step : Bool
  gain : Nat
  deriving DecidableEq, Repr

/-- A launched trace that the Hall has not yet processed (R18, R55, R60, R280), and what its row header needs. -/
structure Launch where
  leg : Nat
  slot : Nat
  trace : Nat
  /-- Frame number over all plans, and the device time of its boundary. -/
  frame : Nat
  boundary : Nat
  /-- Playout sample index n_L and launch stamp. -/
  index : Nat
  stamp : Nat
  /-- The launch was suppressed (LAUNCH_LATE, R18). -/
  late : Bool
  /-- Snapshot of each tach, 64 bits (R280). -/
  tach : Vector Nat 8
  /-- The plan it was launched under: leg bank, DETAIL, T_f in 2.5 ns units, effective trace of its slot row. -/
  bank : LegBank
  detail : Bool
  /-- It is a trace of SURVEY, which leaves no row (R37). -/
  survey : Bool
  tF : Nat
  planTrace : Nat
  /-- The table its slot played, where the slot is a table (R50). -/
  table : SlotTable
  /-- Number, over all plans, of frame 0 of its plan. -/
  base : Nat
  /-- The leg was in replay at the launch (R25). -/
  replay : Bool
  deriving DecidableEq, Repr

/-- State of a slot-row location (Table 8.1). -/
structure RowLoc where
  e : Nat := 0
  ph : Int := 0
  p1 : Int := 0
  p2 : Int := 0
  pv : Bool := false
  run : Bool := false
  ev : Bool := false
  deriving DecidableEq, Repr

/-- State of a slot row: traces since the clearing, smoothed noise N̂ of R125 (none before the first usable window), the locations, and the
points whose first trace after a gap is still to come (R110). -/
structure SlotRow where
  j : Nat := 0
  /-- Its settling span has ended: a change of τ starts none (R144). -/
  settled : Bool := false
  noise : Option Nat := none
  loc : List RowLoc := []
  gapOwed : List Bool := []
  deriving DecidableEq, Repr

/-- A row as the Hall or the chain delivers it (R146, R189): 64 header bytes, values as 16-bit words, quality codes. -/
structure StoredRow where
  leg : Nat
  slot : Nat
  trace : Nat
  stamp : Nat
  frame : Nat
  boundary : Nat
  /-- T_f of its plan, in 2.5 ns. -/
  tF : Nat
  header : List Byte
  values : List Nat
  quality : List Nat
  reason : Nat
  /-- Tach snapshots of its trace (R280). -/
  tach : Vector Nat 8
  deriving DecidableEq, Repr

/-- A merged sample of every location on its way to the chain (R136). -/
structure Merged where
  slot : Nat
  trace : Nat
  stamp : Nat
  frame : Nat
  boundary : Nat
  /-- Place of the trace in its frame: 0 at a frame boundary. -/
  place : Nat
  values : List Nat
  quality : List Nat
  reason : Nat
  bank : LegBank
  detail : Bool
  tF : Nat
  tach : Vector Nat 8
  /-- The first trace of a plan: the chain resets (Table 2.3). -/
  opens : Bool
  /-- SURVEY begins here: no sample, the chain is held in reset (Table 2.3). -/
  hold : Bool := false
  deriving DecidableEq, Repr

/-- An exclusion entry (R155): frame within the span, first and last point, cause: [0] gap, [1] gain step, [2] OVR. -/
structure Exclusion where
  frame : Nat
  first : Nat
  last : Nat
  cause : Nat
  deriving DecidableEq, Repr

/-- A reference section (R158, Table 9.2). -/
structure RefSection where
  first : Nat
  last : Nat
  entry : Nat
  tk : List Nat
  deriving DecidableEq, Repr

/-- The parameters of a leg's temperature channel (Table 9.2). -/
structure TempParams where
  seconds : Nat := 30
  calMode : Nat := 2
  gamma : Nat := 41517056
  dalpha : Int := 0
  lnc : Int := 0
  ref1 : Option RefSection := none
  ref2 : Option RefSection := none
  holdMax : Nat := 10
  deriving DecidableEq, Repr

/-- A housekeeping result stamped for the temperature channel (R94): frame trace, entry, HK_RES [12:0]. -/
structure HkStamp where
  trace : Nat
  entry : Nat
  res : Nat
  deriving DecidableEq, Repr

/-- A start of the channel (R162): its frame over all plans, the frame trace, the playout index of the frame's boundary once it has been launched, T_f in
2.5 ns units, and what the channel runs under from it. -/
structure RamanRun where
  frame : Nat := 0
  trace : Nat := 0
  index : Option Nat := none
  tF : Nat := 0
  offset : Nat := 0
  delay : Nat := 0
  len : Nat := 0
  ramanLen : Nat := 0
  deriving DecidableEq, Repr

/-- A Raman window that the cell decodes (R153 to R166): first and last frame trace, first frame over all plans, first stamp, spans summed so far, frames per
phase, L, RAMAN_LEN, direct gain codes, and the parameters that apply to it (R163). -/
structure RamanWindow where
  frame : Nat := 0
  first : Nat := 0
  last : Nat := 0
  stamp : Nat := 0
  spans : Nat := 0
  frames : Nat := 0
  len : Nat := 0
  ramanLen : Nat := 0
  stG : Nat := 0
  asG : Nat := 0
  par : TempParams := {}
  /-- Window sums Σ_φ per phase, keyed as the accumulators. -/
  sums : Vector (Sparse Nat) 4 := Vector.replicate 4 []
  /-- Exclusions with the span they belong to. -/
  exclusions : List (Nat × Exclusion) := []
  overflow : Bool := false
  /-- Housekeeping results stamped in the window (R158). -/
  hk : List HkStamp := []
  /-- The channel has restarted since: the calibration held in the window's own run, and its misses (R161). -/
  own : Option (Option (Int × Int × Nat) × Nat) := none
  /-- A snapshot of it found the Landing's staging full (R200). -/
  late : Bool := false
  deriving DecidableEq, Repr

/-- The Raman accumulators and temperature channel of a leg. -/
structure Raman where
  cfg : Word := 2
  span : Word := 0xEA60
  start : Word := 0
  stat : Word := 0
  wi : Word := 0
  par : TempParams := {}
  /-- Parameters that a TEMP_CAL replaced, newest first: they hold for windows whose last frame comes before the frame given (R163). -/
  oldPars : List (Nat × TempParams) := []
  /-- Accumulators per phase (R152), keyed 131,072 × lane + point. -/
  acc : Vector (Sparse Nat) 4 := Vector.replicate 4 []
  /-- The start that the channel runs from. -/
  run : RamanRun := {}
  /-- Exclusion lists of the present span and of the span before it, with their overflow flags (R155). -/
  excl : List Exclusion := []
  exclFull : Bool := false
  exclSpan : Nat := 0
  exclPrev : List Exclusion := []
  exclPrevFull : Bool := false
  /-- Index of the last direct word, and of the last one with OVR on either lane (R151). -/
  lastIndex : Option Nat := none
  lastOvr : Option Nat := none
  /-- A start whose first word has not arrived yet (R162). -/
  starting : Option RamanRun := none
  /-- Direct gain codes of the present window's first word. -/
  gains : Nat × Nat := (0, 0)
  /-- Snapshots due so far since the start: span × 4 + phase of the next one. -/
  snapNext : Nat := 0
  /-- Previous snapshot per phase, and the window being summed (R154). -/
  prev : Vector (Sparse Nat) 4 := Vector.replicate 4 []
  window : RamanWindow := {}
  /-- Windows whose sums are complete and that wait for decoding, oldest first. -/
  ready : List RamanWindow := []
  /-- Bytes of snapshots that wait in the Landing while the cell has a window to decode (R200; DEDUCED, log entry 90). -/
  staged : Nat := 0
  hk : List HkStamp := []
  /-- Consecutive windows whose calibration needs were not met, and the last computed LNC, DALPHA, GAMMA (R161). -/
  misses : Nat := 0
  held : Option (Int × Int × Nat) := none
  /-- The latest 64 rows, newest first (R166): first and last frame trace and the row's bytes. -/
  rows : List (Nat × Nat × List Byte) := []
  /-- Rows written since power-up. -/
  count : Nat := 0
  /-- A row of the present run has been written (R165), and the latest row's calibration needs were not met (R161). -/
  done : Bool := false
  wanting : Bool := false
  /-- Tach snapshots and launch stamps of the frame traces at which windows begin, by frame (Tables 9.3 and 13.2). -/
  marks : List (Nat × Vector Nat 8 × Nat) := []
  deriving DecidableEq, Repr

/-- The coefficients of R177. -/
structure Coefs where
  aDc : Int := 0
  /-- b0, b1, b2, a1, a2 of each notch section. -/
  sec1 : Vector Int 5 := #v[536870912, 0, 0, 0, 0]
  sec2 : Vector Int 5 := #v[536870912, 0, 0, 0, 0]
  deriving DecidableEq, Repr

/-- Chain state of a location (Table 10.1). -/
structure ChainLoc where
  mm : Int := 0
  s11 : Int := 0
  s21 : Int := 0
  s12 : Int := 0
  s22 : Int := 0
  i1 : Nat := 0
  i2 : Nat := 0
  i3 : Nat := 0
  i4 : Nat := 0
  e1 : Nat := 0
  e2 : Nat := 0
  e3 : Nat := 0
  e4 : Nat := 0
  h1 : Int := 0
  h2 : Int := 0
  deriving DecidableEq, Repr

/-- A running fade of the chain (R184): coefficients at its start, RESPs, samples done, FADE_LEN, slot row and trace of its first sample. -/
structure ChainFade where
  old : Coefs
  from_ : Nat
  target : Nat
  done : Nat
  len : Nat
  slot : Nat
  trace : Nat
  deriving DecidableEq, Repr

/-- The filter chain of a leg. SETTLING, FADING and PENDING of CHAIN_STAT read from the fields. -/
structure Chain where
  cfg : Word := 0x200
  resp : Word := 0x148A
  ctrl : Word := 0
  stat : Word := 0
  gd : Word := 0xC8A16
  out : Word := 0
  /-- Traces waiting for the engine. -/
  input : List Merged := []
  /-- Merged samples since the reset trace, and the reset trace. -/
  m : Nat := 0
  resetTrace : Nat := 0
  loc : List ChainLoc := []
  /-- Response and coefficients in force, D_settle of the run. -/
  now : Nat := 0x148A
  coefs : Coefs := {}
  settle : Nat := 0
  fade : Option ChainFade := none
  /-- Swap held pending (R185): its RESP. -/
  held : Option Nat := none
  /-- Qualities per location and reason word of the latest inputs, newest first, at most 6R − 3. -/
  recent : List (List Nat × Nat) := []
  /-- Last trace processed: slot row and trace, and its launch stamp. -/
  last : Nat × Nat := (0, 0)
  lastStamp : Nat := 0
  /-- A reset is due at the next frame boundary processed, with its cause of Table 20.4. -/
  due : Option Nat := none
  /-- Device times at or after which the first frame boundary resets the chain: Causeway tokens (R188). -/
  resets : List Nat := []
  deriving DecidableEq, Repr

/-- Replay of a leg (R25, R97 to R99). -/
structure Replay where
  on : Bool := false
  /-- Whole blocks in the leg's half of the buffer, oldest first, and the bytes after them. -/
  blocks : List (List Byte) := []
  part : List Byte := []
  /-- The DMA channel has stopped: replay ends after the blocks held (R319). -/
  closing : Bool := false
  /-- Index that the next block must begin at; none before the first. -/
  next : Option Nat := none
  /-- TACH records: tach, index, word, newest first. -/
  tach : List (Nat × Nat × Nat) := []
  /-- GAIN records, newest first: index, SEL, code. -/
  gains : List (Nat × Nat × Nat) := []
  /-- Playout index of the first launch of the replay, and its frame of the plan: later launches are placed relative to it (R99). -/
  origin : Option (Nat × Nat) := none
  /-- FIRST_INDEX of the block in which a format error was found. -/
  errorIndex : Option Nat := none
  /-- Last trace numbered in replay, of the lowest active slot row (REPLAY_STOP). -/
  lastTrace : Nat := 0
  deriving DecidableEq, Repr

/-- The Hall of one leg: front registers, phase registers and what the stages hold. -/
structure Hall where
  frontCfg : Word := 0x00A00041
  frontRel : Word := 0xCCD
  frontStat : Word := 0
  frontFaded : Word := 0
  nref : Vector Word 8 := Vector.replicate 8 0x10000
  prof : Vector Word 80 := Vector.replicate 80 0
  phaseCfg : Word := 5
  alignK : Word := 0x4189
  phaseSet : Word := 0x1388
  phaseStat : Word := 0
  /-- Coherent words received, by sample index, and the index expected next. -/
  samples : Sparse (Option CohWord) := []
  nextIndex : Option Nat := none
  rows : Vector SlotRow 8 := Vector.replicate 8 {}
  /-- Frame 0, over all plans, of the plan that slot-row state, ALIGN_K, PHASE_SET and NREF stand for. -/
  base : Option Nat := none
  /-- Slot row and place of the trace processed last: the predecessor of R136. -/
  lastSlot : Option Nat := none
  raman : Raman := {}
  chain : Chain := {}
  replay : Replay := {}
  /-- A leg block reset: the next frame boundary is a clearing (R393). -/
  reset : Bool := false
  /-- The Raman channel restarts at the next frame boundary (R393). -/
  ramanAgain : Bool := false
  deriving DecidableEq, Repr

/-- What both legs share: launches in launch order, rows on ST2 and ST4, the straits' sequence state, and the state bits that the Loft reads. -/
structure Halls where
  leg : Vector Hall 2 := Vector.replicate 2 {}
  launches : List Launch := []
  /-- Rows on their way to P0 and to P5, in ring order. -/
  out0 : List StoredRow := []
  out5 : List StoredRow := []
  /-- Decimated rows on their way to the Loft. -/
  loft : List StoredRow := []
  /-- Trace number and index of the last word of each kind, leg and slot row, for R16. -/
  tags : List ((Traced × Nat × Nat) × (Nat × Nat)) := []
  deriving DecidableEq, Repr

end Sys2Proof.Machine
end

