-- ==== Sys2Proof/Rooms/Hearth.lean ====
section
/-! DEFINITION. State of the Hearth: current loops, sinks, gates, coolers and the chain port (chapter 4, R65 to R81). -/

namespace Sys2Proof.Machine

/-- A fade in progress (R68): start value, target, elapsed microseconds and T in microseconds. -/
structure Fade where
  from_ : Nat
  to_ : Nat
  elapsed : Nat
  total : Nat
  deriving DecidableEq, Repr

/-- An HD or HS channel (Tables 4.3 and 4.4). HS alone uses the PWM words. -/
structure DriveChannel where
  cfg : Word := 0x07D0FF0E
  set : Word := 0
  stat : Word := 0
  fade : Option Fade := none
  /-- Consecutive samples or on-windows that met the open and the short criterion (Table 4.1). -/
  openRun : Nat := 0
  shortRun : Nat := 0
  /-- Microseconds left in which a STEP write suspends judging (R71). -/
  stepHold : Nat := 0
  pwmPer : Word := 0
  pwmOn : Word := 0
  deriving DecidableEq, Repr

/-- A gate channel. -/
structure GateChannel where
  cfg : Word := 0x00000004
  stat : Word := 0
  openRun : Nat := 0
  shortRun : Nat := 0
  deriving DecidableEq, Repr

/-- A TEC controller (R73, R74). -/
structure TecLoop where
  cfg : Word := 0x000CCC00
  tgt : Word := 0x00008800
  stat : Word := 0
  /-- KP in [15:0], KI in [31:16]. -/
  gains : Word := 0x00100800
  acc : Int := 0
  /-- Milliseconds for which |e| ≤ BAND has held, and for which |duty| has stayed at DUTY_MAX. -/
  settledMs : Nat := 0
  limitMs : Nat := 0
  /-- The sensor was bad and the loop has not resumed since (R74). -/
  faulted : Bool := false
  /-- Last SWEEP count seen and milliseconds since it advanced. -/
  sweep : Nat := 0
  staleMs : Nat := 0
  /-- The selected entry was bad at the last update: this loop's share of TEC_SENSOR's cause (R74, R387). -/
  bad : Bool := false
  deriving DecidableEq, Repr

/-- The chain port (R75 to R77). -/
structure ChainPort where
  cfg : Word := 0x00004F20
  stat : Word := 0
  data : Vector Word 16 := Vector.replicate 16 0
  ret : Vector Word 16 := Vector.replicate 16 0
  safe : Vector Word 16 := Vector.replicate 16 0
  /-- CHAIN_DATA as it stood when the running transfer started. -/
  shift : Vector Word 16 := Vector.replicate 16 0
  /-- The expanders' latched outputs. -/
  latched : Vector Word 16 := Vector.replicate 16 0
  deriving DecidableEq, Repr

/-- A setpoint change that waits for its effective frame (R70): that frame, counted over all plans, the channel (0 to 7 HD, 8 to 11 HS), and
the SET word. -/
structure SetWait where
  frame : Nat
  ch : Nat
  word : Word
  deriving DecidableEq, Repr

/-- The Hearth. -/
structure Hearth where
  hd : Vector DriveChannel 8 := Vector.replicate 8 {}
  hs : Vector DriveChannel 4 := Vector.replicate 4 {}
  gate : Vector GateChannel 2 := Vector.replicate 2 {}
  tec : Vector TecLoop 2 := Vector.replicate 2 {}
  chain : ChainPort := {}
  stat : Word := 0
  wi : Word := 0
  /-- The TEC loops run: from the MODE_SET that starts the optics until they are stopped (R73, R410, R414). -/
  tecOn : Bool := false
  /-- Setpoint changes that wait for their effective frame, in order of arrival (R70). -/
  waits : List SetWait := []
  deriving DecidableEq, Repr

end Sys2Proof.Machine
end

