-- ==== Sys2Proof/Rooms/Host.lean ====
section
/-! DEFINITION. State of the host register map blocks of chapter 21 and of the mailboxes, doorbells and locks of chapter 19. -/

namespace Sys2Proof.Machine

/-- One mailbox channel (R345 to R349). IN_FULL, IN_WORDS, OUT_FULL and OUT_LEFT read from the queues. -/
structure Mailbox where
  /-- Inbound words pushed, the header first. -/
  inq : List Word := []
  /-- Outbound words not yet read. -/
  outq : List Word := []
  /-- The sticky bits and STALLS of MBc_STAT. -/
  stat : Word := 0
  count : Word := 0
  /-- Uptime at which the stall timer last (re)started, while it runs. -/
  stallUp : Option Nat := none
  deriving DecidableEq, Repr

/-- Mailboxes, doorbells and locks (Table 19.4). -/
structure MailboxBlock where
  chan : Vector Mailbox 8 := Vector.replicate 8 {}
  dbH2d : Word := 0
  dbD2h : Word := 0
  dbMask : Word := 0xFFFFFFFF
  avail : Word := 1
  stallMs : Word := 0xA
  sec : Word := 0
  /-- Owner of each lock, 0 when free (R354). -/
  locks : Vector (Fin 6) 32 := Vector.replicate 32 0
  lockStat : Word := 0
  deriving DecidableEq, Repr

/-- MSI-X sending (R351, R384). -/
structure Msix where
  /-- Vector masks of the MSI-X table entries, one bit per vector. -/
  tableMask : Word := 0
  /-- Pending-bit array: a message held by its vector's table mask. -/
  pba : Word := 0
  /-- Vectors whose holdoff has not ended (R384): vector and uptime of the last message. -/
  lastUp : List (Nat × Nat) := []
  /-- Vectors with a message owed at the end of the holdoff. -/
  owed : List Nat := []
  /-- Messages sent, oldest first. -/
  sent : List Nat := []
  deriving DecidableEq, Repr

/-- A snapshot mailbox copy (R380). -/
structure WideMailbox where
  sel : Word := 0
  stat : Word := 0
  data : Vector Word 4 := Vector.replicate 4 0
  deriving DecidableEq, Repr

/-- Identification, interrupt, progress, summary, snapshot and write-ignored registers (Tables 21.3 to 21.7). -/
structure HostMap where
  idDevice : Word := 0x00018650
  idVendor : Word := 0x00001F3C
  idFw : Word := 0
  idStat : Word := 0
  hintCfg : Word := 1
  hintSent : Word := 0
  progStat : Word := 0
  progValue : Word := 0
  modeSum : Word := 0
  legSum : Vector Word 2 := Vector.replicate 2 0x0F800000
  sumGen : Word := 0
  /-- Snapshot copies of PCIe, SPI and debug. -/
  wide : Vector WideMailbox 3 := Vector.replicate 3 {}
  wiStat : Word := 0
  wiCapt : Word := 0
  wiData : Word := 0
  /-- The words the last register read of each requester 1 to 5 returned. -/
  readBack : Vector (List Word) 6 := Vector.replicate 6 []
  /-- The last PCIe access completed with Completer Abort (R316). -/
  abort : Bool := false
  /-- Device serial number, from the fuses. -/
  serial : Nat := 0
  deriving DecidableEq, Repr

end Sys2Proof.Machine
end

