-- ==== Sys2Proof/Rooms/Loft.lean ====
section
/-! DEFINITION. State of the Loft: cells, Landing, pools, jobs and the everywhere-band map (chapters 11 and 12), zones, detectors and the
detector vector (chapter 13). -/

namespace Sys2Proof.Machine

/-! ### Cells (R191, R214) -/

/-- An address generator. LEN 0 stands for 32,768; STEP as its 16 bits. -/
structure Gen where
  base : Nat := 0
  len : Nat := 0
  step : Nat := 0
  ptr : Nat := 0
  mode : Bool := false
  deriving DecidableEq, Repr

/-- A loop counter: iterations left, the current one included, first word and END of its body (R225). It runs while `left` is not 0. -/
structure LoopReg where
  left : Nat := 0
  start : Nat := 0
  stop : Nat := 0
  deriving DecidableEq, Repr

/-- Kinds of work (Table 11.8, WORK). -/
inductive Work where
  | map
  | zone
  | raman
  deriving DecidableEq, Repr

/-- A row as zones take it (R230, R231). -/
structure ZoneRow where
  /-- Place in the order of staging. -/
  n : Nat
  /-- 0 map, 1 decimated, 2 temperature. -/
  src : Nat
  leg : Nat
  slot : Nat
  /-- TRACE, STAMP and launch frame of the row's first trace. -/
  trace : Nat
  stamp : Nat
  frame : Nat
  /-- Its evaluation trace and that trace's frame: LAST_TRACE of a temperature row (R238). -/
  evalTrace : Nat
  evalFrame : Nat
  /-- Its place among the rows of its source: block, merged sample, or first frame. -/
  pos : Nat
  reason : Nat
  values : List Nat
  quality : List Nat
  /-- It carries NO_HISTORY, BASELINE_SETTLING or SETTLING (R235); it is the first output after a synchronising reset. -/
  settling : Bool
  opens : Bool
  /-- It found the staging full (R200). -/
  lag : Bool
  /-- Groups of a map row whose block was withheld (R24). -/
  lostGroups : List Nat := []
  /-- Spacing of the rows in ns, as a fraction. -/
  spacing : Nat × Nat
  tach : Vector Nat 8
  deriving DecidableEq, Repr

/-- A job (R202, R207): its stream, its program and budget, its windows in the Landing, and what its results need. -/
structure Job where
  work : Work
  leg : Nat
  /-- Group of a map job, zone of a zone job. -/
  item : Nat
  /-- Block index of a map job. -/
  block : Nat := 0
  image : Nat
  budget : Nat
  /-- Corner-turn slot that holds the input. -/
  slot : Option Nat := none
  /-- Landing addresses of its input and table windows, and of its state page (R207). -/
  inBase : Nat
  tabBase : Nat
  pageBase : Nat
  /-- First trace of the input, and its frame over all plans. -/
  trace : Nat
  frame : Nat
  /-- The input, and the table followed by the parameter page, as the job reads them (Tables 11.3, 13.2). -/
  input : List Byte
  tab : List Byte
  reason : Nat := 0
  /-- A zone job: its row, whether it is the last of its evaluation (R231), and the run of the zone it belongs to. -/
  row : Option ZoneRow := none
  eval : Bool := false
  gen : Nat := 0
  /-- Codewords of a block that the job has not copied yet, by their place in it: with the last its slot is released (R200). -/
  toCopy : List Nat := []
  deriving DecidableEq, Repr

/-- A cell. -/
structure Cell where
  d : Vector (Vector Int 4) 16 := Vector.replicate 16 (Vector.replicate 4 0)
  a : Vector (Vector Int 4) 4 := Vector.replicate 4 (Vector.replicate 4 0)
  sc : Vector Word 8 := Vector.replicate 8 0
  g : Vector Gen 4 := Vector.replicate 4 {}
  lp : Vector LoopReg 2 := Vector.replicate 2 {}
  bexp : Int := 0
  peak : Nat := 0
  pc : Nat := 0
  /-- Words issued of the present job. -/
  issued : Nat := 0
  /-- Data memory by half-word address; an unlisted half-word reads 0. -/
  mem : Sparse (BitVec 16) := []
  job : Option Job := none
  /-- The store buffer (R222): the codeword it stands for, and the half-words of it that wait, [0] the first. -/
  buf : Option (Nat × Nat) := none
  /-- Program memory, and the image that it was loaded from (R191, R204): none once a codeword of it cannot be corrected. -/
  prog : List (BitVec 64) := []
  image : Option Nat := none
  /-- TRAPPED, CAUSE and JOBS of CELLc_STAT; BUSY and POOL read from the state. -/
  stat : Word := 0
  /-- Codewords of the data memory that a read cannot correct. -/
  bad : List Nat := []
  /-- A block reset of the Loft abandons its job (R393). -/
  dropped : Bool := false
  deriving DecidableEq, Repr

/-- A loaded program image (R205): place of its code, initialisation and table in the Landing, and header fields. -/
structure Image where
  at_ : Nat
  complex : Bool
  codeWords : Nat
  initBytes : Nat
  entry : Nat
  budget : Nat
  pageBytes : Nat
  tableBytes : Nat
  check : Nat
  /-- Place of its table in the area of pages and tables. -/
  tab : Nat := 0
  deriving DecidableEq, Repr

/-- A pool (Table 11.8). -/
structure Pool where
  cfg : Word := 0
  quad : Word := 0
  quadh : Word := 0
  cplx : Word := 0
  deriving DecidableEq, Repr

/-- The default pools of Table 11.4. INSTR_BUDGET comes from the image: of SPEC8 and RAMAN1, whose headers the manual does not print, the largest value; 0 of a
pool that has no image of its own (DESIGN CHOICE, log entry 100). -/
def Pool.resetAll : Vector Pool 8 :=
  #v[{ cfg := 1, quad := 0xFFFFFFFF, quadh := 0x0000FFFF, cplx := 0xFFFFFF00 }, { cfg := 3, quadh := 0xFFFF0000 }, { cfg := 0x15, cplx := 0xFFFFFF03 },
     { cfg := 3, cplx := 0xFC },
     {}, {}, {}, {}]

/-! ### The map (R198, R209 to R212) -/

/-- Results of one group of a block. -/
structure GroupResult where
  group : Nat
  /-- 8 levels per location, 32 locations. -/
  levels : List Nat
  quality : List Nat
  reason : Nat
  deriving DecidableEq, Repr

/-- A map row in assembly. -/
structure MapAssembly where
  leg : Nat
  block : Nat
  trace : Nat
  stamp : Nat
  frame : Nat
  slot : Nat
  len : Nat
  flags : Nat
  reason : Nat
  tach : Vector Nat 8
  /-- The nine band edges in force for the block, in 1/16 bin (R209). -/
  edges : List Nat
  groups : List GroupResult
  deriving DecidableEq, Repr

/-- The map of a leg: registers, the plan it runs on, and the next block and group to deliver. -/
structure MapLeg where
  cfg : Word := 0x10004
  edge : Vector Word 7 := #v[0x20, 0x40, 0x80, 0x100, 0x200, 0x400, 0x600]
  /-- Frame, over all plans, of merged sample 0 (R199), with the leg bank, DETAIL and T_f of its plan. -/
  base : Option (Nat × LegBank × Bool × Nat) := none
  block : Nat := 1
  group : Nat := 0
  rows : List MapAssembly := []
  deriving DecidableEq, Repr

/-- A row that a store in DRAM holds for its readers (R300): place in the stream of the store, length, and what its reader needs. -/
structure StoreRow where
  p : Nat
  len : Nat
  leg : Nat
  /-- Block of a map row, zone of a result record. -/
  item : Nat
  trace : Nat
  stamp : Nat
  frame : Nat
  deriving DecidableEq, Repr

/-- A ring of map rows, or of zone result records, in DRAM: bytes and rows written since power-up; old ones are overwritten. -/
structure RowStore where
  pos : Nat := 0
  rows : List StoreRow := []
  deriving DecidableEq, Repr

/-! ### Zones (R229 to R251) -/

/-- A detector: registers and the raw bits of its last valid evaluations, newest first (R237). -/
structure Detector where
  cfg : Word := 0x01000101
  stat : Word := 0
  raw : List Bool := []
  deriving DecidableEq, Repr

/-- An edge of an ALARM message (Table 13.7): detector, set or clear, c, MODE, VALUE, mean, LOCATION. -/
structure AlarmEdge where
  det : Nat
  set : Bool
  count : Nat
  mode : Nat
  value : Nat
  mean : Nat
  location : Nat
  deriving DecidableEq, Repr

/-- A delivered evaluation that waits for its apply frame (R238), or the restart of a zone (`clear`, R240). -/
structure Evaluation where
  /-- Frame of its last row, and frame and device time from which it applies. -/
  frame : Nat
  applyFrame : Nat
  applyTime : Nat
  trace : Nat := 0
  index : Nat := 0
  det : Nat := 0
  edges : List AlarmEdge := []
  /-- Leg, frame of its last row's first trace, and result record (R248). -/
  leg : Nat := 0
  rowFrame : Nat := 0
  record : List Byte := []
  clear : Bool := false
  deriving DecidableEq, Repr

/-- What a zone gathers over the rows of an evaluation, and a library zone keeps between evaluations. -/
structure ZoneRun where
  /-- Rows of the present evaluation taken, evaluations done, rows taken since the start row, and place of the last row. -/
  rows : Nat := 0
  evals : Nat := 0
  taken : Nat := 0
  last : Option Nat := none
  /-- Of the present evaluation: a row settled, an input was lost, a job was abandoned. -/
  settling : Bool := false
  lag : Bool := false
  trapped : Bool := false
  /-- Θ, values and qualities of the rows so far, newest first. -/
  gathered : List (Nat × List Nat × List Nat) := []
  /-- Per-location baseline of ZTEMP. -/
  baseline : List (Option Int) := []
  histogram : List Nat := []
  persistence : List Nat := []
  deriving DecidableEq, Repr

/-- A change of a zone that takes effect at a frame (R233, R240). -/
inductive ZoneDue where
  | restart
  /-- ZONE_SET: register words from ZONEz_CFG on, parameter page. -/
  | set (words : List Word) (page : List Byte)
  | enable (on : Bool)
  /-- A register word written while a cleared ENABLE waits: ZONEz_CFG, SPAN, PAGE, OUT, APPLY, DETz_d_CFG from 5 on (R17, R233). -/
  | word (k : Nat) (w : Word)
  /-- ZONE_PARAM: from the first evaluation that begins at or after the frame. -/
  | param (page : List Byte)
  deriving DecidableEq, Repr

/-- A zone context. -/
structure Zone where
  cfg : Word := 0x40020
  span : Word := 0x20000
  page : Word := 0
  out : Word := 0xB
  stat : Word := 0
  apply : Word := 0
  det : Vector Detector 8 := Vector.replicate 8 {}
  /-- A ZONE_SET has configured it since power-up. -/
  configured : Bool := false
  /-- Parameter page in force (R233). -/
  param : List Byte := []
  /-- Changes and the frame each takes effect at, in order of acceptance. -/
  due : List (Nat × ZoneDue) := []
  /-- Frame, over all plans, from which its start row counts (R231); none while it is off. -/
  from_ : Option Nat := none
  /-- Restarts so far: the model's own count, which ties a job to its run. -/
  gen : Nat := 0
  /-- Staged rows before this place have been looked at. -/
  seen : Nat := 0
  run : ZoneRun := {}
  /-- Evaluations delivered whose apply frame has no committed version yet. -/
  waiting : List Evaluation := []
  /-- Bits of the zone in the latest version. -/
  bits : Nat := 0
  deriving DecidableEq, Repr

/-- The vector unit (R238, R239, R251). -/
structure VectorUnit where
  /-- Next frame, over all plans, whose version is to be committed; none while no plan runs. -/
  next : Option Nat := none
  bits : Vector Word 64 := Vector.replicate 64 0
  frameTime : Nat := 0
  latchBits : Vector Word 64 := Vector.replicate 64 0
  latchHi : Word := 0
  stat : Word := 0
  /-- VEC_FRAME_LO has been read once: DETVEC reads the latch. -/
  latched : Bool := false
  /-- The version to be committed has been held for a full trigger queue (R239). -/
  held : Bool := false
  deriving DecidableEq, Repr

/-- The Loft. -/
structure Loft where
  cfg : Word := 2
  stat : Word := 0
  wi : Word := 0
  ecc : Word := 0
  zoneWi : Word := 0
  map : Vector MapLeg 2 := Vector.replicate 2 {}
  pool : Vector Pool 8 := Pool.resetAll
  cell : Vector Cell 72 := Vector.replicate 72 {}
  /-- The Landing by byte address (Table 11.2); an unlisted byte reads 0. -/
  landing : Sparse Byte := []
  /-- Landing codewords that a read cannot correct. -/
  bad : List Nat := []
  images : Vector (Option Image) 64 := Vector.replicate 64 none
  /-- State pages of the streams of user images that are no zones: work, leg, group, bytes (R202, R227). The manual gives them no place in the Landing. -/
  pages : List (Work × Nat × Nat × List Byte) := []
  /-- Corner-turn slots in use. -/
  slots : List Nat := []
  /-- Jobs whose input is complete, in order of readiness. -/
  jobs : List Job := []
  /-- Settings of pools that jobs with earlier input still take (R204): first frame of the later setting, pool, setting; newest first. -/
  past : List (Nat × Nat × Pool) := []
  /-- Rows for zones, oldest first, and the place of the next one. -/
  staged : List ZoneRow := []
  nextRow : Nat := 0
  mapStore : RowStore := {}
  zoneStore : RowStore := {}
  /-- Temperature rows (R166) in the order of writing: `p` counts them, `item` is the DRAM address. -/
  tempStore : RowStore := {}
  zone : Vector Zone 256 := Vector.replicate 256 {}
  vec : VectorUnit := {}
  deriving DecidableEq, Repr

end Sys2Proof.Machine
end

