-- ==== Sys2Proof/Rooms/Porch.lean ====
section
/-! DEFINITION. State of the Porch ports and the Causeway (chapters 18 and 19): PCIe, DMA, Ethernet, SPI, debug port, I2C, flash,
and of the output streams (chapter 17). -/

namespace Sys2Proof.Machine

/-- PCIe link, MSI-X aside (R315, R316, R319). -/
structure Pcie where
  link : Bool := false
  perst : Bool := true
  configReady : Bool := false
  d3hot : Bool := false
  deriving DecidableEq, Repr

/-- What the device wrote back into a descriptor in host memory (R310, R318): its address, USED and STATUS; OWN is cleared. -/
structure DescDone where
  addr : Nat
  used : Nat
  status : Nat
  /-- Bytes the device wrote to the buffer (device-to-host side only). -/
  data : List Byte
  deriving DecidableEq, Repr

/-- The host-to-device side of a DMA channel (R318). -/
structure H2dChannel where
  /-- The chain waits for its doorbell. -/
  waiting : Bool := true
  /-- NEXT of the last descriptor read; 0 ends the chain. -/
  next : Nat := 0
  /-- Buffers read. -/
  count : Nat := 0
  /-- A replay buffer under way, for which its half had no room: bytes not yet read, and the write-back owed once they are. -/
  rest : List Byte := []
  back : Option DescDone := none
  deriving DecidableEq, Repr

/-- An entry of the destination table (R321). -/
structure Destination where
  set : Bool := false
  port : Nat := 0
  v6 : Bool := false
  addr : Nat := 0
  srcPort : Nat := 0
  dstPort : Nat := 0
  gateway : Nat := 0
  streams : Bool := false
  events : Bool := false
  resolved : Bool := false
  deriving DecidableEq, Repr

/-- A UDP session (R324): answered SEQ values with their responses, newest first, at most 16; SEQ values accepted and not yet answered. -/
structure UdpSession where
  session : Nat
  answered : List (Nat × List Word) := []
  waiting : List Nat := []
  /-- Highest SEQ accepted. -/
  last : Nat := 0
  /-- Highest SEQ accepted before the last Study reset (R393). -/
  floor : Option Nat := none
  deriving DecidableEq, Repr

/-- An Ethernet port (Table 18.7, R320). -/
structure EthPort where
  cfg : Word := 0x8D000108
  stat : Word := 0
  drop : Word := 0
  /-- The identification fuses' MAC address; the address NET_SET gave, 0: none. -/
  fuse : Nat := 0
  mac : Nat := 0
  ip4 : Nat := 0
  ip6 : Nat := 0
  deriving DecidableEq, Repr

/-- What the PTP port sends (R274): times in 2^-16 ns of the PTP timescale, and whom it answers. -/
inductive PtpSent where
  | delayReq
  | delayResp (dest : Nat) (receive correction : Int)
  | pdelayReq
  | pdelayResp (dest : Nat) (receive : Int)
  | pdelayRespFollowUp (dest : Nat) (response correction : Int)
  /-- The answer to a management GET. -/
  | got (dest : Nat)
  deriving DecidableEq, Repr

/-- What the Ethernet ports have sent, oldest first. -/
inductive EthOut where
  /-- An OMP datagram (R323): session, SEQ, FLAGS, message words. -/
  | omp (session seq flags : Nat) (words : List Word)
  /-- An unsolicited OMP message to a destination entry. -/
  | event (dest : Nat) (seq : Nat) (words : List Word)
  /-- A stream datagram (R312): destination, stream, block SEQ, FRAG, FRAGS, bytes. -/
  | block (dest stream seq frag frags : Nat) (data : List Byte)
  /-- An ARP or NDP probe of a destination entry (R321). -/
  | probe (dest : Nat)
  /-- An echo reply or an ARP or NDP answer of a port. -/
  | reply (port : Nat)
  /-- A PTP message of a port in a domain, with its sequence number (R274). -/
  | ptp (port domain seq : Nat) (m : PtpSent)
  deriving DecidableEq, Repr

/-- Ethernet and IP state (R320 to R325). -/
structure Eth where
  port : Vector EthPort 2 := Vector.replicate 2 {}
  dest : Vector Destination 16 := Vector.replicate 16 {}
  /-- The allow list: four entries of a source address. -/
  allow : Vector (Option Nat) 4 := Vector.replicate 4 none
  ctlPort : Nat := 50865
  /-- Sessions, most recently used first, at most eight. -/
  sessions : List UdpSession := []
  /-- Requests refused with NOT_ALLOWED (R325). -/
  notAllowed : Nat := 0
  /-- The device's own SEQ for unsolicited messages. -/
  seq : Nat := 0
  sent : List EthOut := []
  deriving DecidableEq, Repr

/-- The management SPI slave (R326, R327). -/
structure Spi where
  /-- Error bits to report in the next transaction. -/
  owed : Nat := 0
  /-- Status byte of the last transaction. -/
  status : Nat := 0
  deriving DecidableEq, Repr

/-- The debug access register (R342). -/
structure Dbg where
  data : Word := 0
  offset : Nat := 0
  write : Bool := false
  done : Bool := false
  errDomain : Bool := false
  /-- What the last Capture-DR loaded. -/
  captured : BitVec 52 := 0
  connected : Bool := false
  deriving DecidableEq, Repr

/-- An I2C master (R328). -/
structure I2c where
  stuck : Bool := false
  /-- Module pages 0x50 and 0x51 as last read. -/
  page50 : List Byte := []
  page51 : List Byte := []
  deriving DecidableEq, Repr

/-- A Causeway member as seen in HELLO (R331, R332). -/
structure Member where
  serial : Nat
  strap : Bool
  locked : Bool
  /-- Port on which its HELLO last arrived, hops it had travelled, uptime of arrival. -/
  port : Nat
  hops : Nat
  lastUp : Nat
  deriving DecidableEq, Repr

/-- A frame this device has sent on the Causeway (R331). -/
structure CwFrame where
  port : Nat
  type : Nat
  srcId : Nat
  hops : Nat
  seq : Nat
  payload : List Byte
  deriving DecidableEq, Repr

/-- The Causeway (R330 to R340). -/
structure Causeway where
  cfg : Word := 0x6
  stat : Word := 0
  hop : Vector Word 2 := Vector.replicate 2 0xFFFFFFFF
  err : Vector Word 2 := Vector.replicate 2 0
  members : List Member := []
  /-- Uptime since which the membership has held. -/
  heldUp : Nat := 0
  stable : Bool := false
  /-- Serials of the stable membership, ascending. -/
  ring : List Nat := []
  /-- Sets of members whose verdicts are awaited, newest first, each from the frame time it takes effect at; at most eight (R338). -/
  awaited : List (Nat × List Nat) := []
  /-- Ports that went down after they had been up (R337). -/
  fallen : Vector Bool 2 := Vector.replicate 2 false
  /-- Port of the TIME neighbour and its hops from the master (R335). -/
  timePort : Option (Nat × Nat) := none
  timeHops : Vector (Option Nat) 2 := Vector.replicate 2 none
  lockRun : Nat := 0
  stepped : Bool := false
  /-- Phase error of the last TIME frame, in 1/1,024 ns. -/
  phaseError : Int := 0
  /-- R_A − R_B of the hop exchanges of each port (R334). -/
  exchanges : Vector (List Int) 2 := Vector.replicate 2 []
  /-- EPOCH held: E and T_f (R336). -/
  epoch : Option (Nat × Nat) := none
  /-- Next SEQ of each frame type. -/
  seq : Vector Nat 16 := Vector.replicate 16 0
  /-- (SRC_ID, TYPE, SEQ) taken. -/
  taken : List (Nat × Nat × Nat) := []
  /-- Uptime of the last comma and the last HELLO of each port. -/
  helloUp : Vector Nat 2 := Vector.replicate 2 0
  /-- Serials of the members that a split has left reachable, until the membership is stable again (R338). -/
  segment : Option (List Nat) := none
  /-- The full set is owed as MEMBER once the membership is stable (R339). -/
  rejoin : Bool := false
  sent : List CwFrame := []
  deriving DecidableEq, Repr

/-- A block ready to be written (R308). -/
structure Block where
  bytes : List Byte
  /-- 0 DATA, 1 GAP, 2 START, 3 END. -/
  type : Nat
  /-- SEQ values of the records whose last byte the block holds (R301). -/
  ends : List Nat
  deriving DecidableEq, Repr

/-- A gap that has not been sent yet (R309, Table 17.4): first stamp not delivered, ITEMS, CAUSE. -/
structure GapOwed where
  from_ : Nat
  items : Nat
  cause : Nat
  deriving DecidableEq, Repr

/-- An output stream (R300 to R314). -/
structure Stream where
  cfg : Word := 0x0000A680
  span : Word := 0
  sel : Word := 0
  headLo : Word := 0
  headHi : Word := 0
  udp : Word := 0x00204000
  stat : Word := 0
  blocks : Word := 0
  gaps : Word := 0
  /-- STRs_HEAD_HI as the last read of STRs_HEAD_LO latched it. -/
  headLatch : Word := 0
  /-- Original bytes not yet cut, original bytes cut before them, offsets of the prefixes that start among them, and ends of records. -/
  rest : List Byte := []
  cut : Nat := 0
  prefixes : List Nat := []
  ends : List (Nat × Nat) := []
  /-- Items of the source counted since START. -/
  itemSeq : Nat := 0
  /-- Frame, over all plans, at or after which its first item begins, and the place from which the next item is looked for: record SEQ,
  P of a ring or store, number of a temperature row. -/
  startFrame : Nat := 0
  nextItem : Nat := 0
  /-- Device time of the last item. -/
  lastTime : Nat := 0
  /-- SEQ of the next block. -/
  seq : Nat := 0
  /-- A START block is owed: effective trace and device time of the start. -/
  start : Option (Nat × Nat) := none
  owed : List GapOwed := []
  /-- Blocks that wait for a buffer or for staging, and blocks in staging (UDP). -/
  ready : List Block := []
  staged : List Block := []
  /-- The open buffer, the address of the last descriptor closed (0: none), bytes in the buffer, status bits [1] and [2], uptime of its first block,
  records that end in it. -/
  cur : Option D2hDescriptor := none
  lastDesc : Nat := 0
  data : List Byte := []
  inside : Nat := 0
  firstUp : Nat := 0
  done : List Nat := []
  /-- Cause of the END block to be written. -/
  ending : Option Nat := none
  /-- The END block has been made and is on its way. -/
  endMade : Bool := false
  /-- Registers of a redefinition that starts after the END block: CFG, SPAN, SEL, HEAD_LO, HEAD_HI, UDP (Table 17.5). -/
  redefine : Option (List Word) := none
  deriving DecidableEq, Repr

/-- The compression engine and the stream reader. -/
structure Streams where
  cfg : Word := 0
  stat : Word := 0
  wi : Word := 0
  str : Vector Stream 8 := Vector.replicate 8 {}
  deriving DecidableEq, Repr

/-- The ports. -/
structure Porch where
  pcie : Pcie := {}
  h2d : Vector H2dChannel 3 := Vector.replicate 3 {}
  /-- Descriptors written back, oldest first. -/
  done : List DescDone := []
  eth : Eth := {}
  /-- PORCH_WI. -/
  wi : Word := 0
  spi : Spi := {}
  dbg : Dbg := {}
  i2c : Vector I2c 3 := Vector.replicate 3 {}
  /-- The QSPI flash, 64 MiB by address (R329); an unlisted byte reads 0xFF. -/
  flash : Sparse Byte := []
  /-- A flash write that firmware has under way: address and bytes (FLASH_WRITE_DONE). -/
  flashWrite : Option (Nat × List Byte) := none
  deriving DecidableEq, Repr

end Sys2Proof.Machine
end

