-- ==== Sys2Proof/Rooms/Threshold.lean ====
section
/-! DEFINITION. State of Threshold: gain, lanes, self-calibration, housekeeping (chapter 5) and trims (chapter 6). -/

namespace Sys2Proof.Machine

/-- A gain request that waits for its sample index (R87, R100). -/
structure GainRequest where
  index : Nat
  /-- COH_G, and ST_G with AS_G, where the request carries them: a change of one leaves the other as it is in force. -/
  coh : Option Nat := none
  dir : Option (Nat × Nat) := none
  /-- AUTO, GAIN_MIN and GAIN_MAX that take effect with it. -/
  cfg : Option Word := none
  /-- An automatic step (R88). -/
  auto : Bool := false
  deriving DecidableEq, Repr

/-- A leg's Threshold registers and ranging window (R86 to R90). -/
structure ThrLeg where
  cfg : Word := 0xE2
  req : Word := 0
  at_ : Word := 0
  stat : Word := 0
  lane : Word := 0
  /-- The armed or commanded coherent request, and the direct-lane request of a temperature command (R87); GAIN_STAT.PENDING reads
  1 while there is one. -/
  pending : Option GainRequest := none
  direct : Option GainRequest := none
  /-- The latest code changes, newest first: sample index, COH_G, ST_G and AS_G from it on. -/
  steps : List (Nat × Nat × Nat × Nat) := []
  /-- An automatic step decided for the next launch of the lowest active slot: up or down (R88). -/
  auto : Option Bool := none
  /-- Sample index at which the evaluation window began, peak absolute code and OVR over it. -/
  winStart : Nat := 0
  peak : Nat := 0
  ovr : Bool := false
  deriving DecidableEq, Repr

/-- The housekeeping sequencer (R94, R95). -/
structure Housekeeping where
  cfg : Word := 0x2E
  sweep : Word := 0
  open_ : Word := 0
  ent : Vector Word 24 := ⟨((List.range 24).map (fun m => BitVec.ofNat 32 (m + 0x480))).toArray, by simp⟩
  res : Vector Word 24 := Vector.replicate 24 0
  next : Nat := 0
  /-- Completed sweeps modulo 65,536, and 500 ns units of the present sweep. -/
  count : Nat := 0
  units : Nat := 0
  deriving DecidableEq, Repr

/-- A calibration gap in progress (R59, R103): sample index and device time of its first sample. -/
structure Gap where
  first : Nat
  time : Nat
  deriving DecidableEq, Repr

/-- The trim engine and monitor (R101 to R108). DUE, HOLDOFF, DEFERRED and RUNNING of TRIM_STAT read from the fields below. -/
structure Trim where
  cfg : Word := 0x40
  defer : Word := 0
  stat : Word := 0
  ref : Vector Word 4 := Vector.replicate 4 0
  dly : Vector Word 12 := Vector.replicate 12 0x80
  /-- Device time at which the due retrim fell due. -/
  due : Option Nat := none
  /-- TRIM_CTRL.REQ: set by its write, cleared as its gap starts. -/
  req : Bool := false
  gap : Option Gap := none
  /-- First sample index of the last gap that ended: words of it may still arrive. -/
  lastGap : Option Nat := none
  /-- Uptime of the end of the previous gap; none: the hold-off is waived. -/
  gapEndUp : Option Nat := none
  /-- Uptimes of retrim starts of the last 24 h, newest first. -/
  starts : List Nat := []
  /-- References are to be taken from the first sweep (R113), and a retrim falls due at the first plan. -/
  refsOwed : Bool := false
  /-- A retrim falls due at the first frame boundary of the next plan (R113, R419). -/
  planOwed : Bool := false
  deriving DecidableEq, Repr

/-- Threshold. -/
structure Threshold where
  leg : Vector ThrLeg 2 := Vector.replicate 2 {}
  /-- 96 factors per lane, two in each of 48 words. -/
  calf : Vector (Vector Word 48) 12 := Vector.replicate 12 (Vector.replicate 48 0)
  hk : Housekeeping := {}
  trim : Trim := {}
  stat : Word := 0
  wi : Word := 0
  /-- Uptime at which a self-calibration began, while it runs (R92). -/
  calUp : Option Nat := none
  deriving DecidableEq, Repr

end Sys2Proof.Machine
end

