-- ==== Sys2Proof/Rooms/Time.lean ====
section
/-! DEFINITION. State of the time base, the time-interval unit and the tach capture (chapter 15, R267 to R283). -/

namespace Sys2Proof.Machine

/-- The PTP port as TIME_CFG sets it (R274, Table 15.5) and what it has received. -/
structure PtpPort where
  port : Nat := 0
  profile : Nat := 0
  domain : Nat := 0
  logSync : Int := 0
  logAnnounce : Int := 1
  receiptTimeout : Nat := 3
  /-- 0 slave-only, 1 master-capable. -/
  role : Nat := 0
  /-- Consecutive valid Sync exchanges (R271). -/
  syncRun : Nat := 0
  /-- Offset from the master in 2^-16 ns (TIME_READ). -/
  offset : Int := 0
  /-- The selected master: the source of its messages and its clock. -/
  master : Option (Nat × PtpClock) := none
  /-- A master-capable port that is itself the domain's master. -/
  leads : Bool := false
  /-- Sources of Announces and the uptime of the latest from each. -/
  heard : List (Nat × Nat) := []
  /-- Uptimes of the selected master's latest Announce and Sync. -/
  announceUp : Nat := 0
  syncUp : Nat := 0
  /-- currentUtcOffset of the selected master. -/
  utcOffset : Int := 0
  /-- A two-step Sync whose Follow_Up is awaited: sequence number, receive time less correction. -/
  begun : Option (Nat × Int) := none
  /-- Receive time less origin of the latest Sync. -/
  ahead : Option Int := none
  /-- The delay request that awaits its answer: sequence number, send time. -/
  asked : Option (Nat × Int) := none
  /-- A two-step peer response whose Follow_Up is awaited: sequence number, round trip less receive time and correction. -/
  turned : Option (Nat × Int) := none
  /-- Mean path delay in 2^-16 ns. -/
  delay : Option Int := none
  /-- Sequence number of the next delay request. -/
  seq : Nat := 0
  /-- Messages discarded under R274. -/
  discarded : Nat := 0
  deriving DecidableEq, Repr

/-- The time base (R267 to R275). Device time is `up + epoch` modulo 2^64. -/
structure TimeBase where
  /-- Units of 0.25 ns since power-on reset; ten of them are one converter cycle (R268), so it also counts sample indices. -/
  up : Nat := 0
  /-- Device time at `up = 0`; a time step (R270) changes only this. -/
  epoch : Nat := 0
  timeStat : Word := 0
  cfg : Word := 0x000E1001
  steer : Word := 0
  setLo : Word := 0
  setHi : Word := 0
  stat : Word := 0
  wi : Word := 0
  /-- The loop's frequency estimate, in TB_STEER units, and its values over the last 60 s of lock with their uptimes (R272). -/
  freqEst : Int := 0
  freqLog : List (Nat × Int) := []
  /-- Uptime at which holdover began; HOLD_SECONDS reads from it. -/
  holdUp : Option Nat := none
  /-- Device time of the last accepted PPS_IN edge (Table 21.2). -/
  ppsLast : Nat := 0
  /-- Device times of the latest PPS_IN edges, newest first, at most 3 (R271). -/
  ppsEdges : List Nat := []
  /-- The source that has given the second phase (R270). -/
  phasedBy : Option Nat := none
  /-- Uptime of the discipline loop's latest update (R269). -/
  loopUp : Nat := 0
  /-- TIME_SET, PTP or the ring master has given the epoch seconds (R270). -/
  seconds : Bool := false
  /-- Device time at which PPS_OUT last rose; it is high for 100 ms (Table 15.1). -/
  ppsRise : Option Nat := none
  tpllLocked : Bool := true
  samplePllLocked : Bool := true
  ptp : PtpPort := {}
  deriving DecidableEq, Repr

/-- What the TIU waits for (Sequence 15.1). -/
inductive TiuPhase where
  | idle
  | armed
  | running
  deriving DecidableEq, Repr

/-- The time-interval unit (R276, R277). -/
structure Tiu where
  cfg : Word := 0
  stopSel : Word := 0
  stat : Word := 0
  cal : Word := 0
  res : Vector Word 8 := Vector.replicate 8 0xFFFFFFFF
  phase : TiuPhase := .idle
  /-- Uptime of GO. -/
  goUp : Nat := 0
  /-- The TIU_MEASURE command that waits for the results: carrier, tag (R277). -/
  asker : Option (Nat × Nat) := none
  /-- Its UDP session, SEQ and source. -/
  askerUdp : Option UdpTag := none
  /-- Coarse count and code of the start event, its device time and its uptime. -/
  startCount : Nat := 0
  startCode : Int := 0
  startTime : Nat := 0
  startUp : Nat := 0
  deriving DecidableEq, Repr

/-- One tach input (R278 to R283). -/
structure Tach where
  cfg : Word := 0x00019000
  stall : Word := 0x7D0
  stat : Word := 1
  /-- Counted edges since enabling, newest first: device time, whether it counted up, COUNT after it (modulo 2^48). The two
  newest are kept, and those a snapshot of a trace not yet processed may need. -/
  trail : List (Nat × Bool × Nat) := []
  /-- Accepted input level. -/
  level : Bool := false
  /-- Uptime of the last counted edge, or of enabling. -/
  sinceUp : Nat := 0
  /-- Firmware's copies (R281) and the distance per pulse in nm (R282). -/
  cfgCopy : Word := 0x00019000
  stallCopy : Word := 0x7D0
  distanceNm : Nat := 0
  deriving DecidableEq, Repr

end Sys2Proof.Machine
end

