-- ==== Sys2Proof/Rooms/Trigger.lean ====
section
/-! DEFINITION. State of the trigger units, the copier and the record store (chapter 14, R252 to R266). -/

namespace Sys2Proof.Machine

/-- A committed version as a unit's queue holds it (R239, R256, R259): its frame, the frame's device time, the 64 vector words. -/
structure Version where
  frame : Nat
  time : Nat
  vector : List Word
  deriving DecidableEq, Repr

/-- The registers of a unit that TRIG_SET writes (Table 14.5). -/
structure TrigConfig where
  cfg : Word := 0x224
  pre : Word := 0
  post : Word := 1
  hold : Word := 1
  first : Word := 0
  count : Word := 4
  interval : Word := 0x100
  period : Word := 1
  value : List Word := []
  care : List Word := []
  /-- The host asked for the minimum HOLD (R259). -/
  holdMin : Bool := false
  deriving DecidableEq, Repr

/-- A state change that falls due at a version (R256). -/
inductive TrigDue where
  | config (c : TrigConfig)
  | arm
  /-- An ARM token: the ring units that the group has then (R260). -/
  | armRing (group : Nat)
  | disarm
  | fire
  /-- Ring restart (R253, R261). -/
  | restart
  /-- A measuring mode resumes after SURVEY (Table 14.2). -/
  | resume
  /-- SURVEY, else REST or the safe state: no version follows until a plan starts (Table 14.2). -/
  | stop (survey : Bool)
  deriving DecidableEq, Repr

/-- Table 14.1. -/
inductive TrigState where
  | idle
  | filling
  | armed
  | rearm
  deriving DecidableEq, Repr

/-- A trigger unit. -/
structure TrigUnit where
  c : TrigConfig := {}
  ctrl : Word := 0
  /-- TRUNCATED, WAITING and the counts of TRIGu_STAT; STATE reads from `state`. -/
  stat : Word := 0
  early : Nat := 0
  rearms : Nat := 0
  fireLo : Word := 0
  fireHi : Word := 0
  /-- TRIGu_FIRE_HI as the last read of TRIGu_FIRE_LO latched it. -/
  fireLatch : Word := 0
  state : TrigState := .idle
  /-- Arming frame A, and frame of the last fire F_0. -/
  armFrame : Nat := 0
  fireFrame : Nat := 0
  /-- The pattern held at the last version judged; true where none was committed (R255). -/
  prevMatch : Bool := true
  /-- State changes and the frame each falls due at, in order of acceptance. -/
  due : List (Nat × TrigDue) := []
  /-- Frames named by host FIREs (R255). -/
  fires : List Nat := []
  queue : List Version := []
  /-- The unit was not IDLE when SURVEY was entered (Table 14.2). -/
  wasLive : Bool := false
  /-- Key of its last record, whose copy its re-arming waits for (R259). -/
  lastRecord : Option Nat := none
  deriving DecidableEq, Repr

/-- The overview of a leg in a record (R265): trace of its first row, rows of the present interval, intervals closed and their bytes. -/
structure Overview where
  first : Option Nat := none
  rows : List (Nat × List Nat × List Nat) := []
  intervals : Nat := 0
  bytes : List Byte := []
  deriving DecidableEq, Repr

/-- A record that waits for the copier or is being copied (R258, R262). -/
structure Record where
  /-- The model's own number of the record, in order of fires. -/
  key : Nat
  unit : Nat
  c : TrigConfig
  fireFrame : Nat
  fireTime : Nat
  fireTrace : Vector Nat 2
  firstTime : Nat
  /-- Frames before and from F that the record includes. -/
  pre : Nat
  post : Nat
  cause : Nat
  flags : Nat
  early : Nat
  rearms : Nat
  vector : List Word
  /-- Bytes that it asks for in the record store, by the plan of its frames. -/
  need : Nat
  /-- Set when the copier takes it (R263): SEQ, and its place and room in the record store. -/
  seq : Option Nat := none
  base : Nat := 0
  room : Nat := 0
  /-- Bytes of body written, items, lost rows, reasons so far, and P from which the next row is looked for. -/
  body : Nat := 0
  items : Nat := 0
  lost : Nat := 0
  reason : Nat := 0
  nextP : Nat := 0
  overs : Vector Overview 2 := Vector.replicate 2 {}
  deriving DecidableEq, Repr

/-- A record in the store (RECORD_LIST). -/
structure Stored where
  seq : Nat
  base : Nat
  /-- Its bytes, and the room it holds in the store. -/
  size : Nat
  room : Nat
  unit : Nat
  fireTime : Nat
  flags : Nat
  deriving DecidableEq, Repr

/-- A ring verdict word (R260). -/
structure Verdict where
  /-- Device time of the frame's boundary. -/
  time : Nat
  /-- Serial of the device that sent it. -/
  device : Nat
  groups : Nat
  /-- It did not arrive within 10 ms and was taken as 0. -/
  missing : Bool := false
  deriving DecidableEq, Repr

/-- Trigger units, copier and record store. -/
structure Triggers where
  units : Vector TrigUnit 16 := Vector.replicate 16 {}
  /-- COPY_LOST, TRIG_WI; COPY_STAT reads from the lists below, but for STORE_WAIT. -/
  copyLost : Word := 0
  storeWait : Bool := false
  wi : Word := 0
  /-- Fired records, in the order of R262; the first is being copied once its `seq` is set. -/
  fired : List Record := []
  nextKey : Nat := 0
  nextSeq : Nat := 0
  /-- Records whose header is written, in order of SEQ. -/
  store : List Stored := []
  verdicts : List Verdict := []
  deriving DecidableEq, Repr

end Sys2Proof.Machine
end

