-- ==== Sys2Proof/Machine/State.lean ====
section
/-! DEFINITION. The state of the block, its faults and refusals, and the state after power-on reset. -/

namespace Sys2Proof.Machine

/-- Why a step stops with a fault. -/
inductive Fault where
  /-- An access names a DRAM address beyond the fitted capacity, where no memory exists (R286). Raised by the
  Cellar's memory steps. Safe: the model stops where the manual gives no effect. -/
  | noSuchDramAddress
  deriving DecidableEq, Repr

/-- Why a step is refused. -/
inductive Refusal where
  /-- The command has no meaning in the model yet. Raised by Dispatch alone. Safe. -/
  | notModelled (mnemonic : String)
  deriving DecidableEq, Repr

/-- The state of the block: every room of the manual, the queue of waiting commands, and the count of free values drawn. -/
structure State where
  /-- Commands that wait, first in, first out. -/
  pending : List Instr
  /-- Free values drawn so far: the model's own field (DESIGN CHOICE, log entry 1). -/
  free : Nat
  time : TimeBase
  tiu : Tiu
  tach : Vector Tach 8
  power : Power
  boot : Startup
  larder : Larder
  fc : Collector
  host : HostMap
  mb : MailboxBlock
  msix : Msix
  porch : Porch
  streams : Streams
  cw : Causeway
  fw : Firmware
  probe : Probe
  hearth : Hearth
  thr : Threshold
  cellar : Cellar
  trig : Triggers
  halls : Halls
  loft : Loft
  deriving DecidableEq, Repr

/-- FC_SRC reset word of a source: EN = 1, UNIT = 1, and severity, reactions, k and W of Table 22.1. -/
def fcReset (severity react k w : Nat) : Word :=
  BitVec.ofNat 32 (1 + 2 * severity + 8 * react + 512 * k + 8192 + 16384 * w)

/-- Table 22.1: source, severity, reactions ([0] I, [1] N, [2] B, [3] C, [4] F, [5] S), k, W in seconds. COLLECTOR_CFG's
reactions are fixed (R398); its k and W are not counted. -/
def faultDefaults : List (Nat × Nat × Nat × Nat × Nat) :=
  [(0x00, 2, 0x11, 1, 1), (0x01, 3, 0x11, 1, 1), (0x02, 1, 0x01, 1, 1), (0x03, 2, 0x11, 1, 1), (0x04, 2, 0x11, 1, 1),
   (0x05, 3, 0x11, 1, 1), (0x06, 2, 0x11, 1, 1), (0x07, 1, 0x01, 1, 1), (0x08, 1, 0x01, 3, 10), (0x09, 3, 0x11, 1, 1),
   (0x0A, 3, 0x31, 1, 1)] ++
  [(0x10, 2, 0x11, 1, 1), (0x11, 1, 0x01, 3, 10), (0x12, 1, 0x01, 1, 1), (0x13, 1, 0x01, 1, 1), (0x14, 1, 0x01, 1, 1),
   (0x15, 2, 0x01, 8, 1), (0x16, 3, 0x31, 1, 1)] ++
  [(0x20, 2, 0x05, 1, 1), (0x21, 2, 0x01, 1, 1), (0x22, 1, 0x01, 1, 1), (0x23, 1, 0x01, 1, 1), (0x24, 1, 0x01, 1, 1),
   (0x25, 1, 0x01, 3, 1), (0x26, 2, 0x05, 1, 1), (0x27, 1, 0x01, 1, 1)] ++
  [(0x30, 1, 0x01, 1, 1), (0x31, 1, 0x01, 1, 1), (0x32, 1, 0x01, 1, 1)] ++
  [(0x40, 2, 0x01, 1, 1), (0x41, 1, 0x01, 1, 1), (0x42, 1, 0x01, 1, 1), (0x43, 3, 0x11, 1, 1), (0x44, 2, 0x01, 1, 1)] ++
  [(0x50, 1, 0x01, 3, 1), (0x51, 2, 0x01, 1, 1), (0x52, 1, 0x01, 1, 1), (0x53, 1, 0x01, 1, 1), (0x54, 1, 0x01, 1, 1),
   (0x55, 1, 0x01, 1, 1), (0x56, 1, 0x01, 1, 1), (0x57, 2, 0x01, 1, 1)] ++
  [(0x60, 1, 0x01, 1, 1), (0x61, 2, 0x11, 1, 1), (0x62, 1, 0x01, 1, 1), (0x63, 1, 0x01, 1, 1), (0x64, 3, 0x31, 1, 1)] ++
  [(0x70, 3, 0x31, 1, 1), (0x71, 3, 0x31, 1, 1), (0x72, 2, 0x11, 1, 1), (0x73, 3, 0x31, 1, 1), (0x74, 2, 0x07, 1, 1),
   (0x75, 3, 0x09, 1, 1), (0x76, 2, 0x07, 1, 1), (0x77, 2, 0x01, 1, 1), (0x78, 1, 0x01, 1, 1), (0x79, 0, 0x00, 1, 1),
   (0x7A, 1, 0x01, 1, 1), (0x7B, 3, 0x33, 1, 1)]

/-- The fault source registers after power-on reset: Table 22.1; reserved numbers read 0 (R387). ILOCK_N is low until driven: its ball has a
pull-down (R78). -/
def FaultSource.reset (n : Nat) : FaultSource :=
  match faultDefaults.find? (fun r => r.1 == n) with
  | some (_, sev, re, k, w) => { src := fcReset sev re k w, cond := n == 0x09 }
  | none => {}

/-- The collector after power-on reset: FAULT_N low until the configuration is checked (R395). -/
def Collector.reset : Collector :=
  { stat := 2, sources := ⟨((List.range 128).map FaultSource.reset).toArray, by simp⟩ }

/-- The block right after power-on reset has taken effect: rails good, registers at their Reset entries, the always-on isle
alone powered, the Study not yet started (R403, R405 step 2; DESIGN CHOICE, log entries 4 and 5). -/
def State.reset : State where
  pending := []
  free := 0
  time := {}
  tiu := {}
  tach := Vector.replicate 8 {}
  power := {}
  boot := {}
  larder := {}
  fc := Collector.reset
  host := {}
  mb := {}
  msix := {}
  porch := {}
  streams := {}
  cw := {}
  fw := {}
  probe := {}
  hearth := {}
  thr := {}
  cellar := {}
  trig := {}
  halls := {}
  loft := {}

end Sys2Proof.Machine
end

