-- ==== Sys2Proof/Machine/Ops.lean ====
section
/-! DEFINITION. The operations every room shares: the passing of time, free values, doorbells and MSI-X, event and log
queues, and the progress and summary words. -/

namespace Sys2Proof.Machine

/-- The outcome type of a meaning. -/
abbrev Res := Host.Outcome State Fault Refusal

/-! ### Time (R267, R268) -/

/-- Units of 0.25 ns in a microsecond, a millisecond, a second. -/
def us : Nat := 4000
def ms : Nat := 4000000
def sec : Nat := 4000000000

/-- Device time (R267): 64 bits. -/
def State.now (s : State) : Nat := (s.time.up + s.time.epoch) % 2 ^ 64

/-- The clock carried forward to an uptime; it never runs backwards (R267). -/
def State.untilUp (u : Nat) (s : State) : State := { s with time := { s.time with up := max s.time.up u } }

/-- The clock carried forward to a device time. -/
def State.untilTime (t : Nat) (s : State) : State := s.untilUp (t - s.time.epoch)

/-- `n` units pass. -/
def State.pass (n : Nat) (s : State) : State := s.untilUp (s.time.up + n)

/-- Device time of a converter sample index (R268: ten units per converter cycle). -/
def State.timeOfIndex (s : State) (n : Nat) : Nat := (10 * n + s.time.epoch) % 2 ^ 64

/-- Converter sample index of a device time. -/
def State.indexOfTime (s : State) (t : Nat) : Nat := (t - s.time.epoch) / 10

/-- The always-on millisecond count (R389). -/
def State.msCount (s : State) : Nat := s.time.up / ms

/-! ### Free values (DESIGN CHOICE, log entry 1) -/

/-- A free value of `n` bits, and the state with the count stepped. -/
def State.draw (n : Nat) (s : State) : Nat × State :=
  ((Config.freeValue s.free).toNat % 2 ^ n, { s with free := s.free + 1 })

/-! ### MSI-X and doorbells (R351, R384) -/

/-- HOLDOFF_US as taken: values above 1,000 act as 1,000 (Table 21.4). -/
def State.holdoff (s : State) : Nat := min (fget s.host.hintCfg F.HINT_CFG.HOLDOFF_US) 1000 * us

/-- The doorbell bits that are set and unmasked (HINT_PEND). -/
def State.hintPend (s : State) : Word := s.mb.dbD2h &&& ~~~s.mb.dbMask

/-- A message on vector `v` goes out, or is held in the pending-bit array by the vector's table mask. -/
def State.msixSend (v : Nat) (s : State) : State :=
  if nbit s.msix.tableMask.toNat v then
    { s with msix := { s.msix with pba := s.msix.pba ||| (1#32 <<< v) } }
  else
    { s with
      host := { s.host with hintSent := s.host.hintSent + 1 }
      msix := { s.msix with
        sent := s.msix.sent ++ [v]
        lastUp := (v, s.time.up) :: s.msix.lastUp.filter (fun p => p.1 != v) } }

/-- A cause for a message on vector `v` (R351): none while HINT_CFG.ENABLE is 0; held to the end of the holdoff if the last
message on the vector is nearer than HOLDOFF_US (R384). -/
def State.msixCause (v : Nat) (s : State) : State :=
  if !fbit s.host.hintCfg F.HINT_CFG.ENABLE then s
  else
    match s.msix.lastUp.find? (fun p => p.1 == v) with
    | some (_, t) =>
      if s.time.up < t + s.holdoff then
        if s.msix.owed.contains v then s else { s with msix := { s.msix with owed := s.msix.owed ++ [v] } }
      else s.msixSend v
    | none => s.msixSend v

/-- Messages for every vector of a mask, ascending. -/
def State.msixAll (mask : Word) (s : State) : State :=
  (onesOf mask.toNat 32).foldl (fun t v => t.msixCause v) s

/-- DB_D2H and DB_D2H_MASK take new values: every 0 to 1 transition of (bit AND NOT mask) sends a message (R351). -/
def State.setDoorbells (db mask : Word) (s : State) : State :=
  let rising := (db &&& ~~~mask) &&& ~~~s.hintPend
  ({ s with mb := { s.mb with dbD2h := db, dbMask := mask } }).msixAll rising

/-- The device rings device-to-host doorbell bit `b` (R317, Table 18.2). -/
def State.ring (b : Nat) (s : State) : State := s.setDoorbells (s.mb.dbD2h ||| (1#32 <<< b)) s.mb.dbMask

/-- A host-to-device doorbell bit is set (R353). -/
def State.ringH2d (b : Nat) (s : State) : State :=
  { s with mb := { s.mb with dbH2d := s.mb.dbH2d ||| (1#32 <<< b) } }

/-- Firmware takes a host-to-device doorbell bit by clearing it (R353). -/
def State.takeH2d (b : Nat) (s : State) : State :=
  { s with mb := { s.mb with dbH2d := s.mb.dbH2d &&& ~~~(1#32 <<< b) } }

/-! ### Events and alarms (R371, R443) -/

/-- Whether an event or alarm goes to queue `q`: 0 PCIe (MB0), 1 SPI (MB6), 2 + d UDP destination d with the event flag (R371). -/
def State.eventQueueUsed (s : State) (q : Nat) : Bool :=
  q < 2 || (let d := vget s.porch.eth.dest (q - 2) {}; d.set && d.events)

/-- An event among those that wait: where events carry stamps they leave in stamp order, each taking the sequence count and turn of
its place (R371). -/
def EventMsg.among (e : EventMsg) : List EventMsg → List EventMsg
  | [] => [e]
  | x :: rest =>
    match e.stamp, x.stamp with
    | some a, some b => if a < b then { e with seq := x.seq, order := x.order } :: EventMsg.among { x with seq := e.seq, order := e.order } rest else x :: e.among rest
    | _, _ => x :: e.among rest

/-- An event enters one queue: its carrier's sequence count steps; at 256 held messages it is dropped (R371). -/
def State.emitOn (stamp : Option Nat) (q code : Nat) (payload : List Word) (s : State) : State :=
  if !s.eventQueueUsed q then s
  else
    let n := vget s.fw.eventSeq q 0
    let held := vget s.fw.events q []
    { s with fw := { s.fw with
        eventSeq := vset s.fw.eventSeq q ((n + 1) % 2 ^ 32)
        events := if held.length < 256 then vset s.fw.events q (EventMsg.among ⟨code, n, payload, s.fw.order, stamp⟩ held) else s.fw.events } }

/-- Firmware sends an event of Table 20.4 on every carrier (R371). -/
def State.emitAt (stamp : Option Nat) (code : Nat) (payload : List Word) (s : State) : State :=
  let t := (List.range 18).foldl (fun t q => t.emitOn stamp q code payload) s
  { t with fw := { t.fw with order := t.fw.order + 1 } }
/-- The same, for an event without a stamp. -/
def State.emit (code : Nat) (payload : List Word) (s : State) : State := s.emitAt none code payload

/-- Event codes of Table 20.4. -/
def evAlarm : Nat := 0x801
def evCal : Nat := 0x802
def evChainFade : Nat := 0x803
def evChainReset : Nat := 0x804
def evMember : Nat := 0x805
def evVerdictMissing : Nat := 0x806
def evFault : Nat := 0x807
def evPendingApplied : Nat := 0x808
def evPendingDropped : Nat := 0x809
def evTimeState : Nat := 0x80A
def evRecordDone : Nat := 0x80B

/-! ### The Larder logs (R392, R399, R420, R421) -/

/-- Bytes of a journal entry of the fault history or event log: entry header 16, payload of 9 words in three codewords, and
the closing codeword (R420; DEDUCED, log entry 10). -/
def logEntryBytes : Nat := 80

/-- The daily budget of R421. -/
def larderDayBudget : Nat := 2 ^ 30

/-- The Larder with `n` bytes charged to the current 24 h. -/
def Larder.charge (up n : Nat) (l : Larder) : Larder :=
  let day := 86400 * sec
  let l := if up < l.dayUp + day then l else { l with dayUp := up / day * day, dayBytes := 0 }
  { l with dayBytes := l.dayBytes + n, wearCount := l.wearCount + n / 16 }

/-- Whether `n` more bytes would exceed the day's budget. -/
def Larder.exceeds (up n : Nat) (l : Larder) : Bool := larderDayBudget < (l.charge up n).dayBytes

/-- The fault history takes an entry: at 1,024 held it evicts the oldest below severity 3, or the oldest for a new entry of
severity 3; else the new entry is dropped and counted (R399). -/
def Larder.pushFault (e : LogEntry) (l : Larder) : Larder :=
  if l.faultLog.length < 1024 then { l with faultLog := l.faultLog ++ [e] }
  else if l.faultLog.any (fun x => x.severity < 3) then
    { l with faultLog := (l.faultLog.eraseP (fun x => x.severity < 3)) ++ [e] }
  else if e.severity = 3 then { l with faultLog := l.faultLog.drop 1 ++ [e] }
  else { l with drops := l.drops + 1 }

/-- A fault-history entry (R392): raise (kind 0), clear (1) or transient (2). A detail beyond its byte, the image number of CELL_TRAP, is the entry's ARG (R207;
DESIGN CHOICE, log entry 70). Over the day's budget only a transient is dropped
(R421). -/
def State.logFault (kind source detail severity reactions : Nat) (s : State) : State :=
  if kind == 2 && s.larder.exceeds s.time.up logEntryBytes then
    { s with
      larder := { s.larder with drops := s.larder.drops + 1 }
      boot := { s.boot with larderStat := fset s.boot.larderStat F.LARDER_STAT.BUDGET 1 } }
  else
    let e : LogEntry :=
      { number := s.larder.written % 2 ^ 32, time := s.now, kind, source, detail := detail % 256, arg := detail / 256, severity, reactions }
    let l := (s.larder.charge s.time.up logEntryBytes).pushFault e
    { s with larder := { l with written := l.written + 1, lastTime := s.now, shutdownOk := false } }

/-- An event-log entry (Table 20.7); dropped and counted over the day's budget (R421). A LOG_DROPS entry comes first when
drops are owed. POWER_LOSS carries the device time of the last committed entry; SHUTDOWN_OK is never dropped. -/
def State.logEvent (code detail arg : Nat) (s : State) : State :=
  if code != 2 && s.larder.exceeds s.time.up logEntryBytes then
    { s with
      larder := { s.larder with drops := s.larder.drops + 1 }
      boot := { s.boot with larderStat := fset s.boot.larderStat F.LARDER_STAT.BUDGET 1 } }
  else
    let l := s.larder.charge s.time.up logEntryBytes
    let mk (n c d a : Nat) : LogEntry :=
      { number := n % 2 ^ 32, time := if c = 1 then s.larder.lastTime else s.now, kind := 3, source := c, detail := d, arg := a, severity := 0, reactions := 0 }
    let l := if l.drops = 0 then l
      else { l with eventLog := l.eventLog ++ [mk l.written 4 0 l.drops], written := l.written + 1, drops := 0 }
    { s with larder := { l with
        eventLog := l.eventLog ++ [mk l.written code detail arg], written := l.written + 1
        lastTime := s.now, shutdownOk := code == 2 } }

/-- Codeword writes of the journal spread over its 524,288 codewords; wear is their largest count over 10^8, in 0.01 % units (R421). -/
def Larder.wear (l : Larder) : Nat := (divHalfAway (cdiv l.wearCount 524288) 10000).toNat

/-- Bytes of a calibration record, of a DRAM_TRAIN record and of a repair set of n entries in the journal: entry header, payload in codewords, closing
codeword (DEDUCED, log entry 10). -/
def calEntryBytes : Nat := 16 + 2384 + 16
def trainEntryBytes : Nat := 16 + 2624 + 16
def repairEntryBytes (n : Nat) : Nat := 32 + 16 * cdiv (7 * n + 2) 16

/-- A record other than a log entry is written: its bytes count, and SHUTDOWN_OK is no longer the newest entry. -/
def State.wrote (n : Nat) (s : State) : State :=
  { s with larder := { s.larder.charge s.time.up n with lastTime := s.now, shutdownOk := false } }

/-! ### Progress and summary words (R366, R385) -/

/-- Firmware updates the words 0x0300 to 0x0314 in the three steps of R385. -/
def State.updateSummary (f : HostMap → HostMap) (s : State) : State :=
  { s with host := let h := f { s.host with sumGen := s.host.sumGen + 1 }
                   { h with sumGen := h.sumGen + 1 } }

/-- Progress of a long operation (PROG_STAT, PROG_VALUE): a change by 1 % (100 units of 0.01 %) or completion rings doorbell
bit 9 (Table 18.2). Metres (UNIT 1) ring at each change. -/
def State.progress (code state unit value : Nat) (s : State) : State :=
  let old := s.host.progValue.toNat
  let w := fset (fset (fset 0 F.PROG_STAT.CODE code) F.PROG_STAT.STATE state) F.PROG_STAT.UNIT unit
  let t := s.updateSummary (fun h => { h with progStat := w, progValue := w32 value })
  let moved := if unit = 0 then old / 100 != value / 100 else old != value
  if state != 1 || moved then t.ring 9 else t

/-! ### Ethernet -/

/-- Ethernet replaced, and a port of it. -/
def State.withEth (e : Eth) (s : State) : State := { s with porch := { s.porch with eth := e } }
def State.ethPort (s : State) (p : Nat) : EthPort := vget s.porch.eth.port p {}

/-! ### Modes -/

/-- Modes as MODE_SET codes them (Table 20.3). -/
def modeRest : Nat := 0
def modeSurvey : Nat := 1
def modeWatch : Nat := 2
def modeReach : Nat := 3
def modeDetail : Nat := 4
def modeSpeed : Nat := 5

/-- A measuring mode is in force. -/
def State.measuring (s : State) : Bool := decide (2 ≤ s.fw.mode) && decide (s.fw.mode ≤ 5)

/-- A plan runs: a measuring mode or SURVEY with its probe (R270). -/
def State.planRuns (s : State) : Bool := s.fw.mode != 0

/-- FC_STAT.SAFE: the safe state is in force (R396). -/
def State.safe (s : State) : Bool := fbit s.fc.stat F.FC_STAT.SAFE

/-- REST holds for the rules of the manual: REST or the start state (R407). -/
def State.inRest (s : State) : Bool := s.fw.mode == 0

end Sys2Proof.Machine
end

