-- ==== Sys2Proof/Machine/CellarMem.lean ====
section
/-! DEFINITION. The Cellar: addresses, the DRAM as writes reach it, ports, panic, bank queues, ECC counts, history rings, block reset (R252, R286 to
R295, R393). -/

namespace Sys2Proof.Machine

def State.withCellar (c : Cellar) (s : State) : State := { s with cellar := c }

/-! ### Addresses and contents (R284, R286) -/

/-- Fitted capacity in bytes over both channels, by MEM_DESC (Table 16.1). -/
def Cellar.capacity (c : Cellar) : Nat :=
  let gb := 4 * 2 ^ fget c.memDesc F.MEM_DESC.DENSITY
  let per := gb * (if fget c.memDesc F.MEM_DESC.WIDTH = 0 then 2 else 1) * (fget c.memDesc F.MEM_DESC.RANKS + 1)
  2 * per * 2 ^ 30

/-- MEM_DESC names a configuration of Table 16.1. -/
def memDescListed (d : Word) : Bool :=
  let dens := fget d F.MEM_DESC.DENSITY
  let two := fget d F.MEM_DESC.RANKS = 1
  match fget d F.MEM_DESC.WIDTH with
  | 0 => dens = 0 || (dens = 1 && !two)
  | 1 => dens = 0 || dens = 1 || (dens = 2 && !two)
  | _ => false

/-- Channel, rank and bank of an address: bank is channel, rank, bank group and bank as one number; and its row (R286). -/
def addrChannel (a : Nat) : Nat := a / 256 % 2
def Cellar.addrRank (c : Cellar) (a : Nat) : Nat := if fget c.memDesc F.MEM_DESC.RANKS = 1 then a / 2 ^ 18 % 2 else 0
def Cellar.addrBank (c : Cellar) (a : Nat) : Nat := addrChannel a + 2 * c.addrRank a + 4 * (a / 512 % 4) + 16 * (a / 2 ^ 16 % 4)
def Cellar.addrRow (c : Cellar) (a : Nat) : Nat := a / 2 ^ (18 + fget c.memDesc F.MEM_DESC.RANKS)

/-- Bytes of the DRAM; what nothing has written reads as 0 (DESIGN CHOICE, log entry 2). -/
def Cellar.readBytes (c : Cellar) (a n : Nat) : List Byte := Mem.slice 0 c.mem a n

/-- Codewords that a span of bytes covers wholly, and touches. -/
def coversWord (a n cw : Nat) : Bool := a ≤ 16 * cw && 16 * cw + 16 ≤ a + n
def touchesWord (a n cw : Nat) : Bool := a < 16 * cw + 16 && 16 * cw < a + n

/-- A write reaches the Cellar: a later read on any port returns it (R294). A codeword written whole is good again. -/
def Cellar.store (c : Cellar) (a : Nat) (bs : List Byte) : Cellar :=
  { c with mem := Mem.writeN 0 c.mem a bs, bad := c.bad.filter (fun w => !coversWord a bs.length w)
           owedBack := c.owedBack.filter (fun w => !touchesWord a bs.length w) }

/-- A span of bytes holds a codeword that cannot be corrected. -/
def Cellar.spoiled (c : Cellar) (a n : Nat) : Bool := c.bad.any (touchesWord a n)

/-- Base and size in bytes of a region (Table 16.6). -/
def Cellar.regionBase (c : Cellar) (r : Nat) : Nat := fget (vget c.region r 0) F.REGION.BASE * 2 ^ 24
def Cellar.regionSize (c : Cellar) (r : Nat) : Nat := fget (vget c.region r 0) F.REGION.SIZE * 2 ^ 24

/-! ### Ports and panic (R290, R291) -/

/-- Buffer of a port in bytes (Table 16.3). -/
def portBuffer (p : Nat) : Nat := 1024 * ((([512, 256, 192, 192, 128, 256] : List Nat)[p]?).getD 0)

/-- Data that wait in a port's buffer; what a read request takes there is not stated (DESIGN CHOICE, log entry 103). -/
def CellarPort.level (p : CellarPort) : Nat := (p.queue.filter (·.write)).foldl (fun a r => a + r.bytes) 0

def Cellar.portOf (c : Cellar) (p : Nat) : CellarPort := vget c.port p { cfg := 0 }

/-- P0 or P5 is in panic. -/
def Cellar.panic (c : Cellar) : Bool := (c.portOf 0).panic || (c.portOf 5).panic

/-- Refreshes owed after a panic are issued at once (R295). -/
def Cellar.payRefresh (c : Cellar) : Cellar :=
  { c with owed := Vector.replicate 4 0, issued := ⟨((List.range 4).map (fun i => vget c.issued i 0 + vget c.owed i 0)).toArray, by simp⟩ }

/-- A real-time port enters or leaves panic by its level; the owed refreshes are issued as panic ends (R291, R295). -/
def Cellar.judgePanic (c : Cellar) (p : Nat) : Cellar :=
  if p != 0 && p != 5 then c
  else
    let q := c.portOf p
    let lv := q.level
    let on := fget q.cfg F.PORT_CFG.PANIC_ON * portBuffer p
    let off := fget q.cfg F.PORT_CFG.PANIC_OFF * portBuffer p
    let q1 :=
      if !q.panic && on ≤ 256 * lv then { q with panic := true, stat := finc q.stat F.PORT_STAT.PANICS }
      else if q.panic && 256 * lv ≤ off then { q with panic := false } else q
    let c1 := { c with port := vset c.port p q1 }
    let c2 := { c1 with stat := fsetB c1.stat F.CELLAR_STAT.PANIC c1.panic }
    if c.panic && !c2.panic then c2.payRefresh else c2

/-- A request enters a port's buffer. -/
def Cellar.request (c : Cellar) (p : Nat) (r : PortRequest) : Cellar :=
  (({ c with port := vmod c.port p (fun q => { q with queue := q.queue ++ [r] }) }).judgePanic p)

/-- PORTp_STAT as it reads. -/
def CellarPort.statWord (p : CellarPort) : Word := fsetB (fset p.stat F.PORT_STAT.LEVEL (p.level / 1024)) F.PORT_STAT.PANIC p.panic

/-! ### Bank queues (R294) -/

/-- A request matches one that waits: same bank and row, the other direction. -/
def BankRequest.matches_ (r : BankRequest) (o : BankRequest) : Bool := r.bank == o.bank && r.row == o.row && r.write != o.write

/-- A request enters its bank queue: a matching one there puts the queue in in-order mode. -/
def Cellar.enterBank (c : Cellar) (r : BankRequest) : Cellar :=
  let hit := c.banks.any r.matches_
  let opens := hit && !c.inOrder.contains r.bank
  { c with
    banks := c.banks ++ [r]
    inOrder := if opens then c.inOrder ++ [r.bank] else c.inOrder
    inorder := if opens then c.inorder + 1 else c.inorder }

/-- A queue keeps in-order mode while a matching pair remains in it. -/
def Cellar.hasPair (c : Cellar) (bank : Nat) : Bool :=
  let q := c.banks.filter (fun r => r.bank == bank)
  q.any (fun r => q.any r.matches_)

/-- The request issued next: a read of a queue that reorders before everything else, otherwise the oldest. -/
def Cellar.pickBank (c : Cellar) : Option BankRequest :=
  match c.banks.find? (fun r => !r.write && !c.inOrder.contains r.bank) with
  | some r => some r
  | none => c.banks.head?

/-- `n` requests leave the bank queues. -/
def Cellar.drainBanks : Nat → Cellar → Cellar
  | 0, c => c
  | n + 1, c =>
    match c.pickBank with
    | none => c
    | some r =>
      let c1 := { c with banks := c.banks.erase r }
      ({ c1 with inOrder := c1.inOrder.filter c1.hasPair }).drainBanks n

/-! ### ECC (R287 to R289) -/

/-- What a read finds in a codeword. -/
def Cellar.bumpCorrected (c : Cellar) (ch symbol : Nat) : Cellar :=
  { c with ecc := vmod c.ecc ch (fun w => fincSat w F.ECC_STAT.CORRECTED)
           sym := vmod c.sym ch (fun v => vmod v symbol (· + 1)) }

/-- The symbol position that counted most, the lowest of equals. -/
def worstSymbol (cs : List Correction) : Nat :=
  let count (j : Nat) : Nat := (cs.filter (fun c => c.symbol == j)).length
  (List.range 18).foldl (fun b j => if count b < count j then j else b) 0

/-! ### History rings (R252, R253, R292, R293) -/

/-- The ring of P5 (decimated) or P0 (full rate), and the ring replaced. -/
def Cellar.ring (c : Cellar) (p5 : Bool) : Ring := if p5 then c.dec else c.full
def Cellar.setRing (c : Cellar) (p5 : Bool) (r : Ring) : Cellar := if p5 then { c with dec := r } else { c with full := r }

/-- Cellar address of byte i of the row that starts at stream place P. -/
def Ring.addr (r : Ring) (p i : Nat) : Nat := r.base + (p + i) % max 1 r.size

/-- Bytes written to a ring from stream place P on; they wrap past the ring's end. -/
def Cellar.storeRing (c : Cellar) (p5 : Bool) (p : Nat) (bs : List Byte) : Cellar :=
  let r := c.ring p5
  let a := r.addr p 0
  let first := r.base + r.size - a
  (c.store a (bs.take first)).store r.base (bs.drop first)

/-- Bytes of a ring from stream place P on. -/
def Cellar.readRing (c : Cellar) (p5 : Bool) (p n : Nat) : List Byte :=
  let r := c.ring p5
  let a := r.addr p 0
  let first := min n (r.base + r.size - a)
  c.readBytes a first ++ c.readBytes r.base (n - first)

/-- A span of a ring holds a codeword that cannot be corrected. -/
def Cellar.ringSpoiled (c : Cellar) (p5 : Bool) (p n : Nat) : Bool :=
  let r := c.ring p5
  let a := r.addr p 0
  let first := min n (r.base + r.size - a)
  c.spoiled a first || c.spoiled r.base (n - first)

/-- Address of entry i of a frame index (R298): 32 MiB each in region 2. -/
def Cellar.indexAddr (c : Cellar) (p5 : Bool) (i : Nat) : Nat := c.regionBase 2 + p5.toNat * 2 ^ 25 + 16 * (i % 2097152)

/-- An index entry's bytes: device time of the boundary, P with bit 63. -/
def FrameEntry.bytes (e : FrameEntry) : List Byte := leBytes 8 e.time ++ leBytes 8 (e.p + (if e.allOverrun then 2 ^ 63 else 0))

/-- The index entry of a frame is written with its first row (R252); a plan's first frame begins a new epoch (R253). -/
def Cellar.openFrame (c : Cellar) (p5 : Bool) (row : StoredRow) (frameBase : Nat) : Cellar :=
  let r := c.ring p5
  let r := if r.epoch < frameBase && frameBase ≤ row.frame then { r with epoch := frameBase } else r
  if (match r.index.getLast? with | some e => e.frame == row.frame | none => false) then c.setRing p5 r
  else
    let e : FrameEntry := { frame := row.frame, time := row.boundary, p := r.pos, tF := row.tF }
    let c1 := c.setRing p5 { r with index := (r.index ++ [e]).drop (r.index.length + 1 - 2097152), entries := r.entries + 1 }
    c1.store (c1.indexAddr p5 r.entries) e.bytes

/-- A row some of whose bytes have been overwritten is lost (R254). -/
def Ring.lost (r : Ring) (x : RingRow) : Bool := decide (x.p + r.size < r.pos + r.taken)
/-- The header of an overrun row (R292): REASON bit 10, N_INVALID = L. -/
def overrunHeader (h : List Byte) : List Byte :=
  h.take 32 ++ leBytes 4 (leAt h 32 4 ||| 1024) ++ bytesAt h 36 4 ++ leBytes 4 (leAt h 24 4) ++ h.drop 44

/-- Rows that became overrun rows are counted (R293). -/
def Cellar.countOverruns (c : Cellar) (p n : Nat) : Cellar :=
  if n = 0 then c
  else { c with port := vmod c.port p (fun q => { q with count := q.count + w32 n }), stat := fset c.stat F.CELLAR_STAT.OVERRUN 1 }

/-- The header of an overrun row of `frame` goes through the overrun queue; with the queue full, the whole frame is marked (R292). How many other rows
are overrun rows with it. -/
def Cellar.markOverrun (c : Cellar) (p5 : Bool) (p frame : Nat) (header : List Byte) : Cellar × Nat :=
  let r := c.ring p5
  if c.overruns.length < 256 then
    ({ c.storeRing p5 p (overrunHeader header) with overruns := c.overruns ++ [(r.addr p 0, overrunHeader header)] }, 0)
  else
    let i := r.index.findIdx (fun e => e.frame == frame)
    match r.index[i]? with
    | some e =>
      let e1 := { e with allOverrun := true }
      let more := (r.rows.filter (fun x => x.frame == frame && !x.overrun)).length
      let rows := r.rows.map (fun x => if x.frame = frame then { x with overrun := true } else x)
      ((c.setRing p5 { r with index := r.index.set i e1, rows }).store (c.indexAddr p5 (r.entries - r.index.length + i)) e1.bytes, more)
    | none => (c, 0)

/-! ### Block reset (R393) -/

/-- A row of a ring, written or under way, of which a write request still waits. -/
def Ring.touched (r : Ring) (p len : Nat) (q : List PortRequest) : Bool :=
  q.any (fun x => x.write && decide (r.base ≤ x.addr) && decide (x.addr < r.base + r.size) &&
    decide ((x.addr - r.base + r.size - p % max 1 r.size) % max 1 r.size < len))

/-- Rows of a ring that lose words with its port's buffer become overrun rows (R292, R393): the Cellar, and how many. -/
def Cellar.loseRows (c : Cellar) (p5 : Bool) : Cellar × Nat :=
  let r := c.ring p5
  let q := (c.portOf (if p5 then 5 else 0)).queue
  let hit (x : RingRow) : Bool := !x.overrun && r.touched x.p x.len q
  let rows := r.rows.filter hit
  let r1 := { r with rows := r.rows.map (fun x => if hit x then { x with overrun := true } else x)
                     dropping := r.dropping || r.touched r.pos r.taken q }
  rows.foldl (fun (d, n) x => let (e, m) := d.markOverrun p5 x.p x.frame (d.readRing p5 x.p 64); (e, n + m)) (c.setRing p5 r1, rows.length)

/-- The Cellar's block reset: port buffers and bank queues are discarded, the arbiter restarts; reads of P1 to P4 are issued again. -/
def Cellar.blockReset (c : Cellar) : Cellar × List Nat :=
  let (c1, n0) := c.loseRows false
  let (c2, n5) := c1.loseRows true
  let keep (q : CellarPort) : CellarPort := { q with queue := q.queue.filter (fun x => !x.write), panic := false, used := 0 }
  let c3 := ({ c2 with port := c2.port.map keep, banks := [], inOrder := [], turn5 := false, stat := fset c2.stat F.CELLAR_STAT.PANIC 0 }).payRefresh
  ((c3.countOverruns 0 n0).countOverruns 5 n5, List.replicate n0 0 ++ List.replicate n5 5)

end Sys2Proof.Machine
end

