-- ==== Sys2Proof/Machine/HearthCore.lean ====
section
/-! DEFINITION. The Hearth's own rules on its channels: fades, cuts, judging, the TEC loop, the chain port (R65 to R80). -/

namespace Sys2Proof.Machine

/-- h(t/T) scaled onto a move of `d`: linear, or the S-curve 3x² − 2x³, rounded half away from zero (R68). -/
def fadeMove (sCurve : Bool) (d : Int) (t total : Nat) : Int :=
  if total = 0 then d
  else if sCurve then
    divHalfAway (d * (3 * (t : Int) * t * total - 2 * (t : Int) * t * t)) (total * total * total)
  else divHalfAway (d * t) total

/-- OUT at time `t` of a fade (R68). -/
def Fade.out (f : Fade) (sCurve : Bool) (t : Nat) : Nat :=
  ((f.from_ : Int) + fadeMove sCurve ((f.to_ : Int) - f.from_) (min t f.total) f.total).toNat

/-- OUT of a channel. -/
def DriveChannel.out (c : DriveChannel) : Nat := fget c.stat F.HD_STAT.OUT

/-- The channel with OUT and FADING set. -/
def DriveChannel.withOut (c : DriveChannel) (out : Nat) (fade : Option Fade) : DriveChannel :=
  { c with stat := fsetB (fset c.stat F.HD_STAT.OUT out) F.HD_STAT.FADING fade.isSome, fade }

/-- OUT to 0 at once, any fade abandoned; SETPOINT keeps its value (R69). -/
def DriveChannel.zero (c : DriveChannel) : DriveChannel := c.withOut 0 none

/-- A cut by interlock, detection or safe state: OUT 0 and CUT set (R69, Table 4.4). -/
def DriveChannel.cut (c : DriveChannel) : DriveChannel :=
  let z := c.zero
  { z with stat := fset z.stat F.HD_STAT.CUT 1, openRun := 0, shortRun := 0 }

/-- A fade of the full FADE_MS from the present OUT to SETPOINT (R68, R69). -/
def DriveChannel.startFade (c : DriveChannel) (from_ : Nat) : DriveChannel :=
  let to_ := fget c.set F.HD_SET.SETPOINT
  let total := fget c.cfg F.HD_CFG.FADE_MS * 1000
  if total = 0 then c.withOut to_ none else c.withOut from_ (some ⟨from_, to_, 0, total⟩)

/-- The channel drives: ENABLE is 1 and no cut holds it off. -/
def DriveChannel.drives (c : DriveChannel) : Bool := fbit c.cfg F.HD_CFG.ENABLE && !fbit c.stat F.HD_STAT.CUT

/-- A SET write: the new SETPOINT, with a fade from the present OUT, or at once with STEP = 1, which suspends judging for 100 µs
(R68, R69, R71). A channel that does not drive keeps OUT at 0. -/
def DriveChannel.writeSet (c : DriveChannel) (w : Word) : DriveChannel :=
  let c := { c with set := fset c.set F.HD_SET.SETPOINT (fget w F.HD_SET.SETPOINT) }
  if !c.drives then c
  else if nbit w.toNat 31 then
    { (c.withOut (fget c.set F.HD_SET.SETPOINT) none) with stepHold := 100, openRun := 0, shortRun := 0 }
  else c.startFade c.out

/-- One microsecond of a fade. -/
def DriveChannel.fadeStep (c : DriveChannel) : DriveChannel :=
  match c.fade with
  | none => c
  | some f =>
    let t := f.elapsed + 1
    let out := f.out (fbit c.cfg F.HD_CFG.SHAPE) t
    if f.total ≤ t then c.withOut f.to_ none else c.withOut out (some { f with elapsed := t })

/-- The open and short criteria of Table 4.1 for an HD channel (`hd`) or an HS channel. -/
def DriveChannel.meetsOpen (c : DriveChannel) (hd : Bool) (m : Sensed) : Bool :=
  decide (2 * m.current < c.out) && (!hd || m.driveHigh)
def DriveChannel.meetsShort (c : DriveChannel) (m : Sensed) : Bool := decide (fget c.cfg F.HD_CFG.SHORT_TH < m.node)

/-- One judged sample: runs of consecutive samples that met a criterion. -/
def DriveChannel.count (c : DriveChannel) (isOpen isShort : Bool) : DriveChannel :=
  { c with openRun := if isOpen then c.openRun + 1 else 0, shortRun := if isShort then c.shortRun + 1 else 0 }

/-- A 1 µs sample of an HD or DC-mode HS channel; not judged with DET_EN = 0, while OUT < 1,024, while a STEP write is fresh, or
while it does not drive (R71). The counts of a PWM-mode HS channel are those of its on-windows: neither the sample nor STEP touches them. -/
def DriveChannel.sample (c : DriveChannel) (hd : Bool) (m : Option Sensed) : DriveChannel :=
  let left := c.stepHold - 1
  if !hd && fbit c.cfg F.HD_CFG.PWM then { c with stepHold := left }
  else if 0 < c.stepHold then { c with stepHold := left, openRun := 0, shortRun := 0 }
  else if !fbit c.cfg F.HD_CFG.DET_EN || !c.drives || decide (c.out < 1024) then { c with openRun := 0, shortRun := 0 }
  else
    match m with
    | none => { c with openRun := 0, shortRun := 0 }
    | some m => c.count (c.meetsOpen hd m) (c.meetsShort m)

/-- After a judged sample: a run of `q` sets OPEN or SHORT and cuts the output (R71). Answers the channel and whether it
reports open and short. -/
def DriveChannel.judge (c : DriveChannel) (q : Nat) : DriveChannel × Bool × Bool :=
  let o := decide (q ≤ c.openRun)
  let h := decide (q ≤ c.shortRun)
  if o || h then
    let k := c.cut
    let st := if o then fset k.stat F.HD_STAT.OPEN 1 else k.stat
    ({ k with stat := if h then fset st F.HD_STAT.SHORT 1 else st }, o, h)
  else (c, false, false)

/-- A CFG write of an HD or HS channel whose ENABLE may change (R69, R375): setting ENABLE starts a fade from 0 to SETPOINT unless
the output is held off; clearing it cuts OUT at once, and CUT stays where the output is still held off (Table 4.4). `hold`: the safe state is
in force, or the channel has KILL = 1 and the interlock holds it (`State.holdsOff`). -/
def DriveChannel.enableEdge (old c : DriveChannel) (hold : Bool) : DriveChannel :=
  let was := fbit old.cfg F.HD_CFG.ENABLE
  let now := fbit c.cfg F.HD_CFG.ENABLE
  if was && !now then
    let z := c.zero
    { z with stat := fsetB z.stat F.HD_STAT.CUT hold, openRun := 0, shortRun := 0 }
  else if !was && now then
    if hold then c.cut
    else { c with stat := fset c.stat F.HD_STAT.CUT 0, openRun := 0, shortRun := 0 }.startFade 0
  else c

/-- A gate cut: held low (R78, R80). -/
def GateChannel.cut (g : GateChannel) : GateChannel :=
  { g with stat := fset g.stat F.HD_STAT.CUT 1, openRun := 0, shortRun := 0 }

/-- A gate drives its on-windows. -/
def GateChannel.drives (g : GateChannel) : Bool := fbit g.cfg F.HD_CFG.ENABLE && !fbit g.stat F.HD_STAT.CUT

/-- A gate on-window judged 15 ns after its rising edge; four consecutive ones cut the gate (R71). Answers open and short. -/
def GateChannel.window (g : GateChannel) (isOpen isShort : Bool) : GateChannel × Bool × Bool :=
  if !g.drives || !fbit g.cfg F.HD_CFG.DET_EN then ({ g with openRun := 0, shortRun := 0 }, false, false)
  else
    let g := { g with openRun := if isOpen then g.openRun + 1 else 0, shortRun := if isShort then g.shortRun + 1 else 0 }
    let o := decide (4 ≤ g.openRun)
    let h := decide (4 ≤ g.shortRun)
    if o || h then
      let k := g.cut
      let st := if o then fset k.stat F.HD_STAT.OPEN 1 else k.stat
      ({ k with stat := if h then fset st F.HD_STAT.SHORT 1 else st }, o, h)
    else (g, false, false)

/-- A gate's CFG write: clearing ENABLE ends a hold whose cause is gone; setting it while held off keeps the gate low. -/
def GateChannel.enableEdge (old g : GateChannel) (hold : Bool) : GateChannel :=
  let was := fbit old.cfg F.HD_CFG.ENABLE
  let now := fbit g.cfg F.HD_CFG.ENABLE
  if was && !now then { g with stat := fsetB g.stat F.HD_STAT.CUT hold, openRun := 0, shortRun := 0 }
  else if !was && now then
    if hold then g.cut else { g with stat := fset g.stat F.HD_STAT.CUT 0, openRun := 0, shortRun := 0 }
  else g

/-! ### TEC loop (R73, R74) -/

/-- Duty 0, accumulator cleared. SETTLED clears too: the loop no longer regulates (R73 and R74 leave SETTLED of a stopped loop open; DESIGN CHOICE,
log entry 96). -/
def TecLoop.stop (t : TecLoop) : TecLoop :=
  { t with stat := fset (fset t.stat F.TEC_STAT.DUTY 0) F.TEC_STAT.SETTLED 0, acc := 0, settledMs := 0, limitMs := 0 }

/-- Signed duty. -/
def TecLoop.duty (t : TecLoop) : Int := sx 13 (fget t.stat F.TEC_STAT.DUTY)

/-- One update of the loop from a housekeeping code (R73). -/
def TecLoop.update (t : TecLoop) (code : Nat) : TecLoop :=
  let e0 : Int := (fget t.tgt F.TEC_TGT.TARGET : Int) - code
  let e := if fbit t.cfg F.TEC_CFG.SIGN then -e0 else e0
  let acc := max (-1048576) (min 1048575 (t.acc + e))
  let kp : Int := nbits t.gains.toNat 0 16
  let ki : Int := nbits t.gains.toNat 16 16
  let lim : Int := fget t.cfg F.TEC_CFG.DUTY_MAX
  let duty := max (-lim) (min lim (rshFloor 8 (kp * e + ki * acc)))
  let inBand := decide (e.natAbs ≤ fget t.tgt F.TEC_TGT.BAND)
  let held := if inBand then t.settledMs + 1 else 0
  let st := fset t.stat F.TEC_STAT.DUTY (wrapTo 13 duty)
  let st := if !inBand then fset st F.TEC_STAT.SETTLED 0
            else if 2000 ≤ held then fset st F.TEC_STAT.SETTLED 1 else st
  { t with acc, stat := st, settledMs := held, limitMs := if duty.natAbs = lim.natAbs then t.limitMs + 1 else 0 }

/-! ### Chain port (R75 to R77, R80) -/

/-- A transfer starts: CHAIN_DATA as it stands is taken (R77). -/
def ChainPort.start (c : ChainPort) : ChainPort :=
  { c with shift := c.data, stat := fset (fset c.stat F.HCHAIN_STAT.BUSY 1) F.HCHAIN_STAT.PENDING 0 }

/-- A GO (R77): it starts a transfer, is held pending, or replaces a pending one and is counted. -/
def ChainPort.go (c : ChainPort) : ChainPort :=
  if !fbit c.cfg F.HCHAIN_CFG.ENABLE then c
  else if !fbit c.stat F.HCHAIN_STAT.BUSY then c.start
  else if !fbit c.stat F.HCHAIN_STAT.PENDING then { c with stat := fset c.stat F.HCHAIN_STAT.PENDING 1 }
  else { c with stat := finc c.stat F.HCHAIN_STAT.COALESCED }

/-- Expanders in the chain. -/
def ChainPort.length (c : ChainPort) : Nat := fget c.cfg F.HCHAIN_CFG.CHAIN_LEN + 1

/-- The words of `v` with the first `n` taken from a list. -/
def fillVec {n : Nat} (v : Vector Word n) (ws : List Word) (k : Nat) : Vector Word n :=
  (List.range k).foldl (fun v i => vset v i (wat ws i)) v

/-- A transfer ends with the returned words `din` (R75, R76): CHAIN_RET takes them; with VERIFY = 1 they are compared with CHAIN_DATA as it
stands. The outputs latch what was shifted if the frame is good and `latch` allows it. Answers whether the frame is good. -/
def ChainPort.done (c : ChainPort) (din : List Word) (latch : Bool) : ChainPort × Bool :=
  let n := c.length
  let good := !fbit c.cfg F.HCHAIN_CFG.VERIFY || (List.range n).all (fun i => wat din i == vget c.data i 0)
  let c := { c with ret := fillVec c.ret din n, stat := fset c.stat F.HCHAIN_STAT.BUSY 0 }
  let c := if !good then { c with stat := fset c.stat F.HCHAIN_STAT.MISMATCH 1 }
           else if latch then { c with latched := fillVec c.latched c.shift.toList n } else c
  (if fbit c.stat F.HCHAIN_STAT.PENDING then c.start else c, good)

/-- The safe state latches CHAIN_SAFE0–15 with SAFE_EN = 1 (R80). -/
def ChainPort.toSafe (c : ChainPort) : ChainPort :=
  if fbit c.cfg F.HCHAIN_CFG.SAFE_EN then { c with latched := c.safe } else c

/-- The Hearth in the safe state (R80): every output cut, duties 0, the chain port as R80. -/
def Hearth.toSafe (h : Hearth) : Hearth :=
  { h with hd := h.hd.map DriveChannel.cut, hs := h.hs.map DriveChannel.cut, gate := h.gate.map GateChannel.cut
           tec := h.tec.map TecLoop.stop, tecOn := false, chain := h.chain.toSafe, waits := [] }

/-- An interlock cut (R78): both gates, and every HD and HS channel with KILL = 1. -/
def Hearth.interlock (h : Hearth) : Hearth :=
  let k (c : DriveChannel) : DriveChannel := if fbit c.cfg F.HD_CFG.KILL then c.cut else c
  { h with hd := h.hd.map k, hs := h.hs.map k, gate := h.gate.map GateChannel.cut
           stat := fset (fset h.stat F.HEARTH_STAT.ILOCK_LEVEL 0) F.HEARTH_STAT.ILOCK_LATCHED 1 }

/-- ILOCK_N reads low. -/
def Hearth.ilockLow (h : Hearth) : Bool := !fbit h.stat F.HEARTH_STAT.ILOCK_LEVEL

/-- A channel of the fades of R40, R410 and R414: 0 to 7 HD, 8 to 11 HS. -/
def Hearth.drive (h : Hearth) (ch : Nat) : DriveChannel := if ch < 8 then vget h.hd ch {} else vget h.hs (ch - 8) {}
def Hearth.setDrive (h : Hearth) (ch : Nat) (c : DriveChannel) : Hearth :=
  if ch < 8 then { h with hd := vset h.hd ch c } else { h with hs := vset h.hs (ch - 8) c }

/-- Some HD or HS channel is fading. -/
def Hearth.fading (h : Hearth) : Bool := h.hd.toList.any (·.fade.isSome) || h.hs.toList.any (·.fade.isSome)

/-- Every enabled HD and HS channel starts a fade from its OUT to `target` of SETPOINT (R410 step 3) or to 0 (R40, R414). -/
def Hearth.fadeAll (h : Hearth) (toZero : Bool) : Hearth :=
  let go (c : DriveChannel) : DriveChannel :=
    if !c.drives then c
    else if toZero then
      let total := fget c.cfg F.HD_CFG.FADE_MS * 1000
      if total = 0 then c.zero else c.withOut c.out (some ⟨c.out, 0, 0, total⟩)
    else c.startFade 0
  { h with hd := h.hd.map go, hs := h.hs.map go }

end Sys2Proof.Machine
end

