-- ==== Sys2Proof/Machine/Rom.lean ====
section
/-! DEFINITION. The frozen tables that the manual defines by formula, computed in fixed point: cosines (R48, R116, R121, R125), the angle
of a complex number (R133), logarithm and exponential (R157, R177), the Golay pair (R150), and the chirp synthesiser (R47 to R50). -/

namespace Sys2Proof.Machine

/-- pi × 2^512 and ln 2 × 2^256, rounded down. -/
def pi512 : Nat := 42121870893450636219446821484559388105255997313489254605594685088103805782276098919793885372247726346443771296916333485327292916625599161542353774203832599
def ln2At256 : Nat := 80260960185991308862233904206310070533990667611589946606122867505419956976171

/-- pi at scale 2^b. -/
def piAt (b : Nat) : Int := ((pi512 / 2 ^ (512 - b) : Nat) : Int)

/-- Terms of the alternating series of cos or sin at scale `one`: `t` is the present term, `k` its order, `x2` the square of the angle. -/
def trigSeries (one x2 : Int) : Nat → Nat → Int → Int
  | 0, _, _ => 0
  | n + 1, k, t => t + trigSeries one x2 n (k + 2) (-(t * x2 / one) / (((k + 1) * (k + 2) : Nat) : Int))

/-- cos and sin at scale 2^b of the fraction r / q of a quarter turn (0 ≤ r ≤ q). -/
def quarterCos (b terms r q : Nat) : Int :=
  let one : Int := ((2 ^ b : Nat) : Int)
  let x := piAt b * (r : Int) / ((2 * q : Nat) : Int)
  trigSeries one (x * x / one) terms 0 one
def quarterSin (b terms r q : Nat) : Int :=
  let one : Int := ((2 ^ b : Nat) : Int)
  let x := piAt b * (r : Int) / ((2 * q : Nat) : Int)
  trigSeries one (x * x / one) terms 1 x

/-- cos at scale 2^b of the fraction p / q of a turn. -/
def turnCosAt (b terms p q : Nat) : Int :=
  let m := p % q
  let r := 4 * m % q
  match 4 * m / q with
  | 0 => quarterCos b terms r q
  | 1 => -(quarterSin b terms r q)
  | 2 => -(quarterCos b terms r q)
  | _ => quarterSin b terms r q

/-- sin of p / q of a turn: the cosine a quarter turn earlier. -/
def turnSinAt (b terms p q : Nat) : Int := turnCosAt b terms (4 * p + 3 * q) (4 * q)

/-- round(k × cos(2 pi p / q)) and the same for sin, half away from zero. -/
def romCos (k p q : Nat) : Int := divHalfAway ((k : Int) * turnCosAt 64 16 p q) (2 ^ 64)
def romSin (k p q : Nat) : Int := divHalfAway ((k : Int) * turnSinAt 64 16 p q) (2 ^ 64)

/-- cos_rom and sin_rom (R48): min(32,767, round(32,768 × ...)). -/
def cosRom (i : Nat) : Int := min 32767 (romCos 32768 (i % 65536) 65536)
def sinRom (i : Nat) : Int := cosRom (i + 49152)

/-! ### The phase extractor (R133) -/

/-- The number of code boundaries, odd multiples of pi / 65,536, below the angle of (re, im) in the first quadrant, by bisection of
`fuel` bits. -/
def boundariesBelow (re im : Int) : Nat → Nat → Nat
  | 0, acc => acc
  | k + 1, acc =>
    let j := acc + 2 ^ k
    let p := 2 * j - 1
    let above := j ≤ 16384 && decide (re * turnSinAt 384 48 p 131072 < im * turnCosAt 384 48 p 131072)
    boundariesBelow re im k (if above then j else acc)

/-- round(65,536 × atan2(im, re) / 2 pi) mod 65,536; 0 for 0 (R133, DEDUCED, log entry 13). -/
def phaseCode (v : Int × Int) : Nat :=
  let (re, im) := v
  if re = 0 ∧ im = 0 then 0
  else if 0 < re ∧ 0 ≤ im then boundariesBelow re im 15 0
  else if re ≤ 0 ∧ 0 < im then 16384 + boundariesBelow im (-re) 15 0
  else if re < 0 ∧ im ≤ 0 then 32768 + boundariesBelow (-re) (-im) 15 0
  else (49152 + boundariesBelow (-im) re 15 0) % 65536

/-- wrap16 and wrap32 (R133). -/
def wrap16 (x : Int) : Int := wrapS 16 x
def wrap32 (x : Int) : Int := wrapS 32 x

/-- Round half away from zero of a complex quotient by 2^k, per component. -/
def rha (k : Nat) (z : Int) : Int := divHalfAway z (2 ^ k)

/-! ### Logarithm and exponential -/

/-- 2 × atanh(y) as its series at scale 2^256: `t` is y^k, `y2` is y^2. -/
def atanhSeries (y2 : Int) : Nat → Nat → Int → Int
  | 0, _, _ => 0
  | n + 1, k, t => 2 * t / (k : Int) + atanhSeries y2 n (k + 2) (t * y2 / ((2 ^ 256 : Nat) : Int))

/-- lnq(x) = round(2^40 × ln x) for x ≥ 1 (R157, DEDUCED, log entry 13). -/
def lnq (x : Nat) : Int :=
  let e := x.log2
  let one : Int := ((2 ^ 256 : Nat) : Int)
  let y := ((x : Int) - ((2 ^ e : Nat) : Int)) * one / ((x : Int) + ((2 ^ e : Nat) : Int))
  let s := (e : Int) * (ln2At256 : Int) + atanhSeries (y * y / one) 90 1 y
  divHalfAway s (2 ^ 216)

/-- exp(-x) at scale 2^64, x at scale 2^64. -/
def expNegSeries (x : Int) : Nat → Nat → Int → Int
  | 0, _, _ => 0
  | n + 1, k, t => t + expNegSeries x n (k + 1) (-(t * x) / (((2 ^ 64 : Nat) : Int) * ((k + 1 : Nat) : Int)))

/-! ### Golay pair (R150) -/

/-- The pair (alpha, beta) after `n` doublings, true for +1. -/
def golayPair : Nat → List Bool × List Bool
  | 0 => ([true], [true])
  | n + 1 =>
    let (a, b) := golayPair n
    (a ++ b, a ++ b.map (fun x => !x))

/-- alpha (false) or beta (true) of length `len`, a power of 2. -/
def golayCode (len : Nat) (beta : Bool) : List Bool := let g := golayPair len.log2; if beta then g.2 else g.1

/-- Whether element n of the code is +1. -/
def golayChip (len : Nat) (beta : Bool) (n : Nat) : Bool := ((golayCode len beta)[n]?).getD false

/-! ### The chirp synthesiser -/

/-- Window entry of sample n of a D-sample chirp (R49). -/
def windowIndex (n d : Nat) : Nat := min n (d - 1 - n) * 8192 / d

/-- One NCO sample (R48): window value `w` in Q1.15. -/
def ncoSample (amplitude : Nat) (w : Int) (idx : Nat) : Int × Int :=
  let a := rshFloor 15 ((amplitude : Int) * w)
  let f (r : Int) : Int := max (-8192) (min 8191 (divHalfAway (a * r) (2 ^ 17)))
  (f (cosRom idx), f (sinRom idx))

/-- The samples of an NCO chirp from clock `n` on, `left` of them to go (R48). -/
def ncoFrom (window amplitude d : Nat) (rate : Nat) : Nat → Nat → Nat → Nat → List (Int × Int)
  | 0, _, _, _ => []
  | left + 1, n, phase, freq =>
    ncoSample amplitude (Config.windowRom window (windowIndex n d)).toInt (phase / 2 ^ 32 % 65536) ::
      ncoFrom window amplitude d rate left (n + 1) ((phase + freq) % 2 ^ 48) ((freq + rate) % 2 ^ 48)

/-- A 14-bit two's-complement code (R50, R52, R84). -/
def code14 (w : Nat) : Int := sx 14 w

end Sys2Proof.Machine
end

