-- ==== Sys2Proof/Machine/ProbeCore.lean ====
section
/-! DEFINITION. What a probe table says: slots, spans, launch times, trace and frame numbers (chapter 3, R42 to R60). -/

namespace Sys2Proof.Machine

/-! ### Leg and slot descriptors -/

/-- Word i of a slot descriptor. -/
def LegBank.slotWord (b : LegBank) (slot i : Nat) : Word := vget (vget b.slot slot (Vector.replicate 8 0)) i 0
/-- Leg descriptor word i. -/
def LegBank.word (b : LegBank) (i : Nat) : Word := vget b.w i 0
def LegBank.on (b : LegBank) : Bool := fbit (b.word 0) F.LEG_W0.LEG_ON
def LegBank.ramanEn (b : LegBank) : Bool := fbit (b.word 0) F.LEG_W0.RAMAN_EN
/-- N of R56 in chips. -/
def LegBank.ramanChips (b : LegBank) : Nat := 16 * 2 ^ fget (b.word 0) F.LEG_W0.RAMAN_LEN
def LegBank.headDelay (b : LegBank) : Nat := fget (b.word 1) F.LEG_W1.HEAD_DELAY
def LegBank.ramanDelay (b : LegBank) : Nat := fget (b.word 1) F.LEG_W1.RAMAN_DELAY
def LegBank.len (b : LegBank) : Nat := fget (b.word 2) F.LEG_W2.L
/-- The gauge g: 64 is encoded as 0 (Table 3.3). -/
def LegBank.gauge (b : LegBank) : Nat := let g := fget (b.word 2) F.LEG_W2.GAUGE; if g = 0 then 64 else g
def LegBank.ramanOffset (b : LegBank) : Nat := fget (b.word 3) F.LEG_W3.RAMAN_OFFSET
def LegBank.active (b : LegBank) (slot : Nat) : Bool := fbit (b.slotWord slot 0) F.SLOT_W0.ACTIVE
/-- The active slots in ascending order (R43). -/
def LegBank.slots (b : LegBank) : List Nat := (List.range 8).filter b.active
/-- S. -/
def LegBank.count (b : LegBank) : Nat := b.slots.length
/-- The lowest-numbered active slot. -/
def LegBank.lowest (b : LegBank) : Nat := (b.slots.head?).getD 0
/-- Place j of a slot among the active ones. -/
def LegBank.place (b : LegBank) (slot : Nat) : Nat := (b.slots.filter (· < slot)).length
def LegBank.isTable (b : LegBank) (slot : Nat) : Bool := fbit (b.slotWord slot 0) F.SLOT_W0.SOURCE
/-- Chirp duration D in DAC clocks (R47, R50). -/
def LegBank.duration (b : LegBank) (slot : Nat) : Nat :=
  if b.isTable slot then fget (b.slotWord slot 7) F.SLOT_W7.TABLE_LEN else fget (b.slotWord slot 5) F.SLOT_W5.DURATION
def LegBank.freqStart (b : LegBank) (slot : Nat) : Nat :=
  (b.slotWord slot 1).toNat + 2 ^ 32 * fget (b.slotWord slot 2) F.SLOT_W2.FREQ_START_47_32
def LegBank.phaseStart (b : LegBank) (slot : Nat) : Nat := fget (b.slotWord slot 2) F.SLOT_W2.PHASE_START
def LegBank.rate (b : LegBank) (slot : Nat) : Nat :=
  (b.slotWord slot 3).toNat + 2 ^ 32 * fget (b.slotWord slot 4) F.SLOT_W4.RATE_47_32

/-- Chirp span C in points (R44): D in DAC clocks of 1.25 ns, P = 10 ns, or 2.5 ns in DETAIL. -/
def chirpSpan (detail : Bool) (d : Nat) : Nat := cdiv (5 * d + 200) (if detail then 10 else 40)

/-- Converter samples per point: 4, or 1 in DETAIL (R54). -/
def pointStep (detail : Bool) : Nat := if detail then 1 else 4

/-- C of a slot row of a leg. -/
def LegBank.span (b : LegBank) (detail : Bool) (slot : Nat) : Nat := chirpSpan detail (b.duration slot)

/-- The leg's bank of a plan. -/
def Bank.legBank (b : Bank) (leg : Nat) : LegBank := vget b.leg leg LegBank.reset
/-- The leg's active bank. -/
def State.legBank (s : State) (leg : Nat) : LegBank := s.probe.active.legBank leg
/-- n_g × 10,000 at a frame counted over all plans (R8, R9). -/
def Probe.ngAt (p : Probe) (f : Nat) : Nat := match p.ngs.find? (·.1 ≤ f) with | some e => e.2 | none => 14682
/-- A new n_g joins those that hold from other frames, newest first; the sixteen newest stay. -/
def insertNg (e : Nat × Nat) : List (Nat × Nat) → List (Nat × Nat)
  | [] => [e]
  | o :: rest => if o.1 ≤ e.1 then e :: o :: rest else o :: insertNg e rest
def State.legOn (s : State) (leg : Nat) : Bool := s.probe.running && (s.legBank leg).on
/-- The mode in force is DETAIL. -/
def State.detail (s : State) : Bool := s.fw.mode == modeDetail
/-- Leg 0, or leg 1 where leg 0 is off (R33). -/
def Bank.leader (b : Bank) : Nat := if (b.legBank 0).on then 0 else 1

/-! ### Frames, launches, traces -/

/-- f_loc in Hz (Table 10.3). -/
def rateHz (i : Nat) : Nat :=
  (([500, 1000, 1250, 2000, 2500, 4000, 5000, 8000, 10000, 12500, 16000, 20000, 25000, 32000, 40000, 50000, 64000] : List Nat)[i]?).getD 500
/-- Rate index of S / T_f, T_f in 2.5 ns units: S × 400,000,000 / T_F Hz (R31 condition 3). -/
def rateIndex (s tF : Nat) : Option Nat := (List.range 17).find? (fun i => s * 400000000 == rateHz i * tF)

/-- T_f in units of 0.25 ns. -/
def Bank.tUnits (b : Bank) : Nat := 10 * b.tF
/-- T_f of the plan in force. -/
def State.frameUnits (s : State) : Nat := s.probe.active.tUnits
/-- Device time at which frame k begins (R42). -/
def State.frameTime (s : State) (k : Nat) : Nat := s.probe.active.e + k * s.frameUnits
/-- Device time of the j-th launch of frame k on a leg (R43). -/
def State.launchTime (s : State) (leg k j : Nat) : Nat :=
  s.frameTime k + 10 * (j * s.probe.active.tF / max 1 (s.legBank leg).count)
/-- The first frame that begins at or after a device time. -/
def State.frameFrom (s : State) (t : Nat) : Nat :=
  if t ≤ s.probe.active.e then 0 else cdiv (t - s.probe.active.e) (max 1 s.frameUnits)
/-- The frame in which a device time lies. -/
def State.frameAt (s : State) (t : Nat) : Nat := (t - s.probe.active.e) / max 1 s.frameUnits
/-- The trace that a slot row carries in frame k of the plan in force (R60: one launch a frame). -/
def State.traceOf (s : State) (leg slot k : Nat) : Nat :=
  vget (vget s.probe.planTrace leg (Vector.replicate 8 0)) slot 0 + k
/-- The frame of the plan in force that holds a trace of a slot row. -/
def State.frameOf (s : State) (leg slot trace : Nat) : Nat :=
  trace - vget (vget s.probe.planTrace leg (Vector.replicate 8 0)) slot 0
/-- The plan in force. -/
def State.planNow (s : State) : PastPlan :=
  { base := s.probe.frameBase, bank := s.probe.active, planTrace := s.probe.planTrace, mode := s.fw.mode }
/-- The plan in which a frame, counted over all plans, lies: the one in force, or the one before it. -/
def State.planAt (s : State) (frame : Nat) : PastPlan :=
  let now := s.planNow
  match s.probe.past with
  | some p => if frame < s.probe.frameBase then p else now
  | none => now
/-- Device time of a frame boundary, by its number over all plans. -/
def State.boundaryTime (s : State) (frame : Nat) : Nat :=
  let p := s.planAt frame
  (p.bank.e + (frame - p.base) * p.bank.tUnits) % 2 ^ 64
/-- A slot row of a leg is launched under a plan. -/
def PastPlan.fires (p : PastPlan) (leg slot : Nat) : Bool := (p.bank.legBank leg).on && (p.bank.legBank leg).active slot
/-- Device time of a slot row's launch in a frame counted over all plans (R43). -/
def PastPlan.launchTime (p : PastPlan) (leg slot f : Nat) : Nat :=
  let b := p.bank.legBank leg
  p.bank.e + (f - p.base) * p.bank.tUnits + 10 * (b.place slot * p.bank.tF / max 1 b.count)
/-- The trace that a slot row carries in a frame counted over all plans (R60). -/
def PastPlan.trace (p : PastPlan) (leg slot f : Nat) : Nat := vget (vget p.planTrace leg (Vector.replicate 8 0)) slot 0 + (f - p.base)
/-- The trace that a row's next launch takes. -/
def Probe.nextTrace (p : Probe) (leg slot : Nat) : Nat := vget (vget p.trace leg (Vector.replicate 8 0)) slot 0
/-- Playout index of the first launch of the lowest active slot at or after a sample index (R87, R89). -/
def State.lowestFrom (s : State) (n : Nat) : Nat := s.indexOfTime (s.frameTime (s.frameFrom (s.timeOfIndex n)))
/-- The launch stamp of a playout index (R55). -/
def State.stampOf (s : State) (n : Nat) : Nat := (s.timeOfIndex n + 120) % 2 ^ 64
/-- Launch frame counted over all plans: the model's own count, which orders frames of different plans. -/
def State.globalFrame (s : State) (k : Nat) : Nat := s.probe.frameBase + k

/-! ### Waveforms (R48, R50, R52) -/

/-- The samples a slot plays from its descriptor, or from its table. -/
def LegBank.waveform (b : LegBank) (slot : Nat) (t : SlotTable) : List (Int × Int) :=
  if b.isTable slot then (t.i.zip t.q).take (b.duration slot)
  else
    ncoFrom (fget (b.slotWord slot 0) F.SLOT_W0.WINDOW) (fget (b.slotWord slot 6) F.SLOT_W6.AMPLITUDE) (b.duration slot)
      (b.rate slot) (b.duration slot) 0 (b.phaseStart slot * 2 ^ 32) (b.freqStart slot)

/-- The table memory of a slot that the plan in force uses. -/
def State.tableOf (s : State) (leg slot : Nat) : SlotTable := vget (vget s.probe.inUse leg (Vector.replicate 8 {})) slot {}

/-- The samples a slot of the plan in force plays. -/
def State.waveform (s : State) (leg slot : Nat) : List (Int × Int) := (s.legBank leg).waveform slot (s.tableOf leg slot)

/-- Chip n of the burst in code phase f: A, its complement, B, its complement (R57). -/
def burstChip (len phase n : Nat) : Bool :=
  let v := golayChip len (2 ≤ phase) n
  if phase % 2 = 1 then !v else v

/-- Origin of a leg in replay: playout index and frame of the first launch of the replay (R99). -/
def State.replayOrigin (s : State) (leg : Nat) : Option (Nat × Nat) :=
  let r := (vget s.halls.leg leg {}).replay
  if r.on then r.origin else none

/-- Playout index of frame k on a leg: of the device clock, or of the replay stream (R99). -/
def State.frameIndex (s : State) (leg k : Nat) : Nat :=
  match s.replayOrigin leg with
  | some (n0, k0) => n0 + (k - k0) * s.probe.active.tF
  | none => s.indexOfTime (s.frameTime k)

/-- The frame in which a sample index of a leg lies. -/
def State.frameAtIndex (s : State) (leg n : Nat) : Nat :=
  match s.replayOrigin leg with
  | some (n0, k0) => k0 + (n - n0) / max 1 s.probe.active.tF
  | none => s.frameAt (s.timeOfIndex n)

/-- Playout index of the Raman burst of frame k (R56). -/
def State.burstIndex (s : State) (leg k : Nat) : Nat := s.frameIndex leg k + 4 * (s.legBank leg).ramanOffset

/-- Code phase of frame k (R57). -/
def State.codePhase (s : State) (leg k : Nat) : Nat := (s.globalFrame k - vget s.probe.ramanFrame leg 0) % 4

end Sys2Proof.Machine
end

