-- ==== Sys2Proof/Machine/Reply.lean ====
section
/-! DEFINITION. OMP messages: headers, series, status words, replies on every carrier, the end of a long operation
(R359, R360, R366, R367, R372, R442). -/

namespace Sys2Proof.Machine

/-- The status codes of Table 20.5. -/
inductive Status where
  | ok | unknownCode | version | length | param | traceEarly | busy | notRest | modePending | planInfeasible
  | laneFault | memFault | tableFormat | noSurvey | chainRate | cellImage | cellSize | imageInUse | loftPool
  | zoneBind | zoneSpace | zoneParam | zoneSpan | trigPattern | trigSpan | notArmed | notMaster | ringPlan
  | tempPending | timeRunning | streamSel | streamSpan | streamStopping | staleSeq | notAllowed | secureCarrier
  | secureRequired | authFail | bulk | imageSignature | rollback | causePresent | lockHeld | safeState | aborted
  | noTable | noStart | kind
  deriving DecidableEq, Repr

/-- The number of a status code (Table 20.5). -/
def Status.num : Status → Nat
  | .ok => 0x00 | .unknownCode => 0x01 | .version => 0x02 | .length => 0x03 | .param => 0x04 | .traceEarly => 0x05
  | .busy => 0x06 | .notRest => 0x07 | .modePending => 0x08 | .planInfeasible => 0x09 | .laneFault => 0x0A
  | .memFault => 0x0B | .tableFormat => 0x0C | .noSurvey => 0x0D | .chainRate => 0x0E | .cellImage => 0x0F
  | .cellSize => 0x10 | .imageInUse => 0x11 | .loftPool => 0x12 | .zoneBind => 0x13 | .zoneSpace => 0x14
  | .zoneParam => 0x15 | .zoneSpan => 0x16 | .trigPattern => 0x17 | .trigSpan => 0x18 | .notArmed => 0x19
  | .notMaster => 0x1A | .ringPlan => 0x1B | .tempPending => 0x1C | .timeRunning => 0x1D | .streamSel => 0x1E
  | .streamSpan => 0x1F | .streamStopping => 0x20 | .staleSeq => 0x21 | .notAllowed => 0x22 | .secureCarrier => 0x23
  | .secureRequired => 0x24 | .authFail => 0x25 | .bulk => 0x26 | .imageSignature => 0x27 | .rollback => 0x28
  | .causePresent => 0x29 | .lockHeld => 0x2A | .safeState => 0x2B | .aborted => 0x2C | .noTable => 0x2D
  | .noStart => 0x2E | .kind => 0x2F

/-- A refusal: status, DETAIL and INDEX (R360). -/
structure Err where
  status : Status
  detail : Nat := 0
  index : Nat := 0xFF
  deriving DecidableEq, Repr

/-- Word 1 of a response (R360). -/
def statusWord (status detail index : Nat) : Word :=
  w32 (status % 65536 + 65536 * (detail % 256) + 2 ^ 24 * (index % 256))

/-- The OMP header word (Table 20.1). -/
def headerWord (words kind more tag code : Nat) : Word :=
  w32 (words % 16 + 16 * (kind % 4) + 64 * (more % 2) + 256 * (tag % 256) + 65536 * (code % 4096) + 2 ^ 28)

/-- Header fields of a message. -/
def msgHeader (m : Msg) : Nat := (wat m 0).toNat
def msgWords (m : Msg) : Nat := nbits (msgHeader m) 0 4 + 1
def msgKind (m : Msg) : Nat := nbits (msgHeader m) 4 2
def msgBulk (m : Msg) : Bool := nbit (msgHeader m) 6
def msgTag (m : Msg) : Nat := nbits (msgHeader m) 8 8
def msgCode (m : Msg) : Nat := nbits (msgHeader m) 16 12
def msgMajor (m : Msg) : Nat := nbits (msgHeader m) 28 4

/-- The words after the headers of a series, at most 15 a message (R360). -/
def chunk15 : Nat → List Word → List (List Word)
  | 0, _ => []
  | _, [] => []
  | fuel + 1, ws => ws.take 15 :: chunk15 fuel (ws.drop 15)

/-- The messages of a response or event (R360, R443): MORE = 1 in every message but the last. -/
def mkSeries (kind code tag : Nat) (ws : List Word) : List Msg :=
  let parts := chunk15 (ws.length + 1) ws
  let n := parts.length
  (parts.zipIdx).map (fun (p, i) => headerWord p.length kind (if i + 1 < n then 1 else 0) tag code :: p)

/-- A response of a command on carrier `c` (8: UDP): a series on the same channel, or one datagram whose response the session
keeps (R324, R360). -/
def State.reply (c : Nat) (udp : Option UdpTag) (code tag status detail index : Nat) (items : List Word) (s : State) : State :=
  let series := mkSeries 1 code tag (statusWord status detail index :: items)
  if c < 8 then
    { s with fw := { s.fw with out := vmod s.fw.out c (fun q => q ++ series.map (fun m => ⟨s.fw.order, m⟩)), order := s.fw.order + 1 } }
  else
    match udp with
    | none => s
    | some u =>
      let words := series.flatten
      let eth := s.porch.eth
      let up (x : UdpSession) : UdpSession :=
        if x.session = u.session then { x with answered := ((u.seq, words) :: x.answered).take 16, waiting := x.waiting.filter (· != u.seq) } else x
      { s with porch := { s.porch with eth := { eth with
          sessions := eth.sessions.map up
          sent := eth.sent ++ [.omp u.session u.seq 1 words] } } }

/-- A lock held by `owner` is freed. -/
def State.freeLock (k : Nat) (s : State) : State := { s with mb := { s.mb with locks := vset s.mb.locks k 0 } }

/-- Every lock owned by one of `who` is freed (R357). -/
def State.freeLocksOf (who : List Nat) (s : State) : State :=
  { s with mb := { s.mb with locks := s.mb.locks.map (fun o => if who.contains o.val then 0 else o) } }

/-- The running long operation ends (R366): its lock is freed (R367), progress takes its last state, the response is sent. -/
def State.finishLong (e : Err) (items : List Word) (s : State) : State :=
  match s.fw.long with
  | none => s
  | some op =>
    let st := if e.status = .ok then 2 else if e.status = .aborted then 4 else 3
    let unit := fget s.host.progStat F.PROG_STAT.UNIT
    let value := if e.status = .ok && unit = 0 then 10000 else s.host.progValue.toNat
    let s := match op.lock with | some k => s.freeLock k | none => s
    let s := s.reply op.carrier op.udp op.code op.tag e.status.num e.detail e.index items
    ({ s with fw := { s.fw with long := none } }).progress op.code st unit value

/-- A waiting stamped change is discarded: PENDING_DROPPED with its code, tag and error (R365). -/
def State.dropChange (p : Stamped) (e : Status) (s : State) : State :=
  if p.also then s else s.emit evPendingDropped [w32 p.code, w32 p.tag, w32 e.num]

/-- Every waiting stamped change is discarded with ABORTED (REST, safe state, chip reset; R365). -/
def State.dropAllChanges (s : State) : State :=
  s.fw.stamped.foldl (fun t p => t.dropChange p .aborted) { s with fw := { s.fw with stamped := [] } }

end Sys2Proof.Machine
end

