-- ==== Sys2Proof/Machine/Stamped.lean ====
section
/-! DEFINITION. Waiting stamped changes: which are due at a frame, and their application in order of acceptance (R8, R17, R22, R364, R365). -/

namespace Sys2Proof.Machine

/-- Command codes of class S (Table 20.3). -/
def cModeSet : Nat := 0x010
def cGainSet : Nat := 0x018
def cFrontSet : Nat := 0x019
def cChainSet : Nat := 0x020
def cChainReset : Nat := 0x021
def cMapSet : Nat := 0x028
def cPoolSet : Nat := 0x031
def cZoneSet : Nat := 0x038
def cZoneParam : Nat := 0x039
def cZoneEnable : Nat := 0x03A
def cTrigSet : Nat := 0x040
def cArm : Nat := 0x041
def cDisarm : Nat := 0x042
def cFire : Nat := 0x043
def cStreamStart : Nat := 0x049
def cStreamStop : Nat := 0x04A
def cTempSet : Nat := 0x050
def cTempCal : Nat := 0x051
def cReplayStart : Nat := 0x080
def cReplayStop : Nat := 0x081

/-- The leg or item that a change names in its first parameter. -/
def Stamped.item (p : Stamped) : Nat := (wat p.words 0).toNat % 256

/-- A change is due at a frame. -/
def Stamped.dueAt (p : Stamped) (frame : Nat) : Bool := match p.frame with | some f => f ≤ frame | none => false

/-- MODE_SUM and LEG_SUM0, 1 (Table 21.5): the plan in force, and whether a stamped change waits for its trace. -/
def State.modeSumWord (s : State) : Word :=
  let b (n : Nat) : LegBank := s.legBank n
  let log (n : Nat) : Nat := if s.legOn n then (b n).count.log2 else 0
  let w := fsetB (fsetB (fset 0 F.MODE_SUM.MODE s.fw.mode) F.MODE_SUM.LEG0_ON (s.legOn 0)) F.MODE_SUM.LEG1_ON (s.legOn 1)
  let w := fset (fset w F.MODE_SUM.LOG2S0 (log 0)) F.MODE_SUM.LOG2S1 (log 1)
  fset (fsetB w F.MODE_SUM.PENDING (!s.fw.stamped.isEmpty || s.probe.pending.isSome)) F.MODE_SUM.T_F (if s.probe.running then s.probe.active.tF else 0)
def State.legSumWord (s : State) (n : Nat) : Word :=
  let b := s.legBank n
  if !s.legOn n then fset 0 F.LEG_SUM.RATE 0x1F
  else fset (fset (fset 0 F.LEG_SUM.L b.len) F.LEG_SUM.GAUGE b.gauge) F.LEG_SUM.RATE ((rateIndex b.count s.probe.active.tF).getD 0x1F)

/-- Firmware brings the summary words up to date (R385), where they change. -/
def State.summarise (s : State) : State :=
  let m := s.modeSumWord
  let l : Vector Word 2 := #v[s.legSumWord 0, s.legSumWord 1]
  if m = s.host.modeSum ∧ l = s.host.legSum then s else s.updateSummary (fun h => { h with modeSum := m, legSum := l })

/-- The codes whose changes are settings, which a restart after a chip reset repeats (R394): not events such as FIRE. -/
def settingCodes : List Nat :=
  [cGainSet, cFrontSet, cChainSet, cMapSet, cPoolSet, cZoneSet, cZoneParam, cZoneEnable, cTrigSet, cArm, cDisarm, cStreamStart, cTempSet, cTempCal]

/-- A setting that takes effect is journalled (R394). -/
def State.journalChange (p : Stamped) (s : State) : State :=
  if settingCodes.contains p.code then
    { s with fw := { s.fw with journalStamped := s.fw.journalStamped ++ [{ p with eff := none, frame := none, held := true }] } }
  else s

/-- A change leaves the waiting list as it is applied; one accepted before its plan is reported by PENDING_APPLIED (R365). -/
def State.takeChange (p : Stamped) (s : State) : State :=
  let s1 := ({ s with fw := { s.fw with stamped := s.fw.stamped.erase p } }.journalChange p).summarise
  if p.held && !p.also then s1.emitAt (p.frame.map s1.boundaryTime) evPendingApplied ([w32 p.code, w32 p.tag, w32 p.leg] ++ w64 (p.eff.getD allOnes64)) else s1

/-- Every waiting change that `pick` names and that is due at a frame is applied by `f`, in order of acceptance (R22). -/
def State.applyDue (pick : Stamped → Bool) (frame : Nat) (f : Stamped → State → State) (s : State) : State :=
  (s.fw.stamped.filter (fun p => pick p && p.dueAt frame)).foldl (fun t p => f p (t.takeChange p)) s

/-- A waiting change of a code that names a leg. -/
def pickLeg (code leg : Nat) (p : Stamped) : Bool := p.code == code && p.item == leg

/-- A list in rising order of a key, equal keys in the order they stood. -/
def insertOn {α : Type} (key : α → Nat) (a : α) : List α → List α
  | [] => [a]
  | b :: rest => if key a ≤ key b then a :: b :: rest else b :: insertOn key a rest
def sortOn {α : Type} (key : α → Nat) (l : List α) : List α := l.foldr (insertOn key) []

/-- Waiting changes that `pick` names and that take effect at a frame or before it, in the order in which they do (R22). -/
def State.changesTo (s : State) (pick : Stamped → Bool) (f : Nat) : List Stamped :=
  sortOn (fun p => p.frame.getD 0) (s.fw.stamped.filter (fun p => pick p && p.dueAt f))

/-! ### Frames ahead -/

/-- Frame, over all plans, of the trace current in the Hall on a leg: its latest launch. -/
def State.currentFrame (s : State) (leg : Nat) : Nat :=
  s.globalFrame (vget s.probe.frame leg 0) + (if vget s.probe.next leg 0 = 0 then 0 else 1) - 1

/-- E of the plan that a pending change starts (R61). -/
def State.nextE (s : State) (e : Nat) : Nat := s.probe.active.e + (e + 1) * s.frameUnits

/-- Boundary of a frame counted over all plans, a pending plan included. -/
def State.boundaryAhead (s : State) (f : Nat) : Nat :=
  let k := f - s.probe.frameBase
  match s.probe.pending with
  | some p =>
    match p.atFrame with
    | some e => if p.mode != 0 && e ≤ k then s.nextE e + (k - e) * p.bank.tUnits else s.frameTime k
    | none => s.frameTime k
  | none => s.frameTime k

/-- The first frame, over all plans, whose boundary is at or after a device time. -/
def State.frameAhead (s : State) (t : Nat) : Nat :=
  let k := s.frameFrom t
  match s.probe.pending with
  | some p =>
    match p.atFrame with
    | some e =>
      if p.mode != 0 && e ≤ k then s.globalFrame (e + (if t ≤ s.nextE e then 0 else cdiv (t - s.nextE e) (max 1 p.bank.tUnits))) else s.globalFrame k
    | none => s.globalFrame k
  | none => s.globalFrame k

/-- A frame counted over all plans is one that the probe launches: not one from which it is to stop. -/
def State.frameRuns (s : State) (f : Nat) : Bool :=
  match s.probe.pending with
  | some p => (match p.atFrame with | some e => p.mode != 0 || decide (f < s.globalFrame e) | none => true)
  | none => true

/-- Number of a slot row's first trace under a plan that takes effect at frame k of the plan in force; none: no plan runs. -/
def State.firstTrace (s : State) (k : Option Nat) (leg slot : Nat) : Nat :=
  match k with
  | some n => if s.planNow.fires leg slot then s.traceOf leg slot n else s.probe.nextTrace leg slot
  | none => s.probe.nextTrace leg slot

/-- The plan in which a frame counted over all plans lies: the pending one from its effective frame on. -/
def State.planOver (s : State) (f : Nat) : PastPlan :=
  match s.probe.pending with
  | some p =>
    match p.atFrame with
    | some e =>
      if p.mode != 0 && decide (s.globalFrame e ≤ f) then
        let row (leg : Nat) : Vector Nat 8 := ⟨((List.range 8).map (s.firstTrace (some e) leg)).toArray, by simp⟩
        { base := s.globalFrame e, bank := { p.bank with e := s.nextE e }, planTrace := #v[row 0, row 1], mode := p.mode }
      else s.planAt f
    | none => s.planAt f
  | none => s.planAt f

end Sys2Proof.Machine
end

