-- ==== Sys2Proof/Machine/Reactions.lean ====
section
/-! DEFINITION. What the reactions of a fault do to the rooms: block reset (R393), chip reset (R394), the safe state (R396, R397). -/

namespace Sys2Proof.Machine

/-- Queues of a channel emptied; its stall timer stops (R319, R343, R344, R349). -/
def Mailbox.empty (m : Mailbox) : Mailbox := { m with inq := [], outq := [], stallUp := none }

/-- The running long operation is SHUTDOWN (R414). -/
def State.shuttingDown (s : State) : Bool := match s.fw.long with | some op => op.code == 0x098 | none => false

/-- The Raman channel of a leg stops. -/
def Hall.stopRaman (h : Hall) : Hall :=
  { h with raman := { h.raman with
      starting := none, cfg := fset h.raman.cfg F.RAMAN_CFG.ENABLE 0, stat := fset h.raman.stat F.RAMAN_STAT.RUNNING 0 } }

/-- A stream that runs is told to end, with the cause of its END block (Table 17.5). -/
def Stream.endWith (cause : Nat) (t : Stream) : Stream :=
  if fbit t.stat F.STR_STAT.RUNNING then { t with ending := some (t.ending.getD cause) } else t

/-! ### The safe state (R396, R397) -/

/-- CHAIN_FADE (Table 20.4). -/
def chainFadeWords (leg : Nat) (f : ChainFade) (lastSlot lastTrace : Nat) (abandoned : Bool) : List Word :=
  [w32 leg, w32 f.from_, w32 f.target, w32 f.slot] ++ w64 f.trace ++ [w32 lastSlot] ++ w64 lastTrace ++ [w32 abandoned.toNat]

/-- A fade under way on a leg is about to be abandoned, and firmware says so (R185). -/
def State.abandonFade (leg : Nat) (s : State) : State :=
  let c := (vget s.halls.leg leg {}).chain
  match c.fade with
  | some f => if f.done = 0 then s else s.emitAt (some c.lastStamp) evChainFade (chainFadeWords leg f c.last.1 c.last.2 true)
  | none => s

/-- What the Hall of a leg holds of the samples and rows under way is let go. -/
def Hall.discard (h : Hall) : Hall :=
  { h.stopRaman with samples := [], nextIndex := none, ramanAgain := false, chain := { h.chain with input := [], fade := none, held := none, due := none } }

/-- Rows under way in the Hall are let go; the rings keep what they hold. -/
def State.discardRows (s : State) : State :=
  let s := (s.abandonFade 0).abandonFade 1
  { s with
    halls := { s.halls with leg := s.halls.leg.map Hall.discard, launches := [], out0 := [], out5 := [], loft := [] }
    cellar := { s.cellar with full := { s.cellar.full with taken := 0, dropping := false }, dec := { s.cellar.dec with taken := 0, dropping := false } } }

/-- The Loft stops: jobs are abandoned, no version follows. -/
def Loft.halt (l : Loft) : Loft :=
  { l with
    cell := l.cell.map (fun c => { c with job := none, dropped := false }), slots := [], jobs := [], staged := []
    map := l.map.map (fun m => { m with base := none, rows := [] }), vec := { l.vec with next := none, held := false } }

/-- A trigger unit goes to IDLE at a frame, after the versions committed before it: none follows until a plan starts (Table 14.2). -/
def TrigUnit.halt (frame : Nat) (x : TrigUnit) : TrigUnit := { x with due := x.due ++ [(frame, .stop false)] }

/-- A record ends with the last frame before E (Table 14.2). -/
def Record.cutAt (r : Record) (e : Nat) : Record :=
  if e < r.fireFrame + r.post then { r with post := e - r.fireFrame, flags := r.flags ||| 1 } else r

/-- Fired records that reach past frame E are cut, and their units say so. -/
def Triggers.cutAll (t : Triggers) (e : Nat) : Triggers :=
  let hit (u : Nat) : Bool := t.fired.any (fun r => r.unit == u && decide (e < r.fireFrame + r.post))
  { t with
    fired := t.fired.map (fun r => r.cutAt e)
    units := ⟨((List.range 16).map (fun u =>
      let x := vget t.units u {}
      if hit u then { x with stat := fset x.stat F.TRIG_STAT.TRUNCATED 1 } else x)).toArray, by simp⟩ }

/-- Frame, over all plans, of the furthest leg. -/
def Probe.frontier (p : Probe) : Nat := p.frameBase + max (vget p.frame 0 0) (vget p.frame 1 0)

/-- A SURVEY that waits for another's end is answered (R36). -/
def State.endSurveyNext (e : Status) (s : State) : State :=
  match s.fw.surveyNext with
  | some op => { s with fw := { s.fw with long := some op, surveyNext := none } }.finishLong { status := e } []
  | none => s

/-- The running MODE_SET or SURVEY ends, and one that waits for it (R412). -/
def State.endModeSet (e : Status) (s : State) : State :=
  match s.fw.long with
  | some op =>
    if op.code = cModeSet then
      (({ s with fw := { s.fw with surveyPartial := s.fw.surveyPartial || s.fw.mode == modeSurvey } }).finishLong { status := e } []).endSurveyNext e
    else s
  | none => s.endSurveyNext e

/-- A gap in progress ends with the probe, its trim abandoned: no retrim runs in REST, self-calibration or the safe state (R107; DESIGN CHOICE, log entry
97). -/
def Trim.cut (t : Trim) : Trim :=
  match t.gap with
  | some g => { t with gap := none, lastGap := some g.first }
  | none => t

/-- A state with a gap in progress cut. -/
def State.cutGap (s : State) : State := { s with thr := { s.thr with trim := s.thr.trim.cut } }

/-- Safe-state entry (R396, Table 22.3) on a source. A SHUTDOWN that runs goes on with its streams (R415). -/
def State.enterSafe (src : Nat) (s : State) : State :=
  if s.safe then s
  else
    let down := s.shuttingDown
    let f := s.probe.frontier
    let s1 := { s with
      fc := { s.fc with
        stat := fset (fset s.fc.stat F.FC_STAT.SAFE 1) F.FC_STAT.FAULT_N 1
        event := fset (fset s.fc.event F.FC_EVENT.SAFE_SRC src) F.FC_EVENT.SAFE_VALID 1 }
      host := { s.host with idStat := fset s.host.idStat F.ID_STAT.SAFE 1 }
      hearth := s.hearth.toSafe
      probe := { s.probe with running := false, pending := none, ramanOn := Vector.replicate 2 false
                              played := Vector.replicate 2 [], burst := Vector.replicate 2 [] }
      loft := s.loft.halt
      trig := let t := s.trig.cutAll f; { t with units := t.units.map (TrigUnit.halt f) }
      streams := if down then { s.streams with str := s.streams.str.map (Stream.endWith 1) } else s.streams }
    let s2 := s1.cutGap.discardRows.endModeSet .safeState
    let s3 := { s2 with fw := { s2.fw with mode := 0, optical := if down then .draining else .idle, opticalUp := s2.time.up } }
    s3.dropAllChanges.summarise

/-- The safe state ends once no raised source carries S: REST follows, without a fade (R397). -/
def State.leaveSafe (s : State) : State :=
  if !s.safe || s.fc.sources.toList.any (fun f => f.raised && nbit f.applied 5) then s
  else
    let on := s.power.front || s.power.loft || s.power.hearth
    { s with
      fc := { s.fc with stat := fset s.fc.stat F.FC_STAT.SAFE 0 }
      host := { s.host with idStat := fset s.host.idStat F.ID_STAT.SAFE 0 }
      fw := { s.fw with
        startState := false, journal := none
        optical := if s.fw.optical = .idle && on && s.boot.phase == .ready then .fadeOut else s.fw.optical
        opticalUp := s.time.up } }

/-! ### Block reset (R393) -/

/-- The next frame, over all plans, of a leg. -/
def State.nextFrame (s : State) (leg : Nat) : Nat :=
  s.globalFrame (vget s.probe.frame leg 0) + (if vget s.probe.next leg 0 = 0 then 0 else 1)

/-- Zones of the legs that `pick` names restart at a frame (R240). -/
def State.restartLegs (frame : Nat) (pick : Nat → Bool) (s : State) : State :=
  { s with loft := { s.loft with zone := s.loft.zone.map (fun z =>
      if fbit z.cfg F.ZONE_CFG.ENABLE && pick (fget z.cfg F.ZONE_CFG.LEG) then { z with due := z.due ++ [(frame, .restart)] } else z) } }

/-- A Hall leg: slot-row state, chain and Raman channel cleared; the next frame boundary is a clearing. -/
def State.resetHall (leg : Nat) (s : State) : State :=
  let s := s.abandonFade leg
  let h := vget s.halls.leg leg {}
  let on := vget s.probe.ramanOn leg false
  let h1 := { h.discard with
    rows := Vector.replicate 8 {}, lastSlot := none, reset := true, ramanAgain := on
    chain := { h.chain with input := [], fade := none, held := none, loc := [], recent := [], m := 0, due := some 5 } }
  ({ s with
    probe := { s.probe with ramanOn := vset s.probe.ramanOn leg false }
    halls := { s.halls with leg := vset s.halls.leg leg h1, launches := s.halls.launches.filter (fun l => l.leg != leg) } }).restartLegs
    (s.nextFrame leg) (fun z => z == leg)

/-- The Loft: every running job is abandoned, every zone restarts at the next frame boundary. -/
def State.resetLoft (s : State) : State :=
  ({ s with loft := { s.loft with cell := s.loft.cell.map (fun (c : Cell) => { c with dropped := c.job.isSome }) } }).restartLegs (max (s.nextFrame 0) (s.nextFrame 1))
    (fun _ => true)

/-- The Cellar; rows that lose words are reported. -/
def State.resetCellar (s : State) : State :=
  let (c, lost) := s.cellar.blockReset
  { s with cellar := c, fc := { s.fc with owed := s.fc.owed ++ lost.map (fun p => (0x42, p)) } }

/-- Sessions' highest accepted SEQ in always-on storage (R393). -/
def State.journalSessions (s : State) : State :=
  let es := s.porch.eth.sessions.map (fun x => (x.session, x.last))
  { s with larder := { s.larder with udpSeq := (es ++ s.larder.udpSeq.filter (fun e => !es.any (fun x => x.1 == e.1))).take 8 }
           porch := { s.porch with eth := { s.porch.eth with sessions := [] } } }

/-- The mailbox block held in reset (R344); locks of the named requesters are freed (R357). -/
def State.holdMailboxes (who : List Nat) (s : State) : State :=
  let m := s.mb
  ({ s with mb := { m with chan := Vector.replicate 8 {}, avail := fset m.avail F.MB_AVAIL.STATE 1, sec := fset m.sec F.MB_SEC.UNLOCKED 0 } }).freeLocksOf who

/-- The queues and stores of firmware as it starts: nothing taken, nothing waiting, sequence counts from 0. -/
def Firmware.fresh (f : Firmware) : Firmware :=
  { f with
    inbox := Vector.replicate 9 [], out := Vector.replicate 8 [], events := Vector.replicate 18 [], eventSeq := Vector.replicate 18 0
    alarms := Vector.replicate 18 [], alarmDropped := Vector.replicate 18 0, bulk := [], long := none, down := none, flags := 0, sec := {}, staging := {} }

/-- The Study restarts from the image in use. Acquisition runs on; a change that has been given its frame has reached its shadow set (DEDUCED, log entry 35). -/
def State.resetStudy (s : State) : State :=
  let lost := s.fw.stamped.filter (fun p => p.frame.isNone)
  let opt := if s.probe.running then s.fw.optical
    else if s.fw.optical = .fadeOut || s.fw.optical = .draining then .fadeOut else .idle
  let f := { s.fw.fresh with optical := opt, stamped := s.fw.stamped.filter (fun p => p.frame.isSome) }
  let start := (s.fw.startState || opt = .idle) && s.power.front && !s.safe
  let s1 := { s.journalSessions.holdMailboxes [3] with
    fw := { f with startState := start }
    fc := { s.fc with nmi := false }
    tiu := { s.tiu with asker := none }
    probe := if s.probe.running then s.probe else { s.probe with pending := none } 
    boot := { s.boot with phase := .firmware, bist := {}, watchdogUp := s.time.up }
    host := { s.host with idStat := fset s.host.idStat F.ID_STAT.FW_READY 0, idFw := 0 } }
  (lost.foldl (fun (t : State) p => t.dropChange p .aborted) s1).summarise

/-- Block reset of the target of a source, by its number and detail byte (Table 22.1). -/
def State.blockReset (src detail : Nat) (s : State) : State :=
  let leg := nbits detail 4 1
  match src with
  | 0x26 => s.resetHall (detail % 2)
  | 0x20 =>
    match detail % 16 with
    | 0 | 11 => s.resetHall leg
    | 2 | 5 => s.resetCellar
    | 3 | 4 => s.resetLoft
    | _ => s
  | 0x74 | 0x76 => s.resetStudy
  | _ => s

/-! ### Chip reset (R394) -/

/-- The probe after a chip reset: trace numbers and the count of frames go on. -/
def Probe.afterReset (p : Probe) : Probe := { trace := p.trace, frameBase := p.frontier + 1 }

/-- Chip reset: every isle of the digital die but the always-on one; the Hearth holds its outputs, the DAC lanes code 0. -/
def State.chipReset (s : State) : State :=
  let old := s.fw.stamped
  let s0 := s.journalSessions
  let fw : Firmware := { journal := s.fw.journal, journalStamped := s.fw.journalStamped }
  let id := fset (s.host.idStat &&& 0x18) F.ID_STAT.FW_READY 0
  let s1 := { s0 with
    tiu := { s.tiu with asker := none }
    tach := Vector.replicate 8 {}
    power := { s.power with study := true, cellar := true }
    boot := { s.boot with phase := .rom, bootUp := s.time.up, restartPlan := s.fw.journal.isSome && !s.safe, watchdogUp := s.time.up, bist := {} }
    fc := { s.fc with nmi := false }
    host := { serial := s.host.serial, idStat := id }
    mb := {}
    msix := {}
    porch := { flash := s.porch.flash, pcie := { perst := s.porch.pcie.perst }, eth := {} }
    streams := {}
    cw := {}
    fw
    probe := s.probe.afterReset
    hearth := { s.hearth with waits := [] }
    thr := { s.thr with leg := s.thr.leg.map (fun t => { t with pending := none, direct := none, auto := none }), trim := { s.thr.trim with gap := none } }
    cellar := {}
    trig := { nextKey := s.trig.nextKey }
    halls := {}
    loft := {} }
  (old.foldl (fun (t : State) p => t.dropChange p .aborted) s1).summarise

end Sys2Proof.Machine
end

