-- ==== Sys2Proof/Machine/Collector.lean ====
section
/-! DEFINITION. The fault collector: occurrences, raising, causes, clearing, FAULT_N (R387 to R395). -/

namespace Sys2Proof.Machine

/-- Source numbers of Table 22.1. -/
def srcHdOpen : Nat := 0x00
def srcHdShort : Nat := 0x01
def srcHsOpen : Nat := 0x02
def srcHsShort : Nat := 0x03
def srcGateOpen : Nat := 0x04
def srcGateShort : Nat := 0x05
def srcTecSensor : Nat := 0x06
def srcTecLimit : Nat := 0x07
def srcChainVerify : Nat := 0x08
def srcIlock : Nat := 0x09
def srcHearthHot : Nat := 0x0A
def srcAdcCal : Nat := 0x10
def srcHkOpen : Nat := 0x11
def srcTrimRange : Nat := 0x12
def srcRetrimRate : Nat := 0x13
def srcCalMissing : Nat := 0x14
def srcD2dLink : Nat := 0x15
def srcSamplePll : Nat := 0x16
def srcStraitTag : Nat := 0x20
def srcLaunchLate : Nat := 0x21
def srcReplayFormat : Nat := 0x22
def srcRamanExcl : Nat := 0x23
def srcRamanRef : Nat := 0x24
def srcTachQuad : Nat := 0x25
def srcHallUncorr : Nat := 0x26
def srcLoftLag : Nat := 0x30
def srcLoftUncorr : Nat := 0x31
def srcCellTrap : Nat := 0x32
def srcDramUncorr : Nat := 0x40
def srcDramCorrRate : Nat := 0x41
def srcHistoryOverrun : Nat := 0x42
def srcDramTrain : Nat := 0x43
def srcMailboxStall : Nat := 0x50
def srcSecAuth : Nat := 0x51
def srcI2cBus : Nat := 0x52
def srcPcieLink : Nat := 0x53
def srcEthLink : Nat := 0x54
def srcCausewayLink : Nat := 0x55
def srcCausewayVerdict : Nat := 0x56
def srcRingSize : Nat := 0x57
def srcTimeHoldover : Nat := 0x60
def srcTimeHoldoverLimit : Nat := 0x61
def srcTimeOffset : Nat := 0x62
def srcTiuCal : Nat := 0x63
def srcTcxoLoss : Nat := 0x64
def srcRailLow : Nat := 0x70
def srcRailHigh : Nat := 0x71
def srcDieHot : Nat := 0x72
def srcDieCrit : Nat := 0x73
def srcLockstep : Nat := 0x74
def srcWatchdog : Nat := 0x75
def srcStudyUncorr : Nat := 0x76
def srcLarderUncorr : Nat := 0x77
def srcLarderWear : Nat := 0x78
def srcBistStale : Nat := 0x79
def srcFwRollback : Nat := 0x7A
def srcCollectorCfg : Nat := 0x7B

/-- Numbers that Table 22.1 lists; the others are reserved and never occur (R387). -/
def sourceListed (n : Nat) : Bool := faultDefaults.any (fun r => r.1 == n)

/-- A source's record. -/
def State.source (s : State) (n : Nat) : FaultSource := vget s.fc.sources n {}

/-- A source's record replaced. -/
def State.setSource (n : Nat) (f : FaultSource) (s : State) : State :=
  { s with fc := { s.fc with sources := vset s.fc.sources n f } }

/-- Some raised source carries reaction bit `b` ([4] F, [5] S), by the reactions applied at its raise (R391 rule 3, R395, R397). -/
def Collector.anyRaised (c : Collector) (b : Nat) : Bool := c.sources.toList.any (fun f => f.raised && nbit f.applied b)

/-- FAULT_N follows the raised sources once the collector watches, and is low before and in the safe state (R395, Table 22.3). -/
def Collector.driveFaultN (c : Collector) : Collector :=
  { c with stat := fsetB c.stat F.FC_STAT.FAULT_N (!c.watching || c.anyRaised 4 || fbit c.stat F.FC_STAT.SAFE) }

/-- W of a source in milliseconds (R389). -/
def FaultSource.windowMs (f : FaultSource) : Nat :=
  fget f.src F.FC_SRC.W * (if fbit f.src F.FC_SRC.UNIT then 1000 else 1)

/-- k of a source; a stored 0 acts as 1. -/
def FaultSource.k (f : FaultSource) : Nat := max 1 (fget f.src F.FC_SRC.K)

/-- A configuration word written: a change of k or W empties the history (R391 rule 3). -/
def FaultSource.configure (f : FaultSource) (src : Word) : FaultSource :=
  let same (x : Fld) : Bool := fget src x == fget f.src x
  { f with src, history := if same F.FC_SRC.K && same F.FC_SRC.W && same F.FC_SRC.UNIT then f.history else [] }

/-- An occurrence at a millisecond count is recorded (R387, R389): the record, and whether it raises the source. A disabled
source never raises (R391 rule 4); a raised one is only counted. -/
def FaultSource.occur (f : FaultSource) (t detail : Nat) (always : Bool) : FaultSource × Bool :=
  let hist := (t :: f.history).take f.k
  let f := { f with cnt := finc f.cnt F.FC_CNT.OCCUR, detail := detail % 256 }
  let trans (f : FaultSource) : FaultSource :=
    { f with cnt := fset (finc f.cnt F.FC_CNT.TRANSIENT) F.FC_CNT.SEEN 1 }
  if f.raised then ({ f with history := hist }, false)
  else if !always && !fbit f.src F.FC_SRC.EN then (trans { f with history := hist }, false)
  else
    let full := decide (f.k ≤ hist.length) && decide (t - (hist.getLast?.getD t) < f.windowMs)
    if always || full then
      ({ f with history := hist, raised := true, applied := fget f.src F.FC_SRC.REACT }, true)
    else (trans { f with history := hist }, false)

/-- The FAULT event of a raise or a clear of a source that carries reaction I (Tables 20.4 and 22.2): source, detail, severity, raised, reactions. -/
def State.faultEvent (n : Nat) (f : FaultSource) (raised : Bool) (s : State) : State :=
  if !nbit f.applied 0 then s
  else s.emit evFault [w32 n, w32 f.detail, w32 (fget f.src F.FC_SRC.SEVERITY), w32 raised.toNat, w32 f.applied]

/-- A transient entry of the fault history, at most one per second per source (R392). -/
def State.logTransient (n detail : Nat) (s : State) : State :=
  let f := s.source n
  let second := s.time.up / sec
  if f.loggedSecond = some second then s
  else (s.setSource n { f with loggedSecond := some second }).logFault 2 n detail (fget f.src F.FC_SRC.SEVERITY) 0

/-- One occurrence is counted; what does not raise its source, and a raise of severity 0, is logged as a transient entry (R389, R392, R399). Answers whether
the source was raised by it. -/
def State.countOccurrence (n detail : Nat) (s : State) : State × Bool :=
  if !sourceListed n then (s, false)
  else
    let old := s.source n
    let (f, raised) := old.occur s.msCount detail (n == srcCollectorCfg)
    let s := s.setSource n f
    let sev := fget f.src F.FC_SRC.SEVERITY
    if raised then
      let s := s.faultEvent n f true
      (if 1 ≤ sev then s.logFault 0 n detail sev f.applied else s.logTransient n detail, true)
    else (if f.raised then s else s.logTransient n detail, false)

/-- The reactions of the sources raised in one cycle, their union applied once (R391 rule 1, R392): I, N, B, C, F, S in that order.
During a chip reset N and B wait (rule 5); the raise itself has been recorded. -/
def State.react (raised : List (Nat × Nat)) (s : State) : State :=
  if raised.isEmpty then s
  else
    let has (b : Nat) : Bool := raised.any (fun r => nbit (s.source r.1).applied b)
    let inReset := s.boot.phase != .ready && s.boot.phase != .firmware
    let last := raised.foldl (fun m r => max m r.1) 0
    let s0 := { s with fc := { s.fc with event := fset s.fc.event F.FC_EVENT.LAST last } }
    let s1 := if has 0 then s0.ring 8 else s0
    let s2 := if has 1 then (if inReset then s1 else { s1 with fc := { s1.fc with nmi := true } }) else s1
    let targets := raised.filter (fun r => nbit (s.source r.1).applied 2 || (inReset && nbit (s.source r.1).applied 1))
    let s3 := if inReset then { s2 with fc := { s2.fc with held := s2.fc.held ++ targets } }
      else (raised.filter (fun r => nbit (s.source r.1).applied 2)).foldl (fun t r => t.blockReset r.1 r.2) s2
    let s4 := if has 3 then s3.chipReset else s3
    let s5 := { s4 with fc := s4.fc.driveFaultN }
    let safeSources := raised.filter (fun r => nbit (s.source r.1).applied 5)
    match safeSources with
    | [] => s5
    | r :: rs => s5.enterSafe (rs.foldl (fun m x => min m x.1) r.1)

/-- The occurrences of one always-on cycle are counted, and their reactions applied (R387, R389, R391). -/
def State.reportOnce (rs : List (Nat × Nat)) (s : State) : State :=
  let (s, raised) := rs.foldl (fun (acc : State × List (Nat × Nat)) r =>
    let (t, up) := acc.1.countOccurrence r.1 r.2
    (t, if up then acc.2 ++ [r] else acc.2)) (s, [])
  s.react raised

/-- The occurrences that reach the collector in one always-on cycle, then those that a block reset among their reactions owes (R393). -/
def State.reportAll (rs : List (Nat × Nat)) (s : State) : State :=
  let s1 := s.reportOnce rs
  let s2 := if s1.fc.owed.isEmpty then s1 else { s1 with fc := { s1.fc with owed := [] } }.reportOnce s1.fc.owed
  let f := s2.source srcLarderWear
  if s2.larder.wear < 9000 || f.cond then s2 else (s2.setSource srcLarderWear { f with cond := true }).reportOnce [(srcLarderWear, 0)]

/-- LARDER_WEAR is watched after a write of the journal (R421). -/
def State.watchWear (s : State) : State := s.reportAll []

/-- One report of a source with its detail byte. -/
def State.report (n detail : Nat) (s : State) : State := s.reportAll [(n, detail)]

/-- A room tells the condition of an L source: a 0 to 1 transition is an occurrence once the collector watches, and its detail stands while the condition
holds (R387). -/
def State.setCondition (n : Nat) (cond : Bool) (detail : Nat) (s : State) : State :=
  let f := s.source n
  let s1 := s.setSource n { f with cond, detail := if cond && !f.cond then detail % 256 else f.detail }
  if cond && !f.cond && s.fc.watching then s1.report n detail else s1

/-- The collector has loaded and checked its configuration: it watches, and every condition that holds is an occurrence now
(R387, R395). -/
def State.startWatching (s : State) : State :=
  if s.fc.watching then s
  else
    let s1 := { s with fc := { s.fc with watching := true } }
    let on := (List.range 128).filter (fun n => (s1.source n).cond)
    let s2 := s1.reportAll (on.map (fun n => (n, (s1.source n).detail)))
    { s2 with fc := s2.fc.driveFaultN }

/-- FC_CNT as it reads: RAISED and CAUSE beside the counts. -/
def FaultSource.cntWord (f : FaultSource) : Word :=
  fsetB (fsetB f.cnt F.FC_CNT.RAISED f.raised) F.FC_CNT.CAUSE f.cond

/-- FC_STAT as it reads: the count of raised sources, saturating at 255. -/
def Collector.statWord (c : Collector) : Word :=
  fset c.stat F.FC_STAT.RAISED (min 255 (c.sources.toList.filter (·.raised)).length)

/-- FC_RAISEDi: bit j is source 32 i + j. -/
def Collector.raisedWord (c : Collector) (i : Nat) : Word :=
  BitVec.ofNat 32 ((List.range 32).foldl (fun a j => if (vget c.sources (32 * i + j) {}).raised then a + 2 ^ j else a) 0)

end Sys2Proof.Machine
end

