-- ==== Sys2Proof/Machine/Fft.lean ====
section
/-! DEFINITION. The fixed-point transforms of the compression engines (R119 to R121, Table 7.5). -/

namespace Sys2Proof.Machine

/-- A complex number with integer components. -/
abbrev Cx := Int × Int

def Cx.add (a b : Cx) : Cx := (a.1 + b.1, a.2 + b.2)
def Cx.sub (a b : Cx) : Cx := (a.1 - b.1, a.2 - b.2)
def Cx.mul (a b : Cx) : Cx := (a.1 * b.1 - a.2 * b.2, a.1 * b.2 + a.2 * b.1)
def Cx.conj (a : Cx) : Cx := (a.1, -a.2)
/-- Multiplication by j and by -j. -/
def Cx.j (a : Cx) : Cx := (-a.2, a.1)
def Cx.mj (a : Cx) : Cx := (a.2, -a.1)
def Cx.rha (k : Nat) (a : Cx) : Cx := (Machine.rha k a.1, Machine.rha k a.2)
/-- Arithmetic right shift of each component. -/
def Cx.shr (k : Nat) (a : Cx) : Cx := (rshFloor k a.1, rshFloor k a.2)
def Cx.sat (n : Nat) (a : Cx) : Cx := (satS n a.1, satS n a.2)
def Cx.norm (a : Cx) : Nat := (a.1 * a.1 + a.2 * a.2).toNat

/-- Twiddle exp(-j 2 pi k / n) in Q1.17, or its conjugate. -/
def twiddle (inverse : Bool) (k n : Nat) : Cx :=
  let c := romCos 131072 (k % n) n
  let s := romSin 131072 (k % n) n
  if inverse then (c, s) else (c, -s)

/-- A twiddle product, rounded >> 17 half away from zero (Table 7.5, DEDUCED, log entry 14). -/
def twProd (a w : Cx) : Cx := (a.mul w).rha 17

/-- The forward radix-4 butterfly of place i of n (decimation in frequency): sum first, twiddles on the outputs. `sh`: the shift after the
stage. -/
def bfly4 (sh n i : Nat) (a b c d : Cx) : Cx × Cx × Cx × Cx :=
  let y0 := ((a.add b).add c).add d
  let y1 := ((a.add b.mj).sub c).add d.j
  let y2 := ((a.sub b).add c).sub d
  let y3 := ((a.add b.j).sub c).add d.mj
  (y0.shr sh, (twProd y1 (twiddle false i n)).shr sh, (twProd y2 (twiddle false (2 * i) n)).shr sh,
    (twProd y3 (twiddle false (3 * i) n)).shr sh)

/-- The forward transform of a block (natural order in, digit-reversed out); `shift` turns the per-stage shifts on. -/
def fftFwd (shift : Bool) : Nat → List Cx → List Cx
  | 0, xs => xs
  | fuel + 1, xs =>
    let n := xs.length
    match xs with
    | [] => []
    | [x] => [x]
    | [a, b] => let k := if shift then 1 else 0; [(a.add b).shr k, (a.sub b).shr k]
    | _ =>
      let q := n / 4
      let ys := ((xs.take q).zip (((xs.drop q).take q).zip (((xs.drop (2 * q)).take q).zip ((xs.drop (3 * q)).take q)))).zipIdx.map
        (fun (t, i) => bfly4 (if shift then 2 else 0) n i t.1 t.2.1 t.2.2.1 t.2.2.2)
      fftFwd shift fuel (ys.map (·.1)) ++ fftFwd shift fuel (ys.map (·.2.1)) ++ fftFwd shift fuel (ys.map (·.2.2.1)) ++
        fftFwd shift fuel (ys.map (·.2.2.2))

/-- The inverse transform (digit-reversed in, natural order out), no shift: twiddles on the butterfly inputs. -/
def fftInv : Nat → List Cx → List Cx
  | 0, xs => xs
  | fuel + 1, xs =>
    let n := xs.length
    match xs with
    | [] => []
    | [x] => [x]
    | [a, b] => [a.add b, a.sub b]
    | _ =>
      let q := n / 4
      let x0 := fftInv fuel (xs.take q)
      let x1 := fftInv fuel ((xs.drop q).take q)
      let x2 := fftInv fuel ((xs.drop (2 * q)).take q)
      let x3 := fftInv fuel ((xs.drop (3 * q)).take q)
      let ys := (x0.zip (x1.zip (x2.zip x3))).zipIdx.map (fun (t, i) =>
        let a := t.1
        let b := twProd t.2.1 (twiddle true i n)
        let c := twProd t.2.2.1 (twiddle true (2 * i) n)
        let d := twProd t.2.2.2 (twiddle true (3 * i) n)
        ((((a.add b).add c).add d), ((a.add b.j).sub c).add d.mj, ((a.sub b).add c).sub d, ((a.add b.mj).sub c).add d.j))
      ys.map (·.1) ++ ys.map (·.2.1) ++ ys.map (·.2.2.1) ++ ys.map (·.2.2.2)

/-- N_F and H of Table 7.4. -/
def transformSize (m : Nat) : Nat × Nat := if m ≤ 256 then (1024, 768) else if m ≤ 768 then (2048, 1280) else (4096, 3072)

end Sys2Proof.Machine
end

