-- ==== Sys2Proof/Machine/Compress.lean ====
section
/-! DEFINITION. Hall I: slot separation, pulse compression, combining, noise and fading (chapter 7, R115 to R131). -/

namespace Sys2Proof.Machine

/-! ### Words (R84 to R86, R115) -/

/-- An end code (R85). -/
def endCode (c : Int) : Bool := c == 8191 || c == -8192
/-- Normalised samples u_X and u_Y (R115). -/
def CohWord.ux (c : CohWord) : Cx := if c.gap then (0, 0) else (c.xi * 2 ^ (7 - c.gain), c.xq * 2 ^ (7 - c.gain))
def CohWord.uy (c : CohWord) : Cx := if c.gap then (0, 0) else (c.yi * 2 ^ (7 - c.gain), c.yq * 2 ^ (7 - c.gain))

/-- A run of words from sample index `base`. -/
structure WordRun where
  base : Nat
  words : Array (Option CohWord)

def WordRun.at (r : WordRun) (n : Nat) : Option CohWord := if n < r.base then none else (r.words[n - r.base]?).getD none
def WordRun.ux (r : WordRun) (n : Nat) : Cx := ((r.at n).map CohWord.ux).getD (0, 0)
def WordRun.uy (r : WordRun) (n : Nat) : Cx := ((r.at n).map CohWord.uy).getD (0, 0)
/-- Indices of the run at which a property of the word holds. -/
def WordRun.indices (r : WordRun) (p : CohWord → Bool) : List Nat :=
  (r.words.toList.zipIdx).filterMap (fun (w, i) => match w with | some c => if p c then some (r.base + i) else none | none => none)

/-! ### Slot separation (R116, R117) -/

/-- Separation coefficient h(i) (Table 7.2). -/
def sepCoef (i : Nat) : Int := (([32832, 28385, 17751, 6791, 0, -2010, -1399, -428, 0, 30, 0] : List Int)[i]?).getD 0

/-- The mixer c_s(n) - j d_s(n). -/
def mixer (slot n : Nat) : Cx :=
  let p := (2 * slot + 13) * n % 20
  (romCos 131072 p 20, -(romSin 131072 p 20))
/-- Its 20 values. -/
def mixTable (slot : Nat) : Array Cx := ((List.range 20).map (mixer slot)).toArray

/-- Separated sample at converter sample `sq` (R116). -/
def separate (mix : Array Cx) (u : Nat → Cx) (sq : Nat) : Cx :=
  let t := (List.range 21).foldl (fun (acc : Cx) k =>
    let n := sq + k - 10
    let h := sepCoef (if k ≤ 10 then 10 - k else k - 10)
    let v := (u n).mul ((mix[n % 20]?).getD (0, 0))
    (acc.1 + h * v.1, acc.2 + h * v.2)) (0, 0)
  t.rha 34

/-- The separated samples of points 0 to `n` - 1 of a slot row whose point 0 is at `s0` (R116, R117). -/
def separateAll (detail : Bool) (slot s0 n : Nat) (u : Nat → Cx) : List Cx :=
  if detail then (List.range n).map (fun q => u (s0 + q))
  else let mix := mixTable slot; (List.range n).map (fun q => separate mix u (s0 + 4 * q))

/-! ### The reference (R118, R119) -/

/-- M: reference length in points. -/
def refLength (detail : Bool) (d : Nat) : Nat := if detail then cdiv d 2 else cdiv d 8

/-- r_m (R118): `dac` holds the codes the slot plays. -/
def refSamples (detail : Bool) (slot rxWin d : Nat) (dac : Array Cx) : List Cx :=
  let m := refLength detail d
  let mix := mixTable slot
  (List.range m).map (fun i =>
    let v := (Config.receiveRom rxWin (windowIndex i m)).toInt
    let c := (dac[(if detail then 2 else 8) * i]?).getD (0, 0)
    if detail then (rha 15 (c.1 * v), rha 15 (c.2 * v))
    else let p := c.mul ((mix[4 * i % 20]?).getD (0, 0)); (rha 32 (p.1 * v), rha 32 (p.2 * v)))

/-- z × 2^e rounded half away from zero, e of either sign. -/
def scale2 (e : Int) (z : Int) : Int := if 0 ≤ e then z * 2 ^ e.toNat else rha (-e).toNat z

/-- The largest e from `e` downwards for which |z| × 2^e rounds to at most 2^17 - 1. -/
def fitScale (z : Nat) : Nat → Int → Int
  | 0, e => e
  | fuel + 1, e => if scale2 e z ≤ 131071 then e else fitScale z fuel (e - 1)

/-- The reference spectrum R_k in digit-reversed order, and NREF (R119). -/
def refSpectrum (nf : Nat) (r : List Cx) : List Cx × Nat :=
  let g := r.reverse.map Cx.conj ++ List.replicate (nf - r.length) (0, 0)
  let f := fftFwd false 16 g
  let big := f.foldl (fun a z => max a (max z.1.natAbs z.2.natAbs)) 0
  let e := if big = 0 then 0 else fitScale big 4 (18 - (big.log2 : Int))
  let rk := f.map (fun z => ((scale2 e z.1, scale2 e z.2) : Cx))
  (rk, 2 ^ 16 * (rk.foldl (fun a (z : Cx) => a + z.norm) 0) / (2 ^ 34 * nf))

/-! ### Compression (R120, R121) -/

/-- One block: X for `h` points from the block's start. -/
def compressBlock (rk : List Cx) (m h : Nat) (xs : List Cx) : List Cx :=
  let f := fftFwd true 16 xs
  let z := (f.zip rk).map (fun (a, b) => twProd a b)
  ((fftInv 16 z).drop (m - 1)).take h

/-- Compressed values of points 0 to l - 1 before saturation. -/
def compressFrom (rk : List Cx) (m nf h : Nat) : Nat → List Cx → List Cx
  | 0, _ => []
  | fuel + 1, xs =>
    let blk := xs.take nf
    compressBlock rk m h (blk ++ List.replicate (nf - blk.length) (0, 0)) ++ compressFrom rk m nf h fuel (xs.drop h)

/-- X_p, saturated to 32 bits per component, and whether it saturated. -/
def compress (rk : List Cx) (m l : Nat) (xs : List Cx) : List (Cx × Bool) :=
  let (nf, h) := transformSize m
  ((compressFrom rk m nf h (cdiv l h) xs).take l).map (fun x => let y := x.sat 32; (y, y != x))

/-! ### Combining (R124) -/

/-- z_p and A^2_p. -/
def combine (w l : Nat) (xs ys : Array Cx) (p : Nat) : Cx × Nat :=
  let get (a : Array Cx) (i : Nat) : Cx := (a[i]?).getD (0, 0)
  let lo := p - w
  let hi := min (l - 1) (p + w)
  let rho := (List.range (hi + 1 - lo)).foldl (fun (acc : Cx) i => acc.add ((get xs (lo + i)).mul (get ys (lo + i)).conj)) (0, 0)
  let th := phaseCode rho
  let x := get xs p
  let y := get ys p
  let yu := y.mul (cosRom th, sinRom th)
  let z : Cx := Cx.rha 16 (2 ^ 15 * x.1 + yu.1, 2 ^ 15 * x.2 + yu.2)
  (z.sat 32, min (x.norm + y.norm) (2 ^ 64 - 1))

/-! ### Noise and fading (R125, R126) -/

/-- hw(i) and HWE of R125. -/
def noiseWindow (i : Nat) : Int := divHalfAway (16384 * (2 ^ 64 - turnCosAt 64 16 (2 * i + 1) 128)) (2 ^ 64)
def noiseEnergy : Nat := (List.range 64).foldl (fun a i => a + (noiseWindow i * noiseWindow i).toNat) 0

/-- sigma^2 of one polarisation over its 64 separated samples. -/
def inBandNoise (xs : List Cx) : Nat :=
  let ws := (xs.zipIdx).map (fun (x, i) => ((rha 15 (x.1 * noiseWindow i), rha 15 (x.2 * noiseWindow i)) : Cx))
  let e := (List.range 21).foldl (fun a kk =>
    let k := kk + 54
    let f := (ws.zipIdx).foldl (fun (acc : Cx) (t : Cx × Nat) => acc.add (t.1.mul (romCos 131072 (k * t.2 % 64) 64, -(romSin 131072 (k * t.2 % 64) 64)))) (0, 0)
    a + f.norm) 0
  e / (336 * noiseEnergy)

/-- N of a trace (R125). -/
def traceNoise (nref : Nat) (nx ny : List Cx) : Nat := (inBandNoise nx + inBandNoise ny) * nref / 2 ^ 16

/-- The smoothed noise after a usable window. -/
def smoothNoise (old : Option Nat) (n : Nat) : Nat :=
  match old with
  | none => n
  | some h => ((h : Int) + rshFloor 6 ((n : Int) - (h : Int))).toNat

/-- T_p of R126. -/
def fadeThreshold (cfg rel : Word) (prof : Nat → Nat) (noise p : Nat) : Nat :=
  let t := noise * fget cfg F.FRONT_CFG.FADE_MUL / 16
  if fbit cfg F.FRONT_CFG.FADE_REF then max t (prof (p / 1024) * fget rel F.FRONT_REL.FADE_REL / 65536) else t

end Sys2Proof.Machine
end

