-- ==== Sys2Proof/Machine/Phase.lean ====
section
/-! DEFINITION. Hall II: marks, gauge phase, slot alignment, point quality and the stored row (chapters 6 to 8, R109, R110, R128 to R146). -/

namespace Sys2Proof.Machine

/-! ### Reasons (Table 8.2) -/

def reNoHistory : Nat := 0
def reBaseline : Nat := 1
def reOverload : Nat := 2
def reGainStep : Nat := 3
def reCalGap : Nat := 4
def reLate : Nat := 5
def reFaded : Nat := 6
def reSlew : Nat := 7
def reEdge : Nat := 8
def rePrior : Nat := 9
def reOverrun : Nat := 10
def reSettling : Nat := 11
def reCrossFade : Nat := 12
def reClipped : Nat := 13
def reGapFilled : Nat := 14

/-- A word with one bit set. -/
def bit (i : Nat) : Nat := 2 ^ i

/-- The worst quality among the marks of a location (R131, R145, Table 8.2): 0b11, then 0b10, then 0b01. -/
def worst (m : Nat) : Nat :=
  if nbit m reNoHistory || nbit m reOverload || nbit m reCalGap || nbit m reLate || nbit m reEdge || nbit m rePrior then 3
  else if nbit m reFaded then 2
  else if nbit m reBaseline || nbit m reGainStep || nbit m reSlew then 1
  else 0

/-! ### Points (R109, R110, R124 to R130) -/

/-- A point as Hall I delivers it: z_p, its marks, whether it bars an increment (R138), whether its only gap mark is R110's. -/
structure HallPoint where
  z : Cx
  /-- A²_p (R126). -/
  power : Nat
  marks : Nat
  bars : Bool
  firstClean : Bool
  affected : Bool
  saturated : Bool

/-- Some index of a list lies in [lo, hi]. -/
def anyIn (l : List Nat) (lo hi : Nat) : Bool := l.any (fun n => lo ≤ n && n ≤ hi)

/-- What the marks of a trace are decided from: sample indices with OVR, gap and gain-step markers, point 0, C, M, points per sample. -/
structure MarkInput where
  ovr : List Nat
  gap : List Nat
  step : List Nat
  s0 : Nat
  c : Nat
  m : Nat
  detail : Bool
  late : Bool

/-- Marks of point p before the fading test, and whether it is gap-affected (R109, R128 to R130). -/
def MarkInput.marks (i : MarkInput) (p : Nat) (saturated owed : Bool) : Nat × Bool × Bool :=
  let k := pointStep i.detail
  let sp := i.s0 + k * p
  let overs := saturated || anyIn i.ovr (sp - k * i.c) (sp + k * i.c)
  let gap := anyIn i.gap (sp - 10) (sp + k * i.c)
  let first := !gap && owed
  let foot := if i.detail then anyIn i.step sp (sp + i.m - 1) else anyIn i.step (sp - 10) (sp + 4 * (i.m - 1) + 10)
  let stepped := !overs && foot
  ((if overs then bit reOverload else 0) + (if gap || first then bit reCalGap else 0) + (if stepped then bit reGainStep else 0) +
    (if i.late then bit reLate else 0), gap, first)

/-! ### Locations (R134 to R144) -/

/-- predict (R142). -/
def predict (st : RowLoc) : Int := if st.run then st.p1 else max (-32767) (min 32767 (2 * st.p1 - st.p2))

/-- The correction of R139: `own` is the row's state, `others` that of the other active rows. -/
def correction (count : Nat) (others : List RowLoc) (own : RowLoc) : Int :=
  if count = 1 || !own.ev || others.any (fun x => !x.ev) then 0
  else
    let sum := wrap32 (others.foldl (fun a x => a + (x.e : Int)) (own.e : Int))
    let mu := rshFloor count.log2 sum
    wrap16 (rshFloor 16 (wrap32 ((own.e : Int) - mu) + 32768))

/-- What processing a location emits: value, quality, reason bits (R138). -/
structure Emitted where
  value : Nat
  quality : Nat
  marks : Nat

/-- The inputs of R138 that do not depend on the location. -/
structure PhaseInput where
  j : Nat
  count : Nat
  alignK : Nat
  settleFrames : Nat
  /-- The row's settling span ended before (R144). -/
  settled : Bool

/-- One location of R138: gauge ends `a` and `b`, own state, predecessor's state, states of the other active rows. -/
def phaseLocation (i : PhaseInput) (a b : HallPoint) (st pst : RowLoc) (others : List RowLoc) : RowLoc × Emitted :=
  let m := a.marks ||| b.marks
  if a.bars || b.bars then ({ st with pv := false }, ⟨0x8000, 3, m⟩)
  else
    let w := b.z.mul a.z.conj
    let phi := (phaseCode w : Int)
    let fd := nbit m reFaded || w == (0, 0)
    if i.j ≤ 2 || a.firstClean || b.firstClean || !pst.pv then
      let st1 : RowLoc :=
        if i.j == 2 && pst.pv && !fd && !st.ev then { st with e := wrapTo 32 (wrap16 (phi - pst.ph) * 65536), ev := true } else st
      let why := if i.j ≤ 2 then bit reNoHistory else if !pst.pv then bit rePrior else 0
      ({ st1 with ph := wrap16 phi, pv := !fd, p1 := 0, p2 := 0, run := false }, ⟨0x8000, 3, m ||| why⟩)
    else
      let c := correction i.count others st
      let d := wrap16 (phi - pst.ph)
      let (st1, inc, m1) : RowLoc × Int × Nat :=
        if fd then
          let inc := predict pst
          ({ st with ph := wrap16 (pst.ph + inc + c), run := true }, inc, m ||| bit reFaded)
        else
          let inc := max (-32767) (wrap16 (d - c))
          let st1 : RowLoc :=
            if !st.ev then { st with e := wrapTo 32 (d * 65536), ev := true }
            else { st with e := wrapTo 32 ((st.e : Int) + rshFloor 24 (wrap32 (d * 65536 - (st.e : Int)) * (i.alignK : Int))) }
          ({ st1 with ph := wrap16 phi, run := false }, inc, if 24576 ≤ inc.natAbs then m ||| bit reSlew else m)
      let st2 : RowLoc := { st1 with pv := true, p2 := pst.p1, p1 := inc }
      let settling := 2 ≤ i.count && ((!i.settled && i.j ≤ 2 + i.settleFrames) || !st2.ev || others.any (fun x => !x.ev))
      let m2 := if settling then m1 ||| bit reBaseline else m1
      (st2, ⟨wrapTo 16 inc, worst m2, m2⟩)

/-- Location ℓ is an edge entry (R134): its ends are a = ℓ - floor(g / 2) and b = a + g. -/
def edgeLoc (l g i : Nat) : Bool := i < g / 2 || l ≤ i - g / 2 + g

/-- The edge entry of R134. -/
def edgeEmit : Emitted := ⟨0x8000, 3, bit reEdge⟩

/-! ### The stored row (R146) -/

/-- The quality plane: location ℓ in byte ℓ / 4 at bits [2(ℓ mod 4) + 1 : 2(ℓ mod 4)]. -/
def packQuality : List Nat → List Byte
  | [] => []
  | [a] => [BitVec.ofNat 8 a]
  | [a, b] => [BitVec.ofNat 8 (a + 4 * b)]
  | [a, b, c] => [BitVec.ofNat 8 (a + 4 * b + 16 * c)]
  | a :: b :: c :: d :: rest => BitVec.ofNat 8 (a + 4 * b + 16 * c + 64 * d) :: packQuality rest

/-- The bytes of a row (Table 8.3). -/
def StoredRow.bytes (r : StoredRow) : List Byte := r.header ++ r.values.flatMap (leBytes 2) ++ packQuality r.quality

/-- Zero bytes. -/
def zeros (n : Nat) : List Byte := List.replicate n 0

/-- log2 S for FLAGS. -/
def rowFlags (detail : Bool) (count : Nat) : Nat := detail.toNat + 2 * (count.log2 % 8)

/-- The header of a full-rate row (Table 8.4). -/
def rowHeader (trace stamp planTrace len leg slot gauge flags reason faded invalid gain : Nat) : List Byte :=
  leBytes 8 trace ++ leBytes 8 stamp ++ leBytes 8 planTrace ++ leBytes 4 len ++ leBytes 1 leg ++ leBytes 1 slot ++ leBytes 1 gauge ++
    leBytes 1 flags ++ leBytes 4 reason ++ leBytes 4 faded ++ leBytes 4 invalid ++ leBytes 1 gain ++ zeros 19

end Sys2Proof.Machine
end

