-- ==== Sys2Proof/Machine/HallCore.lean ====
section
/-! DEFINITION. Accessors of the Hall, the front and phase settings, and the clearing of a leg's slot-row state (R35, R127, R140, R144). -/

namespace Sys2Proof.Machine

/-- A leg's Hall. -/
def State.hall (s : State) (leg : Nat) : Hall := vget s.halls.leg leg {}
/-- A leg's Hall replaced. -/
def State.setHall (leg : Nat) (h : Hall) (s : State) : State := { s with halls := { s.halls with leg := vset s.halls.leg leg h } }
/-- The leg is in replay (R25). -/
def State.replaying (s : State) (leg : Nat) : Bool := (s.hall leg).replay.on

/-- ALIGN_K of R140: T_f in 2.5 ns units, tau in 0.1 s units of 40,000,000 of them. -/
def alignGain (tF tau : Nat) : Nat := (divHalfAway (2 ^ 24 * (tF : Int)) (tau * 40000000)).toNat
/-- N_set of R144. -/
def settleFrames (tF tau : Nat) : Nat := cdiv (5 * tau * 40000000) tF

/-- Firmware writes ALIGN_K and PHASE_SET for a plan or a change of tau (R148). -/
def Hall.setAlign (h : Hall) (tF : Nat) : Hall :=
  let tau := fget h.phaseCfg F.PHASE_CFG.TAU
  { h with alignK := w32 (alignGain tF tau % 2 ^ 24), phaseSet := w32 (settleFrames tF tau % 2 ^ 19) }

/-- Slot-row state cleared (Table 8.1). -/
def Hall.clearRows (h : Hall) : Hall := { h with rows := Vector.replicate 8 {}, lastSlot := none, base := none }

/-- NREF of a slot's compression reference (R119). -/
def Hall.nrefOf (h : Hall) (b : LegBank) (detail : Bool) (slot : Nat) (wave : List (Int × Int)) : Nat :=
  (refSpectrum (transformSize (refLength detail (b.duration slot))).1
    (refSamples detail slot (fget h.frontCfg F.FRONT_CFG.RX_WIN) (b.duration slot) wave.toArray)).2

/-- Firmware writes the NREF of every active slot (R132). -/
def Hall.setNref (h : Hall) (b : LegBank) (detail : Bool) (wave : Nat → List (Int × Int)) : Hall :=
  { h with nref := b.slots.foldl (fun v sl => vset v sl (w32 (h.nrefOf b detail sl (wave sl)))) h.nref }

/-- The Hall of a leg goes over to a plan (Table 2.3): slot-row state is cleared, and firmware has written ALIGN_K, PHASE_SET and the NREF of every active
slot for it (R132, R140, R148). `wave`: what each slot plays. -/
def Hall.takePlan (h : Hall) (base : Nat) (b : LegBank) (detail : Bool) (tF : Nat) (wave : Nat → List (Int × Int)) : Hall :=
  { (h.clearRows.setAlign tF).setNref b detail wave with base := some base }

/-- Energy of a slot's compression reference: the sum of |r_m|^2 (R126, DEDUCED, log entry 15). -/
def State.refEnergy (s : State) (leg slot : Nat) : Nat :=
  let b := s.legBank leg
  let r := refSamples s.detail slot (fget (s.hall leg).frontCfg F.FRONT_CFG.RX_WIN) (b.duration slot) (s.waveform leg slot).toArray
  r.foldl (fun a (z : Cx) => a + z.norm) 0

/-- The survey powers P_w loaded with FADE_REF (R126): the baseline rescaled by the ratio of reference energies (DEDUCED, log entry 15). -/
def State.profile (s : State) (leg : Nat) : Vector Word 80 :=
  let v := vget s.fw.surveyDone leg {}
  let e := s.refEnergy leg (s.legBank leg).lowest
  ⟨((List.range 80).map (fun w => w32 ((v.baseline[w]?).getD 0 * e / max 1 v.refEnergy))).toArray, by simp⟩

/-- FRONT_SET takes effect: FRONT_CFG, FRONT_REL, PHASE_CFG (R127, R140), and what firmware computes from them: ALIGN_K, PHASE_SET, NREF where RX_WIN
changes (R119), P_w (R126). -/
def State.applyFront (p : Stamped) (s : State) : State :=
  let leg := p.item
  let h := s.hall leg
  let cfg := (regWrite F.FRONT_CFG.kind false h.frontCfg (wat p.words 1)).word
  let h := { h with
    frontCfg := (cfg &&& ~~~F.FRONT_CFG.kind.keep) ||| (h.frontCfg &&& F.FRONT_CFG.kind.keep)
    frontRel := (regWrite F.FRONT_REL.kind false h.frontRel (wat p.words 2)).word
    phaseCfg := ((regWrite F.PHASE_CFG.kind false h.phaseCfg (wat p.words 3)).word &&& 0x7F) ||| (h.phaseCfg &&& 0x80) }
  let h := h.setAlign s.probe.active.tF
  let win (w : Word) : Nat := fget w F.FRONT_CFG.RX_WIN
  let same := win h.frontCfg == win (s.hall leg).frontCfg || h.base != some s.probe.frameBase
  let s1 := s.setHall leg (if same then h else h.setNref (s.legBank leg) s.detail (s.waveform leg))
  if fbit h.frontCfg F.FRONT_CFG.FADE_REF then s1.setHall leg { s1.hall leg with prof := s1.profile leg } else s1

/-- The plan in force reaches a leg's Hall as it begins, unless traces of an earlier plan are still to be processed: then with its own first trace. A
FRONT_SET of its first frame comes first. -/
def State.hallWithPlan (leg : Nat) (s : State) : State :=
  if s.halls.launches.any (fun l => l.leg == leg) || !(s.legBank leg).on then s
  else
    let s1 := s.applyDue (pickLeg cFrontSet leg) s.probe.frameBase State.applyFront
    s1.setHall leg ((s1.hall leg).takePlan s1.probe.frameBase (s1.legBank leg) s1.detail s1.probe.active.tF (s1.waveform leg))

end Sys2Proof.Machine
end

