-- ==== Sys2Proof/Machine/ChainCore.lean ====
section
/-! DEFINITION. The filter chain: responses, the arithmetic of one merged sample, fades, resets, decimated rows (chapter 10, R170 to R190). -/

namespace Sys2Proof.Machine

/-! ### Responses (R176 to R178) -/

/-- Fields of RESP (Table 10.2). -/
def respRate (r : Nat) : Nat := nbits r 0 5
def respMains (r : Nat) : Nat := if nbit r 5 then 60 else 50
def respDecim (r : Nat) : Nat := nbits r 6 3
def respNotch (r : Nat) : Nat := nbits r 9 2
def respDc (r : Nat) : Nat := nbits r 11 2
/-- R. -/
def respR (r : Nat) : Nat := 2 ^ (respDecim r + 1)
/-- A RESP that Table 10.2 admits. -/
def respLegal (r : Nat) : Bool := respRate r ≤ 16 && respDecim r ≤ 5 && nbits r 13 3 == 0 && r < 65536

/-- Scale of the fixed-point values below. -/
def cScale : Int := ((2 ^ 64 : Nat) : Int)
/-- round(2^k × x / 2^64) half away from zero. -/
def cRound (k : Nat) (x : Int) : Int := divHalfAway (x * ((2 ^ k : Nat) : Int)) (2 ^ 64)

/-- A_DC (R177): corner in tenths of a hertz. -/
def coefDc (dc fs : Nat) : Int :=
  let tenths := if dc = 1 then 2 else if dc = 2 then 10 else 50
  if dc = 0 then 0 else cRound 24 (cScale - expNegSeries (2 * piAt 64 * (tenths : Int) / ((10 * fs : Nat) : Int)) 40 0 cScale)

/-- A notch section at `fn` Hz (R177): b0, b1, b2, a1, a2. -/
def coefNotch (fn fs : Nat) : Vector Int 5 :=
  let c := turnCosAt 64 16 fn fs
  let r := cScale - 4 * piAt 64 / (fs : Int)
  let rc := r * c / cScale
  let r2 := r * r / cScale
  let g := (cScale - 2 * rc + r2) * cScale / (2 * cScale - 2 * c)
  let b0 := cRound 29 g
  #v[b0, cRound 29 (-2 * (g * c / cScale)), b0, cRound 29 (-2 * rc), cRound 29 r2]

/-- A section that is off. -/
def coefOff : Vector Int 5 := #v[536870912, 0, 0, 0, 0]

/-- The coefficients of a response (R177). -/
def coefsOf (resp : Nat) : Coefs :=
  let fs := rateHz (respRate resp)
  let fm := respMains resp
  let n := respNotch resp
  { aDc := coefDc (respDc resp) fs
    sec1 := if n = 0 then coefOff else if n = 3 then coefNotch (2 * fm) fs else coefNotch fm fs
    sec2 := if n = 2 then coefNotch (2 * fm) fs else if n = 3 then coefNotch (3 * fm) fs else coefOff }

/-- A_COMP (Table 10.4). -/
def coefComp (resp : Nat) : Int := (([5276, 6750, 7111, 7209, 7209, 7209] : List Int)[respDecim resp]?).getD 0

/-- GD in input samples (R177). -/
def respDelay (resp : Nat) : Nat := 3 * respR resp - 2

/-- D_settle (R178): settle times in units of 10 ms. -/
def respSettle (resp : Nat) : Nat :=
  let dc := (([0, 400, 80, 16] : List Nat)[respDc resp]?).getD 0
  let notch := if respNotch resp = 0 then 0 else 40
  5 + cdiv (max dc notch * rateHz (respRate resp)) (100 * respR resp)

/-- CHAIN_GD for a response. -/
def respGdWord (resp : Nat) : Word := fset (fset 0 F.CHAIN_GD.GD_SAMPLES (respDelay resp)) F.CHAIN_GD.D_SETTLE (respSettle resp)

/-! ### One sample of one location (R173) -/

/-- sat16, sat20, sat24: symmetric saturation. -/
def satSym (n : Nat) (z : Int) : Int := max (-((2 ^ (n - 1) - 1 : Nat) : Int)) (min ((2 ^ (n - 1) - 1 : Nat) : Int) z)

/-- A notch section: output and its two states. -/
def notchStep (b : Vector Int 5) (d s1 s2 : Int) : Int × Int × Int :=
  let y := satSym 24 (rha 29 (b[0] * d) + s1 * 64)
  (y, satSym 20 (rha 35 (b[1] * d - b[3] * y) + s2), satSym 20 (rha 35 (b[2] * d - b[4] * y)))

/-- The integrators, combs and compensator at an output: value and whether y or out saturated. -/
def ChainLoc.output (l : ChainLoc) (r : Nat) (comp : Int) : ChainLoc × Int × Bool :=
  let m := 2 ^ 40
  let t1 := (l.i4 + m - l.e1) % m
  let t2 := (t1 + m - l.e2) % m
  let t3 := (t2 + m - l.e3) % m
  let t4 := (t3 + m - l.e4) % m
  let y0 := divHalfAway (sx 40 t4 * 256) (r ^ 3)
  let y := satSym 24 y0
  let o := rha 15 (-comp * (y + l.h2) + (32768 + 2 * comp) * l.h1)
  let out0 := rha 8 o
  let out := satSym 16 out0
  ({ l with e1 := l.i4, e2 := t1, e3 := t2, e4 := t3, h2 := l.h1, h1 := y }, out, y != y0 || out != out0)

/-- A merged sample of a location: value x with quality q. -/
def ChainLoc.step (l : ChainLoc) (c : Coefs) (x : Int) (q : Nat) : ChainLoc :=
  let u := x * 256
  let d0 := if q = 3 then 0 else satSym 24 (u - l.mm)
  let mm := if q = 3 then l.mm else l.mm + rha 24 (c.aDc * (u - l.mm))
  let (y1, s11, s21) := notchStep c.sec1 d0 l.s11 l.s21
  let (y2, s12, s22) := notchStep c.sec2 y1 l.s12 l.s22
  let v := satSym 16 (rha 8 y2)
  let m : Int := ((2 ^ 40 : Nat) : Int)
  let i1 := (((l.i1 : Int) + v) % m).toNat
  let i2 := (l.i2 + i1) % 2 ^ 40
  let i3 := (l.i3 + i2) % 2 ^ 40
  let i4 := (l.i4 + i3) % 2 ^ 40
  { l with mm, s11, s21, s12, s22, i1, i2, i3, i4 }

/-! ### Fades and resets (R183 to R187) -/

/-- A coefficient of a fade at its i-th sample (R184). -/
def fadeMix (old new_ : Int) (i total : Nat) : Int := old + divHalfAway ((new_ - old) * ((i + 1 : Nat) : Int)) total
def fadeSec (a b : Vector Int 5) (i total : Nat) : Vector Int 5 :=
  #v[fadeMix a[0] b[0] i total, fadeMix a[1] b[1] i total, fadeMix a[2] b[2] i total, fadeMix a[3] b[3] i total, fadeMix a[4] b[4] i total]
def fadeCoefs (old new_ : Coefs) (i total : Nat) : Coefs :=
  { aDc := fadeMix old.aDc new_.aDc i total, sec1 := fadeSec old.sec1 new_.sec1 i total, sec2 := fadeSec old.sec2 new_.sec2 i total }

/-- Merged samples of a fade: F × R. -/
def ChainFade.total (f : ChainFade) : Nat := f.len * respR f.target

/-- A fade starts towards `target` at merged sample (slot, trace), from the coefficients in force (R184, R185). -/
def Chain.startFade (c : Chain) (target slot trace : Nat) : Chain :=
  { c with
    fade := some { old := c.coefs, from_ := c.now, target, done := 0, len := fget c.cfg F.CHAIN_CFG.FADE_LEN, slot, trace }
    now := target, held := none, gd := respGdWord target }

/-- A swap reaches its effective trace (R185): it starts its fade, or is held behind a running one, replacing one that waits. -/
def Chain.swap (c : Chain) (target slot trace : Nat) : Chain :=
  match c.fade with
  | none => c.startFade target slot trace
  | some _ =>
    let stat := if c.held.isSome then finc c.stat F.CHAIN_STAT.SWAP_COALESCED else c.stat
    { c with held := some target, stat }

/-- The chain's state at 0 and no run under way: it waits for its next synchronising reset, and delivers no row before it (R21, R187; DESIGN CHOICE, log
entry 16). -/
def Chain.clear (c : Chain) : Chain := { c with fade := none, held := none, loc := [], recent := [], m := 0 }

/-- A synchronising reset at a trace (R186): state zeroed, fades and held swaps abandoned, the latest requested response in force. -/
def Chain.syncReset (c : Chain) (trace len : Nat) : Chain :=
  let resp := fget c.resp F.CHAIN_RESP.RESP
  { c with
    m := 0, resetTrace := trace, loc := List.replicate len {}, now := resp, coefs := coefsOf resp, settle := respSettle resp
    fade := none, held := none, recent := [], due := none, ctrl := 0, gd := respGdWord resp }

/-! ### Decimated output (R179 to R182, R189) -/

/-- Quality and reasons of one location of an output (Table 10.6): counts of 0b11 and of other marked inputs in the support. -/
def decimQuality (r bad marked : Nat) (settling clipped crossFade : Bool) : Nat × Nat :=
  let limit := (6 * r - 3) / 4
  let (q, m) := if limit < bad then (3, bit reGapFilled) else if 0 < bad then (2, bit reGapFilled) else if 0 < marked then (1, 0) else (0, 0)
  let (q, m) := if settling then (max q 1, m ||| bit reSettling) else (q, m)
  let m := if crossFade then m ||| bit reCrossFade else m
  if clipped then (max q 1, m ||| bit reClipped) else (q, m)

/-- The header of a decimated row (Table 10.8). -/
def decimHeader (trace stamp resetTrace len leg slot gauge flags reason est invalid resp fadePos k settleLeft : Nat) : List Byte :=
  leBytes 8 trace ++ leBytes 8 stamp ++ leBytes 8 resetTrace ++ leBytes 4 len ++ leBytes 1 leg ++ leBytes 1 slot ++ leBytes 1 gauge ++
    leBytes 1 flags ++ leBytes 4 reason ++ leBytes 4 est ++ leBytes 4 invalid ++ leBytes 2 resp ++ leBytes 2 fadePos ++ leBytes 8 k ++
    leBytes 3 settleLeft ++ zeros 5

/-- STAMP (R179): GD staggers before the launch stamp of trace m_k, plus head delay and half a point for an odd gauge; a device time wraps at 64 bits (R267). -/
def decimStamp (x : Merged) (resp : Nat) : Nat :=
  let p := if x.detail then 10 else 40
  (((x.stamp : Int) - (respDelay resp * (10 * x.tF / max 1 x.bank.count) : Nat) + (10 * x.bank.headDelay : Nat)
    + (x.bank.gauge % 2 * (p / 2) : Nat)) % 2 ^ 64).toNat

/-- One merged sample through the chain, resets and fades applied beforehand: the chain after it and the decimated row at an output
boundary. Edge entries are 0b11 in every output (R189). -/
def Chain.advance (c : Chain) (leg : Nat) (x : Merged) : Chain × Option StoredRow :=
  let r := respR c.now
  let coefs := match c.fade with | some f => fadeCoefs f.old (coefsOf f.target) f.done f.total | none => c.coefs
  let xs := x.values.zip x.quality
  let loc := (c.loc.zip xs).map (fun (l, v) => l.step coefs (sx 16 v.1) v.2)
  let recent := ((x.quality, x.reason) :: c.recent).take (6 * r - 3)
  let fade := c.fade.map (fun f => { f with done := f.done + 1 })
  let c1 := { c with loc, coefs, recent, fade, m := c.m + 1, last := (x.slot, x.trace), lastStamp := x.stamp }
  if c.m % r != r - 1 then (c1, none)
  else
    let k := (c.m + 1) / r - 1
    let settling := k < c.settle
    let outs := loc.map (fun l => l.output r (coefComp c.now))
    let rows := (recent.map (·.1)).map (fun q => q.toArray)
    let marks := outs.zipIdx.map (fun (t, i) =>
      let (bad, marked) := rows.foldl (fun (a : Nat × Nat) q =>
        let v := (q[i]?).getD 0
        if v = 3 then (a.1 + 1, a.2) else if v = 0 then a else (a.1, a.2 + 1)) (0, 0)
      decimQuality r (if edgeLoc x.bank.len x.bank.gauge i then 6 * r else bad) marked settling t.2.2 fade.isSome)
    let values := (outs.zip marks).map (fun (t, q) => if q.1 = 3 then 0x8000 else wrapTo 16 t.2.1)
    let quality := marks.map (·.1)
    let reason := recent.foldl (fun a t => a ||| t.2) (marks.foldl (fun a q => a ||| q.2) 0)
    let est := (quality.filter (· == 2)).length
    let invalid := (quality.filter (· == 3)).length
    let fadePos := match fade with | some f => cdiv f.done r | none => 0
    let clipped := (outs.filter (fun t => t.2.2)).length
    let row : StoredRow :=
      { leg, slot := x.slot, trace := x.trace, stamp := x.stamp, frame := x.frame, boundary := x.boundary, tF := x.tF, values, quality, reason, tach := x.tach
        header := decimHeader x.trace (decimStamp x c.now) c.resetTrace x.bank.len leg x.slot x.bank.gauge
          (rowFlags x.detail x.bank.count + 16) reason est invalid c.now fadePos k (c.settle - 1 - k) }
    ({ c1 with loc := outs.map (·.1), out := w32 k, stat := faddW c1.stat F.CHAIN_STAT.CLIP_COUNT clipped }, some row)

/-- CHAIN_STAT as it reads. -/
def Chain.statWord (c : Chain) : Word :=
  let settling := fbit c.cfg F.CHAIN_CFG.ENABLE && !c.loc.isEmpty && decide (c.m / respR c.now < c.settle)
  fsetB (fsetB (fsetB c.stat F.CHAIN_STAT.FADING c.fade.isSome) F.CHAIN_STAT.PENDING c.held.isSome) F.CHAIN_STAT.SETTLING settling

end Sys2Proof.Machine
end

