-- ==== Sys2Proof/Machine/Chain.lean ====
section
/-! DEFINITION. CHAIN_TRACE and SYNCHRONISING_RESET, and how CHAIN_SET and CHAIN_RESET take effect (R173, R183 to R190). -/

namespace Sys2Proof.Machine

/-- A leg's chain, and the chain replaced. -/
def State.chain (s : State) (leg : Nat) : Chain := (s.hall leg).chain
def State.setChain (leg : Nat) (c : Chain) (s : State) : State := s.setHall leg { s.hall leg with chain := c }

/-- A reset cause noted for the next frame boundary; of two, the lower number is reported (DESIGN CHOICE, log entry 16). -/
def Chain.note (c : Chain) (cause : Nat) : Chain := { c with due := some (match c.due with | some d => min d cause | none => cause) }

/-- The RATE field replaced by the new plan's (R176). -/
def respForPlan (resp s tF : Nat) : Nat := resp / 32 * 32 + (rateIndex s tF).getD (respRate resp)

/-- CHAIN_SET takes effect at merged sample `x` (R176, R183, R185, R187, R190): one of the same RESP while a fade runs is held pending behind it. -/
def State.applyChainSet (x : Merged) (p : Stamped) (s : State) : State :=
  let leg := p.item
  let c := s.chain leg
  let cfg := ((wat p.words 1) &&& 0x3FFF) ||| (c.cfg &&& 0xC000)
  let resp := respForPlan (fget (wat p.words 2) F.CHAIN_RESP.RESP) x.bank.count x.tF
  let was := fbit c.cfg F.CHAIN_CFG.ENABLE
  let on := fbit cfg F.CHAIN_CFG.ENABLE
  let c1 := { c with cfg, resp := w32 resp }
  if !on then (s.abandonFade leg).setChain leg { c1.clear with due := none }
  else if !was then s.setChain leg (c1.note 4)
  else if respDecim resp != respDecim c.now then s.setChain leg (c1.note 1)
  else if resp != c.now || resp != fget c.resp F.CHAIN_RESP.RESP || c.fade.isSome then s.setChain leg (c1.swap resp x.slot x.trace)
  else s.setChain leg c1

/-- CHAIN_RESET takes effect on the legs of its mask (R187). -/
def State.applyChainReset (leg : Nat) (s : State) : State :=
  let c := s.chain leg
  if fbit c.cfg F.CHAIN_CFG.ENABLE then s.setChain leg (c.note 2) else s

/-- A synchronising reset at the front merged sample of a leg (R186 to R188): CHAIN_FADE for an abandoned fade, the reset, CHAIN_RESET. -/
def State.resetChain (leg cause : Nat) (x : Merged) (s : State) : State :=
  let c := s.chain leg
  let s2 := (s.abandonFade leg).setChain leg (c.syncReset x.trace x.bank.len)
  s2.emitAt (some x.stamp) evChainReset ([w32 leg, w32 cause] ++ w64 x.trace)

/-- SURVEY begins: the chain is held in reset (Table 2.3), which is no synchronising reset and sends no CHAIN_RESET (DEDUCED, log entry 16). -/
def State.holdChain (leg : Nat) (s : State) : State :=
  let c := s.chain leg
  (s.abandonFade leg).setChain leg { c.clear with due := none, input := c.input.drop 1 }

/-- What falls due before the front merged sample of a leg is processed: the plan's reset, stamped changes, tokens, then a held swap and a reset
that is due at a frame boundary (R185 to R187). A disabled chain takes no reset. -/
def State.prepareChain (leg : Nat) (x : Merged) (s : State) : State :=
  if x.hold then s.holdChain leg else
  let c := s.chain leg
  let c := if x.opens then { c with resp := w32 (respForPlan (fget c.resp F.CHAIN_RESP.RESP) x.bank.count x.tF) } else c
  let c := if x.opens && fbit c.cfg F.CHAIN_CFG.ENABLE then c.note (if c.due == some 5 then 5 else 0) else c
  let c := { c with input := match c.input with | [] => [] | y :: ys => { y with opens := false } :: ys }
  let token := x.place == 0 && c.resets.any (· ≤ x.boundary)
  let c := if token then { c with resets := c.resets.filter (x.boundary < ·) } else c
  let c := if token && fbit c.cfg F.CHAIN_CFG.ENABLE then c.note 3 else c
  let c := if c.fade.isNone then (match c.held with | some t => c.startFade t x.slot x.trace | none => c) else c
  let s1 := (s.setChain leg c).applyDue (pickLeg cChainSet leg) x.frame (fun p t => t.applyChainSet x p)
  let s2 := s1.applyDue (fun p => p.code == cChainReset && p.leg == leg) x.frame (fun _ t => t.applyChainReset leg)
  let c2 := s2.chain leg
  match c2.due with
  | some cause => if x.place == 0 && fbit c2.cfg F.CHAIN_CFG.ENABLE then s2.resetChain leg cause x else s2
  | none => s2

/-- SYNCHRONISING_RESET (R186): what is due at the front merged sample of a leg, at a frame boundary. -/
def execSynchronisingReset (leg : Fin 2) (s : State) : Res :=
  match (s.chain leg.val).input with
  | [] => .next s
  | x :: _ => if x.place == 0 then .next (s.prepareChain leg.val x) else .next s

/-- A fade that has run its whole length ends (R184, R185). -/
def State.endFade (leg : Nat) (s : State) : State :=
  let c := s.chain leg
  match c.fade with
  | none => s
  | some f =>
    if f.done < f.total then s
    else
      let s1 := s.setChain leg { c with fade := none, coefs := coefsOf f.target }
      s1.emitAt (some c.lastStamp) evChainFade (chainFadeWords leg f c.last.1 c.last.2 false)

/-- The front merged sample of a leg through its chain; the decimated row goes to ST2 and ST4 (R189). -/
def State.chainTrace (leg : Nat) (x : Merged) (s : State) : State :=
  if x.hold then s.holdChain leg else
  let s1 := s.prepareChain leg x
  let c := s1.chain leg
  let c := { c with input := c.input.drop 1 }
  if !fbit c.cfg F.CHAIN_CFG.ENABLE || c.loc.isEmpty then s1.setChain leg c
  else
    let (c2, row) := c.advance leg x
    let s2 := (s1.setChain leg c2).endFade leg
    match row with
    | none => s2
    | some r => { s2 with halls := { s2.halls with out5 := s2.halls.out5 ++ [r], loft := s2.halls.loft ++ [r] } }

/-- The other leg's chain has no earlier sample waiting: decimated rows take their ring order from launch stamps (R252). -/
def State.chainTurn (s : State) (leg : Nat) (x : Merged) : Bool :=
  match (s.chain (1 - leg)).input with
  | [] => true
  | y :: _ => x.stamp < y.stamp || (x.stamp == y.stamp && leg == 0)

/-- CHAIN_TRACE (R173). -/
def execChainTrace (leg : Fin 2) (s : State) : Res :=
  match (s.chain leg.val).input with
  | [] => .next s
  | x :: _ => if s.power.front && s.chainTurn leg.val x then .next (s.chainTrace leg.val x) else .next s

end Sys2Proof.Machine
end

