-- ==== Sys2Proof/Machine/Flags.lean ====
section
/-! DEFINITION. Saturation, rounding and peak tracking of the cells: the arithmetic that loses bits (R192, R196, R217). -/

namespace Sys2Proof.Machine

/-- Lane values: 18 bits, saturated. -/
def sat18 (z : Int) : Int := satS 18 z
/-- Stored half-words: 16 bits, saturated. -/
def sat16 (z : Int) : Int := satS 16 z
/-- Accumulator components: 48 bits, saturated, no flag (R217). -/
def sat48 (z : Int) : Int := satS 48 z

/-- bitlen(x). -/
def bitlen (x : Nat) : Nat := if x = 0 then 0 else x.log2 + 1

/-- The block shift of SCALE (R196, R223). -/
def scaleShift (peak : Nat) : Nat := bitlen peak - 14

/-- BEXP held within 8 bits signed (R223, BXADD). -/
def clampBexp (z : Int) : Int := max (-128) (min 127 z)

/-- PEAK with a stored value's magnitude (R196). -/
def trackPeak (peak : Nat) (v : Int) : Nat := (peak ||| v.natAbs) % 2 ^ 17

end Sys2Proof.Machine
end

