-- ==== Sys2Proof/Machine/Operands.lean ====
section
/-! DEFINITION. Operand forms of the cell instruction set: fields of both slots, the shared operand, address generators, data memory
(R192, R195, R214 to R216, R221). -/

namespace Sys2Proof.Machine

/-! ### Slot fields (Tables 12.2 and 12.3) -/

/-- Slot A's fields; `sa` is bits [63:32]. -/
def aOp (sa : Nat) : Nat := nbits sa 26 6
def aDD (sa : Nat) : Nat := nbits sa 22 4
def aDA (sa : Nat) : Nat := nbits sa 18 4
def aDB (sa : Nat) : Nat := nbits sa 14 4
def aAX (sa : Nat) : Nat := nbits sa 12 2
def aShop (sa : Nat) : Nat := nbits sa 8 4
def aSH (sa : Nat) : Nat := nbits sa 3 5
def aClr (sa : Nat) : Bool := nbit sa 0
def aSub (sa : Nat) : Bool := nbit sa 1
def aConj (sa : Nat) : Bool := nbit sa 2

/-- Slot B's fields; `sb` is bits [31:0]. -/
def bOp (sb : Nat) : Nat := nbits sb 26 6
def bDR (sb : Nat) : Nat := nbits sb 22 4
def bSR (sb : Nat) : Nat := nbits sb 23 3
def bGK (sb : Nat) : Nat := nbits sb 20 2
def bTrack (sb : Nat) : Bool := nbit sb 19
def bSSH (sb : Nat) : Nat := nbits sb 17 2
def bWide (sb : Nat) : Bool := nbit sb 16
def bInc (sb : Nat) : Bool := nbit sb 22
def bSA (sb : Nat) : Nat := nbits sb 20 3
def bSB (sb : Nat) : Nat := nbits sb 17 3
def bImm (sb : Nat) : Nat := nbits sb 0 16

/-- Bits of a slot outside a mask of used bits must be 0 (R216). -/
def onlyBits (slot used : Nat) : Bool := slot &&& used == slot

/-- Masks of slot A's fields. -/
def mOP : Nat := 0xFC000000
def mDD : Nat := 0x03C00000
def mDA : Nat := 0x003C0000
def mDB : Nat := 0x0003C000
def mAX : Nat := 0x00003000
def mSHOP : Nat := 0x00000F00
def mSH : Nat := 0x000000F8

/-! ### Registers -/

def Cell.dReg (c : Cell) (i : Nat) : Vector Int 4 := vget c.d i (Vector.replicate 4 0)
def Cell.aReg (c : Cell) (i : Nat) : Vector Int 4 := vget c.a i (Vector.replicate 4 0)
def Cell.sReg (c : Cell) (i : Nat) : Word := vget c.sc i 0
def Cell.gen (c : Cell) (k : Nat) : Gen := vget c.g k {}
def Cell.loopReg (c : Cell) (k : Nat) : LoopReg := vget c.lp k {}
def Cell.setD (c : Cell) (i : Nat) (v : Vector Int 4) : Cell := { c with d := vset c.d i v }
def Cell.setA (c : Cell) (i : Nat) (v : Vector Int 4) : Cell := { c with a := vset c.a i v }
def Cell.setS (c : Cell) (i : Nat) (w : Word) : Cell := { c with sc := vset c.sc i w }
def Cell.setG (c : Cell) (k : Nat) (g : Gen) : Cell := { c with g := vset c.g k g }

/-- A lane of a register. -/
def lane (v : Vector Int 4) (i : Nat) : Int := vget v i 0
/-- Four lanes from a function. -/
def lanes (f : Nat → Int) : Vector Int 4 := #v[f 0, f 1, f 2, f 3]

/-- The shared operand (SHOP): a scalar's bits [17:0], or a lane of DB; 12 to 15 are refused. -/
def Cell.shared (c : Cell) (sa : Nat) : Int :=
  let h := aShop sa
  if h < 8 then sx 18 (c.sReg h).toNat else lane (c.dReg (aDB sa)) (h - 8)
/-- SHOP is admitted, and the bits it uses: DB only with 8 to 11. -/
def shopOk (sa : Nat) : Bool := decide (aShop sa < 12)
def shopMask (sa : Nat) : Nat := if aShop sa < 8 then mSHOP else mSHOP ||| mDB

/-! ### Address generators (R195) -/

/-- LEN with 0 as 32,768. -/
def Gen.length (g : Gen) : Nat := if g.len = 0 then 32768 else g.len

/-- log4 of a length of digit-reverse mode: 4 to 4,096. -/
def log4? (n : Nat) : Option Nat := (List.range 7).find? (fun k => 1 ≤ k && 4 ^ k == n)

/-- Base-4 digit reversal over k digits. -/
def rev4 : Nat → Nat → Nat
  | 0, _ => 0
  | k + 1, p => p % 4 * 4 ^ k + rev4 k (p / 4)

/-- The access of a generator is admitted (R221). -/
def Gen.ok (g : Gen) : Bool := !g.mode || (log4? g.length).isSome

/-- The address it produces. -/
def Gen.addr (g : Gen) : Nat :=
  let p := if g.mode then rev4 ((log4? g.length).getD 0) g.ptr else g.ptr
  (g.base + p) % 0x8000

/-- PTR after an access. -/
def Gen.advance (g : Gen) : Gen := { g with ptr := (((g.ptr : Int) + sx 16 g.step) % (g.length : Int)).toNat }

/-! ### Data memory (R192) -/

/-- A half-word, sign-extended. -/
def Cell.half (c : Cell) (a : Nat) : Int := (Mem.read 0 c.mem (a % 0x8000)).toInt
/-- A half-word's bits. -/
def Cell.halfBits (c : Cell) (a : Nat) : Nat := (Mem.read 0 c.mem (a % 0x8000)).toNat
/-- A half-word stored. -/
def Cell.setHalf (c : Cell) (a : Nat) (v : Nat) : Cell := { c with mem := Mem.write 0 c.mem (a % 0x8000) (BitVec.ofNat 16 v) }
/-- Half-words stored from an address on. -/
def Cell.setHalves (c : Cell) (a : Nat) (vs : List Nat) : Cell := vs.zipIdx.foldl (fun t (v, i) => t.setHalf (a + i) v) c
/-- Half-words from an address on. -/
def Cell.halves (c : Cell) (a n : Nat) : List Nat := (List.range n).map (fun i => c.halfBits (a + i))
/-- Codewords that an access of n half-words (at most 8) at an address touches, each with the half-words of it, [0] the first. -/
def memParts (a n : Nat) : List (Nat × Nat) :=
  let i := a % 0x8000
  let k := min n (8 - i % 8)
  let first := (i / 8, (2 ^ k - 1) * 2 ^ (i % 8))
  if n ≤ k then [first] else [first, ((i / 8 + 1) % 4096, 2 ^ (n - k) - 1)]

/-- The store buffer is completed by read-merge-write (R222). Answers whether the read finds a codeword that cannot be corrected (R193). -/
def Cell.flush (c : Cell) : Cell × Bool := match c.buf with | some (w, _) => ({ c with buf := none }, c.bad.contains w) | none => (c, false)

/-- A store's half-words of one codeword (R222): with the buffered ones they cover it and it is written with no read, or the buffer is completed first. -/
def Cell.storePart (c : Cell × Bool) (p : Nat × Nat) : Cell × Bool :=
  let held := match c.1.buf with | some (w, m) => if w = p.1 then m else 0 | none => 0
  if held ||| p.2 == 255 then
    ({ c.1 with bad := c.1.bad.filter (· != p.1), buf := c.1.buf.filter (fun b => b.1 != p.1) }, c.2)
  else
    let (d, t) := c.1.flush
    ({ d with buf := some p }, c.2 || t)

/-- Half-words stored by an access, through the store buffer. Answers whether a read that this takes finds a codeword that cannot be corrected. -/
def Cell.store (c : Cell) (a : Nat) (vs : List Nat) : Cell × Bool := (memParts a vs.length).foldl Cell.storePart (c.setHalves a vs, false)

/-- A load of n half-words (R193, R222): one from the buffered codeword completes the buffer first. Answers whether a codeword of it cannot be corrected. -/
def Cell.load (c : Cell) (a n : Nat) : Cell × Bool :=
  let ws := (memParts a n).map (·.1)
  ({ c with buf := c.buf.filter (fun b => !ws.contains b.1) }, ws.any c.bad.contains)

/-- The word that the program counter names. -/
def Cell.word (c : Cell) : Nat := ((c.prog[c.pc]?).getD 0).toNat

end Sys2Proof.Machine
end

