-- ==== Sys2Proof/Machine/CellOps.lean ====
section
/-! DEFINITION. The operations of the cell instruction set, one definition each (R217 to R227). -/

namespace Sys2Proof.Machine

/-! ### Slot A (Table 12.4) -/

/-- What a slot A operation does: whether it is admitted, its D results, its accumulator result. -/
structure AOut where
  ok : Bool
  d : List (Nat × Vector Int 4) := []
  a : Option (Nat × Vector Int 4) := none

def opNopA (sa : Nat) : AOut := { ok := sa == 0 }
def opAdd (c : Cell) (sa : Nat) : AOut :=
  { ok := onlyBits sa (mOP ||| mDD ||| mDA ||| mDB ||| mSH)
    d := [(aDD sa, lanes (fun i => sat18 (rha (aSH sa) (lane (c.dReg (aDA sa)) i + lane (c.dReg (aDB sa)) i))))] }
def opSub (c : Cell) (sa : Nat) : AOut :=
  { ok := onlyBits sa (mOP ||| mDD ||| mDA ||| mDB ||| mSH)
    d := [(aDD sa, lanes (fun i => sat18 (rha (aSH sa) (lane (c.dReg (aDA sa)) i - lane (c.dReg (aDB sa)) i))))] }
def opBfy (c : Cell) (sa : Nat) : AOut :=
  { ok := onlyBits sa (mOP ||| mDD ||| mDA ||| mDB ||| mSH) && aDD sa % 2 == 0
    d := [(aDD sa, lanes (fun i => sat18 (rha (aSH sa) (lane (c.dReg (aDA sa)) i + lane (c.dReg (aDB sa)) i)))),
          (aDD sa + 1, lanes (fun i => sat18 (rha (aSH sa) (lane (c.dReg (aDA sa)) i - lane (c.dReg (aDB sa)) i))))] }
def opNeg (c : Cell) (sa : Nat) : AOut :=
  { ok := onlyBits sa (mOP ||| mDD ||| mDA), d := [(aDD sa, lanes (fun i => sat18 (-(lane (c.dReg (aDA sa)) i))))] }
def opAbs (c : Cell) (sa : Nat) : AOut :=
  { ok := onlyBits sa (mOP ||| mDD ||| mDA), d := [(aDD sa, lanes (fun i => sat18 ((lane (c.dReg (aDA sa)) i).natAbs : Int)))] }
def opMin (c : Cell) (sa : Nat) : AOut :=
  { ok := onlyBits sa (mOP ||| mDD ||| mDA ||| mDB), d := [(aDD sa, lanes (fun i => min (lane (c.dReg (aDA sa)) i) (lane (c.dReg (aDB sa)) i)))] }
def opMax (c : Cell) (sa : Nat) : AOut :=
  { ok := onlyBits sa (mOP ||| mDD ||| mDA ||| mDB), d := [(aDD sa, lanes (fun i => max (lane (c.dReg (aDA sa)) i) (lane (c.dReg (aDB sa)) i)))] }
def opShr (c : Cell) (sa : Nat) : AOut :=
  { ok := onlyBits sa (mOP ||| mDD ||| mDA ||| mSH), d := [(aDD sa, lanes (fun i => rha (aSH sa) (lane (c.dReg (aDA sa)) i)))] }
def opShl (c : Cell) (sa : Nat) : AOut :=
  { ok := onlyBits sa (mOP ||| mDD ||| mDA ||| mSH), d := [(aDD sa, lanes (fun i => sat18 (lane (c.dReg (aDA sa)) i * 2 ^ aSH sa)))] }
def opBcast (c : Cell) (sa : Nat) : AOut :=
  { ok := onlyBits sa (mOP ||| mDD ||| shopMask sa) && shopOk sa, d := [(aDD sa, lanes (fun _ => c.shared sa))] }
def opTrn4 (c : Cell) (sa : Nat) : AOut :=
  { ok := onlyBits sa (mOP ||| mDD ||| mDA) && aDD sa % 4 == 0 && aDA sa % 4 == 0
    d := (List.range 4).map (fun i => (aDD sa + i, lanes (fun j => lane (c.dReg (aDA sa + j)) i))) }
def opMac (c : Cell) (sa : Nat) : AOut :=
  { ok := onlyBits sa (mOP ||| mDA ||| mAX ||| shopMask sa ||| 3) && shopOk sa
    a := some (aAX sa, lanes (fun i =>
      let p := lane (c.dReg (aDA sa)) i * c.shared sa
      sat48 ((if aClr sa then 0 else lane (c.aReg (aAX sa)) i) + (if aSub sa then -p else p)))) }
def opMacsq (c : Cell) (sa : Nat) : AOut :=
  { ok := onlyBits sa (mOP ||| mDA ||| mAX ||| 1)
    a := some (aAX sa, lanes (fun i =>
      sat48 ((if aClr sa then 0 else lane (c.aReg (aAX sa)) i) + lane (c.dReg (aDA sa)) i * lane (c.dReg (aDA sa)) i))) }
def opMovad (c : Cell) (sa : Nat) : AOut :=
  { ok := onlyBits sa (mOP ||| mDD ||| mAX ||| mSH), d := [(aDD sa, lanes (fun i => sat18 (rha (aSH sa) (lane (c.aReg (aAX sa)) i))))] }
def opMovda (c : Cell) (sa : Nat) : AOut :=
  { ok := onlyBits sa (mOP ||| mDA ||| mAX ||| mSH) && decide (aSH sa < 30)
    a := some (aAX sa, lanes (fun i => sat48 (lane (c.dReg (aDA sa)) i * 2 ^ aSH sa))) }

/-- Pair selectors of CMAC and CMAGSQ: of DA, of DB, of AX. -/
def pairA (sa : Nat) : Nat := nbits sa 8 1
def pairB (sa : Nat) : Nat := nbits sa 9 1
def pairX (sa : Nat) : Nat := nbits sa 10 1

def opCmac (c : Cell) (sa : Nat) : AOut :=
  let p := c.dReg (aDA sa)
  let q := c.dReg (aDB sa)
  let x := c.aReg (aAX sa)
  let i := 2 * pairA sa
  let j := 2 * pairB sa
  let k := 2 * pairX sa
  let qi := lane q j
  let qq := if aConj sa then -(lane q (j + 1)) else lane q (j + 1)
  let re := lane p i * qi - lane p (i + 1) * qq
  let im := lane p i * qq + lane p (i + 1) * qi
  let acc (old v : Int) : Int := sat48 ((if aClr sa then 0 else old) + (if aSub sa then -v else v))
  { ok := onlyBits sa (mOP ||| mDA ||| mDB ||| mAX ||| 0x700 ||| 7)
    a := some (aAX sa, lanes (fun l => if l = k then acc (lane x k) re else if l = k + 1 then acc (lane x (k + 1)) im else lane x l)) }
def opCmagsq (c : Cell) (sa : Nat) : AOut :=
  let p := c.dReg (aDA sa)
  let x := c.aReg (aAX sa)
  let i := 2 * pairA sa
  let k := 2 * pairX sa
  let v := lane p i * lane p i + lane p (i + 1) * lane p (i + 1)
  { ok := onlyBits sa (mOP ||| mDA ||| mAX ||| 0x500 ||| 1)
    a := some (aAX sa, lanes (fun l =>
      if l = k then sat48 ((if aClr sa then 0 else lane x k) + v)
      else if l = k + 1 then (if aClr sa then 0 else lane x l) else lane x l)) }

/-- (re, im) × j^k. -/
def rotate (k : Nat) (re im : Int) : Int × Int :=
  match k % 4 with
  | 0 => (re, im)
  | 1 => (-im, re)
  | 2 => (-re, -im)
  | _ => (im, -re)
def opCrot (c : Cell) (sa : Nat) : AOut :=
  let p := c.dReg (aDA sa)
  let f (l : Nat) : Int := let z := rotate (aSH sa) (lane p (l / 2 * 2)) (lane p (l / 2 * 2 + 1)); sat18 (if l % 2 = 0 then z.1 else z.2)
  { ok := onlyBits sa (mOP ||| mDD ||| mDA ||| 0x18), d := [(aDD sa, lanes f)] }

/-- Slot A by its opcode; `none` for one that Table 12.4 does not list, or a complex-only one in a quad image. -/
def slotA (c : Cell) (complex : Bool) (sa : Nat) : Option AOut :=
  match aOp sa with
  | 0x00 => some (opNopA sa)
  | 0x01 => some (opAdd c sa)
  | 0x02 => some (opSub c sa)
  | 0x03 => some (opBfy c sa)
  | 0x04 => some (opNeg c sa)
  | 0x05 => some (opAbs c sa)
  | 0x06 => some (opMin c sa)
  | 0x07 => some (opMax c sa)
  | 0x08 => some (opShr c sa)
  | 0x09 => some (opShl c sa)
  | 0x0A => some (opBcast c sa)
  | 0x0B => some (opTrn4 c sa)
  | 0x10 => some (opMac c sa)
  | 0x11 => some (opMacsq c sa)
  | 0x12 => some (opMovad c sa)
  | 0x13 => some (opMovda c sa)
  | 0x18 => if complex then some (opCmac c sa) else none
  | 0x19 => if complex then some (opCmagsq c sa) else none
  | 0x1A => if complex then some (opCrot c sa) else none
  | _ => none

/-! ### Slot B (Table 12.5) -/

/-- Where control goes after a word. -/
inductive Flow where
  | next
  /-- A taken branch. -/
  | jump (target : Nat)
  /-- A LOOP whose count is 0: past its END. -/
  | skip (stop : Nat)
  | halt
  deriving DecidableEq, Repr

/-- What a slot B operation does: admitted, the cell after it, the D register it writes, Landing bytes it writes, control; and the traps
it meets (R216). -/
structure BOut where
  ok : Bool
  cell : Cell
  d : Option Nat := none
  land : Option (Nat × List Byte) := none
  flow : Flow := .next
  eccTrap : Bool := false
  windowTrap : Bool := false
  jumpTrap : Bool := false

/-- The job's view of the Landing: bytes of its readable windows, and whether an address lies in one. -/
structure Windows where
  read : Nat → Option (List Byte)
  spoiled : Nat → Bool
  writable : Nat → Bool
  codeWords : Nat
  /-- Specials 8 to 13 (Table 12.7). -/
  special : Nat → Word

def opNopB (c : Cell) (sb : Nat) : BOut := { ok := sb == 0, cell := c }
def opLd (c : Cell) (sb : Nat) : BOut :=
  let g := c.gen (bGK sb)
  let a := g.addr
  let (c1, bad) := c.load a 4
  { ok := onlyBits sb (mOP ||| 0x03F00000) && g.ok, d := some (bDR sb), eccTrap := bad
    cell := (c1.setD (bDR sb) (lanes (fun i => c.half (a + i)))).setG (bGK sb) g.advance }
def opSt (c : Cell) (sb : Nat) : BOut :=
  let g := c.gen (bGK sb)
  let a := g.addr
  let v := (List.range 4).map (fun i => sat16 (rha (bSSH sb) (lane (c.dReg (bDR sb)) i)))
  let (c0, bad) := c.store a (v.map (wrapTo 16))
  let c1 := c0.setG (bGK sb) g.advance
  { ok := onlyBits sb (mOP ||| 0x03FE0000) && g.ok, eccTrap := bad
    cell := if bTrack sb then { c1 with peak := v.foldl trackPeak c.peak } else c1 }
def opLds (c : Cell) (sb : Nat) : BOut :=
  let g := c.gen (bGK sb)
  let a := g.addr
  let w : Word := if bWide sb then w32 (c.halfBits a + 65536 * c.halfBits (a + 1)) else w32 (wrapTo 32 (c.half a))
  let (c1, bad) := c.load a (if bWide sb then 2 else 1)
  { ok := onlyBits sb (mOP ||| 0x03B10000) && g.ok, eccTrap := bad
    cell := (c1.setS (bSR sb) w).setG (bGK sb) g.advance }
def opSts (c : Cell) (sb : Nat) : BOut :=
  let g := c.gen (bGK sb)
  let a := g.addr
  let w := (c.sReg (bSR sb)).toNat
  let vs := if bWide sb then [w % 65536, w / 65536] else [w % 65536]
  let (c1, bad) := c.store a vs
  { ok := onlyBits sb (mOP ||| 0x03B10000) && g.ok, eccTrap := bad, cell := c1.setG (bGK sb) g.advance }

/-- S[SR] after a Landing access. -/
def Cell.stepS (c : Cell) (sb : Nat) : Cell := if bInc sb then c.setS (bSR sb) (c.sReg (bSR sb) + 16) else c

def opLdl (w : Windows) (c : Cell) (sb : Nat) : BOut :=
  let g := c.gen (bGK sb)
  let a := g.addr
  let la := (c.sReg (bSR sb)).toNat
  let ok := onlyBits sb (mOP ||| 0x03F00000) && g.ok && a % 8 == 0 && la % 16 == 0
  match w.read la with
  | none => { ok, cell := c, windowTrap := true }
  | some bs =>
    let (c1, bad) := c.store a ((List.range 8).map (fun i => leAt bs (2 * i) 2))
    { ok, eccTrap := w.spoiled la || bad, cell := (c1.setG (bGK sb) g.advance).stepS sb }
def opStl (w : Windows) (c : Cell) (sb : Nat) : BOut :=
  let g := c.gen (bGK sb)
  let a := g.addr
  let la := (c.sReg (bSR sb)).toNat
  let ok := onlyBits sb (mOP ||| 0x03F00000) && g.ok && a % 8 == 0 && la % 16 == 0
  if !w.writable la then { ok, cell := c, windowTrap := true }
  else
    let (c1, bad) := c.load a 8
    { ok, eccTrap := bad, land := some (la, (c.halves a 8).flatMap (leBytes 2)), cell := (c1.setG (bGK sb) g.advance).stepS sb }

/-- The groups of a SCALE, read, shifted and written back through the generator. Answers whether a read finds a codeword that cannot be corrected. -/
def scaleGroups (s k : Nat) : Nat → Cell × Bool → Cell × Bool
  | 0, c => c
  | n + 1, c =>
    let g := c.1.gen k
    let a := g.addr
    let vs := (List.range 4).map (fun i => wrapTo 16 (rha s (c.1.half (a + i))))
    let (c1, bad) := c.1.load a 4
    let (c2, worse) := c1.store a vs
    scaleGroups s k n (c2.setG k g.advance, c.2 || bad || worse)
def opScale (c : Cell) (sb : Nat) : BOut :=
  let k := bGK sb
  let g := c.gen k
  let s := scaleShift c.peak
  let n := g.length / 4
  let (c1, bad) := if s = 0 then (c, false) else scaleGroups s k n (c, false)
  { ok := onlyBits sb (mOP ||| 0x00300000) && g.ok && g.length % 4 == 0, eccTrap := bad
    cell := { c1 with bexp := if s = 0 then c.bexp else clampBexp (c.bexp + s), peak := 0 } }

/-- A generator with a field set (R221: PTR modulo LEN). -/
def Gen.set (g : Gen) (field v : Nat) : Gen :=
  match field with
  | 0 => { g with base := v % 0x8000 }
  | 1 => { g with len := v % 0x8000 }
  | 2 => { g with step := v % 65536 }
  | 3 => { g with ptr := v % g.length }
  | _ => { g with mode := nbit v 0 }
def opGset (c : Cell) (sb : Nat) : BOut :=
  let src := nbit sb 19
  let k := Config.gsetGenerator sb % 4
  let field := nbits sb 20 3
  let v := if src then (c.sReg (bSR sb)).toNat % 65536 else bImm sb
  { ok := onlyBits sb (mOP ||| (if src then 0x03F80000 else 0x0070FFFF)) && decide (field < 5), cell := c.setG k ((c.gen k).set field v) }
def opSli (c : Cell) (sb : Nat) : BOut :=
  let old := (c.sReg (bSR sb)).toNat
  let w := if nbit sb 19 then w32 (bImm sb * 65536 + old % 65536) else w32 (wrapTo 32 (sx 16 (bImm sb)))
  { ok := onlyBits sb (mOP ||| 0x0388FFFF), cell := c.setS (bSR sb) w }

/-- Table 12.6; 15 is refused. -/
def scalarFn (fn : Nat) (a b : Word) : Option Word :=
  match fn with
  | 0 => some (a + b)
  | 1 => some (a - b)
  | 2 => some (a &&& b)
  | 3 => some (a ||| b)
  | 4 => some (a ^^^ b)
  | 5 => some (a <<< (b.toNat % 32))
  | 6 => some (a.sshiftRight (b.toNat % 32))
  | 7 => some (a >>> (b.toNat % 32))
  | 8 => some (a * b)
  | 9 => some (w32 (wrapTo 32 (a.toInt * b.toInt / 2 ^ 32)))
  | 10 => some (w32 (a.toNat * b.toNat / 2 ^ 32))
  | 11 => some (if a.toInt ≤ b.toInt then a else b)
  | 12 => some (if a.toInt ≤ b.toInt then b else a)
  | 13 => some (if a.toInt < b.toInt then 1 else 0)
  | 14 => some (if a.toNat < b.toNat then 1 else 0)
  | _ => none
def opSalu (c : Cell) (sb : Nat) : BOut :=
  match scalarFn (nbits sb 13 4) (c.sReg (bSA sb)) (c.sReg (bSB sb)) with
  | some w => { ok := onlyBits sb (mOP ||| 0x03FFE000), cell := c.setS (bSR sb) w }
  | none => { ok := false, cell := c }
def opSalui (c : Cell) (sb : Nat) : BOut :=
  match scalarFn (nbits sb 16 4) (c.sReg (bSA sb)) (w32 (wrapTo 32 (sx 16 (bImm sb)))) with
  | some w => { ok := true, cell := c.setS (bSR sb) w }
  | none => { ok := false, cell := c }

/-- One step of R224 on (r, q) with divisor v. -/
def divStep (r q v : Nat) : Nat × Nat :=
  let t := (r * 2 ^ 32 + q) * 2
  let hi := t / 2 ^ 32
  let t := if v ≤ hi then t - v * 2 ^ 32 + 1 else t
  (t / 2 ^ 32 % 2 ^ 32, t % 2 ^ 32)
def opSdiv (c : Cell) (sb : Nat) : BOut :=
  let i := bSR sb
  let (r, q) := divStep (c.sReg i).toNat (c.sReg (i + 1)).toNat (c.sReg (bSA sb)).toNat
  { ok := onlyBits sb (mOP ||| 0x03F00000) && i % 2 == 0, cell := (c.setS i (w32 r)).setS (i + 1) (w32 q) }
def opSred (c : Cell) (sb : Nat) : BOut :=
  let v := c.dReg (nbits sb 19 4)
  let sel := nbits sb 16 3
  let z := if sel < 4 then lane v sel else lane v 0 + lane v 1 + lane v 2 + lane v 3
  { ok := onlyBits sb (mOP ||| 0x03FF0000) && decide (sel < 5), cell := c.setS (bSR sb) (w32 (wrapTo 32 z)) }
def opSget (w : Windows) (c : Cell) (sb : Nat) : BOut :=
  let k := nbits sb 13 4
  let v : Word :=
    if k = 0 then w32 (wrapTo 32 c.bexp) else if k = 1 then w32 c.peak
    else if k < 4 then w32 (c.loopReg (k - 2)).left else if k < 8 then w32 (c.gen (k - 4)).ptr else w.special k
  { ok := onlyBits sb (mOP ||| 0x0381E000) && decide (k < 14), cell := c.setS (bSR sb) v }
def opSput (c : Cell) (sb : Nat) : BOut :=
  { ok := onlyBits sb (mOP ||| 0x00700000), cell := { c with bexp := sx 8 (c.sReg (bSA sb)).toNat } }
def opBxadd (c : Cell) (sb : Nat) : BOut := { ok := onlyBits sb (mOP ||| 0xFF), cell := { c with bexp := clampBexp (c.bexp + sx 8 sb) } }

/-- LOOP (R225). -/
def opLoop (w : Windows) (c : Cell) (sb : Nat) : BOut :=
  let k := nbits sb 25 1
  let src := nbit sb 24
  let stop := nbits sb 0 11
  let count := if src then (c.sReg (nbits sb 11 3)).toNat % 65536 else nbits sb 11 13
  let other := c.loopReg (1 - k)
  let nested := other.left = 0 ∨ stop ≤ other.stop
  let ok := onlyBits sb (mOP ||| (if src then 0x03003FFF else 0x02FFFFFF)) && decide ((c.loopReg k).left = 0) && decide nested
  let bad := !(decide (c.pc < stop) && decide (stop < w.codeWords))
  if count = 0 then { ok, cell := c, flow := .skip stop, jumpTrap := bad }
  else { ok, cell := { c with lp := vset c.lp k { left := count, start := c.pc + 1, stop } }, jumpTrap := bad }

/-- BR (R226). -/
def opBr (w : Windows) (c : Cell) (sb : Nat) : BOut :=
  let cond := nbits sb 23 3
  let v := (c.sReg (bSA sb)).toInt
  let taken := match cond with | 0 => true | 1 => v == 0 | 2 => v != 0 | 3 => decide (v < 0) | _ => decide (0 ≤ v)
  let target := nbits sb 0 11
  { ok := onlyBits sb (mOP ||| (if cond = 0 then 0x038007FF else 0x03F007FF)) && decide (cond < 5)
    cell := c, flow := if taken then .jump target else .next, jumpTrap := taken && decide (w.codeWords ≤ target) }
def opHalt (c : Cell) (sb : Nat) : BOut := { ok := onlyBits sb mOP, cell := c, flow := .halt }

/-- Slot B by its opcode. -/
def slotB (w : Windows) (c : Cell) (sb : Nat) : Option BOut :=
  match bOp sb with
  | 0x00 => some (opNopB c sb)
  | 0x01 => some (opLd c sb)
  | 0x02 => some (opSt c sb)
  | 0x03 => some (opLds c sb)
  | 0x04 => some (opSts c sb)
  | 0x05 => some (opLdl w c sb)
  | 0x06 => some (opStl w c sb)
  | 0x07 => some (opScale c sb)
  | 0x08 => some (opGset c sb)
  | 0x09 => some (opSli c sb)
  | 0x0A => some (opSalu c sb)
  | 0x0B => some (opSalui c sb)
  | 0x0C => some (opSdiv c sb)
  | 0x0D => some (opSred c sb)
  | 0x0E => some (opSget w c sb)
  | 0x0F => some (opSput c sb)
  | 0x10 => some (opLoop w c sb)
  | 0x11 => some (opBr w c sb)
  | 0x12 => some (opBxadd c sb)
  | 0x13 => some (opHalt c sb)
  | _ => none

/-! ### The whole word (R215, R216, R225, R226) -/

/-- Both slots write one register. -/
def sameDest (a : AOut) (b : BOut) : Bool := match b.d with | some i => a.d.any (fun e => e.1 == i) | none => false

/-- Slot A's results, written at the word's end. -/
def Cell.write (c : Cell) (a : AOut) : Cell :=
  let c1 := a.d.foldl (fun t e => t.setD e.1 e.2) c
  match a.a with | some (i, v) => c1.setA i v | none => c1

/-- The running loop whose body ends at a word: the inner one first. -/
def Cell.loopAt (c : Cell) (word : Nat) : Option Nat :=
  let r (k : Nat) : Bool := decide (0 < (c.loopReg k).left) && (c.loopReg k).stop == word
  if r 0 && r 1 then some (if (c.loopReg 0).start ≤ (c.loopReg 1).start then 1 else 0) else if r 0 then some 0 else if r 1 then some 1 else none

/-- Control passes the END word: back-edges of the loops that end there, inner first (R225). `fuel`: at most two loops. -/
def Cell.passEnd : Nat → Nat → Cell → Cell
  | 0, word, c => { c with pc := word + 1 }
  | fuel + 1, word, c =>
    match c.loopAt word with
    | none => { c with pc := word + 1 }
    | some k =>
      let l := c.loopReg k
      if 1 < l.left then { c with lp := vset c.lp k { l with left := l.left - 1 }, pc := l.start }
      else ({ c with lp := vset c.lp k { l with left := 0 } }).passEnd fuel word

/-- A taken branch: loops whose body it leaves end (R226). -/
def Cell.branch (c : Cell) (target : Nat) : Cell :=
  { c with pc := target, lp := c.lp.map (fun l => if 0 < l.left && !(l.start ≤ target && target ≤ l.stop) then { l with left := 0 } else l) }

/-- Outcome of a word: a trap with its cause, the job's end, or the cell at its next word; with the Landing bytes written. -/
inductive Issued where
  | trap (cause : Nat)
  | halted (c : Cell)
  | cell (c : Cell) (land : Option (Nat × List Byte))

/-- One word (R215, R216): both slots read at its start and write at its end. -/
def Cell.issue (c : Cell) (w : Windows) (complex : Bool) (word : Nat) : Issued :=
  match slotA c complex (word / 2 ^ 32), slotB w c (word % 2 ^ 32) with
  | some a, some b =>
    if b.eccTrap then .trap 4
    else if b.windowTrap then .trap 1
    else if !a.ok || !b.ok || sameDest a b then .trap 3
    else if b.jumpTrap then .trap 2
    else
      let c1 := { b.cell.write a with issued := c.issued + 1 }
      match b.flow with
      | .halt => .halted c1
      | .jump t => .cell (c1.branch t) b.land
      | .skip e =>
        let c2 := c1.passEnd 2 e
        if w.codeWords ≤ c2.pc then .trap 2 else .cell c2 b.land
      | .next =>
        let c2 := c1.passEnd 2 c.pc
        if w.codeWords ≤ c2.pc then .trap 2 else .cell c2 b.land
  | _, some b => if b.eccTrap then .trap 4 else if b.windowTrap then .trap 1 else .trap 3
  | _, none => .trap 3

end Sys2Proof.Machine
end

