-- ==== Sys2Proof/Machine/CellarCore.lean ====
section
/-! DEFINITION. What the Cellar reports: corrected and uncorrectable codewords (R287 to R289). -/

namespace Sys2Proof.Machine

/-- A corrected codeword (R288, R289): counts, the owed write-back, and DRAM_CORR_RATE past 1,024 corrections in an hour. Its detail is the channel in
[7] and the symbol in [4:0] (DESIGN CHOICE, log entry 22). -/
def State.corrected (a symbol : Nat) (s : State) : State :=
  let ch := addrChannel a
  let c := s.cellar.bumpCorrected ch symbol
  let recent := ({ up := s.time.up, symbol : Correction } :: vget c.corrections ch []).filter (fun e => s.time.up < e.up + 3600 * sec)
  let overs := decide (1024 < recent.length)
  let c1 := { c with owedBack := if c.owedBack.contains (a / 16) then c.owedBack else c.owedBack ++ [a / 16]
                     corrections := vset c.corrections ch (if overs then [] else recent) }
  let s1 := s.withCellar c1
  if overs then s1.report srcDramCorrRate (128 * ch + worstSymbol recent) else s1

/-- An uncorrectable codeword read by port `p`, or by the scrubber (6): counts, ECC_LAST, UNCORR, DRAM_UNCORR with the channel (R288). -/
def State.uncorrectable (p a syndrome : Nat) (s : State) : State :=
  let c := s.cellar
  let ch := addrChannel a
  let c1 := { c with
    ecc := vmod c.ecc ch (fun w => fincSat w F.ECC_STAT.UNCORRECTED)
    eccLast := #v[w32 a, w32 (a / 2 ^ 32), w32 (ch + 2 * c.addrRank a + 65536 * (syndrome % 65536))]
    stat := fset c.stat F.CELLAR_STAT.UNCORR 1
    bad := if c.bad.contains (a / 16) then c.bad else c.bad ++ [a / 16]
    port := if p = 0 ∨ p = 5 then c.port else vmod c.port p (fun q => { q with count := q.count + 1 }) }
  (s.withCellar c1).report srcDramUncorr ch

end Sys2Proof.Machine
end

