-- ==== Sys2Proof/Machine/Cellar.lean ====
section
/-! DEFINITION. The Cellar's rows: history writes, grants, reads, write-backs, refresh, patrol, training helpers (R252, R287 to R299). -/

namespace Sys2Proof.Machine

/-! ### History writes (R252, R253, R292, R293) -/

/-- A row has taken its whole place in the ring (R252, R292, R293), and how many rows are overrun rows with it. -/
def Cellar.endRow (c : Cellar) (p5 : Bool) (row : StoredRow) (len : Nat) : Cellar × Nat :=
  let r := c.ring p5
  let frameLost := match r.index.getLast? with | some e => e.frame == row.frame && e.allOverrun | none => false
  let overs := r.dropping || frameLost
  let e : RingRow := { p := r.pos, len, leg := row.leg, row := row.slot, trace := row.trace, stamp := row.stamp, frame := row.frame
                       boundary := row.boundary, tF := row.tF, overrun := overs, tach := row.tach }
  let c1 := c.setRing p5 { r with pos := r.pos + len, rows := r.rows ++ [e], taken := 0, dropping := false }
  let (c2, more) := if r.dropping then c1.markOverrun p5 e.p row.frame row.header else (c1, 0)
  (c2.countOverruns (if p5 then 5 else 0) (overs.toNat + more), overs.toNat + more)

/-- The row at the front of the Hall's output to a port. -/
def Halls.front (h : Halls) (p5 : Bool) : Option StoredRow := if p5 then h.out5.head? else h.out0.head?
/-- That row has left. -/
def Halls.drop1 (h : Halls) (p5 : Bool) : Halls := if p5 then { h with out5 := h.out5.drop 1 } else { h with out0 := h.out0.drop 1 }

/-- CELLAR_PORT_WRITE (R23, R252, R292, R293): the next `n` bytes of the row at the front of the Hall's output reach P0, or P5. What finds the buffer
full is discarded with the rest of its row. -/
def execCellarPortWrite (p5 : Bool) (n : Nat) (s : State) : Res :=
  match s.halls.front p5 with
  | none => .next s
  | some row =>
    let bs := row.bytes
    let c := s.cellar
    let r := c.ring p5
    let m := min n (bs.length - r.taken)
    let p := if p5 then 5 else 0
    let free := portBuffer p - (c.portOf p).level
    let fits := if r.dropping then 0 else min m free
    let at_ := r.pos + r.taken
    let room := r.base + r.size - r.addr at_ 0
    if m = 0 then .next s
    else if 0 < fits && c.capacity < (if fits ≤ room then r.addr at_ 0 + fits else r.base + r.size) then .fault .noSuchDramAddress
    else
      let c1 := if r.taken = 0 then c.openFrame p5 row s.probe.frameBase else c
      let c2 := if fits = 0 then c1
        else (c1.storeRing p5 at_ ((bs.drop r.taken).take fits)).request p { addr := r.addr at_ 0, bytes := fits, write := true }
      let r2 := c2.ring p5
      let c3 := c2.setRing p5 { r2 with taken := r2.taken + m, dropping := r2.dropping || fits < m }
      if r.taken + m < bs.length then .next (s.withCellar c3)
      else
        let (c4, overs) := c3.endRow p5 row bs.length
        let s1 := { s.withCellar c4 with halls := s.halls.drop1 p5 }
        .next ((List.replicate overs p).foldl (fun t q => t.report srcHistoryOverrun q) s1)

/-! ### Grants (R27, R291, R294) -/

/-- Spacing in 0.25 ns units of 64 B requests under a port's cap (R27): 1.6 GB/s on P2, 4.0 GB/s on P3. -/
def portSpacing (p : Nat) : Nat := if p = 2 then 160 else if p = 3 then 64 else 0

/-- The arbiter may grant port p (R291). `blocked`: neither port in panic can issue a command in this cycle. -/
def Cellar.mayGrant (c : Cellar) (p : Nat) (blocked : Bool) : Bool :=
  let q := c.portOf p
  let both := (c.portOf 0).panic && (c.portOf 5).panic
  let busy (i : Nat) : Bool := !(c.portOf i).queue.isEmpty
  if !fbit c.cfg F.CELLAR_CFG.ENABLE || q.queue.isEmpty then false
  else if c.panic then
    if q.panic then !both || !busy (5 - p) || (c.turn5 == (p == 5)) else (p == 1 || p == 4) && blocked
  else
    let credit (i : Nat) : Bool := decide ((c.portOf i).used < max 1 (fget (c.portOf i).cfg F.PORT_CFG.WEIGHT))
    credit p || !(List.range 6).any (fun i => busy i && credit i)

/-- A grant is counted; a round ends when no waiting port has a grant left. -/
def Cellar.countGrant (c : Cellar) (p : Nat) : Cellar :=
  if c.panic then { c with turn5 := p == 0 }
  else
    let full := decide (max 1 (fget (c.portOf p).cfg F.PORT_CFG.WEIGHT) ≤ (c.portOf p).used)
    let c1 := if full then { c with port := c.port.map (fun q => { q with used := 0 }) } else c
    { c1 with port := vmod c1.port p (fun q => { q with used := q.used + 1 }) }

/-- CELLAR_GRANT (R27, R290, R291, R294): one 64 B burst of port p's oldest request; `drain` requests then leave the bank queues. -/
def execCellarGrant (p : Fin 6) (blocked : Bool) (drain : Nat) (s : State) : Res :=
  let c := s.cellar
  match (c.portOf p.val).queue with
  | [] => .next s
  | r :: rest =>
    if !c.mayGrant p.val blocked then .next s
    else
      let q := c.portOf p.val
      let s1 := s.untilUp (if r.write then q.writeUp else q.readUp)
      let next := s1.time.up + portSpacing p.val
      let queue := if 64 < r.bytes then { r with addr := r.addr + 64, bytes := r.bytes - 64 } :: rest else rest
      let q1 := { q with queue, writeUp := if r.write then next else q.writeUp, readUp := if r.write then q.readUp else next }
      let c1 := ({ c with port := vset c.port p q1 }).countGrant p.val
      let c2 := (c1.enterBank { bank := c.addrBank r.addr, row := c.addrRow r.addr, write := r.write }).judgePanic p.val
      .next (s1.withCellar ({ c2 with overruns := c2.overruns.drop 1 }.drainBanks drain))

/-! ### Reads (R287 to R289) -/

/-- A codeword read: an earlier uncorrectable one stays so until it is written. -/
def Cellar.check (c : Cellar) (a : Nat) (k : ReadCheck) : ReadCheck :=
  if c.bad.contains (a / 16) then (match k with | .beyond y => .beyond y | _ => .beyond 0) else k

/-- CELLAR_READ (R287, R288, Table 16.2): the codeword at address `a` is read for port p; the Study's own read takes the data or a bus error. -/
def execCellarRead (p : Fin 6) (a : Nat) (k : ReadCheck) (s : State) : Res :=
  let c := s.cellar
  if !fbit c.cfg F.CELLAR_CFG.ENABLE then .next s
  else if c.capacity ≤ a then .fault .noSuchDramAddress
  else
    let data := c.readBytes (a / 16 * 16) 16
    let give (d : Option (List Byte)) (t : State) : State := if p.val = 4 then t.withCellar { t.cellar with studyRead := d } else t
    match c.check a k with
    | .clean => .next (give (some data) s)
    | .symbol j => .next (give (some data) (s.corrected a j.val))
    | .beyond y => .next (give none (s.uncorrectable p.val a y.val))

/-- CORRECTED_WRITEBACK (R288): the oldest corrected codeword goes back; one that a newer write covers has left the list. -/
def execCorrectedWriteback (s : State) : Res := .next (s.withCellar { s.cellar with owedBack := s.cellar.owedBack.drop 1 })

/-- Codewords of the fitted DRAM. -/
def Cellar.codewords (c : Cellar) : Nat := c.capacity / 16

/-- The scrubber rewrites an uncorrectable codeword with bit 0 of every data symbol inverted (R287, Table 16.2): lines 4j of beat 2w. -/
def Cellar.invertSymbols (c : Cellar) (cw : Nat) : Cellar :=
  { c with mem := Mem.writeN 0 c.mem (16 * cw) ((c.readBytes (16 * cw) 8).map (· ^^^ 0x11)) }

/-- The patrol moves on; a finished pass is counted, and a pass past its period is BEHIND (R289). -/
def Cellar.advanceScrub (c : Cellar) (up : Nat) : Cellar :=
  let late := decide (c.scrubUp + max 1 (fget c.scrub F.SCRUB_CFG.HOURS) * 3600 * sec < up)
  if c.scrubNext + 1 < c.codewords then
    { c with scrubNext := c.scrubNext + 1, scrubStat := if late then fset c.scrubStat F.SCRUB_STAT.BEHIND 1 else c.scrubStat }
  else { c with scrubNext := 0, scrubUp := up, scrubStat := finc (fsetB c.scrubStat F.SCRUB_STAT.BEHIND late) F.SCRUB_STAT.PASSES }

/-- PATROL_SCRUB (R288, R289). -/
def execPatrolScrub (k : ReadCheck) (s : State) : Res :=
  let c := s.cellar
  if !fbit c.cfg F.CELLAR_CFG.ENABLE || !fbit c.cfg F.CELLAR_CFG.SCRUB_EN || c.panic then .next s
  else
    let cw := c.scrubNext
    let s1 := s.withCellar (c.advanceScrub s.time.up)
    match c.check (16 * cw) k with
    | .clean => .next s1
    | .symbol j => .next (s1.corrected (16 * cw) j.val)
    | .beyond y => .next ((s1.uncorrectable 6 (16 * cw) y.val).withCellar ((s1.uncorrectable 6 (16 * cw) y.val).cellar.invertSymbols cw))

/-! ### Refresh (R295) -/

/-- POSTPONE_MAX as taken. -/
def Cellar.postponeMax (c : Cellar) : Nat := min 8 (fget c.refresh F.REFRESH_CFG.POSTPONE_MAX)

/-- REFRESH_CFG as it reads: OWED is the most any rank owes. -/
def Cellar.refreshWord (c : Cellar) : Word := fset c.refresh F.REFRESH_CFG.OWED (c.owed.toList.foldl max 0)

/-- REFRESH_DUE (R295): tREFI of rank 2c + k has passed. -/
def execRefreshDue (rank : Fin 4) (s : State) : Res :=
  let c := s.cellar
  let i := rank.val
  let fitted := decide (i % 2 ≤ fget c.memDesc F.MEM_DESC.RANKS)
  if !fbit c.cfg F.CELLAR_CFG.ENABLE || !fitted then .next s
  else if !c.panic then .next (s.withCellar { c with issued := vmod c.issued i (· + 1) })
  else if vget c.owed i 0 < c.postponeMax then .next (s.withCellar { c with owed := vmod c.owed i (· + 1) })
  else .next (s.withCellar { c with issued := vmod c.issued i (· + 1), refresh := finc c.refresh F.REFRESH_CFG.FORCED })

/-! ### Training helpers (R296, R299) -/

/-- TRN_CTRL.GO starts the helpers (R299). -/
def State.trnGo (s : State) : State :=
  let c := s.cellar
  if !fbit c.trnCfg F.TRN_CFG.ENABLE || fbit c.trnStat F.TRN_STAT.BUSY then s
  else s.withCellar { c with trnCtrl := fset c.trnCtrl F.TRN_CTRL.GO 1, trnStat := fset c.trnStat F.TRN_STAT.BUSY 1 }

/-- TRN_GO. -/
def execTrnGo (s : State) : Res := .next (if s.power.cellar then s.trnGo else s)

/-- Cellar address of burst b within a channel's rank (R286). -/
def Cellar.burstAddr (c : Cellar) (ch rank b : Nat) : Nat :=
  let two := fget c.memDesc F.MEM_DESC.RANKS
  b % 4 * 64 + ch * 256 + b / 4 % 512 * 512 + (if two = 1 then rank * 2 ^ 18 else 0) + b / 2048 * 2 ^ (18 + two)

/-- The pattern the helpers wrote over a rank's bursts: its bytes are free values (R299 names the patterns, not their bits; DESIGN CHOICE, log entry 23). -/
def State.writePattern (s : State) : State :=
  let c := s.cellar
  let ch := fget c.trnCfg F.TRN_CFG.CH
  let rank := fget c.trnCfg F.TRN_CFG.RANK
  (List.range (fget c.trnLen F.TRN_LEN.BURSTS)).foldl (fun t i =>
    let a := t.cellar.burstAddr ch rank (c.trnAddr.toNat + i)
    let bs := (List.range 64).map (fun k => BitVec.ofNat 8 (Config.freeValue (t.free + k)).toNat)
    { t.withCellar (t.cellar.store a bs) with free := t.free + 64 }) s

/-- TRN_COMPARE_DONE (R299): the failing bits and the count of mismatched bit-beats. -/
def execTrnCompareDone (fail0 fail1 : Word) (fail2 : Byte) (errors : Word) (s : State) : Res :=
  let c := s.cellar
  if !fbit c.trnStat F.TRN_STAT.BUSY then .next s
  else
    let s1 := s.writePattern
    .next (s1.withCellar { s1.cellar with
      trnStat := fset (fset c.trnStat F.TRN_STAT.BUSY 0) F.TRN_STAT.DONE 1
      trnCtrl := fset c.trnCtrl F.TRN_CTRL.GO 0
      trnFail := #v[fail0, fail1, fail2.setWidth 32]
      trnErrors := errors })

end Sys2Proof.Machine
end

