-- ==== Sys2Proof/Machine/LoftCore.lean ====
section
/-! DEFINITION. The Loft's rooms: zone settings and changes, staging of rows, evaluations, detectors and their results (R200, R229 to R249). -/

namespace Sys2Proof.Machine

def State.withLoft (l : Loft) (s : State) : State := { s with loft := l }
def State.zone (s : State) (z : Nat) : Zone := vget s.loft.zone z {}
def State.setZone (z : Nat) (x : Zone) (s : State) : State := s.withLoft { s.loft with zone := vset s.loft.zone z x }

/-! ### Settings of a zone (Tables 13.4 and 13.9) -/

def Zone.on (z : Zone) : Bool := fbit z.cfg F.ZONE_CFG.ENABLE
def Zone.leg (z : Zone) : Nat := fget z.cfg F.ZONE_CFG.LEG
def Zone.source (z : Zone) : Nat := fget z.cfg F.ZONE_CFG.SOURCE
def Zone.program (z : Zone) : Nat := fget z.cfg F.ZONE_CFG.PROGRAM
def Zone.nDet (z : Zone) : Nat := min 8 (fget z.cfg F.ZONE_CFG.N_DET)
def Zone.every (z : Zone) : Nat := max 1 (fget z.cfg F.ZONE_CFG.EVERY)
def Zone.first (z : Zone) : Nat := fget z.span F.ZONE_SPAN.FIRST
def Zone.count (z : Zone) : Nat := fget z.span F.ZONE_SPAN.COUNT
def Zone.delay (z : Zone) : Nat := fget z.apply F.ZONE_APPLY.APPLY
def Zone.publish (z : Zone) : Nat := fget z.out F.ZONE_OUT.PUBLISH
def Zone.tach (z : Zone) : Option Nat := if fbit z.cfg F.ZONE_CFG.TACH_EN then some (fget z.cfg F.ZONE_CFG.TACH) else none

/-- Library programs (Table 13.1). -/
def imgZband : Nat := 2
def imgZorder : Nat := 3
def imgZtemp : Nat := 4
def imgZmeas : Nat := 5
/-- Images 0 to 15 are the Morvafen library (R205). -/
def isLibrary (image : Nat) : Bool := decide (image < 16)
/-- ZBAND and ZTEMP run a job only on the last row of an evaluation (R231). -/
def lastRowOnly (image : Nat) : Bool := image == imgZband || image == imgZtemp

/-- Parameter page fields (Table 13.4). -/
def pgHistQty (p : List Byte) : Nat := leAt p 0 1 % 8
def pgHistShift (p : List Byte) : Nat := leAt p 1 1
def pgHistBase (p : List Byte) : Int := sx 16 (leAt p 2 2)
def pgDecay (p : List Byte) : Nat := leAt p 4 1
def pgHistOn (p : List Byte) : Bool := nbit (leAt p 5 1) 0
def pgMapOn (p : List Byte) : Bool := nbit (leAt p 5 1) 1
def pgRatio (p : List Byte) : Nat := leAt p 8 4
def pgMinRevs (p : List Byte) : Nat := leAt p 12 4
/-- Orders in use, up to the first 0. -/
def pgOrders (p : List Byte) : List Nat := ((List.range 8).map (fun i => leAt p (16 + 4 * i) 4)).takeWhile (· != 0)
/-- Locations of ZMEAS, up to the end marker. -/
def pgLocs (p : List Byte) : List Nat := ((List.range 8).map (fun i => leAt p (16 + 4 * i) 4)).takeWhile (· != 0xFFFFFFFF)
def pgQty (p : List Byte) (d : Nat) : Nat := leAt p (48 + 16 * d) 1
def pgMode (p : List Byte) (d : Nat) : Nat := leAt p (49 + 16 * d) 1
def pgMinLoc (p : List Byte) (d : Nat) : Nat := leAt p (50 + 16 * d) 2
def pgLimit (p : List Byte) (d : Nat) : Int := sx 16 (leAt p (52 + 16 * d) 2)

/-! ### State pages (Table 13.3) -/

/-- A user image that is loaded. -/
def Loft.image (l : Loft) (i : Nat) : Option Image := if isLibrary i then none else vget l.images i none
/-- A setting of a zone: ZONEz_PAGE, CFG, SPAN, OUT and parameter page. -/
structure ZoneWant where
  pages : Word
  cfg : Word
  span : Word
  out : Word
  param : List Byte
  deriving DecidableEq, Repr

/-- n rounded up to 16. -/
def up16 (n : Nat) : Nat := cdiv n 16 * 16

/-- State page length of a setting (Table 13.3, R232). -/
def ZoneWant.stateLen (w : ZoneWant) (l : Loft) : Nat :=
  let img := fget w.cfg F.ZONE_CFG.PROGRAM
  let count := fget w.span F.ZONE_SPAN.COUNT
  let h := (if pgHistOn w.param then 256 else 0) + (if pgMapOn w.param then 1024 else 0)
  up16 (if img = imgZband then 64 + h
    else if img = imgZorder then 64 + 8 * count * (pgOrders w.param).length + h
    else if img = imgZtemp then 64 + 2 * count + h
    else if img = imgZmeas then 64 + 2 * fget w.cfg F.ZONE_CFG.EVERY * (pgLocs w.param).length
    else match l.image img with | some m => m.pageBytes | none => 0)

/-- Base of the pages of zones and user tables (Table 11.2). -/
def landPages : Nat := 0x380000

/-- Bytes of the Landing; a whole codeword that is written is good again (R193). -/
def Loft.read (l : Loft) (a n : Nat) : List Byte := Mem.slice 0 l.landing a n
def Loft.write (l : Loft) (a : Nat) (bs : List Byte) : Loft :=
  { l with landing := Mem.writeN 0 l.landing a bs, bad := l.bad.filter (fun w => !coversWord a bs.length w) }

/-- The state page of a zone that runs reads 0 (R240). -/
def Loft.clearPage (l : Loft) (z : Zone) : Loft :=
  let w : ZoneWant := { pages := z.page, cfg := z.cfg, span := z.span, out := z.out, param := z.param }
  if z.on then { l with landing := Mem.clearRange l.landing (landPages + 16 * fget z.page F.ZONE_PAGE.STATE_AT) (w.stateLen l) } else l

/-! ### Restarts and changes (R233, R240) -/

/-- Detector registers and histories cleared. -/
def Detector.clear (d : Detector) : Detector := { d with stat := 0, raw := [] }

/-- A zone restarts at a frame (R240): its state goes, evaluations that would apply at or after the frame are dropped, its bits fall. -/
def Zone.restartAt (z : Zone) (frame time : Nat) : Zone :=
  { z with
    stat := 0, det := z.det.map Detector.clear, run := {}, gen := z.gen + 1
    from_ := if z.on then some frame else none
    waiting := z.waiting.filter (fun e => e.applyFrame < frame) ++ [{ frame, applyFrame := frame, applyTime := time, clear := true }] }

/-- ZONE_SET's words: CFG, SPAN, OUT, APPLY, then DETz_d_CFG, with the pages' places in front (R232, R233). -/
def Zone.setUp (z : Zone) (ws : List Word) (page : List Byte) : Zone :=
  { z with
    page := wat ws 0
    cfg := ((wat ws 1) &&& 0x7FFFFFFF) ||| (z.cfg &&& 0x80000000), span := wat ws 2, out := wat ws 3, apply := wat ws 4
    det := ⟨((List.range 8).map (fun d => { vget z.det d {} with cfg := if 5 + d < ws.length then wat ws (5 + d) else 0x01000101 })).toArray, by simp⟩
    configured := true, param := page }

/-- A register word of a zone takes effect: ZONEz_CFG but for ENABLE, SPAN, PAGE, OUT, APPLY, DETz_d_CFG. -/
def Zone.putWord (z : Zone) (k : Nat) (w : Word) : Zone :=
  match k with
  | 0 => { z with cfg := fsetB w F.ZONE_CFG.ENABLE z.on }
  | 1 => { z with span := w }
  | 2 => { z with page := w }
  | 3 => { z with out := w }
  | 4 => { z with apply := w }
  | d + 5 => { z with det := vmod z.det d (fun (x : Detector) => { x with cfg := w }) }

/-- A zone's registers after one change of them. -/
def Zone.written (z : Zone) (d : ZoneDue) : Zone :=
  match d with
  | .set ws page => z.setUp ws page
  | .enable on => { z with cfg := fsetB z.cfg F.ZONE_CFG.ENABLE on }
  | .word k w => z.putWord k w
  | .restart => z
  | .param _ => z

/-- A zone as its registers were last written, what waits for a frame included. -/
def Zone.asWritten (z : Zone) : Zone := z.due.foldl (fun y e => y.written e.2) z

/-- One change of a zone takes effect. A page alone waits for the first evaluation that begins (R233). -/
def Zone.applyDue (z : Zone) (frame time : Nat) (d : ZoneDue) : Zone :=
  match d with
  | .restart => z.restartAt frame time
  | .set ws page => { (z.setUp ws page).restartAt frame time with seen := 0 }
  | .enable on => { ({ z with cfg := fsetB z.cfg F.ZONE_CFG.ENABLE on }).restartAt frame time with seen := 0 }
  | .word k w => z.putWord k w
  | .param page => { z with param := page }

/-- The parameter page of a running zone stands in the Landing at PARAM_AT (R232). -/
def State.putPage (z : Nat) (s : State) : State :=
  let x := s.zone z
  if x.on then s.withLoft (s.loft.write (landPages + 16 * fget x.page F.ZONE_PAGE.PARAM_AT) x.param) else s

/-- A ZONE_SET that takes effect at or before a frame. -/
def setsZone (frame : Nat) (e : Nat × ZoneDue) : Bool := decide (e.1 ≤ frame) && (match e.2 with | .set _ _ => true | _ => false)

/-- What still waits once the changes due at a frame have taken effect: later ones, and pages that no ZONE_SET of then or later has replaced (R233). -/
def Zone.stillDue (z : Zone) (frame : Nat) : List (Nat × ZoneDue) :=
  (z.due.zipIdx.filter (fun e =>
    match e.1.2 with
    | .param _ => !z.due.zipIdx.any (fun d => setsZone frame d.1 && (decide (e.1.1 < d.1.1) || (d.1.1 == e.1.1 && decide (e.2 < d.2))))
    | _ => decide (frame < e.1.1))).map (·.1)

/-- The changes of a zone that are due at a frame, pages aside, take effect in order of acceptance. -/
def State.advanceZone (z frame : Nat) (s : State) : State :=
  let x := s.zone z
  let now := x.due.filter (fun e => e.1 ≤ frame && (match e.2 with | .param _ => false | _ => true))
  if now.isEmpty then s
  else
    let y := now.foldl (fun y e => y.applyDue e.1 (s.boundaryTime e.1) e.2) { x with due := x.stillDue frame }
    ((s.withLoft (s.loft.clearPage y)).setZone z y).putPage z

/-- Pages due by the first row of an evaluation. -/
def Zone.takePages (z : Zone) (frame : Nat) : Zone :=
  z.due.foldl (fun y e =>
    match e.2 with
    | .param p => if e.1 ≤ frame then { y with param := p } else { y with due := y.due ++ [e] }
    | _ => { y with due := y.due ++ [e] }) { z with due := [] }

/-- What a waiting OMP change does to a zone. -/
def Stamped.zoneDue (p : Stamped) (z : Nat) : Option ZoneDue :=
  if p.code == cZoneSet && p.item == z then some (.set (p.words.drop 1) p.bulk)
  else if p.code == cZoneParam && p.item == z then some (.param p.bulk)
  else if p.code == cZoneEnable && decide (p.item ≤ z) && decide (z ≤ (wat p.words 1).toNat % 256) then some (.enable (nbit (wat p.words 2).toNat 0))
  else none

/-- A change goes to a zone that it concerns. -/
def Zone.give (x : Zone) (frame : Nat) (d : Option ZoneDue) : Zone :=
  match d with | some e => { x with due := x.due ++ [(frame, e)] } | none => x

/-- Waiting OMP changes of zones that are due at a frame go to the zones they name. -/
def State.distribute (frame : Nat) (s : State) : State :=
  let pick (p : Stamped) : Bool := p.code == cZoneSet || p.code == cZoneParam || p.code == cZoneEnable
  s.applyDue pick frame (fun p t =>
    let b := if p.code == cZoneEnable then (wat p.words 1).toNat % 256 else p.item
    (List.range (b + 1 - p.item)).foldl (fun u i => let z := p.item + i; u.setZone z ((u.zone z).give (p.frame.getD frame) (p.zoneDue z))) t)

/-- Every zone that `pick` names restarts at a frame. -/
def State.restartZones (frame : Nat) (pick : Zone → Bool) (s : State) : State :=
  s.withLoft { s.loft with zone := s.loft.zone.map (fun z => if z.on && pick z then { z with due := z.due ++ [(frame, .restart)] } else z) }

/-! ### Staging (R200) -/

/-- Bytes that a row takes in chain-row staging. -/
def ZoneRow.size (r : ZoneRow) : Nat := if r.src = 1 then 64 + 2 * r.values.length + r.quality.length / 4 else 0

/-- A zone takes rows of this kind and leg. -/
def Zone.takes (z : Zone) (r : ZoneRow) : Bool :=
  z.on && z.source == r.src && z.leg == r.leg && (match z.from_ with | some f => decide (f ≤ r.frame) | none => false)

/-- An input of a zone in a row was withheld or dropped (R24, R200, R235). -/
def Zone.lostIn (z : Zone) (r : ZoneRow) : Bool :=
  r.lag || r.lostGroups.any (fun g => decide (z.first < 32 * g + 32) && decide (32 * g < z.first + z.count))

/-- A zone still has to look at a row. -/
def Loft.needed (l : Loft) (r : ZoneRow) : Bool := l.zone.toList.any (fun z => z.takes r && decide (z.seen ≤ r.n))

/-- A row enters the staging; rows that no zone needs and whose frame has a committed version leave it. A decimated row that finds 512 KiB full
is marked lost and raises LOFT_LAG (R200). -/
def State.stage (r : ZoneRow) (s : State) : State :=
  let l := s.loft
  let keep := l.staged.filter (fun x => l.needed x || (match l.vec.next with | some f => decide (f ≤ x.frame) | none => false))
  let used : Nat := (keep.filter l.needed).foldl (fun a x => a + x.size) 0
  let r : ZoneRow := { r with n := l.nextRow }
  let full := decide (r.src = 1) && decide (524288 < used + r.size) && l.needed r
  let r := if full then { r with lag := true, values := [], quality := [] } else r
  let s1 := s.withLoft { l with staged := keep ++ [r], nextRow := l.nextRow + 1, stat := if full then fset l.stat F.LOFT_STAT.LAG 1 else l.stat }
  if full then s1.report srcLoftLag r.leg else s1

/-- Reasons that make an evaluation settle (R235, Table 8.2). -/
def settles (reason : Nat) : Bool := nbit reason reNoHistory || nbit reason reBaseline || nbit reason reSettling

/-- The decimated row of a trace leaves ST4 and is staged (R15, R200). -/
def State.stageDecimated (leg slot trace : Nat) (s : State) : State :=
  match s.halls.loft.find? (fun r => r.leg == leg && r.slot == slot && r.trace == trace) with
  | none => s
  | some r =>
    let count := 2 ^ (leAt r.header 31 1 / 2 % 8)
    let R := respR (leAt r.header 44 2)
    let s1 := { s with halls := { s.halls with loft := s.halls.loft.erase r } }
    s1.stage
      { n := 0, src := 1, leg, slot := r.slot, trace := r.trace, stamp := r.stamp, frame := r.frame, evalTrace := r.trace, evalFrame := r.frame
        pos := r.frame * count + (s.legBank leg).place r.slot, reason := r.reason, values := r.values, quality := r.quality
        settling := settles r.reason, opens := leAt r.header 48 8 == 0, lag := false
        spacing := (5 * R * s.probe.active.tF, 2 * count), tach := r.tach }

/-- A temperature row of a leg is staged. -/
def State.stageTemperature (leg : Nat) (w : RamanWindow) (bytes : List Byte) (s : State) : State :=
  let r := (s.hall leg).raman
  let f0 := w.frame
  let values := (List.range w.len).map (fun i => leAt bytes (96 + 2 * i) 2)
  let quality := (List.range w.len).map (fun i => leAt bytes (96 + 2 * w.len + i / 4) 1 / 4 ^ (i % 4) % 4)
  let tach := ((r.marks.find? (fun m => m.1 == f0)).map (·.2.1)).getD (Vector.replicate 8 0)
  s.stage
    { n := 0, src := 2, leg, slot := (s.legBank leg).lowest, trace := w.first, stamp := w.stamp, frame := f0, evalTrace := w.last
      evalFrame := f0 + (w.last - w.first), pos := f0, reason := leAt bytes 32 4, values, quality, settling := false, opens := false, lag := false
      spacing := (0, 1), tach }

/-! ### Detectors (R236, R237) -/

/-- The quantities of an evaluation: per location in the span, whether it is valid and its values. -/
abbrev Quantities := List (Bool × List Int)

/-- Values of quantity i at valid locations, with the location. -/
def qtyAt (qs : Quantities) (first i : Nat) : List (Nat × Int) :=
  (qs.zipIdx.filter (fun e => e.1.1)).map (fun e => (first + e.2, (e.1.2[i]?).getD 0))

/-- μ: the floor of the mean. -/
def meanFloor (vs : List (Nat × Int)) : Int := if vs.isEmpty then 0 else (vs.foldl (fun a v => a + v.2) 0) / (vs.length : Int)

/-- The largest value with the lowest location that has it, and the smallest. -/
def maxOf (vs : List (Nat × Int)) : Nat × Int := vs.tail.foldl (fun b v => if b.2 < v.2 then v else b) ((vs.head?).getD (0, 0))
def minOf (vs : List (Nat × Int)) : Nat × Int := vs.tail.foldl (fun b v => if v.2 < b.2 then v else b) ((vs.head?).getD (0, 0))

/-- The raw bit of a detector (R236). `levels`: quantities are levels, compared as unsigned values; an OUTLIER difference is signed. -/
def rawBit (levels : Bool) (p : List Byte) (first d : Nat) (qs : Quantities) : Bool :=
  let vs := qtyAt qs first (pgQty p d)
  let mu := meanFloor vs
  let limit := if levels && pgMode p d != 2 then ((leAt p (52 + 16 * d) 2 : Nat) : Int) else pgLimit p d
  let meets (v : Int) : Bool :=
    match pgMode p d with
    | 0 => decide (limit ≤ v)
    | 1 => decide (v ≤ limit)
    | _ => decide (limit ≤ v - mu)
  decide (pgMinLoc p d ≤ (vs.filter (fun v => meets v.2)).length)

/-- A detector takes the raw bit of a valid evaluation (R237). Answers 1 for a set edge, 2 for a clear edge. -/
def Detector.take (d : Detector) (det raw : Bool) : Detector × Bool × Nat :=
  let hist := (raw :: d.raw).take (max 1 (fget d.cfg F.DET_CFG.WIN))
  let c := (hist.filter id).length
  let (det1, edge) :=
    if !det && fget d.cfg F.DET_CFG.K_SET ≤ c then (true, 1)
    else if det && c ≤ fget d.cfg F.DET_CFG.K_CLEAR then (false, 2) else (det, 0)
  let st := fset d.stat F.DET_STAT.COUNT c
  ({ d with raw := hist, stat := if raw && !det1 then finc st F.DET_STAT.TRANSIENT else st }, det1, edge)

/-! ### Histogram and persistence map (R245) -/

/-- Bin of a value. -/
def binOf (p : List Byte) (q : Int) : Nat := (max 0 (min 63 ((q - pgHistBase p) / ((2 ^ pgHistShift p : Nat) : Int)))).toNat

/-- Bins after decay. -/
def decayed (sh : Nat) (bins : List Nat) : List Nat := if sh = 0 then bins else bins.map (fun c => c - c / 2 ^ sh)

/-- Bins with 1 added for each value, held at a bound. -/
def addBins (bound : Nat) (bins : List Nat) (at_ : List Nat) : List Nat := at_.foldl (fun b i => b.modify i (fun c => min bound (c + 1))) bins

def ZoneRun.countBins (r : ZoneRun) (p : List Byte) (n : Nat) (qs : Quantities) : ZoneRun :=
  let h0 := if r.histogram.isEmpty then List.replicate 64 0 else r.histogram
  let m0 := if r.persistence.isEmpty then List.replicate 512 0 else r.persistence
  let bins (i : Nat) : List Nat := (qtyAt qs 0 i).map (fun v => binOf p v.2)
  { r with
    histogram := if pgHistOn p then addBins (2 ^ 32 - 1) (decayed (pgDecay p) h0) (bins (pgHistQty p)) else r.histogram
    persistence := if pgMapOn p then (List.range n).foldl (fun m i => addBins 65535 m ((bins i).map (fun b => 64 * i + b))) (decayed (pgDecay p) m0)
      else r.persistence }

/-! ### Results of an evaluation (R235, R237, R248) -/

/-- What the program of a zone answers for an evaluation. -/
structure ZoneAnswer where
  valid : Bool
  /-- TACH_LOW, and INPUT_INVALID. -/
  tachLow : Bool := false
  inputInvalid : Bool := false
  validLocs : Nat
  raw : Nat
  qs : Quantities := []
  /-- Quantities of the program. -/
  n : Nat := 0
  body : List Byte := []

/-- Bytes of the record's quantities (Table 13.5). -/
def quantityBytes (a : ZoneAnswer) (first : Nat) : List Byte :=
  (List.range 8).flatMap (fun i =>
    let vs := qtyAt a.qs first i
    if a.n ≤ i || vs.isEmpty then zeros 16
    else
      let mx := maxOf vs
      let mn := minOf vs
      leBytes 2 (wrapTo 16 mx.2) ++ leBytes 2 (wrapTo 16 mn.2) ++ leBytes 2 (wrapTo 16 (meanFloor vs)) ++ zeros 2 ++ leBytes 4 mx.1 ++ leBytes 4 mn.1)

/-- Bytes appended to a store in a DRAM region, with what a reader needs (R212, R248). -/
def State.appendStore (region : Nat) (store : RowStore) (row : StoreRow) (bs : List Byte) (s : State) : State × RowStore :=
  let c := s.cellar
  let size := max 1 (c.regionSize region)
  let a := c.regionBase region + store.pos % size
  let room := c.regionBase region + size - a
  let c1 := (c.store a (bs.take room)).store (c.regionBase region) (bs.drop room)
  let pos := store.pos + bs.length
  (s.withCellar c1, { pos, rows := store.rows ++ [{ row with p := store.pos, len := bs.length }] })

/-- An evaluation of zone z is complete with its last row `r` (R235 to R238, R245, R248). Its record is written as it applies: a restart before then drops both
(R240; DEDUCED, log entry 72). -/
def State.evaluate (z : Nat) (r : ZoneRow) (a : ZoneAnswer) (s : State) : State :=
  let x := s.zone z
  let p := x.param
  let run := x.run
  let valid := a.valid && !run.settling && !run.lag && !run.trapped
  let inputInvalid := a.inputInvalid
  let det := fget x.stat F.ZONE_STAT.DET
  let raw := if valid then a.raw % 2 ^ x.nDet else 0
  let steps := (List.range x.nDet).map (fun d => (d, (vget x.det d {}).take (nbit det d) (nbit raw d)))
  let steps := if valid then steps else []
  let dets := steps.foldl (fun v e => vset v e.1 e.2.1) x.det
  let det1 := if valid then (steps.filter (fun e => e.2.2.1)).foldl (fun m e => m + 2 ^ e.1) 0 else det
  let setE := (steps.filter (fun e => e.2.2.2 == 1)).foldl (fun m e => m + 2 ^ e.1) 0
  let clrE := (steps.filter (fun e => e.2.2.2 == 2)).foldl (fun m e => m + 2 ^ e.1) 0
  let library := isLibrary x.program
  let edges : List AlarmEdge := (steps.filter (fun e => e.2.2.2 != 0 && fbit (vget x.det e.1 {}).cfg F.DET_CFG.ALARM)).map (fun e =>
    let vs := qtyAt a.qs x.first (pgQty p e.1)
    let m := if pgMode p e.1 = 1 then minOf vs else maxOf vs
    { det := e.1, set := e.2.2.2 == 1, count := fget e.2.1.stat F.DET_STAT.COUNT, mode := if library then pgMode p e.1 else 0
      value := if library then wrapTo 16 m.2 else 0, mean := if library then wrapTo 16 (meanFloor vs) else 0
      location := if library then m.1 else x.first })
  let run1 := if valid && library then run.countBins p a.n a.qs else run
  let index := run.evals
  let applyFrame := r.evalFrame + x.delay
  let applyTime := s.boundaryTime applyFrame
  let pub := x.publish != 0 && (index + 1) % x.publish == 0
  let hist := if library && pub && pgHistOn p && x.program != imgZmeas then (if run1.histogram.isEmpty then List.replicate 64 0 else run1.histogram) else []
  let pers := if library && pub && pgMapOn p && x.program != imgZmeas then (if run1.persistence.isEmpty then List.replicate 512 0 else run1.persistence) else []
  let reason := inputInvalid.toNat + 2 * run.settling.toNat + 4 * a.tachLow.toNat + 8 * run.lag.toNat + 16 * run.trapped.toNat + 32 * (index == 0).toNat
  let flags := valid.toNat + 2 * (!hist.isEmpty).toNat + 4 * (!pers.isEmpty).toNat + 8 * (!a.body.isEmpty).toNat
  let record :=
    leBytes 8 r.evalTrace ++ leBytes 8 applyTime ++ leBytes 4 index ++ leBytes 2 z ++ leBytes 1 x.leg ++ leBytes 1 r.slot ++ leBytes 1 raw ++
      leBytes 1 det1 ++ leBytes 1 setE ++ leBytes 1 clrE ++ leBytes 2 a.validLocs ++ leBytes 1 flags ++ zeros 1 ++ leBytes 4 reason ++
      leBytes 4 a.body.length ++ zeros 24 ++ quantityBytes a x.first ++ hist.flatMap (leBytes 4) ++ pers.flatMap (leBytes 2) ++ a.body
  let x1 := { x with
    det := dets
    stat := fset (fsetB (fset (fset x.stat F.ZONE_STAT.RAW raw) F.ZONE_STAT.DET det1) F.ZONE_STAT.VALID valid) F.ZONE_STAT.EVALS (index + 1)
    run := { run1 with evals := index + 1, rows := 0, settling := false, lag := false, trapped := false, gathered := [] }
    waiting := x.waiting ++ [{ frame := r.evalFrame, applyFrame, applyTime, trace := r.evalTrace, index, det := det1, edges, leg := x.leg, rowFrame := r.frame, record }] }
  let s2 := s.setZone z x1
  if applyTime < s.now then
    s2.withLoft { s2.loft with vec := { s2.loft.vec with stat := finc s2.loft.vec.stat F.VEC_STAT.WAITS } }
  else s2

end Sys2Proof.Machine
end

