-- ==== Sys2Proof/Machine/ThresholdCore.lean ====
section
/-! DEFINITION. Threshold: gain codes by sample index, calibration gaps and when they may start (chapters 5 and 6). -/

namespace Sys2Proof.Machine

/-- A leg's Threshold registers, and those replaced. -/
def State.thrLeg (s : State) (leg : Nat) : ThrLeg := vget s.thr.leg leg {}
def State.setThrLeg (leg : Nat) (t : ThrLeg) (s : State) : State := { s with thr := { s.thr with leg := vset s.thr.leg leg t } }
def State.trim (s : State) : Trim := s.thr.trim
def State.setTrim (t : Trim) (s : State) : State := { s with thr := { s.thr with trim := t } }

/-! ### Gain (R86 to R90) -/

def ThrLeg.coh (t : ThrLeg) : Nat := fget t.stat F.GAIN_STAT.COH_G
def ThrLeg.st (t : ThrLeg) : Nat := fget t.stat F.GAIN_STAT.ST_G
def ThrLeg.as_ (t : ThrLeg) : Nat := fget t.stat F.GAIN_STAT.AS_G
/-- GAIN_STAT as it reads. -/
def ThrLeg.statWord (t : ThrLeg) : Word := fsetB t.stat F.GAIN_STAT.PENDING (t.pending.isSome || t.direct.isSome)

/-- Codes carried by the word of sample index n: the latest change at or before it. -/
def ThrLeg.codesAt (t : ThrLeg) (n : Nat) : Nat × Nat × Nat :=
  match t.steps.find? (fun e => e.1 ≤ n) with
  | some e => e.2
  | none => match t.steps.getLast? with | some e => e.2 | none => (t.coh, t.st, t.as_)

/-- A code of the pick changed at an index from which `span` indices reach n: the gain-step marker (R86). -/
def stepMarked (pick : Nat × Nat × Nat → Nat) (span n : Nat) : List (Nat × Nat × Nat × Nat) → Bool
  | a :: b :: rest => (a.1 ≤ n && n < a.1 + span && pick a.2 != pick b.2) || stepMarked pick span n (b :: rest)
  | _ => false

/-- The code of a lane group in replay, at an index or as last recorded; `d` before the first record (R98). -/
def Replay.gain (r : Replay) (sel d : Nat) (at_ : Option Nat) : Nat :=
  match r.gains.find? (fun g => g.2.1 == sel && (match at_ with | some n => decide (g.1 ≤ n) | none => true)) with
  | some g => g.2.2
  | none => d
/-- The gain-step marker of replay: `span` indices from each GAIN record of a lane group (R98). -/
def Replay.marked (r : Replay) (sel span n : Nat) : Bool := r.gains.any (fun g => g.2.1 == sel && g.1 ≤ n && n < g.1 + span)

/-- The gain codes in force on a leg: in replay those of the stream (R90). -/
def State.codesNow (s : State) (leg : Nat) : Nat × Nat × Nat :=
  let t := s.thrLeg leg
  let r := (s.hall leg).replay
  if r.on then (r.gain 0 t.coh none, r.gain 1 t.st none, r.gain 2 t.as_ none) else (t.coh, t.st, t.as_)

/-- The gain-step marker of coherent words (8 samples) and of direct words (8 samples of 4 cycles). -/
def ThrLeg.cohMarked (t : ThrLeg) (n : Nat) : Bool := stepMarked (·.1) 8 n t.steps
def ThrLeg.dirMarked (t : ThrLeg) (n : Nat) : Bool := stepMarked (·.2.1) 32 n t.steps || stepMarked (·.2.2) 32 n t.steps

/-- The codes from sample index n on. -/
def ThrLeg.setCodes (t : ThrLeg) (n coh st as_ : Nat) : ThrLeg :=
  let base := if t.steps.isEmpty then [(0, t.coh, t.st, t.as_)] else t.steps
  { t with
    stat := fset (fset (fset t.stat F.GAIN_STAT.COH_G coh) F.GAIN_STAT.ST_G st) F.GAIN_STAT.AS_G as_
    steps := ((n, coh, st, as_) :: base).take 8 }

/-- A new evaluation window begins at sample index n (R88). -/
def ThrLeg.newWindow (t : ThrLeg) (n : Nat) : ThrLeg := { t with winStart := n, peak := 0, ovr := false }

/-- A coherent word enters the evaluation window; marked words are left out (R88, DEDUCED, log entry 17). -/
def ThrLeg.observe (t : ThrLeg) (n : Nat) (w : CohWord) : ThrLeg :=
  if w.gap || w.step || n < t.winStart then t
  else { t with peak := max t.peak (max (max w.xi.natAbs w.xq.natAbs) (max w.yi.natAbs w.yq.natAbs)), ovr := t.ovr || w.ovr }

/-! ### Calibration gaps (R59, R103 to R107) -/

/-- Converter samples of a gap. -/
def gapSamples : Nat := 480000

/-- Sample index n carries the gap marker of a live gap (R103). -/
def State.gapMarked (s : State) (n : Nat) : Bool :=
  let inG (f : Nat) : Bool := f ≤ n && n < f + gapSamples
  (match s.trim.gap with | some g => inG g.first | none => false) || (match s.trim.lastGap with | some f => inG f | none => false)

/-- TRIM_DEFER.SECONDS as taken: at most 600. -/
def Trim.seconds (t : Trim) : Nat := min 600 (fget t.defer F.TRIM_DEFER.SECONDS)

/-- Full calibration or self-calibration runs (R107). -/
def State.calibrating (s : State) : Bool := s.thr.calUp.isSome || (match s.fw.long with | some op => op.code == 0x058 | none => false)

/-- A deferral holds a retrim that is due (R105 rule 2). -/
def State.deferred (s : State) (t : Nat) : Bool :=
  match s.trim.due with | some d => decide (0 < s.trim.seconds) && decide (t < d + 600 * sec) | none => false

/-- The 60 s hold-off runs at a device time (R105 rule 1). -/
def State.holdoffRuns (s : State) (t : Nat) : Bool :=
  match s.trim.gapEndUp with | some u => decide (t < u + s.time.epoch + 60 * sec) | none => false

/-- The first frame boundary at or after a device time at which a gap may start: inside a quiet interval the effective boundary that ends it (R59, R61);
none where the probe stops first. -/
def State.gapBoundary (s : State) (t : Nat) : Option Nat :=
  let f := s.frameAhead t
  if s.probe.running && s.frameRuns f then some (s.boundaryAhead f) else none

/-- A due retrim may start its gap at the frame boundary at device time t (R105). -/
def State.gapMayStart (s : State) (t : Nat) : Bool :=
  (match s.trim.due with | some d => decide (d ≤ t) | none => false) && s.trim.gap.isNone && !s.holdoffRuns t && !s.deferred t &&
    s.probe.running && !s.calibrating

/-- Device time from which the due retrim may start its gap: its due time, the end of the hold-off, the end of a deferral that counts down (R105). -/
def State.gapFrom (s : State) : Option Nat :=
  s.trim.due.map (fun d =>
    let hold := match s.trim.gapEndUp with | some u => u + s.time.epoch + 60 * sec | none => 0
    let deferral := if 0 < s.trim.seconds then min (d + 600 * sec) (s.now + s.trim.seconds * sec) else 0
    max (max d s.now) (max hold deferral))

/-- First sample index of the gap in progress, or of the one that the due retrim is to start, as things stand. -/
def State.gapAhead (s : State) : Option Nat :=
  match s.trim.gap with
  | some g => some g.first
  | none => if s.calibrating then none else (s.gapFrom.bind s.gapBoundary).map s.indexOfTime

/-- Playout index of the first launch of the lowest active slot at or after a sample index, a pending plan's included (R87, R89). -/
def State.lowestAhead (s : State) (n : Nat) : Nat := s.indexOfTime (s.boundaryAhead (s.frameAhead (s.timeOfIndex n)))

/-- n_G as used: moved past a gap that covers it (R89 rule 2). -/
def State.gainIndex (s : State) (n : Nat) : Nat :=
  match s.gapAhead with
  | some g => if g ≤ n && n < g + gapSamples then s.lowestAhead (g + gapSamples) else n
  | none => n

/-- Firmware sets a leg's coherent gain for a survey window, from the first launch at or after sample index n (R37). -/
def State.surveyGain (leg g n : Nat) (s : State) : State :=
  if !s.legOn leg then s
  else s.setThrLeg leg { s.thrLeg leg with pending := some { index := s.lowestAhead n, coh := some g } }

/-- Windows of 1,024 points, and traces averaged in each (R37). -/
def surveyWindows : Nat := 80
def surveyTraces : Nat := 2048

/-- TRIM_STAT as it reads. -/
def State.trimStatWord (s : State) : Word :=
  let t := s.trim
  let day := (t.starts.filter (fun u => s.time.up < u + 86400 * sec)).length
  fset (fsetB (fsetB (fsetB (fsetB t.stat F.TRIM_STAT.DUE t.due.isSome) F.TRIM_STAT.HOLDOFF (s.holdoffRuns s.now))
    F.TRIM_STAT.DEFERRED (s.deferred s.now)) F.TRIM_STAT.RUNNING t.gap.isSome) F.TRIM_STAT.DAY_COUNT (min 255 day)

/-- TRIM_CTRL as it reads. -/
def Trim.ctrlWord (t : Trim) : Word := fsetB 0 F.TRIM_CTRL.REQ t.req

/-- A retrim falls due at a device time (R104, R105: several causes merge). -/
def State.retrimDue (t : Nat) (s : State) : State :=
  if s.trim.due.isSome then s else s.setTrim { s.trim with due := some t }

/-- The die sensor that a housekeeping entry reads. -/
def dieSensor (ent : Word) : Option Nat := let sel := fget ent F.HK_ENT.SEL; if 16 ≤ sel ∧ sel ≤ 19 then some (sel - 16) else none

/-- The latest code of die sensor k: of the lowest entry that reads it. -/
def Housekeeping.dieCode (h : Housekeeping) (k : Nat) : Nat :=
  match (List.range 24).find? (fun m => dieSensor (vget h.ent m 0) == some k) with
  | some m => fget (vget h.res m 0) F.HK_RES.RESULT
  | none => 0

/-- The four die-sensor codes as TRIM_REF words. -/
def Housekeeping.dieCodes (h : Housekeeping) : Vector Word 4 := #v[w32 (h.dieCode 0), w32 (h.dieCode 1), w32 (h.dieCode 2), w32 (h.dieCode 3)]

/-- The sweep covers SEL 16 to 19 (R104). -/
def Housekeeping.coversDie (h : Housekeeping) : Bool :=
  (List.range 4).all (fun k => (List.range (fget h.cfg F.HK_CFG.COUNT + 1)).any (fun m => dieSensor (vget h.ent m 0) == some k))

/-- A die-sensor code differs from its reference by TH or more (R104). -/
def Trim.crossed (t : Trim) (k code : Nat) : Bool :=
  let r := fget (vget t.ref k 0) F.TRIM_REF.CODE
  fget t.cfg F.TRIM_CFG.TH ≤ max code r - min code r

end Sys2Proof.Machine
end

