-- ==== Sys2Proof/Machine/RamanCore.lean ====
section
/-! DEFINITION. The Raman accumulators and the decoding of a window (chapter 9, R149 to R167). -/

namespace Sys2Proof.Machine

/-- A leg's Raman channel, and the channel replaced. -/
def State.raman (s : State) (leg : Nat) : Raman := (s.hall leg).raman
def State.setRaman (leg : Nat) (r : Raman) (s : State) : State := s.setHall leg { s.hall leg with raman := r }

/-! ### Where a direct word falls (R58, R149) -/

/-- Index of the first Raman point of frame f before it is moved to a direct word: the burst's playout index + 68 + 4 × RAMAN_DELAY. -/
def RamanRun.start (r : RamanRun) (f : Nat) : Nat := r.index.getD 0 + (f - r.frame) * r.tF + 4 * r.offset + 68 + 4 * r.delay

/-- Index of Raman point 0 of frame f: the first multiple of 4 at or after it. -/
def RamanRun.point0 (r : RamanRun) (f : Nat) : Nat := cdiv (r.start f) 4 * 4

/-- The frame whose Raman trace the direct word of index n belongs to: the last whose point 0 is at or before it. -/
def RamanRun.frameOf (r : RamanRun) (n : Nat) : Option Nat :=
  if r.index.isNone || n < r.point0 r.frame then none else some (r.frame + (n - r.start r.frame) / max 1 r.tF)

/-- The Raman point of a direct word of frame f: a trace point, a dark point 131,008 to 131,071, or none. -/
def RamanRun.point (r : RamanRun) (f n : Nat) : Option Nat :=
  let q := (n - r.point0 f) / 4
  let dark := r.point0 (f + 1) - 256
  if q < r.len + 16 * 2 ^ r.ramanLen then some q else if dark ≤ n then some (131008 + (n - dark) / 4) else none

/-- Frame, over all plans, of the start trace, and the start trace. -/
def Raman.startFrame (r : Raman) : Nat := r.run.frame
def Raman.startTrace (r : Raman) : Nat := r.run.trace

/-- The frame of the channel's present run that a direct word belongs to: none before its first point, from a later start on, or in frames that the probe
does not launch (R162, R164 rule 4). -/
def State.ramanFrameOf (s : State) (leg n : Nat) : Option Nat :=
  let r := s.raman leg
  let held (f : Nat) : Bool := match s.probe.pending with | some p => (match p.atFrame with | some e => decide (s.globalFrame e ≤ f) | none => false) | none => false
  match r.run.frameOf n with
  | none => none
  | some f => if held f || (match r.starting with | some x => decide (x.frame ≤ f) | none => false) then none else some f

/-- F_S and K of RAMAN_SPAN and RAMAN_CFG. -/
def Raman.spanFrames (r : Raman) : Nat := max 4 (fget r.span F.RAMAN_SPAN.SPAN_FRAMES)
def Raman.spans (r : Raman) : Nat := max 1 (fget r.cfg F.RAMAN_CFG.SPANS)

/-- K and F_S for a window of `w` seconds at a frame period in 0.25 ns units (R153). -/
def windowSpans (w tUnits : Nat) : Nat × Nat :=
  let k := max 1 (cdiv (w * sec) (1048576 * tUnits))
  (k, 4 * (divHalfAway ((w * sec : Nat) : Int) (4 * k * tUnits)).toNat)

/-- The channel starts (R162): accumulators cleared, code phase A, window in progress abandoned. A finished window that waits for the cell keeps the
calibration of its own run. -/
def Raman.restart (r : Raman) (x : RamanRun) : Raman :=
  { r with
    acc := Vector.replicate 4 [], prev := Vector.replicate 4 [], window := {}, excl := [], exclFull := false, exclSpan := 0
    exclPrev := [], exclPrevFull := false, snapNext := 0, run := x, start := w32 x.trace, done := false
    ready := r.ready.map (fun w => { w with own := some (w.own.getD (r.held, r.misses)) }), misses := 0, held := none
    stat := fset (fset r.stat F.RAMAN_STAT.RUNNING 1) F.RAMAN_STAT.EXCL_ENTRIES 0 }

/-- Parameters that apply to a window by its last frame (R163). -/
def Raman.parAt (r : Raman) (last : Nat) : TempParams := (((r.oldPars.filter (fun e => last < e.1)).getLast?).map (·.2)).getD r.par

/-- The latest temperature of a point: value, quality, reason (R165): none of the present run reads as NO_WINDOW. -/
def Raman.latest (r : Raman) (p : Nat) : Nat × Nat × Nat :=
  match r.rows with
  | (_, _, bs) :: _ =>
    if r.starting.isSome || !r.done then (0x8000, 3, bit 0)
    else
      let len := leAt bs 24 4 % 2 ^ 17
      (leAt bs (96 + 2 * p) 2, leAt bs (96 + 2 * len + p / 4) 1 / 4 ^ (p % 4) % 4, leAt bs 32 4)
  | [] => (0x8000, 3, bit 0)

/-! ### Accumulation (R151, R152, R155) -/

/-- The list's length goes into RAMAN_STAT.EXCL_ENTRIES. -/
def Raman.countExcl (r : Raman) : Raman := { r with stat := fset r.stat F.RAMAN_STAT.EXCL_ENTRIES r.excl.length }

/-- An excluded point enters the list (R155): it extends the last entry or opens one. The list is full with its 4,096th entry: EXCL_FULL is set, and the answer
says so. -/
def Raman.exclude (r : Raman) (frame point cause : Nat) : Raman × Bool :=
  let opened (r : Raman) : Raman × Bool :=
    if 4096 ≤ r.excl.length then (r, false)
    else
      let full := r.excl.length == 4095
      (Raman.countExcl { r with
        excl := r.excl ++ [⟨frame, point, point, cause⟩], exclFull := full
        stat := if full then fset r.stat F.RAMAN_STAT.EXCL_FULL 1 else r.stat }, full)
  match r.excl.getLast? with
  | some e =>
    if e.frame == frame && e.last + 1 == point then
      ({ r with excl := r.excl.dropLast ++ [{ e with last := point, cause := e.cause ||| cause }] }, false)
    else opened r
  | none => opened r

/-- A direct word of span frame f at a point: added to both lanes' accumulators of the frame's phase, or excluded. Answers whether the list just filled. -/
def Raman.take (r : Raman) (f point : Nat) (st as_ : Int) (cause : Nat) : Raman × Bool :=
  let span := f / r.spanFrames
  let r := if span = r.exclSpan then r
    else Raman.countExcl { r with exclPrev := r.excl, exclPrevFull := r.exclFull, excl := [], exclFull := false, exclSpan := span }
  if cause != 0 then r.exclude (f % r.spanFrames) point cause
  else
    let a := vget r.acc (f % 4) []
    let add (m : Sparse Nat) (key : Nat) (c : Int) : Sparse Nat := Mem.write 0 m key ((Mem.read 0 m key + (c + 8192).toNat) % 2 ^ 32)
    ({ r with acc := vset r.acc (f % 4) (add (add a point st) (131072 + point) as_) }, false)

/-! ### Decoding (R156, R157) -/

/-- Sums of one lane of a window as an array over points. -/
def laneSums (m : Sparse Nat) (lane n : Nat) : Array Nat := (Mem.slice 0 m (131072 * lane) n).toArray

/-- Exclusion entries of a phase. -/
def RamanWindow.phaseExcl (w : RamanWindow) (phase : Nat) : List Exclusion := (w.exclusions.map (·.2)).filter (fun e => e.frame % 4 == phase)

/-- n_φ(p) (R156). -/
def RamanWindow.count (w : RamanWindow) (phase p : Nat) : Nat :=
  w.frames - ((w.phaseExcl phase).filter (fun e => e.first ≤ p && p ≤ e.last)).length

/-- n_dk,φ: dark samples of a phase that were not excluded. -/
def RamanWindow.darkCount (w : RamanWindow) (phase : Nat) : Nat :=
  64 * w.frames - ((w.phaseExcl phase).foldl (fun a e => if 131008 ≤ e.first then a + (e.last + 1 - e.first) else a) 0)

/-- floor(a × 2^16 / n), with a free value where n is 0 (DESIGN CHOICE, log entry 20). -/
def meanQ16 (a n free : Nat) : Int := if n = 0 then (free : Int) else ((a * 2 ^ 16 / n : Nat) : Int)

/-- d of one code of one lane (R156): phases `u` and `u + 1`, for `n` points. -/
def RamanWindow.diffs (w : RamanWindow) (lane u n free : Nat) : Array Int :=
  let su := laneSums (vget w.sums u []) lane n
  let sv := laneSums (vget w.sums (u + 1) []) lane n
  let dark (ph : Nat) : Int :=
    meanQ16 ((Mem.slice 0 (vget w.sums ph []) (131072 * lane + 131008) 64).foldl (· + ·) 0) (w.darkCount ph) free
  let ku := dark u
  let kv := dark (u + 1)
  ((List.range n).map (fun p =>
    (meanQ16 ((su[p]?).getD 0) (w.count u p) 0 - ku) - (meanQ16 ((sv[p]?).getD 0) (w.count (u + 1) p) 0 - kv))).toArray

/-- H(p) of a lane for every point (R156). -/
def RamanWindow.decode (w : RamanWindow) (lane free : Nat) : Array Int :=
  let n := 16 * 2 ^ w.ramanLen
  let da := w.diffs lane 0 (w.len + n) free
  let db := w.diffs lane 2 (w.len + n) free
  let al := golayCode n false
  let be := golayCode n true
  let sg (b : Bool) (x : Int) : Int := if b then x else -x
  ((List.range w.len).map (fun p =>
    ((al.zip be).zipIdx).foldl (fun acc t => acc + sg t.1.1 ((da[p + t.2]?).getD 0) + sg t.1.2 ((db[p + t.2]?).getD 0)) 0)).toArray

/-- The smallest n_φ(p + k) over φ and k (R156). -/
def RamanWindow.least (w : RamanWindow) (p : Nat) : Nat :=
  let n := 16 * 2 ^ w.ramanLen
  (List.range 4).foldl (fun a ph =>
    (w.phaseExcl ph).foldl (fun b e =>
      if e.first ≤ p + n - 1 && p ≤ e.last then min b (w.count ph (max e.first p)) else b) a) w.frames

/-- Division rounded half away from zero by a divisor of either sign. -/
def rhaDiv (p q : Int) : Int := if 0 ≤ q then divHalfAway p q.toNat else divHalfAway (-p) (-q).toNat

/-- Λ(p) in Q.40 (R157), for a point with both returns positive. -/
def lambdaOf (w : RamanWindow) (hs ha : Int) : Int := lnq ha.toNat - lnq hs.toNat + ((w.stG : Int) - (w.asG : Int)) * lnq 2

/-! ### Reference sections (R158, R159) -/

/-- A section as a window finds it: T_k16, whether it is valid, Λ_k, m2_k. -/
structure SectionState where
  temp : Option Int
  valid : Bool
  lam : Int
  m2 : Int

/-- T_k16 of a section from its results in the window (R158). -/
def sectionTemp (r : RefSection) (codes : List Nat) : Option Int :=
  if codes.isEmpty then none
  else
    let code16 := (divHalfAway ((16 * codes.foldl (· + ·) 0 : Nat) : Int) codes.length).toNat
    let i := min 15 (code16 / 4096)
    let tk (j : Nat) : Int := (((r.tk[j]?).getD 0 : Nat) : Int)
    some (tk i + divHalfAway ((tk (i + 1) - tk i) * ((code16 : Int) - 4096 * (i : Int))) 4096)

/-- A section in a window (R159): `lams` holds the valid Λ(p). -/
def sectionState (r : RefSection) (w : RamanWindow) (lams : Array (Option Int)) : SectionState :=
  let res := w.hk.filter (fun h => h.entry == r.entry)
  let temp := sectionTemp r (res.map (fun h => h.res % 4096))
  let pts := (List.range (r.last + 1 - r.first)).filterMap (fun i => (lams[r.first + i]?).getD none)
  let valid := !res.isEmpty && !(res.any (fun h => nbit h.res 12)) && decide ((r.last + 1 - r.first) ≤ 2 * pts.length)
  { temp, valid, lam := if pts.isEmpty then 0 else divHalfAway pts.sum pts.length, m2 := ((r.first + r.last : Nat) : Int) }

/-- G_k (R160). -/
def gTerm (gamma : Nat) (t : Int) : Int := rhaDiv ((gamma : Int) * 2 ^ 40) t

/-- Table 9.1: LNC, DALPHA, GAMMA when the mode's needs are met, and the section found wanting when not. -/
def calibrate (p : TempParams) (r1 r2 : SectionState) : Except Nat (Int × Int × Nat) :=
  let t1 := r1.temp.getD 1
  let t2 := r2.temp.getD 1
  let g := p.gamma
  if p.calMode = 3 then .ok (p.lnc, p.dalpha, g)
  else if !r1.valid then .error 1
  else if p.calMode = 2 then .ok (r1.lam + divHalfAway (p.dalpha * r1.m2) 2 + gTerm g t1, p.dalpha, g)
  else if !r2.valid then .error 2
  else if p.calMode = 0 then
    if (r2.m2 - r1.m2).natAbs < 2000 then .error 2
    else
      let u1 := r1.lam + gTerm g t1
      let u2 := r2.lam + gTerm g t2
      let da := rhaDiv (2 * (u1 - u2)) (r2.m2 - r1.m2)
      .ok (u1 + divHalfAway (da * r1.m2) 2, da, g)
  else
    let v1 := r1.lam + divHalfAway (p.dalpha * r1.m2) 2
    let v2 := r2.lam + divHalfAway (p.dalpha * r2.m2) 2
    if (t1 - t2).natAbs < 655360 then .error 2
    else
      let ga := rhaDiv ((v1 - v2) * t1 * t2) (2 ^ 40 * (t1 - t2))
      if 26214400 ≤ ga ∧ ga ≤ 58982400 then .ok (v1 + rhaDiv (ga * 2 ^ 40) t1, p.dalpha, ga.toNat) else .error 2

/-! ### The temperature row (R157, R161, R166, R167) -/

/-- A point's value and reason bits (Tables 9.3 and 9.4), with the calibration in use. -/
def tempPoint (w : RamanWindow) (lnc dalpha : Int) (gamma : Nat) (all : Nat) (least : Nat) (hs ha : Int) (lam : Option Int) (p : Nat) :
    Int × Nat :=
  let thin := if 10 * least < 9 * w.frames then bit 1 else 0
  if least = 0 then (0, all ||| thin ||| bit 2)
  else if hs ≤ 0 || ha ≤ 0 then (0, all ||| thin ||| bit 3)
  else
    let q := lnc - dalpha * (p : Int) - lam.getD 0
    if q ≤ 0 then (0, all ||| thin ||| bit 4)
    else
      let t := rhaDiv (100 * (gamma : Int) * 2 ^ 24) q - 27315
      if 32767 < t then (0, all ||| thin ||| bit 4) else (t, all ||| thin)

/-- The quality of a point's reasons (Table 9.4). -/
def tempQuality (m : Nat) : Nat :=
  if nbit m 2 || nbit m 3 || nbit m 4 || nbit m 6 || nbit m 9 || nbit m 10 then 3 else if nbit m 1 || nbit m 5 then 1 else 0

/-- T_REFk of the header. -/
def tRefWord (t : Option Int) : Nat :=
  match t with | none => 0x8000 | some v => wrapTo 16 (divHalfAway (100 * v) 65536 - 27315)

/-- What a window is decoded to: the row's bytes, the calibration held from now on, the section that failed. -/
structure TempResult where
  bytes : List Byte
  held : Option (Int × Int × Nat)
  misses : Nat
  failed : Option Nat

/-- A window decoded (R156 to R167). `late`: the cell missed its term (R164). -/
def RamanWindow.result (w : RamanWindow) (leg : Nat) (held : Option (Int × Int × Nat)) (misses : Nat) (late : Bool) (free : Nat) :
    TempResult :=
  let h0 := w.decode 0 free
  let h1 := w.decode 1 free
  let leasts := ((List.range w.len).map w.least).toArray
  let lams : Array (Option Int) := ((List.range w.len).map (fun p =>
    let a := (h0[p]?).getD 0
    let b := (h1[p]?).getD 0
    if (leasts[p]?).getD 0 = 0 || a ≤ 0 || b ≤ 0 then none else some (lambdaOf w a b))).toArray
  let sec (r : Option RefSection) : SectionState :=
    match r with | some x => sectionState x w lams | none => { temp := none, valid := false, lam := 0, m2 := 0 }
  let r1 := sec w.par.ref1
  let r2 := sec w.par.ref2
  let (use, held1, misses1, failed, refBits) : Option (Int × Int × Nat) × Option (Int × Int × Nat) × Nat × Option Nat × Nat :=
    match calibrate w.par r1 r2 with
    | .ok c => (some c, some c, 0, none, 0)
    | .error k =>
      match held with
      | some c => if misses < w.par.holdMax then (some c, held, misses + 1, some k, bit 5) else (none, held, misses + 1, some k, bit 6)
      | none => (none, held, misses + 1, some k, bit 6)
  let all := refBits ||| (if w.overflow then bit 9 else 0) ||| (if late then bit 10 else 0)
  let (lnc, dalpha, gamma) := use.getD (w.par.lnc, w.par.dalpha, w.par.gamma)
  let pts := (List.range w.len).map (fun p =>
    tempPoint w lnc dalpha gamma all ((leasts[p]?).getD 0) ((h0[p]?).getD 0) ((h1[p]?).getD 0) ((lams[p]?).getD none) p)
  let quality := pts.map (fun t => tempQuality t.2)
  let values := (pts.zip quality).map (fun (t, q) => if q = 3 then 0x8000 else wrapTo 16 t.1)
  let cause := w.exclusions.foldl (fun a e => a ||| e.2.cause) 0
  let reason := pts.foldl (fun a t => a ||| t.2) ((if nbit cause 0 then bit 7 else 0) ||| (if nbit cause 2 then bit 8 else 0))
  let header :=
    leBytes 8 w.first ++ leBytes 8 w.last ++ leBytes 8 w.stamp ++ leBytes 4 w.len ++ leBytes 1 leg ++ leBytes 1 w.ramanLen ++
      leBytes 1 (w.stG + 8 * w.asG) ++ leBytes 1 (w.par.calMode + 4 * r1.valid.toNat + 8 * r2.valid.toNat) ++ leBytes 4 reason ++
      leBytes 4 (quality.filter (· == 1)).length ++ leBytes 4 (quality.filter (· == 3)).length ++ leBytes 4 gamma ++
      leBytes 8 (wrapTo 64 lnc) ++ leBytes 6 (wrapTo 48 dalpha) ++ zeros 2 ++ leBytes 2 (tRefWord r1.temp) ++ leBytes 2 (tRefWord r2.temp) ++
      leBytes 4 w.exclusions.length ++ zeros 24
  { bytes := header ++ values.flatMap (leBytes 2) ++ packQuality quality, held := held1, misses := misses1, failed }

end Sys2Proof.Machine
end

