-- ==== Sys2Proof/Machine/Raman.lean ====
section
/-! DEFINITION. Words leaving a strait, Raman starts and snapshots, temperature rows (R14 to R16, R149 to R166). -/

namespace Sys2Proof.Machine

/-! ### Windows (R154, R161 to R166) -/

/-- RAMAN_REF (R161, DESIGN CHOICE, log entry 21): a window whose needs are not met is an occurrence with its leg and section; the condition ends once neither
leg's latest window lacks any. -/
def State.ramanRef (leg : Nat) (failed : Option Nat) (s : State) : State :=
  let s1 := s.setRaman leg { s.raman leg with wanting := failed.isSome }
  match failed with
  | some k => (s1.setCondition srcRamanRef false 0).setCondition srcRamanRef true (leg + 2 * k)
  | none => s1.setCondition srcRamanRef (s1.raman (1 - leg)).wanting 0

/-- The row of a user image that the host has bound to the decoding: its layout is not given, so its bytes are open (DESIGN CHOICE, log entry 73). -/
def RamanWindow.userResult (w : RamanWindow) (leg : Nat) (held : Option (Int × Int × Nat)) (misses : Nat) : TempResult :=
  { bytes := (List.range (96 + 2 * w.len + w.len / 4)).map (fun i => BitVec.ofNat 8 (Config.openValue 7 [leg, w.first, i]).toNat), held, misses, failed := none }

/-- A decoded window's row enters the leg's store of 64 rows (region 4, 512 KiB a row, DEDUCED, log entry 28) and goes to the zones. `library`: RAMAN1 has
decoded it, or nothing has. -/
def State.temperatureRow (leg : Nat) (w : RamanWindow) (late library : Bool) (s : State) : State :=
  let r := s.raman leg
  let (held, misses) := w.own.getD (r.held, r.misses)
  let t := if library then w.result leg held misses late (Config.openValue 1 [leg, w.first, w.last]).toNat else w.userResult leg held misses
  let r1 := { r with rows := ((w.first, w.last, t.bytes) :: r.rows).take 64, count := r.count + 1 }
  let r2 := if w.own.isSome then { r1 with ready := r1.ready.map (fun x => { x with own := x.own.map (fun _ => (t.held, t.misses)) }) }
    else { r1 with held := t.held, misses := t.misses, done := true }
  let s1 := s.setRaman leg r2
  let at_ := s1.cellar.regionBase 4 + leg * 2 ^ 25 + r.count % 64 * 2 ^ 19
  let n := s1.loft.tempStore.pos
  let entry : StoreRow := { p := n, len := t.bytes.length, leg, item := at_, trace := w.first, stamp := w.stamp, frame := w.frame }
  let s2 := s1.withLoft { s1.loft with tempStore := { pos := n + 1, rows := s1.loft.tempStore.rows ++ [entry] } }
  ((s2.withCellar (s2.cellar.store at_ t.bytes)).stageTemperature leg w t.bytes).ramanRef leg t.failed

/-- Span sums (cur - prev) mod 2^32 added to window sums (R154). -/
def addSpan (sums cur prev : Sparse Nat) : Sparse Nat :=
  let keys := cur.map (·.1) ++ prev.map (·.1)
  let span := keys.foldl (fun m k => Mem.write 0 m k ((Mem.read 0 cur k + 2 ^ 32 - Mem.read 0 prev k) % 2 ^ 32)) []
  span.foldl (fun m e => Mem.write 0 m e.1 (Mem.read 0 m e.1 + e.2)) sums

/-- The window that its last span completes, as the cell is to decode it: it ends with frame `last`. -/
def State.windowOf (leg last : Nat) (s : State) : RamanWindow :=
  let r := s.raman leg
  let frames := r.spans * r.spanFrames
  let f0 := last + 1 - frames
  let first := r.startTrace + (f0 - r.startFrame)
  let end_ := r.startTrace + (last - r.startFrame)
  { r.window with
    frame := f0, first, last := end_, frames := frames / 4, len := r.run.len, ramanLen := r.run.ramanLen, stG := r.gains.1, asG := r.gains.2
    stamp := ((r.marks.find? (fun m => m.1 == f0)).map (·.2.2)).getD (s.stampOf (r.run.index.getD 0 + (f0 - r.startFrame) * r.run.tF))
    par := r.parAt last, hk := r.hk.filter (fun h => first ≤ h.trace && h.trace ≤ end_) }

/-- The window's last span is summed: it waits for the cell; an earlier window still waiting is late (R164 rule 5), and so is one of which a snapshot was
lost (R200). -/
def State.windowDone (leg : Nat) (s : State) : State :=
  let r := s.raman leg
  let last := r.startFrame + r.snapNext / 4 * r.spanFrames - 1
  let w := s.windowOf leg last
  let late := r.ready ++ (if w.late then [w] else [])
  let s1 := s.setRaman leg { r with window := {}, ready := if w.late then [] else [w], hk := r.hk.filter (fun h => w.last < h.trace), oldPars := r.oldPars.filter (fun e => last < e.1) }
  late.foldl (fun u x => (u.temperatureRow leg x true true).report srcLoftLag leg) s1

/-- Bytes of a phase's snapshot in the Landing: its accumulators and the span's exclusion list (R152, R154). -/
def Raman.snapshotBytes (r : Raman) (ex : List Exclusion) : Nat := 8 * (r.run.len + 16 * 2 ^ r.run.ramanLen + 64) + 16 * ex.length

/-- The Hall snapshots the phase that is due and the cell adds its span sums (R154). While the cell has a window to decode, the snapshot waits in the staging of
512 KiB (R197, R200). -/
def State.snapshot (leg : Nat) (s : State) : State :=
  let r := s.raman leg
  let span := r.snapNext / 4
  let ph := r.snapNext % 4
  let cur := vget r.acc ph []
  let (ex, full) := if span = r.exclSpan then (r.excl, r.exclFull) else (r.exclPrev, r.exclPrevFull)
  let w := r.window
  let waits := !r.ready.isEmpty
  let held := r.staged + (s.raman (1 - leg)).staged + r.snapshotBytes ex
  let lost := waits && decide (524288 < held)
  let w1 := { w with
    late := w.late || lost
    sums := vset w.sums ph (addSpan (vget w.sums ph []) cur (vget r.prev ph []))
    exclusions := w.exclusions ++ (ex.filter (fun e => e.frame % 4 == ph)).map (fun e => (span, e))
    overflow := w.overflow || full
    spans := if ph = 3 then w.spans + 1 else w.spans }
  let s1 := s.setRaman leg { r with
    window := w1, staged := if waits && !lost then r.staged + r.snapshotBytes ex else r.staged, prev := vset r.prev ph cur, snapNext := r.snapNext + 1, stat := finc r.stat F.RAMAN_STAT.SNAPSHOTS }
  if ph = 3 ∧ r.spans ≤ w1.spans then s1.windowDone leg else s1

/-- The last frame of the phase whose snapshot is due, over all plans. -/
def Raman.snapFrame (r : Raman) : Nat := r.startFrame + (r.snapNext / 4 + 1) * r.spanFrames - 4 + r.snapNext % 4

/-- Every word of a frame, its dark window included, has arrived. -/
def State.frameArrived (s : State) (leg frame : Nat) : Bool :=
  match (s.raman leg).lastIndex with
  | some n => decide ((s.raman leg).run.point0 (frame + 1) ≤ n + 4)
  | none => false

/-- RAMAN_SPAN_SNAPSHOT (R154): after the dark window of the last frame of a phase in a span. -/
def execRamanSpanSnapshot (leg : Fin 2) (s : State) : Res :=
  let r := s.raman leg.val
  if !fbit r.stat F.RAMAN_STAT.RUNNING || !fbit r.cfg F.RAMAN_CFG.ENABLE || !s.frameArrived leg.val r.snapFrame then .next s else .next (s.snapshot leg.val)

/-- The snapshots of frames before a start are taken (R162: a window whose last frame is the one before the start completes). -/
def State.finishSpans (leg frame : Nat) : Nat → State → State
  | 0, s => s
  | n + 1, s => if (s.raman leg).snapFrame < frame && fbit (s.raman leg).stat F.RAMAN_STAT.RUNNING then (s.snapshot leg).finishSpans leg frame n else s

/-- The channel starts at its start trace (R162). -/
def State.startRaman (leg : Nat) (s : State) : State :=
  match (s.raman leg).starting with
  | none => s
  | some x =>
    let s1 := s.finishSpans leg x.frame 4
    let r := (s1.raman leg).restart x
    let (k, fs) := windowSpans r.par.seconds (10 * x.tF)
    s1.setRaman leg { r with
      starting := none, span := w32 fs
      cfg := fset (fset r.cfg F.RAMAN_CFG.ENABLE 1) F.RAMAN_CFG.SPANS k }

/-- RAMAN_CHANNEL_START (R162). -/
def execRamanChannelStart (leg : Fin 2) (s : State) : Res := .next (s.startRaman leg.val)

/-! ### Words leaving a strait (R15, R16) -/

/-- A 16-bit tag extended from the receiver's own count `next` of what it expects (R15). -/
def extendTag (next tag : Nat) : Nat := next + (tag + 65536 - next % 65536) % 65536

/-- A tag extended from the latest index at or below `cur`. -/
def extendBelow (cur tag : Nat) : Nat := cur - (cur % 65536 + 65536 - tag) % 65536

/-- A trace tag extended to the number nearest to the receiver's own trace counter `cur` (R15; DEDUCED, log entry 102). -/
def extendNear (cur tag : Nat) : Nat :=
  let n := extendTag cur tag
  if n < cur + 32768 ∨ n < 65536 then n else n - 65536

/-- The strait that a word's kind crosses (Table 1.4). -/
def straitOf : Traced → Nat
  | .fullRow | .decimatedRow => 2
  | .block => 3
  | .chainRow | .snapshot => 4
  | .result | .fireToken => 5
  | .ringToken => 11

/-- A token is a word by itself, which no other word of its kind has to precede (DESIGN CHOICE, log entry 102). -/
def lone (k : Traced) : Bool := k == .fireToken || k == .ringToken

/-- A word of trace `n` and index `i` is in sequence after one of trace `m` and index `j`: its trace is no older or its index has risen (R16 gives no test;
DESIGN CHOICE, log entry 102). -/
def inSequence (m j n i : Nat) : Bool := decide (m < n) || (m == n && decide (j ≤ i)) || decide (j < i)

/-- STRAIT_TAG with its detail byte (R16). A word of ST0 names the leg of its lanes (R393 resets "the leg named by the word"; DEDUCED, log entry 102). -/
def State.straitTag (strait leg : Nat) (s : State) : State := s.report srcStraitTag (strait + 16 * leg)

/-- A coherent word of a leg at sample index n enters the Hall (R84 to R86, R88, R103). -/
def State.placeCoherent (leg n : Nat) (xi xq yi yq : Int) (bad : Bool) (s : State) : State :=
  let t := s.thrLeg leg
  let w : CohWord := { xi, xq, yi, yq, ovr := endCode xi || endCode xq || endCode yi || endCode yq, gap := bad || s.gapMarked n, step := t.cohMarked n, gain := (t.codesAt n).1 }
  let ovr := (endCode xi).toNat + 2 * (endCode xq).toNat + 4 * (endCode yi).toNat + 8 * (endCode yq).toNat
  let s1 := s.setThrLeg leg { t.observe n w with lane := t.lane ||| w32 ovr }
  let h := s1.hall leg
  s1.setHall leg { h with samples := Mem.write none h.samples n (some w), nextIndex := some (n + 1) }

/-- A direct word of a leg at index n enters the accumulators (R151, R152). `markers`: [0] gap, [1] gain step; `ovr`: OVR on either lane; `gains`: the direct
codes it carries. -/
def State.placeDirect (leg n : Nat) (st as_ : Int) (markers : Nat) (ovr : Bool) (gains : Nat × Nat) (s : State) : State :=
  let r0 := s.raman leg
  let s1 := s.setRaman leg { r0 with lastOvr := if ovr then some n else r0.lastOvr }
  let s2 := match r0.starting with | some x => if x.index.isSome && x.point0 x.frame ≤ n then s1.startRaman leg else s1 | none => s1
  let r := { s2.raman leg with lastIndex := some n }
  let tail := match r.lastOvr with | some o => decide (o ≤ n) && decide (n ≤ o + 160) | none => false
  let cause := markers + 4 * tail.toNat
  match s2.ramanFrameOf leg n with
  | none => s2.setRaman leg r
  | some f =>
    match (if fbit r.stat F.RAMAN_STAT.RUNNING && fbit r.cfg F.RAMAN_CFG.ENABLE then r.run.point f n else none) with
    | none => s2.setRaman leg r
    | some p =>
      let opens := p == 0 && (f - r.startFrame) % max 1 (r.spans * r.spanFrames) == 0
      let (r1, filled) := (if opens then { r with gains } else r).take (f - r.startFrame) p st as_ cause
      let s3 := s2.setRaman leg r1
      if filled then s3.report srcRamanExcl leg else s3

/-- The leg's lanes deliver live words to the Hall: front domain on, LEGn_CFG.ENABLE set, no replay but
for words of traces launched before it (R25, Table 5.8). -/
def State.lanesLive (s : State) (leg : Nat) : Bool :=
  s.power.front && !s.safe && fbit (s.thrLeg leg).cfg F.LEG_CFG.ENABLE && (!s.replaying leg || s.halls.launches.any (fun l => l.leg == leg && !l.replay))

/-- STRAIT_WORD_ARRIVAL (R14 to R16): a word is placed by its tag; a tag out of sequence is reported. A row of ST4 is placed whole with the first of its
words (log entry 102). -/
def execStraitWordArrival (w : StraitWord) (s : State) : Res :=
  match w with
  | .coherent leg tag xi xq yi yq bad =>
    if !s.lanesLive leg.val then .next s
    else
      let next := (s.hall leg.val).nextIndex
      let n := match next with | some m => extendTag m tag.val | none => extendBelow (s.indexOfTime s.now) tag.val
      let s1 := if bad then s.report srcD2dLink 0 else s
      let s2 := s1.placeCoherent leg.val n (code14 xi.val) (code14 xq.val) (code14 yi.val) (code14 yq.val) bad
      .next (match next with | some m => if m == n then s2 else s2.straitTag 0 leg.val | none => s2)
  | .direct leg tag st as_ bad =>
    if !s.lanesLive leg.val then .next s
    else
      let last := (s.raman leg.val).lastIndex
      let n := match last with | some m => extendTag (m + 4) tag.val | none => extendBelow (s.indexOfTime s.now) tag.val
      let s1 := if bad then s.report srcD2dLink 0 else s
      let markers := (bad || s1.gapMarked n).toNat + 2 * ((s1.thrLeg leg.val).dirMarked n).toNat
      let e1 := endCode (code14 st.val)
      let e2 := endCode (code14 as_.val)
      let t := s1.thrLeg leg.val
      let s1 := s1.setThrLeg leg.val { t with lane := t.lane ||| w32 (16 * e1.toNat + 32 * e2.toNat) }
      let s2 := s1.placeDirect leg.val n (code14 st.val) (code14 as_.val) markers (e1 || e2) ((s1.thrLeg leg.val).codesAt n).2
      .next (match last with | some m => if m + 4 == n then s2 else s2.straitTag 0 leg.val | none => s2)
  | .traced kind leg slot tag index =>
    let n := extendNear (s.probe.nextTrace leg.val slot.val) tag.val
    let key := (kind, leg.val, slot.val)
    let s1 := { s with halls := { s.halls with tags := (key, n, index) :: s.halls.tags.filter (fun e => e.1 != key) } }
    -- ST4 carries decimated rows to the Loft (R200); the sender never waits (R23).
    let s2 := if kind = .chainRow && s1.power.loft then s1.stageDecimated leg.val slot.val n else s1
    match s.halls.tags.find? (fun e => e.1 == key) with
    | none => .next s2
    | some (_, m, j) => .next (if lone kind || inSequence m j n index then s2 else s2.straitTag (straitOf kind) leg.val)

end Sys2Proof.Machine
end

