-- ==== Sys2Proof/Machine/Levels.lean ====
section
/-! DEFINITION. The equations of the library programs: band energies of SPEC8 (R209, R210), order levels of ZORDER (R242), the dominant bin of ZMEAS
(R246). The frozen programs give levels to within their own fixed-point rounding (R208); that deviation is open, and decided by the input (DESIGN CHOICE, log
entry 25). -/

namespace Sys2Proof.Machine

/-- clamp(rha(256 × log2(p / q × 2^16)), 0, 65534) of a ratio p / q, and 0 below 2^-16: exact, by 512 times the logarithm. -/
def logLevel (p q : Nat) : Nat :=
  let y := p * 2 ^ 16
  if q = 0 ∨ y < q then 0 else min 65534 ((Nat.log2 (2 * y ^ 512 / q ^ 512)) / 2)

/-- An equation's value with the program's open deviation, held within a range. -/
def deviate (lo hi value : Nat) (dev : BitVec 64) : Nat := (max (lo : Int) (min (hi : Int) ((value : Int) + sx 64 dev.toNat))).toNat

/-- An integer equation's logarithm, to one step of the program's rounding: an open -1, 0 or 1 (DEDUCED, log entry 25). -/
def nearby (lo hi value : Nat) (dev : BitVec 64) : Nat := (max (lo : Int) (min (hi : Int) ((value : Int) + ((dev.toNat % 3 : Nat) : Int) - 1))).toNat

/-- Cosine of j / 256 turns at scale 2^30, and its sine a quarter turn earlier. -/
def cos256 : Array Int := ((List.range 256).map (fun j => romCos (2 ^ 30) j 256)).toArray
def cosAt256 (j : Nat) : Int := (cos256[j % 256]?).getD 0
def sinAt256 (j : Nat) : Int := cosAt256 (j + 192)

/-- The sine tapers of R209 in Q1.15, t = 1 to 4. -/
def taper (t : Nat) : Array Int :=
  let amp : Int := ((isqrt (2 ^ 129 / 257) : Nat) : Int)
  ((List.range 256).map (fun n => divHalfAway (32768 * amp * turnSinAt 64 16 (t * (n + 1)) 514) (2 ^ 128))).toArray
def tapers : List (Array Int) := [taper 1, taper 2, taper 3, taper 4]

/-- |X_t(k)|^2 at scale 2^90. -/
def taperPower (v : Array Int) (xs : Array Int) (k : Nat) : Nat :=
  let s := (List.range 256).foldl (fun (a : Int × Int) n =>
    let y := (v[n]?).getD 0 * (xs[n]?).getD 0
    (a.1 + y * cosAt256 (k * n), a.2 + y * sinAt256 (k * n))) (0, 0)
  (s.1 * s.1 + s.2 * s.2).toNat

/-- 4 P(k) at scale 2^90, k = 0 to 128. -/
def powers (xs : List Int) : Array Nat :=
  let a := xs.toArray
  ((List.range 129).map (fun k => tapers.foldl (fun p v => p + taperPower v a k) 0)).toArray

/-- Sixteenths of bin k that lie between two edges. -/
def binShare (a b k : Nat) : Nat := min b (16 * k + 16) - max a (16 * k)

/-- The eight band levels of a location by the equations; `edges`: the nine edges in 1/16 bin. -/
def bandLevels (edges : List Nat) (xs : List Int) : List Nat :=
  let p := powers xs
  (List.range 8).map (fun b =>
    let lo := (edges[b]?).getD 0
    let hi := (edges[b + 1]?).getD 0
    let e := (List.range 129).foldl (fun s k => s + binShare lo hi k * (p[k]?).getD 0) 0
    logLevel e (64 * 2 ^ 90))

/-- Phase of an order at tach position Θ, in 2π / 65,536 rad (R242). -/
def orderPhase (order ratio theta : Nat) : Nat := order * ratio * theta / 2 ^ 48 % 65536

/-- C of an order of a location after one more row (R242). -/
def orderStep (idx : Nat) (x : Int) (c : Int × Int) : Int × Int := (c.1 + rha 15 (x * cosRom idx), c.2 + rha 15 (-(x * sinRom idx)))

/-- The level of an order whose C over n rows is given (R242). -/
def orderLevel (n : Nat) (c : Int × Int) : Nat := logLevel (4 * (c.1 * c.1 + c.2 * c.2).toNat) (n * n)

/-- DFT power of u at bin k of N points. -/
def dftPower (us : List Int) (table : Array Int) (n k : Nat) : Nat :=
  let s := (us.zipIdx).foldl (fun (a : Int × Int) e =>
    let j := k * e.2 % n
    (a.1 + e.1 * (table[j]?).getD 0, a.2 + e.1 * (table[(j + 3 * n / 4) % n]?).getD 0)) (0, 0)
  (s.1 * s.1 + s.2 * s.2).toNat

/-- The bin of largest power among 1 to N / 2, the lowest on a tie. -/
def dominantBin (us : List Int) (n : Nat) : Nat :=
  let table := ((List.range n).map (fun j => romCos (2 ^ 30) j (max 1 n))).toArray
  ((List.range (n / 2)).foldl (fun (b : Nat × Nat) i =>
    let p := dftPower us table n (i + 1)
    if b.2 < p then (i + 1, p) else b) (1, 0)).1

end Sys2Proof.Machine
end

