-- ==== Sys2Proof/Machine/Zones.lean ====
section
/-! DEFINITION. What the programs of zones answer for an evaluation (R241 to R247), and the inputs of their jobs (Table 13.2). -/

namespace Sys2Proof.Machine

/-! ### The slice of a row (R231) -/

/-- Values per location of a source. -/
def perLoc (src : Nat) : Nat := if src = 0 then 8 else 1

/-- Values and qualities of a zone's locations in a row. -/
def Zone.slice (x : Zone) (r : ZoneRow) : List Nat × List Nat :=
  let k := perLoc r.src
  ((r.values.drop (k * x.first)).take (k * x.count), (r.quality.drop x.first).take x.count)

/-- Θ of a row for a zone (Table 13.2). -/
def Zone.theta (x : Zone) (r : ZoneRow) : Nat := match x.tach with | some k => vget r.tach k 0 | none => 0

/-- The input window of a zone job (Table 13.2). `inEval`: its place in the evaluation; `first`: it is the first row after the start row. -/
def Zone.inputBytes (x : Zone) (r : ZoneRow) (inEval : Nat) (eval first : Bool) : List Byte :=
  let (vs, qs) := x.slice r
  leBytes 8 r.trace ++ leBytes 8 r.stamp ++ leBytes 4 inEval ++ leBytes 1 (eval.toNat + 2 * first.toNat) ++ zeros 3 ++ leBytes 4 r.reason ++ zeros 4 ++
    leBytes 8 (x.theta r) ++ zeros 24 ++ vs.flatMap (leBytes 2) ++ packQuality qs

/-! ### Library programs -/

/-- Enough of the locations are valid (R235). -/
def enough (validLocs count : Nat) : Bool := decide (cdiv count 2 ≤ validLocs)

/-- The raw bits of an answer's detectors. -/
def Zone.rawBits (x : Zone) (levels : Bool) (qs : Quantities) : Nat :=
  ((List.range x.nDet).filter (fun d => rawBit levels x.param x.first d qs)).foldl (fun m d => m + 2 ^ d) 0

/-- An answer from quantities. -/
def Zone.answer (x : Zone) (levels : Bool) (n : Nat) (tachLow : Bool) (qs : Quantities) : ZoneAnswer :=
  let ok := (qs.filter (·.1)).length
  let e := enough ok x.count
  { valid := e && !tachLow, tachLow, inputInvalid := !e, validLocs := ok, raw := x.rawBits levels qs, qs, n }

/-- ZBAND (R241). -/
def Zone.zband (x : Zone) (r : ZoneRow) : ZoneAnswer :=
  let (vs, qs) := x.slice r
  x.answer true 8 false (qs.zipIdx.map (fun (q, i) => (q != 3, ((vs.drop (8 * i)).take 8).map (fun (v : Nat) => (v : Int)))))

/-- ZTEMP's quantities (R244). -/
def Zone.ztemp (x : Zone) (r : ZoneRow) : ZoneAnswer :=
  let (vs, qs) := x.slice r
  let q := (vs.zip qs).zipIdx.map (fun ((v, q), i) =>
    let t := sx 16 v
    (q == 0 || q == 1, [t, t - ((x.run.baseline[i]?).getD none).getD t]))
  x.answer false 2 false q

/-- ZTEMP's baseline after an evaluation (R244): B is q₀ at a location's first temperature, and follows it after a valid evaluation. -/
def Zone.nextBaseline (x : Zone) (a : ZoneAnswer) : List (Option Int) :=
  let sh := pgMinRevs x.param % 16
  a.qs.zipIdx.map (fun (e, i) =>
    let old := (x.run.baseline[i]?).getD none
    if e.1 then
      let t := (e.2[0]?).getD 0
      some (match old with | none => t | some b => b + (t - b) / ((2 ^ sh : Nat) : Int))
    else old)

/-- Inputs of location i of a zone over the rows of an evaluation, oldest first: 0 for quality 3; and how many of them have it. -/
def Zone.inputs (x : Zone) (i : Nat) : List Int × Nat :=
  let rows := x.run.gathered.reverse
  (rows.map (fun (_, vs, qs) => if (qs[i]?).getD 3 = 3 then 0 else sx 16 ((vs[i]?).getD 0)),
   (rows.filter (fun (_, _, qs) => (qs[i]?).getD 3 == 3)).length)

/-- Δrev is below MIN_REVS (R243), as the exact product. -/
def Zone.tachLow (x : Zone) : Bool :=
  let th := x.run.gathered.reverse.map (·.1)
  let d := sx 64 (((th.getLast?).getD 0 + 2 ^ 64 - (th.head?).getD 0) % 2 ^ 64)
  decide (d.natAbs * pgRatio x.param < pgMinRevs x.param * 2 ^ 32)

/-- Place in the state page of C of order k of location i, after the page's first 64 bytes (DESIGN CHOICE, log entry 25). -/
def Zone.orderAt (x : Zone) (i k : Nat) : Nat := 8 * (i * (pgOrders x.param).length + k)

/-- C of an order of a location, held as 32-bit I and Q (R242). -/
def orderC (page : List Byte) (at_ : Nat) : Int × Int := (sx 32 (leAt page at_ 4), sx 32 (leAt page (at_ + 4) 4))

/-- The words of C in the state page after one more row (R242); `page`: those before it. -/
def Zone.orderRow (x : Zone) (r : ZoneRow) (page : List Byte) : List Byte :=
  let (vs, qs) := x.slice r
  (List.range x.count).flatMap (fun i =>
    let v := if (qs[i]?).getD 3 = 3 then 0 else sx 16 ((vs[i]?).getD 0)
    (pgOrders x.param).zipIdx.flatMap (fun (o, k) =>
      let c := orderStep (orderPhase o (pgRatio x.param) (x.theta r)) v (orderC page (x.orderAt i k))
      leBytes 4 (wrapTo 32 c.1) ++ leBytes 4 (wrapTo 32 c.2)))

/-- ZORDER (R242, R243): the levels of C, to one step of the program's rounding (R208; DEDUCED, log entry 25); 0 where C is 0. -/
def Zone.zorder (x : Zone) (page : List Byte) : ZoneAnswer :=
  let orders := pgOrders x.param
  let qs := (List.range x.count).map (fun i =>
    let level (k : Nat) : Int :=
      let c := orderC page (x.orderAt i k)
      if c = (0, 0) then 0 else (nearby 0 65534 (orderLevel x.every c) (Config.openValue 3 [wrapTo 32 c.1, wrapTo 32 c.2, x.every]) : Int)
    (decide ((x.inputs i).2 ≤ x.every / 8), (List.range orders.length).map level))
  x.answer true orders.length x.tachLow qs

/-- Place in the Landing of the words of C of a ZORDER zone, and their length. -/
def Zone.orderPlace (x : Zone) : Nat × Nat :=
  (landPages + 16 * fget x.page F.ZONE_PAGE.STATE_AT + 64, x.orderAt x.count 0)

/-- A ZORDER job adds its row to C in the state page; the first row of an evaluation starts C anew. -/
def State.orderRow (z : Nat) (r : ZoneRow) (first : Bool) (s : State) : State :=
  let x := s.zone z
  let (a, n) := x.orderPlace
  s.withLoft (s.loft.write a (x.orderRow r (if first then zeros n else s.loft.read a n)))

/-- Running sums. -/
def runSums : Int → List Int → List Int
  | _, [] => []
  | a, x :: xs => (a + x) :: runSums (a + x) xs

/-- Places of upward crossings: u(n − 1) < 0 ≤ u(n). -/
def crossings : Nat → List Int → List Nat
  | n, a :: b :: rest => (if a < 0 ∧ 0 ≤ b then [n + 1] else []) ++ crossings (n + 1) (b :: rest)
  | _, _ => []

/-- One ZMEAS measurement (R246), with the bin of largest power that the definition names. -/
def measurement (loc n : Nat) (xs : List Int) (bad : Nat) (spacing : Nat × Nat) : List Byte :=
  let w := runSums 0 xs
  let m := (w.foldl (· + ·) 0) / ((max 1 n : Nat) : Int)
  let u := w.map (· - m)
  let mx := u.foldl max ((u.head?).getD 0)
  let mn := u.foldl min ((u.head?).getD 0)
  let rms := isqrt ((u.foldl (fun a v => a + v * v) 0).toNat / max 1 n)
  let cr := crossings 0 u
  let period := if cr.length < 2 then 0
    else ((cr.getLast?).getD 0 - (cr.head?).getD 0) * spacing.1 / ((cr.length - 1) * max 1 spacing.2)
  let freq := if spacing.1 = 0 then 0 else dominantBin u n * 10 ^ 12 * spacing.2 / (spacing.1 * max 1 n)
  let peak := u.foldl (fun a v => max a v.natAbs) 0
  leBytes 4 loc ++ leBytes 4 (mx - mn).toNat ++ leBytes 4 rms ++ leBytes 4 period ++ leBytes 4 freq ++
    leBytes 2 (if rms = 0 then 0 else 256 * peak / rms) ++ leBytes 1 (if n < 8 * bad then 3 else 0) ++ zeros 1

/-- ZMEAS (R246): its locations are those listed (DEDUCED, log entry 26). -/
def Zone.zmeas (x : Zone) (r : ZoneRow) : ZoneAnswer :=
  let locs := pgLocs x.param
  let parts := locs.map (fun l =>
    let (xs, bad) := x.inputs (l - x.first)
    (bad, measurement l x.every xs bad r.spacing))
  let ok := (parts.filter (fun e => decide (8 * e.1 ≤ x.every))).length
  let e := enough ok locs.length
  { valid := e, inputInvalid := !e, validLocs := ok, raw := 0, body := parts.flatMap (·.2) }

/-- The answer of a library zone at the last row of an evaluation, and the state with its baseline moved: at the first evaluation after the start,
and after a valid one (R244). -/
def State.libraryAnswer (z : Nat) (r : ZoneRow) (s : State) : ZoneAnswer × State :=
  let x := s.zone z
  let good := !x.run.settling && !x.run.lag && !x.run.trapped
  if x.program == imgZband then (x.zband r, s)
  else if x.program == imgZtemp then
    let a := x.ztemp r
    (a, if (a.valid && good) || x.run.evals = 0 then s.setZone z { x with run := { x.run with baseline := x.nextBaseline a } } else s)
  else if x.program == imgZorder then (let (at_, n) := x.orderPlace; (x.zorder (s.loft.read at_ n), s))
  else (x.zmeas r, s)

/-- The answer of a user program in its result window (R235, R247), for a zone of `count` locations; none where BODY_BYTES exceeds 4,096. -/
def userAnswer (count : Nat) (res : List Byte) : Option ZoneAnswer :=
  let n := leAt res 4 4
  if 4096 < n then none
  else
    let v := nbit (leAt res 1 1) 0 && enough (leAt res 2 2) count
    some { valid := v, inputInvalid := !v, validLocs := leAt res 2 2, raw := leAt res 0 1, body := bytesAt res 64 n }

/-- An evaluation that had no job on its last row, or whose job was abandoned: no answer (R235). -/
def ZoneAnswer.none_ : ZoneAnswer := { valid := false, validLocs := 0, raw := 0 }

end Sys2Proof.Machine
end

