-- ==== Sys2Proof/Machine/CellCore.lean ====
section
/-! DEFINITION. Jobs of the Loft: pools, starts, completion and abandonment, map rows (R193, R201 to R212). -/

namespace Sys2Proof.Machine

/-! ### Pools, images, cells -/

def Loft.cellOf (l : Loft) (c : Nat) : Cell := vget l.cell c {}
def State.cell (s : State) (c : Nat) : Cell := s.loft.cellOf c
def State.setCell (c : Nat) (x : Cell) (s : State) : State := s.withLoft { s.loft with cell := vset s.loft.cell c x }

/-- Cells of a pool, ascending. -/
def Pool.cells (p : Pool) : List Nat :=
  onesOf p.quad.toNat 32 ++ (onesOf p.quadh.toNat 32).map (· + 32) ++ (onesOf (fget p.cplx F.POOL_CELLS.CELLS) 8).map (· + 64)
def Pool.work (p : Pool) : Nat := fget p.cfg F.POOL_CFG.WORK
def Pool.on (p : Pool) : Bool := fbit p.cfg F.POOL_CFG.ENABLE
def Pool.program (p : Pool) : Nat := fget p.cfg F.POOL_CFG.PROGRAM
/-- The pool holds complex cells. -/
def Pool.complex (p : Pool) : Bool := fget p.cplx F.POOL_CELLS.CELLS != 0

/-- A pool's setting for a job whose input begins at a frame (R204). -/
def Loft.poolAt (l : Loft) (i frame : Nat) : Pool :=
  match (l.past.filter (fun e => e.2.1 == i && frame < e.1)).getLast? with
  | some (_, _, p) => p
  | none => vget l.pool i {}

/-- POOL_SET takes effect (R204): jobs with earlier input keep the setting before. A budget of 0 is the bound image's own (Tables 11.5 and 11.8). -/
def State.applyPoolSet (p : Stamped) (s : State) : State :=
  let i := p.item
  let l := s.loft
  let old := vget l.pool i {}
  let cplx := wat p.words 4
  let cfg := wat p.words 1 &&& 0x3FF
  let own := match l.image (fget cfg F.POOL_CFG.PROGRAM) with | some m => m.budget | none => 0
  let new : Pool := { cfg, quad := wat p.words 2, quadh := wat p.words 3
                      cplx := if fget cplx F.POOL_CPLX.INSTR_BUDGET = 0 then fset cplx F.POOL_CPLX.INSTR_BUDGET own else cplx }
  s.withLoft { l with pool := vset l.pool i new, past := ((p.frame.getD 0, i, old) :: l.past).take 64 }

/-- Waiting POOL_SET changes that are due at a frame take effect. -/
def State.poolChanges (frame : Nat) (s : State) : State := s.applyDue (fun p => p.code == cPoolSet) frame State.applyPoolSet

/-- KIND of an image: 1 complex (Table 13.1, Table 11.5). -/
def Loft.imageComplex (l : Loft) (i : Nat) : Bool :=
  if isLibrary i then i == 1 || i == imgZorder else match l.image i with | some m => m.complex | none => false

/-- The pool that takes a kind of work (R201): the lowest enabled one; a zone's by the kind of its image. -/
def Loft.poolFor (l : Loft) (work : Work) (image : Option Nat) (frame : Nat) : Option (Nat × Pool) :=
  let ps := (List.range 8).map (fun i => (i, l.poolAt i frame))
  let num := match work with | .map => 0 | .zone => 1 | .raman => 2
  ps.find? (fun e => e.2.on && e.2.work == num && (match image with | some m => e.2.complex == l.imageComplex m | none => true))

/-- INSTR_BUDGET of a pool; while it holds 0 it is the image's own (Table 11.8). -/
def Loft.budget (l : Loft) (p : Pool) (image : Nat) : Nat :=
  let b := fget p.cplx F.POOL_CPLX.INSTR_BUDGET
  if b != 0 then b else match l.image image with | some m => m.budget | none => 16777215

/-- The pool a cell belongs to. -/
def Loft.poolOf (l : Loft) (c : Nat) : Nat := ((List.range 8).find? (fun i => (vget l.pool i {}).cells.contains c)).getD 0

/-- CELLc_STAT and LOFT_STAT as they read. -/
def Loft.cellStat (l : Loft) (c : Nat) : Word :=
  fset (fsetB (l.cellOf c).stat F.CELL_STAT.BUSY (l.cellOf c).job.isSome) F.CELL_STAT.POOL (l.poolOf c)
def Loft.statWord (l : Loft) : Word :=
  fset (fset l.stat F.LOFT_STAT.SLOTS_USED l.slots.length) F.LOFT_STAT.BUSY_CELLS (l.cell.toList.filter (fun c => c.job.isSome)).length

/-! ### Places in the Landing (Table 11.2) -/

def landSlot (i : Nat) : Nat := i * 20480
def landRows : Nat := 0x100000
def landRaman : Nat := 0x180000
/-- Result staging (DESIGN CHOICE, log entry 71): 8 KiB for each cell's result window, then the copies of rows that zone jobs read. -/
def landResult (c : Nat) : Nat := 0x200000 + 0x2000 * c
def resultLen : Nat := 0x2000
def landCopies : Nat := 0x290000

/-- The program of a loaded image, as a cell loads it (R204). -/
def Loft.program (l : Loft) (i : Nat) : List (BitVec 64) :=
  match l.image i with | some m => (List.range m.codeWords).map (fun pc => BitVec.ofNat 64 (leAt (l.read (m.at_ + 8 * pc) 8) 0 8)) | none => []

/-- The table of a loaded image. -/
def Loft.table (l : Loft) (i : Nat) : List Byte :=
  match l.image i with | some m => l.read m.tab m.tableBytes | none => []

/-- The Landing's place that a report names: 0x80 plus the 20 KiB that holds the codeword. -/
def landPlace (cw : Nat) : Nat := 0x80 + min 0x7F (cw / 1280)

/-- A codeword of a Loft memory is found with one symbol in error, or beyond correction (R193). `what`: the cell, or 0x80 plus the Landing's
slot number. -/
def State.loftEcc (k : ReadCheck) (what : Nat) (s : State) : State :=
  match k with
  | .clean => s
  | .symbol _ => s.withLoft { s.loft with ecc := finc s.loft.ecc F.LOFT_ECC.CORRECTED }
  | .beyond _ => (s.withLoft { s.loft with ecc := finc s.loft.ecc F.LOFT_ECC.UNCORRECTED }).report srcLoftUncorr what
/-- It cannot be corrected. -/
def beyondRepair : ReadCheck → Bool
  | .beyond _ => true
  | _ => false

/-! ### Map rows (R209 to R212) -/

/-- Quality and levels of a location by its 256 inputs (R211). `level`: what the program computed. -/
def mapQuality (inputs : List Nat) : Nat × Nat :=
  let n3 := (inputs.filter (· == 3)).length
  if 32 < n3 then (3, bit reGapFilled)
  else if 1 ≤ n3 then (2, bit reGapFilled)
  else if inputs.any (fun q => q == 1 || q == 2) then (1, 0) else (0, 0)

/-- Increments and qualities of location i of a corner-turned block (Table 11.3). -/
def blockInputs (bs : List Byte) (i : Nat) : List Int × List Nat :=
  ((List.range 256).map (fun n => sx 16 (leAt bs (64 + 512 * i + 2 * n) 2)),
   (List.range 256).map (fun n => leAt bs (16448 + 64 * i + n / 4) 1 / 4 ^ (n % 4) % 4))

/-- SPEC8's levels of a block (R209, R210): the equations' within the program's rounding, which its input decides (R20, R202, R208; DESIGN CHOICE, log entry
25); 0 where every input enters as 0. -/
def spec8 (edges : List Nat) (bs : List Byte) : List Nat :=
  (List.range 32).flatMap (fun i =>
    let (xs, qs) := blockInputs bs i
    let ins := (xs.zip qs).map (fun e => if e.2 = 3 then 0 else e.1)
    if ins.all (· == 0) then List.replicate 8 0
    else (bandLevels edges ins).zipIdx.map (fun (v, b) => deviate 0 65534 v (Config.openValue 2 (b :: edges ++ ins.map (wrapTo 16)))))

/-- The result of a group whose levels a program computed. -/
def groupOf (g : Nat) (bs : List Byte) (levels : List Nat) : GroupResult :=
  let marks := (List.range 32).map (fun i => mapQuality (blockInputs bs i).2)
  { group := g
    levels := (List.range 256).map (fun i => if ((marks[i / 8]?).getD (3, 0)).1 = 3 then 0xFFFF else (levels[i]?).getD 0)
    quality := marks.map (·.1), reason := marks.foldl (fun a m => a ||| m.2) 0 }
/-- The result of a group whose job was abandoned or whose block was withheld. -/
def groupLost (g reason : Nat) : GroupResult := { group := g, levels := List.replicate 256 0xFFFF, quality := List.replicate 32 3, reason }

/-- The groups of a row of length L. -/
def groupCount (len : Nat) : Nat := cdiv len 32

/-- A whole map row's planes. -/
def MapAssembly.planes (m : MapAssembly) : List Nat × List Nat :=
  let get (g : Nat) : GroupResult := (m.groups.find? (fun r => r.group == g)).getD (groupLost g 0)
  (((List.range (groupCount m.len)).flatMap (fun g => (get g).levels)).take (8 * m.len), ((List.range (groupCount m.len)).flatMap (fun g => (get g).quality)).take m.len)

/-- Its bytes (Table 11.6). -/
def MapAssembly.bytes (m : MapAssembly) : List Byte :=
  let (vs, qs) := m.planes
  leBytes 8 m.trace ++ leBytes 8 m.stamp ++ leBytes 8 m.block ++ leBytes 4 m.len ++ leBytes 1 m.leg ++ leBytes 1 m.flags ++ zeros 2 ++
    leBytes 4 m.reason ++ zeros 28 ++ vs.flatMap (leBytes 2) ++ packQuality qs

def State.mapLeg (s : State) (leg : Nat) : MapLeg := vget s.loft.map leg {}
def State.setMap (leg : Nat) (m : MapLeg) (s : State) : State := s.withLoft { s.loft with map := vset s.loft.map leg m }

/-- Whole rows at the head of a leg's assembly go to the band-map ring in block order, and to the zones (R212). -/
def State.writeMapRows (leg : Nat) : Nat → State → State
  | 0, s => s
  | fuel + 1, s =>
    match (s.mapLeg leg).rows with
    | [] => s
    | m :: rest =>
      if m.groups.length < groupCount m.len then s
      else
        let m : MapAssembly := { m with reason := m.groups.foldl (fun a g => a ||| g.reason) m.reason }
        let (vs, qs) := m.planes
        let lostGroups := (m.groups.filter (fun (g : GroupResult) => nbit g.reason 16)).map (·.group)
        let s0 := s.setMap leg { s.mapLeg leg with rows := rest }
        let (s1, store) := s0.appendStore 6 s0.loft.mapStore
          { p := 0, len := 0, leg, item := m.block, trace := m.trace, stamp := m.stamp, frame := m.frame } m.bytes
        let s2 := s1.withLoft { s1.loft with mapStore := store }
        (s2.stage { n := 0, src := 0, leg, slot := m.slot, trace := m.trace, stamp := m.stamp, frame := m.frame, evalTrace := m.trace
                    evalFrame := m.frame, pos := m.block, reason := m.reason, values := vs, quality := qs, settling := settles m.reason
                    opens := false, lag := false, lostGroups, spacing := (0, 1), tach := m.tach }).writeMapRows leg fuel

/-- A group's result joins its row. -/
def State.mapResult (leg block : Nat) (g : GroupResult) (s : State) : State :=
  let m := s.mapLeg leg
  let s1 := s.setMap leg { m with rows := m.rows.map (fun r => if r.block = block then { r with groups := r.groups ++ [g] } else r) }
  s1.writeMapRows leg (m.rows.length + 1)

/-! ### The end of a job (R207, R227) -/

/-- Reason bits of an abandoned map job (Table 11.6). -/
def trapReason (cause : Nat) : Nat := if cause = 5 then bit 17 else if cause = 4 then bit 19 else bit 18

/-- Bytes of a cell's data memory from a half-word address on. -/
def Cell.bytes (c : Cell) (half n : Nat) : List Byte := (c.halves half (n / 2)).flatMap (leBytes 2)

/-- A zone job has ended: the evaluation of its last row is judged. `ans`: none when the job was abandoned. -/
def State.zoneJobDone (j : Job) (user : Option (List Byte)) (abandoned : Bool) (s : State) : State :=
  let x := s.zone j.item
  match j.row with
  | none => s
  | some r =>
    if x.gen != j.gen then s
    else
      let s1 := if abandoned then s.setZone j.item { x with run := { x.run with trapped := true } }
        else if x.program == imgZorder then s.orderRow j.item r (leAt j.input 16 4 == 0) else s
      if !j.eval then s1
      else if abandoned then s1.evaluate j.item r ZoneAnswer.none_
      else
        match user with
        | some res => s1.evaluate j.item r ((userAnswer x.count res).getD ZoneAnswer.none_)
        | none => let (a, s2) := s1.libraryAnswer j.item r; s2.evaluate j.item r a

/-- The result of a job by its work. `cause`: of its abandonment. -/
def State.jobResult (c : Nat) (j : Job) (cause : Option Nat) (s : State) : State :=
  let res := s.loft.read (landResult c) resultLen
  match j.work with
  | .map =>
    match cause with
    | some k => s.mapResult j.leg j.block (groupLost j.item (trapReason k))
    | none =>
      if isLibrary j.image then
        let edges := (((s.mapLeg j.leg).rows.find? (fun r => r.block == j.block)).map (·.edges)).getD []
        s.mapResult j.leg j.block (groupOf j.item j.input (spec8 edges j.input))
      else s.mapResult j.leg j.block (groupOf j.item j.input ((List.range 256).map (fun i => min 65534 (leAt res (2 * i) 2))))
  | .zone => s.zoneJobDone j (if isLibrary j.image then none else some res) cause.isSome
  | .raman =>
    match (s.raman j.leg).ready with
    | [] => s
    | w :: rest =>
      if w.first = j.trace then
        (s.setRaman j.leg { s.raman j.leg with ready := rest, staged := 0 }).temperatureRow j.leg w cause.isSome (cause.isSome || isLibrary j.image)
      else s

/-- A job ends (R207, R227): its slot is released, CELLc_STAT records it, its results are stored. -/
def State.endJob (c : Nat) (cause : Option Nat) (s : State) : State :=
  let x := s.cell c
  match x.job with
  | none => s
  | some j =>
    let st := match cause with
      | none => finc x.stat F.CELL_STAT.JOBS
      | some k => fset (fset x.stat F.CELL_STAT.TRAPPED 1) F.CELL_STAT.CAUSE k
    let l := s.loft
    let l1 := { l with
      slots := match j.slot with | some i => l.slots.filter (· != i) | none => l.slots
      bad := if j.work == .map && j.slot.isNone then l.bad else l.bad.filter (fun w => w < j.inBase / 16 || (j.inBase + j.input.length + 15) / 16 ≤ w)
      stat := if cause.isSome then finc l.stat F.LOFT_STAT.TRAPS else l.stat }
    let s1 := (s.withLoft l1).setCell c { x with job := none, stat := st }
    let s2 := s1.jobResult c j cause
    if cause.isSome then s2.report srcCellTrap (c + 256 * j.image) else s2

/-- A job that a block reset of the Loft abandons ends with CELL_TRAP (R393); the cause in CELLc_STAT is not stated and is free (DESIGN CHOICE, log entry 34). -/
def State.dropJob (c : Nat) (s : State) : State :=
  let (v, s1) := s.draw 8
  s1.endJob c (some (256 + v))

/-- A job's stream: its state page is kept outside the pages of zones. -/
def Job.stream (j : Job) : Work × Nat × Nat := (j.work, j.leg, j.item)

/-- State page of a job's stream that is no zone's: what its last job left, and 0 beyond it. -/
def Loft.page (l : Loft) (j : Job) (n : Nat) : List Byte :=
  let bs := ((l.pages.find? (fun p => (p.1, p.2.1, p.2.2.1) == j.stream)).map (·.2.2.2)).getD []
  (List.range n).map (fun i => (bs[i]?).getD 0)

/-- The same, stored. -/
def Loft.storePage (l : Loft) (j : Job) (bs : List Byte) : Loft :=
  { l with pages := (j.work, j.leg, j.item, bs) :: l.pages.filter (fun p => (p.1, p.2.1, p.2.2.1) != j.stream) }

/-- HALT of a user program (R227, R247): the state page goes to the Landing; a zone result whose body is too long traps, and so does a page that cannot be
read (R193). -/
def State.haltUser (c : Nat) (x : Cell) (j : Job) (m : Image) (s : State) : State :=
  let res := s.loft.read (landResult c) resultLen
  if x.bad.any (fun w => decide (m.initBytes ≤ 16 * w) && decide (16 * w < m.initBytes + m.pageBytes)) then (s.loftEcc (.beyond 0) c).endJob c (some 4)
  else if j.work == .zone && j.eval && (userAnswer (s.zone j.item).count res).isNone then s.endJob c (some 1)
  else
    let page := x.bytes (m.initBytes / 2) m.pageBytes
    let s1 :=
      if j.work != .zone then s.withLoft (s.loft.storePage j page)
      else if (s.zone j.item).gen == j.gen then s.withLoft (s.loft.write (landPages + 16 * fget (s.zone j.item).page F.ZONE_PAGE.STATE_AT) page) else s
    (s1.setCell c x).endJob c none

/-! ### Execution of a word -/

/-- The job's view of the Landing (R207). -/
def State.windows (s : State) (c : Nat) (j : Job) (m : Image) : Windows :=
  let part (base : Nat) (bs : List Byte) (a : Nat) : Option (List Byte) :=
    if base ≤ a && a + 16 ≤ base + cdiv bs.length 16 * 16 then some (bytesAt bs (a - base) 16) else none
  { read := fun a => match part j.inBase j.input a with | some b => some b | none => part j.tabBase j.tab a
    spoiled := fun a => s.loft.bad.contains (a / 16)
    writable := fun a => landResult c ≤ a && a + 16 ≤ landResult c + resultLen
    codeWords := m.codeWords
    special := fun k => w32 (([j.inBase, j.tabBase, j.pageBase, landResult c, c, j.trace] : List Nat)[k - 8]?.getD 0) }

/-- The word holds a slot A operation, a slot B operation. -/
def hasA (op : Nat) (w : Nat) : Bool := aOp (w / 2 ^ 32) == op
def hasB (op : Nat) (w : Nat) : Bool := bOp (w % 2 ^ 32) == op
/-- The word holds no operation that Table 12.4 or Table 12.5 lists: no row of the table names it. -/
def hasNone (w : Nat) : Bool :=
  !([0, 1, 2, 3, 4, 5, 6, 7, 8, 9, 10, 11, 16, 17, 18, 19, 24, 25, 26] : List Nat).contains (aOp (w / 2 ^ 32)) && decide (19 < bOp (w % 2 ^ 32))

/-- The Landing address that an LDL in a word names. -/
def Cell.landAt (x : Cell) (w : Nat) : Nat := (x.sReg (bSR (w % 2 ^ 32))).toNat

/-- What a word's read of a Loft memory finds (R193): of the Landing with LDL, else of the cell's data memory. A codeword of the Landing that cannot be corrected
stays so for every job that reads it. -/
def State.readEcc (c w : Nat) (k : ReadCheck) (s : State) : State :=
  if !hasB 5 w then s.loftEcc k c
  else
    let cw := (s.cell c).landAt w / 16
    let s1 := s.loftEcc k (landPlace cw)
    if beyondRepair k then s1.withLoft { s1.loft with bad := cw :: s1.loft.bad } else s1

/-- The job has copied the codeword at a Landing address. -/
def Job.copied (j : Job) (a : Nat) : Job := if a < j.inBase then j else { j with toCopy := j.toCopy.erase ((a - j.inBase) / 16) }

/-- A corner-turn slot is released once its job has copied the whole block (R200). -/
def State.releaseSlot (c : Nat) (s : State) : State :=
  let x := s.cell c
  match x.job with
  | none => s
  | some j =>
    match j.slot with
    | none => s
    | some i =>
      if !j.toCopy.isEmpty then s
      else
        let l := s.loft
        (s.withLoft { l with
          slots := l.slots.filter (· != i)
          bad := l.bad.filter (fun w => w < j.inBase / 16 || (j.inBase + j.input.length + 15) / 16 ≤ w) }).setCell c { x with job := some { j with slot := none } }

/-- The words after which a library program has copied its block: the manual does not print its code (DESIGN CHOICE, log entry 27). -/
def libraryCopies (image : Nat) : Nat := (Config.openValue 5 [image]).toNat

/-- The cell of a slot operation issues its next word (R203, R215). `here`: the word holds the operation. A library program's words are not in the
manual, so each counts as one issued (DESIGN CHOICE, log entry 27). `k`: what a read of the cell's memories finds. -/
def State.issueWord (c : Nat) (here : Nat → Bool) (k : ReadCheck) (s : State) : State :=
  let x := s.cell c
  match x.job with
  | none => s
  | some j =>
    if x.dropped then s.dropJob c
    else if j.budget ≤ x.issued then s.endJob c (some 5)
    else
      match s.loft.image j.image with
      | none =>
        let s1 := s.loftEcc k c
        if beyondRepair k then s1.endJob c (some 4)
        else
          let j1 := if libraryCopies j.image ≤ x.issued + 1 then { j with toCopy := [] } else j
          (s1.setCell c { s1.cell c with issued := x.issued + 1, job := some j1 }).releaseSlot c
      | some m =>
        let w := x.word
        if !here w then s
        else
          let s1 := s.readEcc c w k
          if beyondRepair k then s1.endJob c (some 4)
          else
            match x.issue (s.windows c j m) m.complex w with
            | .trap cause => (if cause = 4 then s1.readEcc c w (.beyond 0) else s1).endJob c (some cause)
            | .halted y => s1.haltUser c y j m
            | .cell y land =>
              let s2 := match land with | some (a, bs) => s1.withLoft (s1.loft.write a bs) | none => s1
              (s2.setCell c (if hasB 5 w then { y with job := some (j.copied (x.landAt w)) } else y)).releaseSlot c

/-- HALT of a library job (R208): its results by the equations of the manual. -/
def State.haltLibrary (c : Nat) (s : State) : State :=
  match (s.cell c).job with
  | some j =>
    if (s.cell c).dropped then s.dropJob c
    else if !isLibrary j.image then s
    else s.endJob c (if j.budget ≤ (s.cell c).issued then some 5 else none)
  | none => s

/-! ### Starting a job (R202, R204, R206) -/

/-- A job is set up on a cell (R204, R206): its program reloaded where the cell holds another, memory from image and state page, every register 0, start at
ENTRY. -/
def State.setUpCell (c : Nat) (j : Job) (s : State) : State :=
  let x := s.cell c
  let fresh : Cell :=
    { stat := x.stat, image := some j.image, job := some j, prog := if x.image = some j.image then x.prog else s.loft.program j.image }
  match s.loft.image j.image with
  | none => s.setCell c fresh
  | some m =>
    let page := if j.work == .zone then s.loft.read j.pageBase m.pageBytes else s.loft.page j m.pageBytes
    let init := s.loft.read (m.at_ + 8 * m.codeWords) m.initBytes ++ page
    let halves := (List.range (init.length / 2)).map (fun i => leAt init (2 * i) 2)
    s.setCell c ({ fresh with pc := m.entry }.setHalves 0 halves)

/-- The stream of a job is not running a job (R202). -/
def Loft.streamIdle (l : Loft) (j : Job) : Bool :=
  !l.cell.toList.any (fun c => match c.job with | some o => o.work == j.work && o.leg == j.leg && o.item == j.item | none => false)

/-- A job starts on the lowest idle cell of its pool; `k`: what reading its image and pages finds (R193). It waits while none is idle. -/
def State.startJob (j : Job) (p : Pool) (k : ReadCheck) (taken : State → State) (s : State) : State :=
  match p.cells.find? (fun c => (s.cell c).job.isNone) with
  | none => s
  | some c =>
    let s1 := ((taken s).loftEcc k 0xFF).setUpCell c j
    if beyondRepair k then s1.endJob c (some 4) else s1

/-- Rows that need no job, and rows that were lost, are counted until one needs a job (R231). Answers that row, its place in the evaluation, whether
it is the last and the first. `fuel`: staged rows. -/
def State.nextZoneRow (z : Nat) : Nat → State → State × Option (ZoneRow × Nat × Bool × Bool)
  | 0, s => (s, none)
  | fuel + 1, s0 =>
    match s0.loft.staged.find? (fun r => (s0.zone z).seen ≤ r.n && (s0.zone z).leg == r.leg && (s0.zone z).source == r.src) with
    | none => (s0, none)
    | some r =>
      let s := (s0.distribute r.frame).advanceZone z r.frame
      let x0 := s.zone z
      if !x0.takes r || r.n < x0.seen then
        (if r.n < x0.seen || (x0.leg == r.leg && x0.source == r.src) then s.setZone z { x0 with seen := max x0.seen (r.n + 1) } else s).nextZoneRow z fuel
      else
        let run0 := if r.opens then { x0.run with rows := 0, settling := false, lag := false, trapped := false, gathered := [] } else x0.run
        let x := if run0.rows = 0 then x0.takePages r.frame else x0
        let lag := x.lostIn r
        let at_ := run0.rows
        let eval := decide (x.every ≤ at_ + 1)
        let (vs, qs) := x.slice r
        let keep := x.program == imgZorder || x.program == imgZmeas
        let run := { run0 with
          rows := at_ + 1, taken := run0.taken + 1, last := some r.pos, settling := run0.settling || r.settling, lag := run0.lag || lag
          gathered := if keep then (x.theta r, vs, qs) :: run0.gathered else [] }
        let s1 := (s.setZone z { x with seen := r.n + 1, run }).putPage z
        if r.lag then ((if eval then s1.evaluate z r ZoneAnswer.none_ else s1).nextZoneRow z fuel)
        else if lastRowOnly x.program && !eval then s1.nextZoneRow z fuel
        else (s1, some (r, at_, eval, run0.taken == 1))

/-- The job of a zone's row. -/
def State.zoneJob (s : State) (z : Nat) (r : ZoneRow) (inEval : Nat) (eval first : Bool) (p : Pool) : Job :=
  let x := s.zone z
  { work := .zone, leg := x.leg, item := z, image := x.program, budget := s.loft.budget p x.program
    inBase := if r.src = 1 then landRows else landCopies, tabBase := match s.loft.image x.program with | some m => if m.tableBytes = 0 then landPages + 16 * fget x.page F.ZONE_PAGE.PARAM_AT else m.tab | none => landPages
    pageBase := landPages + 16 * fget x.page F.ZONE_PAGE.STATE_AT, trace := r.trace, frame := r.frame
    input := x.inputBytes r inEval eval first, tab := s.loft.table x.program ++ x.param, reason := r.reason, row := some r, eval, gen := x.gen }

/-- The next job of a zone starts. -/
def State.startZone (z : Nat) (k : ReadCheck) (s : State) : State :=
  let busy := s.loft.cell.toList.any (fun c => match c.job with | some o => o.work == .zone && o.item == z | none => false)
  if busy then s
  else
    match s.nextZoneRow z (s.loft.staged.length + 1) with
    | (s1, none) => s1
    | (s1, some (r, at_, eval, first)) =>
      let s2 := s1.poolChanges r.frame
      match s2.loft.poolFor .zone (some (s2.zone z).program) r.frame with
      | none => s
      | some (_, p) =>
        if (p.cells.find? (fun c => (s2.cell c).job.isNone)).isNone then s
        else s2.startJob (s2.zoneJob z r at_ eval first p) p k id

/-- A job of a pool's own program: its image, budget and table (R201, R207). -/
def Job.bound (j : Job) (l : Loft) (p : Pool) : Job :=
  let i := p.program
  { j with image := i, budget := l.budget p i, tab := l.table i, tabBase := match l.image i with | some m => m.tab | none => landPages }

/-- The place of the state page of a stream that is no zone's, which the manual does not give (DESIGN CHOICE, log entry 71). -/
def openPage (work leg item : Nat) : Nat := (Config.openValue 6 [work, leg, item]).toNat % 2 ^ 18 * 16

/-- The oldest map job of a group of a leg starts. -/
def State.startMap (leg group : Nat) (k : ReadCheck) (s : State) : State :=
  match s.loft.jobs.find? (fun j => j.leg == leg && j.item == group) with
  | none => s
  | some j =>
    match s.loft.poolFor .map none j.frame with
    | none => s
    | some (_, p) =>
      if !s.loft.streamIdle j then s
      else s.startJob (j.bound s.loft p) p k
        (fun t => t.withLoft { t.loft with jobs := t.loft.jobs.erase j })

/-- The decoding of a leg's complete window starts, on the pool's setting for its first trace (R204). -/
def State.startDecode (leg : Nat) (k : ReadCheck) (s0 : State) : State :=
  match (s0.raman leg).ready with
  | [] => s0
  | w :: _ =>
    let s := s0.poolChanges w.frame
    let j : Job := { work := .raman, leg, item := leg, image := 1, budget := 0, inBase := landRaman, tabBase := landPages
                     pageBase := openPage 2 leg leg, trace := w.first, frame := w.frame, input := [], tab := [] }
    match s.loft.poolFor .raman none w.frame with
    | none => s0
    | some (_, p) => if s.loft.streamIdle j then s.startJob (j.bound s.loft p) p k id else s0

end Sys2Proof.Machine
end

