-- ==== Sys2Proof/Machine/Delivery.lean ====
section
/-! DEFINITION. Blocks for the map, the Loft's scrubber, zone restarts, and what a version of the detector vector takes from the zones (R194, R198 to
R200, R238 to R240, R249). -/

namespace Sys2Proof.Machine

/-! ### BLOCK_DELIVERY -/

/-- Launch frame of merged sample m of the map's count, over all plans. -/
def sampleFrame (base count m : Nat) : Nat := base + m / max 1 count

/-- MAP_SET takes effect (R209): a map that is switched on begins with the first block at or after the frame. -/
def State.applyMapSet (p : Stamped) (s : State) : State :=
  let leg := p.item
  let m := s.mapLeg leg
  let cfg := (wat p.words 1 &&& 0x1FFFD) ||| (m.cfg &&& 2)
  let edge : Vector Word 7 := ⟨((List.range 7).map (fun i => wat p.words (2 + i) &&& 0xFFF)).toArray, by simp⟩
  let f := p.frame.getD 0
  let block := match m.base with
    | some (b, bank, _, _) => if fbit m.cfg F.MAP_CFG.ON then m.block else max m.block (cdiv ((f - b) * max 1 bank.count) 256)
    | none => m.block
  s.setMap leg { m with cfg, edge, block, group := if fbit m.cfg F.MAP_CFG.ON then m.group else 0 }

/-- The rows of the full-rate ring that hold merged samples 256 b to 256 b + 255 of a leg; none where one is missing. -/
def Cellar.blockRows (c : Cellar) (leg base b : Nat) (bank : LegBank) : List (Option RingRow) :=
  let slots := bank.slots
  (List.range 256).map (fun i =>
    let m := 256 * b + i
    let f := sampleFrame base slots.length m
    let sl := (slots[m % max 1 slots.length]?).getD 0
    c.full.rows.find? (fun r => r.leg == leg && r.frame == f && r.row == sl))

/-- Bytes that the rings' writer puts down in 0.5 s under the plan in force (R28). -/
def State.guardBytes (s : State) : Nat :=
  let per (leg : Nat) : Nat := let b := s.legBank leg; if b.on then b.count * (64 + 2 * b.len + b.len / 4) else 0
  (per 0 + per 1) * 200000000 / max 1 s.probe.active.tF

/-- Bytes of a group of a row: 32 values, 8 quality bytes (R146). -/
def Cellar.groupBytes (c : Cellar) (r : RingRow) (len g : Nat) : List Byte × List Byte :=
  if r.overrun then ((List.replicate 32 ()).flatMap (fun _ => leBytes 2 0x8000), List.replicate 8 0xFF)
  else (c.readRing false (r.p + 64 + 64 * g) 64, c.readRing false (r.p + 64 + 2 * len + 8 * g) 8)

/-- The reason word of a row (R146). -/
def Cellar.rowReason (c : Cellar) (r : RingRow) : Nat := ofLeBytes (c.readRing false (r.p + 32) 4) ||| (if r.overrun then bit reOverrun else 0)

/-- Quality codes of four locations a byte. -/
def unpackQuality (bs : List Byte) (i : Nat) : Nat := leAt bs (i / 4) 1 / 4 ^ (i % 4) % 4

/-- The block of Table 11.3. -/
def Cellar.blockBytes (c : Cellar) (leg b g : Nat) (bank : LegBank) (detail : Bool) (rows : List RingRow) (reason : Nat) : List Byte :=
  let parts := rows.map (fun r => c.groupBytes r bank.len g)
  let first := (rows.head?).getD { p := 0, len := 0, leg, row := 0, trace := 0, stamp := 0, frame := 0, boundary := 0 }
  let quality := (List.range 32).flatMap (fun l => packQuality (parts.map (fun q => unpackQuality q.2 l)))
  leBytes 8 first.trace ++ leBytes 8 first.stamp ++ leBytes 8 b ++ leBytes 2 g ++ leBytes 1 leg ++ leBytes 1 (rowFlags detail bank.count) ++
    leBytes 4 reason ++ zeros 32 ++ (List.range 32).flatMap (fun l => parts.flatMap (fun q => bytesAt q.1 (2 * l) 2)) ++ quality

/-- The next place of the map's delivery: group, then block. -/
def MapLeg.step (m : MapLeg) (len : Nat) : MapLeg :=
  if m.group + 1 < groupCount len then { m with group := m.group + 1 } else { m with group := 0, block := m.block + 1 }

/-- The nine band edges of a leg's map in 1/16 bin; the outer ones are whole bins (R209). -/
def MapLeg.edges (m : MapLeg) : List Nat :=
  [16 * fget m.cfg F.MAP_CFG.EDGE0] ++ m.edge.toList.map BitVec.toNat ++ [16 * fget m.cfg F.MAP_CFG.EDGE8]

/-- The map row of a block is opened with its first group. -/
def MapLeg.openRow (m : MapLeg) (leg : Nat) (bank : LegBank) (detail : Bool) (first : RingRow) (reason : Nat) : MapLeg :=
  if m.rows.any (fun r => r.block == m.block) then m
  else
    let p := if detail then 10 else 40
    { m with rows := m.rows ++ [{
        leg, block := m.block, trace := first.trace, frame := first.frame, slot := first.row, len := bank.len
        stamp := first.stamp + 10 * bank.headDelay + bank.gauge % 2 * (p / 2)
        flags := rowFlags detail bank.count, reason := reason % 2 ^ 11, tach := first.tach, edges := m.edges, groups := [] }] }

/-- BLOCK_DELIVERY (R24, R28, R198 to R200): the next group of the next block of a leg. -/
def execBlockDelivery (leg : Fin 2) (s : State) : Res :=
  let n := leg.val
  match (s.mapLeg n).base with
  | none => .next s
  | some (base, bank, detail, tF) =>
    let start (m : MapLeg) : Nat := sampleFrame base bank.count (256 * m.block)
    let due := if (s.mapLeg n).group = 0 then start (s.mapLeg n) else 0
    let s := (s.applyDue (pickLeg cMapSet n) (if fbit (s.mapLeg n).cfg F.MAP_CFG.ON then due else s.globalFrame (s.frameAt s.now)) State.applyMapSet)
    let m := s.mapLeg n
    let c := s.cellar
    let found := c.blockRows n base m.block bank
    let rows := found.filterMap id
    let lastFrame := sampleFrame base bank.count (256 * m.block + 255)
    let written := c.full.rows.any (fun r => r.leg == n && lastFrame < r.frame) || found.all Option.isSome
    let last := (rows.getLast?).getD { p := 0, len := 0, leg := n, row := 0, trace := 0, stamp := 0, frame := 0, boundary := 0 }
    let copyable := decide (last.boundary + sec / 2 + 10 * tF ≤ s.now)
    if !s.power.loft || !fbit s.loft.cfg F.LOFT_CFG.ENABLE || !fbit m.cfg F.MAP_CFG.ON || !bank.on || !written || !copyable then .next s
    else
      let near := rows.any (fun r => r.p + c.full.size < c.full.pos + c.full.taken + s.guardBytes)
      let spoiled := rows.any (fun r => c.ringSpoiled false (r.p + 64 + 64 * m.group) 64 || c.ringSpoiled false (r.p + 64 + 2 * bank.len + 8 * m.group) 8)
      let withheld := found.any Option.isNone || near || spoiled
      let reason := rows.foldl (fun a r => a ||| c.rowReason r) 0
      let first := (rows.head?).getD last
      let m1 := m.openRow n bank detail first reason
      if withheld then
        let s1 := (s.setMap n (m1.step bank.len)).mapResult n m.block (groupLost m.group (bit 16))
        .next ((s1.withLoft { s1.loft with stat := fset s1.loft.stat F.LOFT_STAT.LAG 1 }).report srcLoftLag n)
      else
        match (List.range 48).find? (fun i => !s.loft.slots.contains i) with
        | none => .next s
        | some i =>
          let bs := c.blockBytes n m.block m.group bank detail rows reason
          let j : Job := { work := .map, leg := n, item := m.group, block := m.block, image := 0, budget := 0, slot := some i, inBase := landSlot i
                           tabBase := landPages, pageBase := openPage 0 n m.group, trace := first.trace, frame := first.frame, input := bs, tab := [], reason
                           toCopy := List.range (cdiv bs.length 16) }
          let s1 := s.setMap n (m1.step bank.len)
          let s2 := s1.poolChanges first.frame
          .next (s2.withLoft { s2.loft with slots := s2.loft.slots ++ [i], jobs := s2.loft.jobs ++ [j] })

/-! ### LOFT_SCRUB -/

/-- LOFT_SCRUB (R193, R194): one codeword of a Loft memory. -/
def execLoftScrub (m : LoftMemory) (k : ReadCheck) (s : State) : Res :=
  if !s.power.loft || !fbit s.loft.cfg F.LOFT_CFG.SCRUB_EN then .next s
  else
    match m with
    | .data c cw =>
      let s1 := s.loftEcc k c.val
      .next (if beyondRepair k then let x := s1.cell c.val; s1.setCell c.val { x with bad := x.bad ++ [cw.val] } else s1)
    | .program c =>
      let s1 := s.loftEcc k c.val
      .next (if beyondRepair k then (let x := s1.cell c.val; (s1.setCell c.val { x with image := none }).endJob c.val (some 4)) else s1)
    | .landing cw =>
      let s1 := s.loftEcc k (landPlace cw.val)
      .next (if beyondRepair k then s1.withLoft { s1.loft with bad := s1.loft.bad ++ [cw.val] } else s1)

/-! ### ZONE_RESTART -/

/-- ZONE_RESTART (R240): the restarts and changes of a zone that are due at the next version's frame take effect. -/
def execZoneRestart (z : Fin 256) (s : State) : Res :=
  match s.loft.vec.next with
  | none => .next s
  | some f => .next ((s.distribute f).advanceZone z.val f)

/-! ### What a version takes (R238, R239, R249) -/

/-- Frame of the last row of a zone's next evaluation, while its producer runs (R239): none where it makes no evaluations. `upTo`: MAP_SETs that take effect
by that frame count; after an off and an on the earliest frame is answered. -/
def State.nextEvaluation (s : State) (x : Zone) (upTo : Nat) : Option Nat :=
  let leg := x.leg
  let left := x.every - 1 - min (x.every - 1) x.run.rows
  let b := s.legBank leg
  if !b.on then none
  else
    match x.from_, x.source with
    | none, _ => none
    | some f, 0 =>
      match (s.mapLeg leg).base with
      | some (base, _, _, _) =>
        let from_ (g : Nat) : Nat := max 1 (cdiv ((max f g - base) * b.count) 256)
        let last (g : Nat) : Nat := sampleFrame base b.count (256 * ((match x.run.last with | some p => max (p + 1) (from_ g) | none => from_ g) + left))
        let turns := (s.changesTo (pickLeg cMapSet leg) upTo).map (fun p => (p.frame.getD 0, fbit (wat p.words 1) F.MAP_CFG.ON))
        if fbit (s.mapLeg leg).cfg F.MAP_CFG.ON then
          match turns.find? (fun t => !t.2) with
          | none => some (last f)
          | some (g, _) => if last f < g then some (last f) else (turns.filter (·.2)).getLast?.map (·.1)
        else (turns.find? (·.2)).map (fun t => last t.1)
      | none => none
    | some f, 1 =>
      let c := (s.hall leg).chain
      if !fbit c.cfg F.CHAIN_CFG.ENABLE then none
      else
        let r := respR c.now
        let reset := s.globalFrame (s.frameOf leg b.lowest c.resetTrace) * b.count
        let n := match x.run.last with | some p => p + r | none => reset + cdiv (f * b.count - reset + 1) r * r - 1
        some ((n + left * r) / max 1 b.count)
    | some f, _ =>
      let r := s.raman leg
      if !fbit r.stat F.RAMAN_STAT.RUNNING then none
      else
        let w := r.spans * r.spanFrames
        let n := match x.run.last with | some p => p + w | none => r.startFrame + cdiv (f - r.startFrame) w * w
        some (n + left * w + w - 1)

/-- A change of a zone's filter chain or Raman channel is due by frame f and still waits for its rows. -/
def State.producerChanges (s : State) (x : Zone) (f : Nat) : Bool :=
  let code := if x.source = 1 then [cChainSet, cChainReset] else if x.source = 2 then [cTempSet] else []
  (s.legBank x.leg).on && s.fw.stamped.any (fun p => code.contains p.code && p.item == x.leg && p.dueAt f)

/-- Every enabled zone has delivered every evaluation that applies at or before a frame (R239); at a frame of the plan before, what has been delivered
applies, since that plan's windows have ended. -/
def State.delivered (s : State) (f : Nat) : Bool :=
  decide (f < s.probe.frameBase) || s.loft.zone.toList.all (fun x =>
    !x.on || (!s.producerChanges x f && match s.nextEvaluation x f with
      | some e => decide (f < e + x.delay) || (!s.probe.running && decide (s.probe.frontier ≤ e))
      | none => true))

/-- An ALARM message is queued on every carrier that takes events; on a full queue it is dropped and counted there (R250). -/
def State.alarm (payload : List Word) (s : State) : State :=
  let u := (List.range 18).foldl (fun t q =>
    if !t.eventQueueUsed q then t
    else
      let n := vget t.fw.eventSeq q 0
      let held := vget t.fw.alarms q []
      let fw := { t.fw with eventSeq := vset t.fw.eventSeq q ((n + 1) % 2 ^ 32) }
      if held.length < 1024 then { t with fw := { fw with alarms := vset fw.alarms q (held ++ [⟨evAlarm, n, payload, t.fw.order, none⟩]) } }
      else { t with fw := { fw with alarmDropped := vmod fw.alarmDropped q (fun d => min 65535 (d + 1)) } }) s
  { u with fw := { u.fw with order := u.fw.order + 1 } }

/-- POSITION_CM of a location (R9, R134), rounded half away from zero; n_g in 1/10,000. -/
def positionCm (location gauge ng : Nat) (detail : Bool) : Nat :=
  (divHalfAway (((2 * location + gauge % 2) * 299792458 : Nat) : Int) (400 * ng * (if detail then 4 else 1))).toNat

/-- Payload of an ALARM (Table 13.7) of an evaluation that ended in a frame: positions by the plan of that frame (R8); DROPPED is filled in as it is sent. -/
def State.alarmWords (s : State) (z : Nat) (x : Zone) (frame applyTime trace index det kind : Nat) (edges : List AlarmEdge) : List Word :=
  let p := s.planAt frame
  let b := p.bank.legBank x.leg
  wordsOfBytes (leBytes 8 applyTime ++ leBytes 8 trace ++ leBytes 2 z ++ leBytes 1 x.leg ++ leBytes 1 edges.length ++ leBytes 4 index ++ zeros 2 ++
    leBytes 1 det ++ leBytes 1 kind ++ zeros 4 ++
    edges.flatMap (fun e => leBytes 1 e.det ++ leBytes 1 e.set.toNat ++ leBytes 1 e.count ++ leBytes 1 e.mode ++ leBytes 2 e.value ++
      leBytes 2 e.mean ++ leBytes 4 e.location ++ leBytes 4 (positionCm e.location b.gauge (s.probe.ngAt frame) (p.mode == modeDetail))))

/-- The result record of an evaluation that applies is written (R248). -/
def State.writeRecord (z : Nat) (e : Evaluation) (s : State) : State :=
  if e.clear then s
  else
    let (s1, store) := s.appendStore 5 s.loft.zoneStore
      { p := 0, len := 0, leg := e.leg, item := z, trace := e.trace, stamp := e.applyTime, frame := e.rowFrame } e.record
    s1.withLoft { s1.loft with zoneStore := store }

/-- A zone's part of version f: its evaluations that apply, in order, with their records; alarms for edges, and for bits that a restart clears. -/
def State.commitZone (f z : Nat) (s : State) : State :=
  let x := s.zone z
  let now := x.waiting.filter (fun e => e.applyFrame ≤ f)
  if now.isEmpty then s
  else
    let s1 := now.foldl (fun t e => t.writeRecord z e) (s.setZone z { x with waiting := x.waiting.filter (fun e => f < e.applyFrame) })
    let edges := now.flatMap (·.edges)
    let (s2, bits) := now.foldl (fun (a : State × Nat) e =>
      if e.clear then
        (if a.2 = 0 then a.1 else a.1.alarm (a.1.alarmWords z x e.frame e.applyTime allOnes64 0xFFFFFFFF 0 1 []), 0)
      else (a.1, e.det)) (s1, x.bits)
    let s3 := s2.setZone z { s2.zone z with bits := bits }
    match (now.filter (fun e => !e.clear)).getLast? with
    | some e => if edges.isEmpty then s3 else s3.alarm (s3.alarmWords z x e.frame e.applyTime e.trace e.index e.det 0 (edges.take 8))
    | none => s3

/-- The vector of the zones' bits: 64 words. -/
def Loft.vector (l : Loft) : Vector Word 64 :=
  ⟨((List.range 64).map (fun i => w32 ((List.range 4).foldl (fun a k => a + (vget l.zone (4 * i + k) {}).bits % 256 * 2 ^ (8 * k)) 0))).toArray, by simp⟩

end Sys2Proof.Machine
end

