-- ==== Sys2Proof/Machine/TimeCore.lean ====
section
/-! DEFINITION. The time base's own rules: status, steps, holdover, TIU arithmetic, tach snapshots (R267 to R282). -/

namespace Sys2Proof.Machine

/-! ### Status and source (R269, R272) -/

/-- This device is master of its ring. -/
def State.cwMaster (s : State) : Bool := fbit s.cw.stat F.CW_STAT.MASTER

/-- The ring has two or more members. -/
def State.cwRing (s : State) : Bool := s.cw.stable && decide (2 ≤ s.cw.ring.length) && decide (s.cw.ring.length ≤ 8)

/-- The discipline source in use: SRC 6 on every ring member but the master (R269). -/
def State.srcInUse (s : State) : Nat := if s.cwRing && !s.cwMaster then 6 else fget s.time.cfg F.TB_CFG.SRC

/-- Seconds in holdover, saturating (Table 15.10). -/
def TimeBase.holdSeconds (t : TimeBase) : Nat :=
  match t.holdUp with
  | none => 0
  | some u => min ((t.up - u) / sec) (2 ^ 24 - 1)

/-- TIME_STAT as it reads. -/
def State.timeStatWord (s : State) : Word :=
  fset (fsetB (fset s.time.timeStat F.TIME_STAT.SRC s.srcInUse) F.TIME_STAT.HOLDOVER s.time.holdUp.isSome)
    F.TIME_STAT.HOLD_SECONDS s.time.holdSeconds

/-- A change of time status sends TIME_STATE (Table 20.4); the running seconds alone are no change. -/
def State.timeStatus (f : State → State) (s : State) : State :=
  let t := f s
  if fset t.timeStatWord F.TIME_STAT.HOLD_SECONDS 0 = fset s.timeStatWord F.TIME_STAT.HOLD_SECONDS 0 then t
  else t.emit evTimeState [t.timeStatWord]

/-- A bit of TIME_STAT set. -/
def State.setTimeStat (f : Fld) (b : Bool) (s : State) : State :=
  { s with time := { s.time with timeStat := fsetB s.time.timeStat f b } }

/-- The mean of a list, rounded half away from zero. -/
def meanOf (l : List Int) : Int := divHalfAway l.sum l.length

/-- Holdover begins: TB_STEER, while steering is enabled, holds the mean estimate of the last 60 s of lock, and TIME_HOLDOVER is raised (R272). -/
def State.enterHoldover (s : State) : State :=
  if s.time.holdUp.isSome then s
  else
    let t := s.time
    let mean := if t.freqLog.isEmpty then t.freqEst else meanOf (t.freqLog.map (·.2))
    let steer := if fbit t.cfg F.TB_CFG.ENABLE then w32 (wrapTo 32 mean) else t.steer
    let s1 := { s with time := { t with holdUp := some t.up, freqEst := mean, steer
                                        timeStat := fset t.timeStat F.TIME_STAT.LOCKED 0 } }
    s1.setCondition srcTimeHoldover true 0

/-- Holdover ends; both causes are gone (R272). -/
def State.leaveHoldover (s : State) : State :=
  if s.time.holdUp.isNone then s
  else ({ s with time := { s.time with holdUp := none } }.setCondition srcTimeHoldover false 0).setCondition
    srcTimeHoldoverLimit false 0

/-- The input that gives the source in use its frequency (Table 15.2): 0 none, 1 REF_10M, 2 PPS_IN, 3 PTP, 4 ring master. -/
def State.freqInput (s : State) : Nat :=
  match s.srcInUse with
  | 1 => 1 | 2 => 1 | 5 => 1 | 3 => 2 | 4 => 3 | 6 => 4 | _ => 0

/-- The input that gives the source in use its frequency is present (Table 15.3, which says nothing of the ring master). -/
def State.freqPresent (s : State) : Bool :=
  match s.freqInput with
  | 1 => fbit s.time.timeStat F.TIME_STAT.REF_PRESENT
  | 2 => fbit s.time.timeStat F.TIME_STAT.PPS_PRESENT
  | 3 => fbit s.time.timeStat F.TIME_STAT.PTP_PRESENT
  | _ => true

/-- The source in use is judged: a source other than `old` has given no lock and no phase yet (log entry 77), and holdover is as its input is
(R272). -/
def State.judgeSource (old : Nat) (s : State) : State :=
  let t := if s.srcInUse = old then s
    else State.setTimeStat F.TIME_STAT.LOCKED false { s with time := { s.time with phasedBy := none } }
  if t.freqPresent then t.leaveHoldover else t.enterHoldover

/-- The Causeway's members or its master change, and with them the source in use may (R269). -/
def State.changeRing (f : State → State) (s : State) : State :=
  s.timeStatus (fun u => let v := f u; if v.srcInUse = u.srcInUse then v else v.judgeSource u.srcInUse)

/-- Device time becomes `t` (R270): it is loaded into TB_SET, and TB_CTRL.STEP moves the epoch. -/
def State.stepTime (t : Nat) (s : State) : State :=
  { s with time := { s.time with
      epoch := (t + (2 ^ 64 - s.time.up % 2 ^ 64)) % 2 ^ 64, setLo := w32 t, setHi := w32 (t / 2 ^ 32) } }

/-- A source's phase error in units of 0.25 ns (device time less the source's): stepped out when the source first gives the phase,
no plan runs and it is beyond 1 µs; otherwise slewed, and TIME_OFFSET holds while it is beyond 10 ms (R270). -/
def State.phaseGiven (err : Int) (s : State) : State :=
  let first := s.time.phasedBy != some s.srcInUse
  let s1 := { s with time := { s.time with phasedBy := some s.srcInUse } }
  if first && !s.planRuns && decide (4000 < err.natAbs) then
    (s1.stepTime (wrapTo 64 ((s1.now : Int) - err))).setCondition srcTimeOffset false 0
  else s1.setCondition srcTimeOffset (decide (40000000 < err.natAbs)) 0

/-- Device time less the nearest whole second (R270: the edge marks the boundary of the nearest whole second). -/
def secondError (t : Nat) : Int :=
  let r := t % sec
  if 2 * r ≤ sec then (r : Int) else (r : Int) - sec

/-- Three edges, each 1 s ± 1 µs after the one before (R271). -/
def edgesAgree : List Nat → Bool
  | a :: b :: c :: _ =>
    decide (((a : Int) - b - sec).natAbs ≤ 4000) && decide (((b : Int) - c - sec).natAbs ≤ 4000)
  | _ => false

/-! ### TIU (R276, R277) -/

/-- k₁ or k₂: the mean of 16 codes, rounded half away from zero. -/
def tiuMean (codes : List Int) : Int := divHalfAway codes.sum codes.length

/-- K1 and K2 as TIU_CAL holds them. -/
def Tiu.k1 (t : Tiu) : Int := sx 16 (fget t.cal F.TIU_CAL.K1)
def Tiu.k2 (t : Tiu) : Int := sx 16 (fget t.cal F.TIU_CAL.K2)

/-- τ = rha((k − k₀) × 2,560 / (k₂ − k₁)), k₀ = 2k₁ − k₂ (R277). -/
def Tiu.tau (t : Tiu) (code : Int) : Int :=
  divHalfAway ((code - (2 * t.k1 - t.k2)) * 2560) (t.k2 - t.k1).toNat

/-- The stop result R (R277). -/
def Tiu.result (t : Tiu) (count : Nat) (code : Int) : Int :=
  ((count : Int) - t.startCount) * 2560 + t.tau t.startCode - t.tau code

/-- TIU_STAT as it reads: BUSY while a measurement runs. -/
def Tiu.statWord (t : Tiu) : Word := fsetB t.stat F.TIU_STAT.BUSY (t.phase != .idle)

/-- Stops in use. -/
def Tiu.stops (t : Tiu) : Nat := fget t.cfg F.TIU_CFG.NSTOP + 1

/-- Every stop in use has been seen. -/
def Tiu.allSeen (t : Tiu) : Bool := (List.range t.stops).all (fun j => nbit (fget t.stat F.TIU_STAT.SEEN) j)

/-- The response of TIU_MEASURE: TIU_STAT; K1 and K2; TIU_RES0 to 7. -/
def Tiu.items (t : Tiu) : List Word := [t.statWord, w32 (wrapTo 32 t.k1), w32 (wrapTo 32 t.k2)] ++ t.res.toList

/-- A waiting TIU_MEASURE is answered. -/
def State.tiuAnswer (e : Err) (s : State) : State :=
  match s.tiu.asker with
  | none => s
  | some (c, tag) =>
    let items := if e.status = .ok then s.tiu.items else []
    ({ s with tiu := { s.tiu with asker := none } }).reply c s.tiu.askerUdp 0x06A tag e.status.num e.detail e.index items
/-! ### Tach (R278 to R282) -/

/-- COUNT now. -/
def Tach.count (t : Tach) : Nat := match t.trail with | [] => 0 | (_, _, c) :: _ => c

/-- TACHk_PERIOD: e₁ − e₀, saturating; all ones with fewer than two edges (R282). -/
def Tach.period (t : Tach) : Nat :=
  match t.trail with
  | (a, _, _) :: (b, _, _) :: _ => min (a - b) 0xFFFFFFFF
  | _ => 0xFFFFFFFF

/-- The snapshot word Θ at device time `t` (R279). -/
def Tach.snapshot (k : Tach) (t : Nat) : Nat :=
  match k.trail.filter (fun e => e.1 ≤ t) with
  | [] => 0
  | [(_, _, c)] => c * 65536 % 2 ^ 64
  | (e1, up1, c) :: (e0, up0, _) :: _ =>
    let f := if up1 != up0 then 0 else if e1 = e0 then 65535 else min 65535 (65536 * (t - e1) / (e1 - e0))
    if up1 then (c * 65536 + f) % 2 ^ 64 else (c * 65536 + 2 ^ 64 - f) % 2 ^ 64

/-- An edge is counted (R279): COUNT steps by one, STOPPED clears, DIR shows the direction. Edges older than `keep`, but for the two
newest of them, are let go. -/
def Tach.countEdge (k : Tach) (t : Nat) (up : Bool) (nowUp keep : Nat) : Tach :=
  let c := if up then (k.count + 1) % 2 ^ 48 else (k.count + 2 ^ 48 - 1) % 2 ^ 48
  let all := (t, up, c) :: k.trail
  { k with
    trail := all.filter (fun e => keep < e.1) ++ (all.filter (fun e => e.1 ≤ keep)).take 2
    stat := fsetB (fset k.stat F.TACH_STAT.STOPPED 0) F.TACH_STAT.DIR (!up)
    sinceUp := nowUp }

/-- Enabling clears COUNT and the edge history; STOPPED reads 1 until the first counted edge (R280). -/
def Tach.enable (k : Tach) (nowUp : Nat) : Tach :=
  { k with trail := [], stat := fset (fset k.stat F.TACH_STAT.STOPPED 1) F.TACH_STAT.DIR 0, sinceUp := nowUp }

/-- Belt speed in µm/s (R282). -/
def Tach.speed (k : Tach) : Int :=
  if fbit k.stat F.TACH_STAT.STOPPED || k.trail.length < 2 || k.period == 0xFFFFFFFF || k.period == 0 then 0
  else
    let v : Int := k.distanceNm * 4000000 / k.period
    if fbit k.stat F.TACH_STAT.DIR then -v else v

/-- The front domain powers up: firmware writes TACHk_CFG and TACHk_STALL back, and every enabled tach starts as at enabling (R281). -/
def Tach.powerUp (k : Tach) (nowUp : Nat) : Tach :=
  let k := { k with cfg := k.cfgCopy, stall := k.stallCopy }
  if fbit k.cfg F.TACH_CFG.ENABLE then k.enable nowUp else { k with trail := [] }

/-- The front domain is powered. -/
def State.powerFront (s : State) : State :=
  if s.power.front then s
  else { s with power := { s.power with front := true }, tach := s.tach.map (fun (k : Tach) => k.powerUp s.time.up) }

end Sys2Proof.Machine
end

