-- ==== Sys2Proof/Machine/TriggerCore.lean ====
section
/-! DEFINITION. Trigger units: settings, limits, the state machine, firing (R255 to R261). -/

namespace Sys2Proof.Machine

def State.unit (s : State) (u : Nat) : TrigUnit := vget s.trig.units u {}
def State.setUnit (u : Nat) (x : TrigUnit) (s : State) : State := { s with trig := { s.trig with units := vset s.trig.units u x } }

/-! ### Settings (Table 14.5) -/

def TrigConfig.on (c : TrigConfig) : Bool := fbit c.cfg F.TRIG_CFG.ENABLE
def TrigConfig.ring (c : TrigConfig) : Bool := fbit c.cfg F.TRIG_CFG.RING
def TrigConfig.group (c : TrigConfig) : Nat := fget c.cfg F.TRIG_CFG.GROUP
def TrigConfig.hasLeg (c : TrigConfig) (leg : Nat) : Bool := nbit (fget c.cfg F.TRIG_CFG.LEGS) leg
def TrigConfig.dec (c : TrigConfig) : Bool := fbit c.cfg F.TRIG_CFG.HIST
def TrigConfig.overview (c : TrigConfig) : Bool := fbit c.cfg F.TRIG_CFG.OVERVIEW
def TrigConfig.preN (c : TrigConfig) : Nat := c.pre.toNat % 2 ^ 24
def TrigConfig.postN (c : TrigConfig) : Nat := c.post.toNat % 2 ^ 24
def TrigConfig.holdN (c : TrigConfig) : Nat := c.hold.toNat % 2 ^ 24
def TrigConfig.firstN (c : TrigConfig) : Nat := c.first.toNat % 2 ^ 17
def TrigConfig.countN (c : TrigConfig) : Nat := c.count.toNat % 2 ^ 17
def TrigConfig.periodN (c : TrigConfig) : Nat := max 1 (c.period.toNat % 2 ^ 24)
def TrigConfig.intervalN (c : TrigConfig) : Nat := max 2 (c.interval.toNat % 2 ^ 17)

/-- The words of a TRIG_SET: TRIGu_CFG to TRIGu_PERIOD, VALUE and CARE in bulk. -/
def TrigConfig.ofWords (ws : List Word) (bulk : List Byte) : TrigConfig :=
  let vs := wordsOfBytes bulk
  { cfg := wat ws 0, pre := wat ws 1, post := wat ws 2, hold := wat ws 3, first := wat ws 4, count := wat ws 5, interval := wat ws 6
    period := wat ws 7, value := vs.take 64, care := (vs.drop 64).take 64, holdMin := (wat ws 3).toNat % 2 ^ 24 == 0 }

/-- Slice of a raw record, or interval of an overview, in bytes (R264, R265). -/
def TrigConfig.sliceBytes (c : TrigConfig) : Nat := 64 + 2 * c.countN + c.countN / 4
def TrigConfig.intervalBytes (c : TrigConfig) : Nat := 16 + 4 * c.countN + c.countN / 4

/-- Rows of a leg in n frames: S a frame, or one per R merged samples, rounded up. -/
def legRows (bank : LegBank) (r n : Nat) : Nat := cdiv (n * bank.count) (max 1 r)

/-- Body of a record under a plan (R258); `r`: R of each leg's chain. -/
def TrigConfig.bodyBytes (c : TrigConfig) (b : Bank) (r : Nat → Nat) : Nat :=
  ((List.range 2).map (fun leg =>
    let lb := b.legBank leg
    if !c.hasLeg leg || !lb.on then 0
    else
      let n := legRows lb (if c.dec then r leg else 1) (c.preN + c.postN)
      if c.overview then 64 + cdiv n c.intervalN * c.intervalBytes else n * c.sliceBytes)).sum

/-- R of a leg's chain. -/
def State.legR (s : State) (leg : Nat) : Nat := respR (fget (vget s.halls.leg leg {}).chain.resp F.CHAIN_RESP.RESP)

/-- The minimum HOLD under a plan (R259): B includes the 512 B header. -/
def State.holdMin (s : State) (c : TrigConfig) (b : Bank) : Nat :=
  let bytes := c.bodyBytes b s.legR + 512
  cdiv 200000000 (max 1 b.tF) + 1 + cdiv bytes (4 * max 1 b.tF)

/-- Bytes that a plan writes to a ring in a frame, as a fraction. -/
def State.ringBytes (s : State) (dec : Bool) (b : Bank) : Nat × Nat :=
  let per (leg : Nat) : Nat := let lb := b.legBank leg; if !lb.on then 0 else lb.count * (64 + 2 * lb.len + lb.len / 4)
  if dec then (per 0 * s.legR 1 + per 1 * s.legR 0, s.legR 0 * s.legR 1) else (per 0 + per 1, 1)

/-- The span of a unit breaks R258 under a plan: ring time, size, locations. -/
def State.trigSpanBad (s : State) (c : TrigConfig) (b : Bank) : Bool :=
  let off := c.firstN % 4 != 0 || c.countN % 4 != 0 || decide (c.countN < 4)
  let legs := (List.range 2).any (fun leg => c.hasLeg leg && (b.legBank leg).on && decide ((b.legBank leg).len < c.firstN + c.countN))
  let ring := if c.dec then s.cellar.dec.size else s.cellar.full.size
  let rate := s.ringBytes c.dec b
  let back := decide (ring * b.tF * rate.2 < (c.preN * b.tF + 200000000) * rate.1)
  let body := c.bodyBytes b s.legR
  off || legs || (b.tF != 0 && (back || decide (2 ^ 30 < body) || decide (s.cellar.regionSize 8 < body)))

/-! ### Changes that fall due (R255, R256, R266) -/

/-- The counts are cleared and the unit is IDLE. -/
def TrigUnit.idle (x : TrigUnit) : TrigUnit := { x with state := .idle, stat := fset x.stat F.TRIG_STAT.WAITING 0 }

/-- TRIG_SET at its frame (R255, R266): VALUE and CARE always; the other fields only where ENABLE was 0. Answers whether a write was ignored. -/
def TrigUnit.configure (x : TrigUnit) (n : TrigConfig) : TrigUnit × Bool :=
  let was := x.c.on
  let cfg := (n.cfg &&& 0x1FFF) ||| (x.c.cfg &&& 0xE000)
  let c1 : TrigConfig := if was then { x.c with cfg := fset x.c.cfg F.TRIG_CFG.ENABLE (fget n.cfg F.TRIG_CFG.ENABLE), value := n.value, care := n.care }
    else { n with cfg }
  let differs := was && (cfg &&& 0x1FFE != x.c.cfg &&& 0x1FFE || n.pre != x.c.pre || n.post != x.c.post || n.hold != x.c.hold || n.first != x.c.first
    || n.count != x.c.count || n.interval != x.c.interval || n.period != x.c.period)
  let x1 := { x with c := c1 }
  (if was && !c1.on then { x1.idle with early := 0, rearms := 0 } else x1, differs)

/-- The fill begins at a frame. -/
def TrigUnit.fill (x : TrigUnit) (a : Nat) : TrigUnit := { x.idle with state := .filling, armFrame := a }

/-- A bit of TRIGu_CTRL clears when it is applied (Table 14.5). -/
def TrigUnit.ctrlDone (x : TrigUnit) (f : Fld) : TrigUnit := { x with ctrl := fset x.ctrl f 0 }

/-- One change that is due (Tables 14.1 and 14.2). -/
def TrigUnit.applyDue (x : TrigUnit) (a : Nat) (d : TrigDue) : TrigUnit :=
  match d with
  | .config n => (x.configure n).1
  | .arm => let y := x.ctrlDone F.TRIG_CTRL.ARM; if y.c.on && y.state = .idle then y.fill a else y
  | .armRing g => if x.c.on && x.c.ring && x.c.group = g && x.state = .idle then x.fill a else x
  | .disarm => x.idle.ctrlDone F.TRIG_CTRL.DISARM
  | .fire => { x with fires := x.fires ++ [a] }.ctrlDone F.TRIG_CTRL.FIRE
  | .restart => if x.state = .idle then { x with wasLive := false } else { x.fill a with wasLive := false }
  | .resume => if x.wasLive && x.c.on then { x.fill a with wasLive := false } else { x with wasLive := false }
  | .stop survey => { x.idle with prevMatch := true, fires := [], wasLive := survey && (x.wasLive || x.state != .idle) }

/-- Every change due at or before a version. -/
def TrigUnit.advance (x : TrigUnit) (f : Nat) : TrigUnit :=
  let now := x.due.filter (fun e => e.1 ≤ f)
  now.foldl (fun y e => y.applyDue e.1 e.2) { x with due := x.due.filter (fun e => f < e.1) }

/-- A TRIG_SET that is due finds RWE fields changed while ENABLE is 1. -/
def TrigUnit.ignores (x : TrigUnit) (f : Nat) : Bool :=
  x.due.any (fun e => e.1 ≤ f && match e.2 with | .config n => (x.configure n).2 | _ => false)

/-- Waiting OMP changes of the units that are due at a frame go to the units they name; a stated HOLD of 0 becomes the minimum (R259). -/
def State.distributeTrig (frame : Nat) (s : State) : State :=
  let give (u f : Nat) (d : TrigDue) (t : State) : State := let x := t.unit u; t.setUnit u { x with due := x.due ++ [(f, d)] }
  let pick (p : Stamped) : Bool := p.code == cTrigSet || p.code == cArm || p.code == cDisarm || p.code == cFire
  s.applyDue pick frame (fun p t =>
    let f := p.frame.getD frame
    if p.code == cTrigSet then
      let n := TrigConfig.ofWords (p.words.drop 1) p.bulk
      give (p.item % 16) f (.config (if n.holdMin then { n with hold := w32 (t.holdMin n t.probe.active % 2 ^ 24) } else n)) t
    else if p.code == cFire then give (p.item % 16) f .fire t
    else (onesOf (wat p.words 0).toNat 16).foldl (fun v u => give u f (if p.code == cArm then .arm else .disarm) v) t)

/-! ### Conditions at a version (R255, R260) -/

/-- ((V XOR VALUE) AND CARE) = 0. -/
def TrigConfig.pattern (c : TrigConfig) (v : List Word) : Bool :=
  (List.range 64).all (fun i => ((wat v i ^^^ wat c.value i) &&& wat c.care i) == 0)

/-- The pattern, host and timer sources at frame f: bits 0, 1, 2. `prev`: the pattern held at the version before. -/
def TrigUnit.sources (x : TrigUnit) (f : Nat) (v : List Word) (prev : Bool) : Nat :=
  let c := x.c
  let pat := fbit c.cfg F.TRIG_CFG.SRC_PAT && c.pattern v && (!fbit c.cfg F.TRIG_CFG.EDGE || !prev)
  let host := fbit c.cfg F.TRIG_CFG.SRC_HOST && x.fires.contains f
  let a := x.armFrame + c.preN
  let timer := fbit c.cfg F.TRIG_CFG.SRC_TIMER && x.state != .idle && decide (a ≤ f) && (f - a) % c.periodN == 0
  pat.toNat + 2 * host.toNat + 4 * timer.toNat

/-- Serials whose verdicts a ring unit awaits for the version of a frame time (R260, R338); a device that is in no ring awaits its own. -/
def State.awaits (s : State) (time : Nat) : List Nat :=
  if s.cwRing then (match s.cw.awaited.find? (fun a => a.1 ≤ time) with | some a => a.2 | none => s.cw.ring) else [s.host.serial]

/-- The verdict of a device for a frame time, once it is held. -/
def State.verdictOf (s : State) (d time : Nat) : Option Verdict := s.trig.verdicts.find? (fun v => v.device == d && v.time == time)

/-! ### Firing (R257, R258, R261) -/

/-- Frame at which a ring restart, or the end of a plan, ends a record that starts at f: the first after it that the unit knows of. -/
def TrigUnit.restartAfter (x : TrigUnit) (f : Nat) : Option Nat :=
  (x.due.filter (fun e => f < e.1 && (match e.2 with | .restart => true | .stop _ => true | _ => false))).head?.map (·.1)

/-- Records in the order of R262: F, then unit; one that the copier has taken stays in front. -/
def insertRecord (r : Record) : List Record → List Record
  | [] => [r]
  | x :: xs => if x.seq.isNone && (r.fireFrame < x.fireFrame || (r.fireFrame == x.fireFrame && r.unit < x.unit)) then r :: x :: xs else x :: insertRecord r xs

/-- Trace of a leg's lowest active slot row at a frame; all ones where the leg is not selected or is off. -/
def State.fireTrace (s : State) (c : TrigConfig) (leg f : Nat) : Nat :=
  let p := s.planAt f
  let b := p.bank.legBank leg
  if c.hasLeg leg && b.on then vget (vget p.planTrace leg (Vector.replicate 8 0)) b.lowest 0 + (f - p.base) else allOnes64

/-- A unit makes a record at version v (R258). -/
def State.fireRecord (u : Nat) (v : Version) (cause flags : Nat) (s : State) : State :=
  let x := s.unit u
  let r0 : Record :=
    { key := s.trig.nextKey, unit := u, c := x.c, fireFrame := v.frame, fireTime := v.time, pre := x.c.preN, post := x.c.postN
      fireTrace := #v[s.fireTrace x.c 0 v.frame, s.fireTrace x.c 1 v.frame]
      firstTime := (v.time + 2 ^ 64 - x.c.preN * (s.planAt v.frame).bank.tUnits) % 2 ^ 64
      cause, flags, early := x.early, rearms := x.rearms, vector := v.vector
      need := 640 + x.c.bodyBytes (s.planAt v.frame).bank s.legR }
  let r := match x.restartAfter v.frame with | some e => r0.cutAt e | none => r0
  let stat := finc (if r.flags % 2 = 1 then fset x.stat F.TRIG_STAT.TRUNCATED 1 else x.stat) F.TRIG_STAT.RECORDS
  let s1 := s.setUnit u { x with early := 0, rearms := 0, stat, fireLo := w32 v.time, fireHi := w32 (v.time / 2 ^ 32), lastRecord := some r.key }
  { s1 with trig := { s1.trig with fired := insertRecord r s1.trig.fired, nextKey := s1.trig.nextKey + 1 } }

/-! ### A version at a unit (R256, Table 14.1) -/

/-- The copy of the unit's previous record is complete (R259). -/
def State.copied (s : State) (x : TrigUnit) : Bool :=
  match x.lastRecord with | some k => !s.trig.fired.any (fun r => r.key == k) | none => true

/-- FILLING and RE-ARM end at their frames. -/
def TrigUnit.turn (x : TrigUnit) (f : Nat) : TrigUnit :=
  if x.state = .filling && x.armFrame + x.c.preN ≤ f then { x with state := .armed }
  else if x.state = .rearm && x.fireFrame + x.c.postN + x.c.holdN ≤ f then
    { x with state := if fbit x.c.cfg F.TRIG_CFG.AUTO then .armed else .idle, stat := fset x.stat F.TRIG_STAT.WAITING 0 }
  else x

/-- A unit acts on version v (R256, R257): the unit, and where it fires the sources of its own that hold. `held`: a verdict bit of its group from any device. -/
def TrigUnit.judge (x0 : TrigUnit) (v : Version) (held : Bool) : TrigUnit × Option Nat :=
  let x := x0.turn v.frame
  let own := x.sources v.frame v.vector x.prevMatch
  let x1 := { x with prevMatch := x.c.pattern v.vector, fires := x.fires.filter (fun f => v.frame < f) }
  if own = 0 && !held then (x1, none)
  else
    match x.state with
    | .idle => (x1, none)
    | .filling => ({ x1 with early := min 65535 (x.early + 1) }, none)
    | .rearm => ({ x1 with rearms := min 65535 (x.rearms + 1) }, none)
    | .armed => ({ x1 with state := .rearm, fireFrame := v.frame }, some own)

/-- A version passes a unit that is off. -/
def TrigUnit.pass (x : TrigUnit) (v : Version) : TrigUnit :=
  { x with prevMatch := x.c.pattern v.vector, fires := x.fires.filter (fun f => v.frame < f) }

/-- Verdicts that are held for a version and a unit's group, none for a unit that is in no ring. -/
def State.verdictsFor (s : State) (x : TrigUnit) (v : Version) : List Verdict :=
  if x.c.ring then (s.awaits v.time).filterMap (fun d => s.verdictOf d v.time) else []
def TrigUnit.bitOf (x : TrigUnit) (d : Verdict) : Bool := nbit d.groups x.c.group

/-- A unit as it stands at frame f, once it has taken what its queue holds: nothing that delays the queue shows in it. A version whose verdicts are still to come
counts as one without them (DEDUCED, log entry 74). -/
def State.unitAt (s : State) (u f : Nat) : TrigUnit :=
  ((s.unit u).queue.foldl (fun (x : TrigUnit) v =>
    let y := x.advance v.frame
    if y.c.on then (y.judge v ((s.verdictsFor y v).any y.bitOf)).1 else y.pass v) (s.unit u)).advance f

/-- This device's verdict for a version: a bit per group, the OR of what its ring units' own sources hold (R260). -/
def State.ownVerdict (s : State) (v : Version) : Nat :=
  (List.range 16).foldl (fun m u =>
    let x := s.unitAt u v.frame
    if x.c.on && x.c.ring && x.sources v.frame v.vector x.prevMatch != 0 then m ||| 2 ^ x.c.group else m) 0

/-- A unit takes version v, its queue's rest in place. `other`: verdict bits from another device; `missing`: a verdict was taken as 0. -/
def State.judgeVersion (u : Nat) (v : Version) (held other missing : Bool) (s : State) : State :=
  match (s.unit u).judge v held with
  | (x, none) => s.setUnit u x
  | (x, some own) => (s.setUnit u x).fireRecord u v (own + 8 * other.toNat) (4 * missing.toNat)

/-- The version that a unit's re-arming waits before (R259). -/
def TrigUnit.waitsAt (x : TrigUnit) (f : Nat) : Bool := x.state = .rearm && decide (x.fireFrame + x.c.postN + x.c.holdN ≤ f)

/-- TRIGu_STAT and TRIGu_TALLY as they read. -/
def TrigUnit.statWord (x : TrigUnit) : Word :=
  fset x.stat F.TRIG_STAT.STATE (match x.state with | .idle => 0 | .filling => 1 | .armed => 2 | .rearm => 3)
def TrigUnit.tallyWord (x : TrigUnit) : Word := w32 (x.early + 65536 * x.rearms)

end Sys2Proof.Machine
end

