-- ==== Sys2Proof/Machine/CausewayCore.lean ====
section
/-! DEFINITION. The Causeway's own rules: frames sent and taken, flooding, membership, master (R330 to R339). -/

namespace Sys2Proof.Machine

/-! ### Frame types and sending (R331, Table 18.5) -/

def cwHello : Nat := 1
def cwDelayReq : Nat := 2
def cwDelayResp : Nat := 3
def cwTime : Nat := 4
def cwEpoch : Nat := 5
def cwArm : Nat := 6
def cwVerdict : Nat := 7
def cwReset : Nat := 8
def cwMember : Nat := 9

/-- A payload of 20 bytes: the fields of Table 18.5 in order, then zeros (DESIGN CHOICE, log entry 29). -/
def cwPayload (bs : List Byte) : List Byte := bytesAt bs 0 20

def State.withCw (c : Causeway) (s : State) : State := { s with cw := c }

/-- A port runs (Table 18.7). -/
def Causeway.runs (c : Causeway) (p : Nat) : Bool :=
  fbit c.cfg F.CW_CFG.ENABLE && fbit c.cfg (if p = 0 then F.CW_CFG.PORT0_EN else F.CW_CFG.PORT1_EN)

/-- The device's identifier, 0xFF before membership is stable. -/
def Causeway.id (c : Causeway) : Nat := if c.ring.isEmpty then 0xFF else fget c.stat F.CW_STAT.SRC_ID

/-- A frame goes out of the ports of a list that run, with one SEQ. -/
def Causeway.send (c : Causeway) (ports : List Nat) (type : Nat) (payload : List Byte) : Causeway :=
  let n := vget c.seq type 0
  let out := (ports.filter c.runs).map (fun p => ({ port := p, type, srcId := c.id, hops := 7, seq := n, payload := cwPayload payload } : CwFrame))
  if out.isEmpty then c else { c with sent := c.sent ++ out, seq := vset c.seq type ((n + 1) % 65536) }

def State.cwSend (ports : List Nat) (type : Nat) (payload : List Byte) (s : State) : State := s.withCw (s.cw.send ports type payload)

/-! ### Taking (R331) -/

/-- A frame arrives on a port that runs: a bad CHECK is counted and the frame discarded; none where it is not taken. -/
def State.cwArrive (h : CwHeader) (s : State) : State × Bool :=
  if !s.cw.runs h.port.val then (s, false)
  else if !h.good then (s.withCw { s.cw with err := vmod s.cw.err h.port.val (fun w => finc w F.CW_ERR.CHECK_ERR) }, false)
  else (s, true)

/-- A flooded frame: the device's own, one with HOPS = 0 and a repeat are discarded; another is forwarded out of the other port with HOPS − 1. -/
def State.cwFlood (h : CwHeader) (type : Nat) (own : Bool) (payload : List Byte) (s : State) : State × Bool :=
  let a := s.cwArrive h
  if !a.2 then a
  else
    let c := a.1.cw
    let key := (h.src.val, type, h.seq.val)
    if own || h.hops.val = 0 || c.taken.contains key then (a.1, false)
    else
      let other := 1 - h.port.val
      let copy : CwFrame := { port := other, type, srcId := h.src.val, hops := h.hops.val - 1, seq := h.seq.val, payload := cwPayload payload }
      (a.1.withCw { c with taken := (key :: c.taken).take 256, sent := if c.runs other then c.sent ++ [copy] else c.sent }, true)

/-- A frame that this device sent: its own identifier once membership is stable. -/
def State.cwOwn (s : State) (h : CwHeader) : Bool := s.cw.id != 0xFF && h.src.val == s.cw.id

/-! ### Membership (R332, R333, R335, R338) -/

/-- A serial's place in the ascending order. -/
def insertSerial (n : Nat) : List Nat → List Nat
  | [] => [n]
  | x :: xs => if n < x then n :: x :: xs else if n = x then x :: xs else x :: insertSerial n xs

/-- The serials seen, with the device's own, ascending. -/
def State.cwSerials (s : State) : List Nat := s.cw.members.foldl (fun l m => insertSerial m.serial l) [s.host.serial]

/-- The strap of a serial. -/
def State.cwStrap (s : State) (n : Nat) : Bool :=
  if n = s.host.serial then s.power.masterSel else s.cw.members.any (fun m => m.serial == n && m.strap)

/-- The election of R333 over a set of serials. -/
def State.cwElect (s : State) (ring : List Nat) : Nat :=
  match ring.find? s.cwStrap with | some n => n | none => (ring.head?).getD s.host.serial

/-- Rank of a serial. -/
def Causeway.rank (c : Causeway) (n : Nat) : Nat := (c.ring.filter (· < n)).length

/-- Mask by rank of a set of serials, and the serials that a mask names. -/
def Causeway.maskOf (c : Causeway) (ns : List Nat) : Nat := ns.foldl (fun m n => m + 2 ^ c.rank n) 0
def Causeway.ofMask (c : Causeway) (mask : Nat) : List Nat := (onesOf mask 8).filterMap (fun i => c.ring[i]?)

/-- The ring's master gives out E and T_f (R42, R336). -/
def State.sendEpoch (s : State) : State :=
  let b := s.probe.active
  if s.cwRing && s.cwMaster then
    let s1 := s.cwSend [0, 1] cwEpoch (leBytes 8 b.e ++ leBytes 4 b.tF)
    s1.withCw { s1.cw with epoch := some (b.e, b.tF) }
  else s

/-- The ring is ready when every member reports LOCKED (R335); a master whose plan runs gives out its grid as the ring becomes ready
(Sequence 18.1). -/
def State.cwReady (s : State) : State :=
  let c := s.cw
  let all := s.cwRing && fbit c.stat F.CW_STAT.LOCKED &&
    c.ring.all (fun n => n == s.host.serial || c.members.any (fun m => m.serial == n && m.locked))
  let t := s.withCw { c with stat := fsetB c.stat F.CW_STAT.READY all }
  if all && !fbit c.stat F.CW_STAT.READY && s.probe.running then t.sendEpoch else t

/-- This device takes or leaves the master's part among a set of members; the master needs no TIME and counts as LOCKED (DEDUCED, log entry 30). -/
def State.cwTakeMaster (ring : List Nat) (s : State) : State :=
  let was := fbit s.cw.stat F.CW_STAT.MASTER
  let is := s.cwElect ring == s.host.serial
  let st := fsetB s.cw.stat F.CW_STAT.MASTER is
  let st := if is then fset st F.CW_STAT.LOCKED 1 else if was then fset st F.CW_STAT.LOCKED 0 else st
  (s.withCw { s.cw with stat := st, lockRun := if was && !is then 0 else s.cw.lockRun }).cwReady

/-- A set of members takes effect at a frame time. -/
def Causeway.await (c : Causeway) (time : Nat) (ns : List Nat) : Causeway := { c with awaited := ((time, ns) :: c.awaited).take 8 }

/-- The device time of the frame boundary at least 8 frames after the present one (R338). -/
def State.eightAhead (s : State) : Nat :=
  if s.probe.running then (s.frameTime (s.frameFrom s.now + 8)) % 2 ^ 64 else s.now

/-- A change falls due at the ring units of a group. -/
def Triggers.ringDue (t : Triggers) (pick : TrigUnit → Bool) (f : Nat) (d : TrigDue) : Triggers :=
  { t with units := t.units.map (fun x => if x.c.ring && pick x then { x with due := x.due ++ [(f, d)] } else x) }

/-- A larger set than the last one awaits a new ARM: its ring units go to IDLE at its frame (R339; DEDUCED, log entry 32). -/
def State.cwWiden (time : Nat) (ns : List Nat) (s : State) : State :=
  let old := match s.cw.awaited with | a :: _ => a.2 | [] => s.cw.ring
  if s.probe.running && ns.any (fun n => !old.contains n) then
    { s with trig := s.trig.ringDue (fun _ => true) (s.globalFrame (s.frameFrom time)) .disarm }
  else s

/-- A set that MEMBER announces is taken, and reported (R338). -/
def State.cwTakeSet (time mask : Nat) (ns : List Nat) (s : State) : State :=
  let s1 := s.cwWiden time ns
  (s1.withCw (s1.cw.await time ns)).emitAt (some time) evMember ([w32 mask] ++ w64 time)

/-- MEMBER goes out with a set, and this device takes it too. -/
def State.cwSendMember (ns : List Nat) (s : State) : State :=
  let at_ := s.eightAhead
  let mask := s.cw.maskOf ns
  (s.cwSend [0, 1] cwMember (leBytes 1 mask ++ leBytes 8 at_)).cwTakeSet at_ mask ns

end Sys2Proof.Machine
end

