-- ==== Sys2Proof/Machine/Causeway.lean ====
section
/-! DEFINITION. The Causeway's rows: HELLO, membership, hop delays, TIME, tokens, verdicts, links (R188, R260, R330 to R339). -/

namespace Sys2Proof.Machine

/-- The ports run and the device is ready (R332). -/
def State.cwLive (s : State) : Bool := fbit s.cw.cfg F.CW_CFG.ENABLE && s.boot.phase == .ready

/-- CW_HELLO_SEND (R332): HELLO goes out of both ports. -/
def execCwHelloSend (s : State) : Res :=
  if !s.cwLive then .next s
  else
    let c := s.cw
    let n := vget c.seq cwHello 0
    let pay (p : Nat) : List Byte := leBytes 8 s.host.serial ++ leBytes 1 s.power.masterSel.toNat ++ leBytes 1 p ++
      leBytes 1 (c.members.length + 1) ++ leBytes 1 (fget c.stat F.CW_STAT.LOCKED)
    let out := ([0, 1].filter c.runs).map (fun p => ({ port := p, type := cwHello, srcId := c.id, hops := 7, seq := n, payload := cwPayload (pay p) } : CwFrame))
    .next (s.withCw { c with sent := c.sent ++ out, seq := vset c.seq cwHello ((n + 1) % 65536) })

/-- A member as its HELLO shows it; a serial not seen before starts the 100 ms anew (R332); while a plan runs on the ring it cannot join (R339). -/
def State.cwSee (m : Member) (s : State) : State :=
  let c := s.cw
  if c.members.any (fun x => x.serial == m.serial) then
    (s.withCw { c with members := c.members.map (fun x => if x.serial = m.serial then m else x) }).cwReady
  else if s.cwRing && s.planRuns then s
  else (s.changeRing (fun u => u.withCw { c with members := c.members ++ [m], heldUp := s.time.up, stable := false })).cwReady

/-- CW_HELLO (R330 to R332, R335). -/
def execCwHello (h : CwHeader) (serial : Fin (2 ^ 64)) (strap : Bool) (sending : Fin 2) (seen : Fin 256) (locked : Bool) (s : State) : Res :=
  if !s.cw.runs h.port.val then .next s
  else
    let c := s.cw
    let p := h.port.val
    let heard := if !h.good then s
      else s.withCw { c with helloUp := vset c.helloUp p s.time.up
                             err := if vget c.fallen p false then c.err else vmod c.err p (fun w => fset w F.CW_ERR.UP 1) }
    let pay := leBytes 8 serial.val ++ leBytes 1 strap.toNat ++ leBytes 1 sending.val ++ leBytes 1 seen.val ++ leBytes 1 locked.toNat
    let (s1, take) := heard.cwFlood h cwHello (s.cwOwn h || serial.val == s.host.serial) pay
    .next (if take then s1.cwSee { serial := serial.val, strap, locked, port := p, hops := 7 - min 7 h.hops.val, lastUp := s.time.up } else s1)

/-- MEMBERSHIP_STABLE (R331 to R333, R338, R339): 100 ms without a change. A membership above 8 is no ring: RING_SIZE. -/
def execMembershipStable (s : State) : Res :=
  if !s.cwLive || (s.cw.stable && !s.cw.rejoin) then .next s
  else
    let s := s.untilUp (s.cw.heldUp + 100 * ms)
    let ring := s.cwSerials
    let c := s.cw
    if 8 < ring.length then
      let st := fset (fset (fset c.stat F.CW_STAT.MASTER 0) F.CW_STAT.READY 0) F.CW_STAT.MEMBERS 0
      .next ((s.changeRing (fun u => u.withCw { c with stable := true, rejoin := false, ring := [], awaited := [], segment := none, stat := st })).setCondition
        srcRingSize true 0)
    else
      let known := decide (c.ring = ring)
      let st := fset (fset c.stat F.CW_STAT.MEMBERS ring.length) F.CW_STAT.SRC_ID (ring.filter (· < s.host.serial)).length
      let c1 := { c with stable := true, rejoin := false, segment := none, ring, stat := st, awaited := if known then c.awaited else [(0, ring)]
                         exchanges := if known then c.exchanges else Vector.replicate 2 [] }
      let s1 := s.changeRing (fun u => ((u.withCw c1).setCondition srcRingSize false 0).cwTakeMaster ring)
      .next (if c.rejoin && s1.cwMaster then s1.cwSendMember ring else s1)

/-! ### Hop delays (R334) -/

/-- Insertion into a rising list, and the rising list. -/
def insertInt (x : Int) : List Int → List Int
  | [] => [x]
  | y :: ys => if x ≤ y then x :: y :: ys else y :: insertInt x ys
def sortInts (l : List Int) : List Int := l.foldr insertInt []

/-- d of R334 from 64 values of R_A − R_B: half their median, rounded towards minus infinity. -/
def hopDelay (xs : List Int) : Int :=
  let l := sortInts xs
  (((l[31]?).getD 0) + ((l[32]?).getD 0)) / 4

/-- HOP_MEASUREMENT (R334): the next exchange of a port that is up, or d after the 64th. -/
def execHopMeasurement (p : Fin 2) (s : State) : Res :=
  let c := s.cw
  let xs := vget c.exchanges p.val []
  if !s.cwRing || !fbit (vget c.err p.val 0) F.CW_ERR.UP then .next s
  else if xs.length < 64 then .next (s.cwSend [p.val] cwDelayReq [])
  else .next (s.withCw { c with hop := vset c.hop p.val (w32 (wrapTo 32 (hopDelay xs))) })

/-- CW_DELAY_REQ (R331, R334): answered on the same port with the turnaround R_B. -/
def execCwDelayReq (h : CwHeader) (rb : BitVec 32) (s : State) : Res :=
  let (s1, take) := s.cwArrive h
  .next (if take then s1.cwSend [h.port.val] cwDelayResp (leBytes 4 rb.toNat) else s1)

/-- CW_DELAY_RESP (R334): one exchange, R_A − R_B in 1/1,024 ns. -/
def execCwDelayResp (h : CwHeader) (ra : Nat) (rb : BitVec 32) (s : State) : Res :=
  let (s1, take) := s.cwArrive h
  let c := s1.cw
  if !take || 64 ≤ (vget c.exchanges h.port.val []).length then .next s1
  else .next (s1.withCw { c with exchanges := vmod c.exchanges h.port.val (fun l => l ++ [(ra : Int) - rb.toNat]) })

/-! ### TIME (R335) -/

/-- CW_TIME_SEND (R335): the master sends TIME on both ports. -/
def execCwTimeSend (s : State) : Res :=
  if !s.cwLive || !s.cwRing || !s.cwMaster then .next s
  else .next (s.cwSend [0, 1] cwTime (leBytes 8 s.now ++ leBytes 1 0))

/-- The neighbour that TIME is taken from: of the ports that are up, the one with fewer hops, port 0 on a tie. -/
def Causeway.neighbour (c : Causeway) : Option Nat :=
  let hops (p : Nat) : Option Nat := if fbit (vget c.err p 0) F.CW_ERR.UP then vget c.timeHops p none else none
  match hops 0, hops 1 with
  | some a, some b => some (if b < a then 1 else 0)
  | some _, none => some 0
  | none, some _ => some 1
  | none, none => none

/-- The phase error of a TIME frame, in 1/1,024 ns: this device's time at the marker less (TIME + d). -/
def timeError (own time : Nat) (d : Word) : Int := sx 72 (wrapTo 72 ((own : Int) - (256 * time + d.toNat)))

/-- A phase error is taken: a step once with no plan running, else a slew; LOCKED after 200 frames within 1 ns (R270, R335). -/
def State.cwPhase (err : Int) (s : State) : State :=
  let c := s.cw
  let near := decide (err.natAbs ≤ 1024)
  let run := if near then c.lockRun + 1 else 0
  let s1 := s.withCw { c with phaseError := err, lockRun := run, stat := fsetB c.stat F.CW_STAT.LOCKED (decide (200 ≤ run)) }
  let s2 := { s1 with time := { s1.time with phasedBy := some 6, seconds := true } }
  let quarter := divHalfAway err 256
  let s3 := if !c.stepped && !s.planRuns then
      ((s2.withCw { s2.cw with stepped := true }).stepTime (wrapTo 64 ((s2.now : Int) - quarter))).setCondition srcTimeOffset false 0
    else s2.setCondition srcTimeOffset (decide (40000000 < quarter.natAbs)) 0
  s3.cwReady

/-- CW_TIME (R335): `own` is this device's time at the receive marker, in 1/1,024 ns. -/
def execCwTime (h : CwHeader) (time : Fin (2 ^ 64)) (hops : Fin 256) (own : Fin (2 ^ 72)) (s : State) : Res :=
  let (s1, take) := s.cwArrive h
  let p := h.port.val
  if !take || !s1.cwRing || s1.cwMaster then .next s1
  else
    let s2 := s1.withCw { s1.cw with timeHops := vset s1.cw.timeHops p (some hops.val) }
    let d := vget s2.cw.hop p 0
    if s2.cw.neighbour != some p || d = 0xFFFFFFFF then .next s2
    else
      let s3 := (s2.withCw { s2.cw with timePort := some (p, hops.val) }).cwPhase (timeError own.val time.val d)
      .next (s3.cwSend [1 - p] cwTime (leBytes 8 s3.now ++ leBytes 1 (hops.val + 1)))

/-! ### EPOCH, ARM, VERDICT, RESET, MEMBER (R42, R188, R260, R336, R338) -/

/-- CW_EPOCH (R42, R336). -/
def execCwEpoch (h : CwHeader) (e : Fin (2 ^ 64)) (tF : BitVec 32) (s : State) : Res :=
  let (s1, take) := s.cwFlood h cwEpoch (s.cwOwn h) (leBytes 8 e.val ++ leBytes 4 tF.toNat)
  .next (if take then s1.withCw { s1.cw with epoch := some (e.val, tF.toNat) } else s1)

/-- Ring units of a group arm at the frame whose boundary is the token's time (R260). -/
def State.armGroup (g time : Nat) (s : State) : State :=
  if !s.probe.running then s
  else
    let due : Nat × TrigDue := (s.globalFrame (s.frameFrom time), .armRing g)
    { s with trig := { s.trig with units := s.trig.units.map (fun (x : TrigUnit) => { x with due := x.due ++ [due] }) } }

/-- CW_ARM (R260). -/
def execCwArm (h : CwHeader) (group : Fin 4) (time : Fin (2 ^ 64)) (s : State) : Res :=
  let (s1, take) := s.cwFlood h cwArm (s.cwOwn h) (leBytes 1 group.val ++ leBytes 8 time.val)
  .next (if take then s1.armGroup group.val time.val else s1)

/-- CW_VERDICT (R260): held under the sender's serial; one already taken as 0 stays so. -/
def execCwVerdict (h : CwHeader) (time : Fin (2 ^ 64)) (groups : Fin 16) (s : State) : Res :=
  let (s1, take) := s.cwFlood h cwVerdict (s.cwOwn h) (leBytes 8 time.val ++ leBytes 1 groups.val)
  if !take then .next s1
  else
    match s1.cw.ring[h.src.val]? with
    | none => .next s1
    | some d =>
      if (s1.verdictOf d time.val).isSome then .next s1
      else .next { s1 with trig := { s1.trig with verdicts := s1.trig.verdicts ++ [{ time := time.val, device := d, groups := groups.val }] } }

/-- CW_RESET (R187, R188): both legs' chains reset at the first frame boundary at or after the token's time. -/
def execCwReset (h : CwHeader) (time : Fin (2 ^ 64)) (s : State) : Res :=
  let (s1, take) := s.cwFlood h cwReset (s.cwOwn h) (leBytes 8 time.val)
  .next (if take then
    { s1 with halls := { s1.halls with leg := s1.halls.leg.map (fun x => { x with chain := { x.chain with resets := x.chain.resets ++ [time.val] } }) } }
    else s1)

/-- CW_MEMBER (R338): the set whose verdicts are awaited from its frame on; the MEMBER event. -/
def execCwMember (h : CwHeader) (mask : Fin 256) (time : Fin (2 ^ 64)) (s : State) : Res :=
  let (s1, take) := s.cwFlood h cwMember (s.cwOwn h) (leBytes 1 mask.val ++ leBytes 8 time.val)
  if !take then .next s1
  else
    let ns := s1.cw.ofMask mask.val
    .next (s1.cwTakeSet time.val mask.val ns)

/-! ### Links (R337 to R339) -/

/-- CAUSEWAY_LINK holds while a port that was up is down; its detail is the port. -/
def State.cwLinkCause (p : Nat) (s : State) : State :=
  let f := s.cw.fallen
  let any := vget f 0 false || vget f 1 false
  (s.withCw { s.cw with stat := fsetB s.cw.stat F.CW_STAT.LINE any }).setCondition srcCausewayLink any p

/-- CW_PORT_DOWN (R330, R337): lock or commas are lost, or (`hello`) no HELLO has come for 5 ms. -/
def execCwPortDown (p : Fin 2) (hello : Bool) (s : State) : Res :=
  let n := p.val
  if !s.cw.runs n || !fbit (vget s.cw.err n 0) F.CW_ERR.UP then .next s
  else
    let s := if hello then s.untilUp (vget s.cw.helloUp n 0 + 5 * ms) else s
    let c := s.cw
    let c1 := { c with err := vmod c.err n (fun w => finc (fset w F.CW_ERR.UP 0) F.CW_ERR.DOWNS), fallen := vset c.fallen n true
                       timeHops := vset c.timeHops n none, timePort := match c.timePort with | some (q, k) => if q = n then none else some (q, k) | none => none }
    .next ((s.withCw c1).cwLinkCause n)

/-- RING_SPLIT (R338): members silent for 1 s are out of reach; the segment's master sends MEMBER. -/
def execRingSplit (s : State) : Res :=
  let c := s.cw
  let seg := c.segment.getD c.ring
  let inSeg := c.members.filter (fun m => seg.contains m.serial)
  match inSeg with
  | [] => .next s
  | m0 :: ms' =>
    if !s.cwRing || !fbit c.stat F.CW_STAT.LINE then .next s
    else
      let oldest := ms'.foldl (fun a m => min a m.lastUp) m0.lastUp
      let s1 := s.untilUp (oldest + sec)
      let ns := seg.filter (fun n => n == s.host.serial || inSeg.any (fun m => m.serial == n && decide (s1.time.up < m.lastUp + sec)))
      let s2 := s1.changeRing (fun u => (u.withCw { u.cw with segment := some ns }).cwTakeMaster ns)
      .next (if s2.cwMaster then s2.cwSendMember ns else s2)

/-- CW_LINK_RETURN (R334, R339): the hop is measured anew and membership has to be stable again. -/
def execCwLinkReturn (p : Fin 2) (s : State) : Res :=
  let n := p.val
  if !s.cw.runs n || !vget s.cw.fallen n false then .next s
  else
    let c := s.cw
    let c1 := { c with err := vmod c.err n (fun w => fset w F.CW_ERR.UP 1), fallen := vset c.fallen n false, exchanges := vset c.exchanges n []
                       helloUp := vset c.helloUp n s.time.up, heldUp := s.time.up, rejoin := !c.ring.isEmpty }
    .next ((s.withCw c1).cwLinkCause (1 - n))

end Sys2Proof.Machine
end

