-- ==== Sys2Proof/Machine/Transition.lean ====
section
/-! DEFINITION. The end of a plan: the probe stops at its effective frame (R40, R414), and the fades of a shutdown. -/

namespace Sys2Proof.Machine

/-! ### Setpoint changes of the Hearth (R70) -/

/-- The Hearth replaced. -/
def State.withHearth (h : Hearth) (s : State) : State := { s with hearth := h }

/-- A channel's SET word is taken (R68, R69). -/
def Hearth.writeSet (h : Hearth) (ch : Nat) (w : Word) : Hearth := h.setDrive ch ((h.drive ch).writeSet w)

/-- The setpoint changes whose frame boundary has come take effect, in order (R22, R70). -/
def State.setpointsDue (s : State) : State :=
  let due (x : SetWait) : Bool := decide (s.boundaryAhead x.frame ≤ s.now)
  let h := { s.hearth with waits := s.hearth.waits.filter (fun x => !due x) }
  s.withHearth ((s.hearth.waits.filter due).foldl (fun t x => t.writeSet x.ch x.word) h)

/-! ### The end of a plan -/

/-- A MODE_SET or SHUTDOWN ends a SURVEY: it is complete, or its results are partial (R36, R415). -/
def State.endSurveyOp (s : State) : State :=
  match s.fw.long with
  | some op =>
    if op.code = cModeSet && s.fw.mode = modeSurvey then
      ({ s with fw := { s.fw with surveyPartial := s.fw.optical != Optical.surveyDone } }).finishLong { status := .ok } op.words
    else s
  | none => s

/-- The probe has stopped: no plan runs; waiting changes are dropped (R365), setpoint changes of the Hearth with them
(R70; DEDUCED, log entry 96); a shutdown goes on to drain, with the TEC duties at 0 (R414). -/
def State.probeStopped (s : State) : State :=
  let down := s.shuttingDown
  let f := s.probe.frontier
  let s := s.endSurveyOp.cutGap
  let s1 := { s with
    trig := let t := s.trig.cutAll f; { t with units := t.units.map (TrigUnit.halt f) }
    probe := { s.probe with running := false, pending := none, ramanOn := Vector.replicate 2 false }
    fw := { s.fw with mode := 0, journal := none, optical := if down then .draining else .fadeOut, opticalUp := s.time.up }
    halls := { s.halls with leg := s.halls.leg.map Hall.stopRaman }
    hearth := let h := { s.hearth with waits := [] }
      if down then { h with tec := h.tec.map TecLoop.stop, tecOn := false } else h
    streams := if down then { s.streams with str := s.streams.str.map (Stream.endWith 1) } else s.streams }
  s1.dropAllChanges.summarise

/-- Every leg that is on has launched the last frame before frame e. -/
def State.legsReached (s : State) (e : Nat) : Bool :=
  [0, 1].all (fun leg => !(s.legBank leg).on || decide (e ≤ vget s.probe.frame leg 0))

/-- A stop that is due at a frame takes effect once the last launch before it is made. -/
def State.stopIfReached (s : State) : State :=
  match s.probe.pending with
  | some p =>
    match p.atFrame with
    | some e => if p.mode = 0 && s.probe.running && s.legsReached e then s.probeStopped else s
    | none => s
  | none => s

/-- A stop of the probe from frame e on. -/
def State.stopAt (e : Nat) (s : State) : State :=
  ({ s with probe := { s.probe with
      pending := some { bank := s.probe.active, mode := 0, ng := s.probe.ngAt (s.globalFrame e), atFrame := some e, tables := s.probe.tables } } }).stopIfReached

/-- The fades of a shutdown have ended: the probe stops at the first frame boundary after them (R414). -/
def State.afterFade (s : State) : State :=
  if s.fw.optical = .fadeOut && s.shuttingDown && !s.hearth.fading then
    if s.probe.running then (if s.probe.pending.isSome then s else s.stopAt (s.frameFrom s.now)) else s.probeStopped
  else s

/-! ### SHUTDOWN begins (R412, R414, R415) -/

/-- A MODE_SET that SHUTDOWN meets ends: a SURVEY with partial results, an optical start with ABORTED (R412, R415). -/
def State.endForShutdown (s : State) : State := s.endSurveyOp.endModeSet .aborted

/-- A plan change that waits is dropped; a stop stays. -/
def Probe.dropChange (p : Probe) : Probe :=
  { p with pending := match p.pending with | some q => if p.running && q.mode = 0 then some q else none | none => none }

/-- SHUTDOWN begins: fades, or the drain at once in the safe state (R414 steps 1 to 3, R415). -/
def State.beginShutdown (op : LongOp) (s : State) : State :=
  let s1 := ({ s with fw := { s.fw with long := some op, down := none } }).progress op.code 1 0 0
  if s1.safe then
    { s1 with
      fw := { s1.fw with optical := .draining, opticalUp := s1.time.up }
      streams := { s1.streams with str := s1.streams.str.map (Stream.endWith 1) } }
  else
    ({ s1 with
      probe := s1.probe.dropChange, hearth := s1.hearth.fadeAll true
      fw := { s1.fw with optical := .fadeOut, opticalUp := s1.time.up } }).afterFade

/-- The running long operation ends; a SHUTDOWN that waits for it begins (R415). -/
def State.endLong (e : Err) (items : List Word) (s : State) : State :=
  let s1 := s.finishLong e items
  match s1.fw.down with
  | some op => s1.beginShutdown op
  | none => s1

end Sys2Proof.Machine
end

