-- ==== Sys2Proof/Machine/Launch.lean ====
section
/-! DEFINITION. LAUNCH: playout of a slot's chirp, the numbered trace, gate and Raman burst, and what takes effect with a frame's first launch
(R18, R43, R48 to R62, R71, R87, R162, R280). -/

namespace Sys2Proof.Machine

/-! ### What takes effect at a leg's frame boundary -/

/-- GAIN_SET at its effective trace (R87): armed at the playout index of the launch; LEGn_CFG.ENABLE stays firmware's own. -/
def State.applyGainSet (leg n : Nat) (p : Stamped) (s : State) : State :=
  let t := s.thrLeg leg
  let img := wat p.words 1
  let keep : Word := F.LEG_CFG.kind.keep ||| 1#32
  let cfg := (img &&& F.LEG_CFG.kind.rw &&& ~~~keep) ||| (t.cfg &&& keep)
  s.setThrLeg leg { t with pending := some { index := n, coh := some (fget (wat p.words 2) F.GAIN_REQ.COH_G), cfg := some cfg } }

/-- The Raman channel of a leg is to start at a frame (R57, R162): the code phase restarts there. -/
def State.ramanStartAt (leg gframe trace : Nat) (s : State) : State :=
  let h := s.hall leg
  let p := s.probe
  let b := s.legBank leg
  let run : RamanRun := { frame := gframe, trace, tF := p.active.tF, offset := b.ramanOffset, delay := b.ramanDelay, len := b.len
                          ramanLen := fget (b.word 0) F.LEG_W0.RAMAN_LEN }
  ({ s with probe := { p with ramanFrame := vset p.ramanFrame leg gframe, ramanOn := vset p.ramanOn leg true } }).setHall leg
    { h with raman := { h.raman with starting := some run } }

/-- The Raman channel of a leg stops. -/
def State.ramanStop (leg : Nat) (s : State) : State :=
  ({ s with probe := { s.probe with ramanOn := vset s.probe.ramanOn leg false } }).setHall leg (s.hall leg).stopRaman

/-- The leg descriptor with a TEMP_SET command's fields (R162). -/
def LegBank.withTemp (b : LegBank) (ws : List Word) : LegBank :=
  let w0 := fset (fset (b.word 0) F.LEG_W0.RAMAN_EN (wat ws 1).toNat) F.LEG_W0.RAMAN_LEN (wat ws 3).toNat
  let w1 := fset (b.word 1) F.LEG_W1.RAMAN_DELAY (wat ws 5).toNat
  let w3 := fset (b.word 3) F.LEG_W3.RAMAN_OFFSET (wat ws 4).toNat
  { b with w := #v[w0, w1, b.word 2, w3] }

/-- A TEMP_SET's fields reach the scheduler through a bank swap (R62, R162). -/
def Probe.setTemp (p : Probe) (leg : Nat) (ws : List Word) : Probe :=
  let a := p.active
  { p with active := { a with leg := vset a.leg leg ((a.legBank leg).withTemp ws) }, shadow := a }

/-- TEMP_SET changes direct-lane gains (R87). -/
def State.tempGainChange (s : State) (leg : Nat) (ws : List Word) : Bool :=
  let t := s.thrLeg leg
  (wat ws 6).toNat % 8 != t.st || (wat ws 7).toNat % 8 != t.as_

/-- The direct-lane gains of a TEMP_SET are to change at the Raman burst playout index of frame k (R87). -/
def State.requestDirect (leg k : Nat) (ws : List Word) (s : State) : State :=
  s.setThrLeg leg { s.thrLeg leg with
    direct := some { index := s.burstIndex leg k, dir := some ((wat ws 6).toNat % 8, (wat ws 7).toNat % 8) } }

/-- TEMP_SET starts or restarts the channel: enabling, or a change of W, N, RAMAN_OFFSET, RAMAN_DELAY or a direct-lane gain (R162). -/
def State.tempStarts (s : State) (leg : Nat) (ws : List Word) : Bool :=
  let b := s.legBank leg
  nbit (wat ws 1).toNat 0 && (!b.ramanEn || b.withTemp ws != b || (s.raman leg).par.seconds != (wat ws 2).toNat || s.tempGainChange leg ws)

/-- TEMP_SET at its effective frame k of the plan in force (R87, R162). -/
def State.applyTempSet (leg k : Nat) (p : Stamped) (s : State) : State :=
  let ws := p.words
  let starts := s.tempStarts leg ws
  let gain := s.tempGainChange leg ws
  let b := (s.legBank leg).withTemp ws
  let s1 := { s with probe := s.probe.setTemp leg ws }
  let h := s1.hall leg
  let s2 := s1.setHall leg { h with raman := { h.raman with par := { h.raman.par with seconds := (wat ws 2).toNat } } }
  let s3 := if gain then s2.requestDirect leg k ws else s2
  if !nbit (wat ws 1).toNat 0 then s3.ramanStop leg
  else if starts then s3.ramanStartAt leg (s3.globalFrame k) (s3.traceOf leg b.lowest k)
  else s3

/-- TEMP_CAL at its effective frame (R163): windows that end before it keep the parameters they had. -/
def State.applyTempCal (frame : Nat) (p : Stamped) (s : State) : State :=
  let leg := p.item
  let h := s.hall leg
  let r := h.raman
  let ref (at_ : Nat) : Option RefSection :=
    let f := leAt p.bulk at_ 4
    let l := leAt p.bulk (at_ + 4) 4
    if l ≤ f then none
    else some { first := f, last := l, entry := leAt p.bulk (at_ + 8) 4, tk := (List.range 17).map (fun i => leAt p.bulk (at_ + 12 + 4 * i) 4) }
  s.setHall leg { h with raman := { r with
    oldPars := ((frame, r.par) :: r.oldPars).take 64
    par := { r.par with
      calMode := (wat p.words 1).toNat % 256, gamma := (wat p.words 2).toNat, dalpha := sx 64 (wat64 p.words 3), lnc := sx 64 (wat64 p.words 5)
      holdMax := (wat p.words 7).toNat, ref1 := ref 0, ref2 := ref 80 } } }

/-- REPLAY_START at its effective frame (R25): the lanes are ignored from here. -/
def State.applyReplayStart (leg : Nat) (s : State) : State :=
  let h := s.hall leg
  s.setHall leg { h with replay := { on := true, blocks := h.replay.blocks, part := h.replay.part }
                         raman := { h.raman with lastIndex := none, lastOvr := none } }

/-- REPLAY_STOP at its effective frame: the converter lanes again, from their own next word on. -/
def State.applyReplayStop (leg : Nat) (s : State) : State :=
  let h := s.hall leg
  s.setHall leg { h with nextIndex := none, replay := { h.replay with on := false }
                         raman := { h.raman with lastIndex := none, lastOvr := none } }

/-- Changes of replay that are due at a leg's next frame, in order of acceptance. -/
def State.replaySwitch (leg gframe : Nat) (s : State) : State :=
  s.applyDue (fun p => (p.code == cReplayStart || p.code == cReplayStop) && p.item == leg) gframe
    (fun p t => if p.code == cReplayStart then t.applyReplayStart leg else t.applyReplayStop leg)

/-- Everything that takes effect with the first launch of frame k on a leg, at playout index n. -/
def State.frameChanges (leg k n : Nat) (s : State) : State :=
  let g := s.globalFrame k
  let s1 := s.applyDue (pickLeg cGainSet leg) g (fun p t => t.applyGainSet leg n p)
  let s2 := s1.applyDue (pickLeg cTempSet leg) g (fun p t => t.applyTempSet leg k p)
  let s2 := s2.applyDue (pickLeg cTempCal leg) g (fun p t => t.applyTempCal g p)
  if (s2.hall leg).ramanAgain then
    (s2.setHall leg { s2.hall leg with ramanAgain := false }).ramanStartAt leg g (s2.traceOf leg (s2.legBank leg).lowest k)
  else s2

/-! ### The launch -/

/-- A leg's next launch: frame, place and slot; none while the leg is off or waits for a plan change (R43, R61). -/
def State.upcoming (s : State) (leg : Nat) : Option (Nat × Nat × Nat) :=
  let k := vget s.probe.frame leg 0
  let j := vget s.probe.next leg 0
  let held := match s.probe.pending with | some p => (match p.atFrame with | some e => decide (e ≤ k) | none => false) | none => false
  if !s.legOn leg || held then none else ((s.legBank leg).slots[j]?).map (fun sl => (k, j, sl))

/-- Launches kept in order of stamp, then leg (R252). -/
def insertLaunch (l : Launch) : List Launch → List Launch
  | [] => [l]
  | o :: rest => if l.stamp < o.stamp || (l.stamp == o.stamp && l.leg < o.leg) then l :: o :: rest else o :: insertLaunch l rest

/-- A frame's first launch, as the Raman channel sees it: the playout index of a start, and the stamp and tach snapshots of a frame at which a window begins
(Tables 9.3 and 13.2). -/
def Raman.launched (r : Raman) (frame index stamp : Nat) (tach : Vector Nat 8) : Raman :=
  let r1 := { r with starting := r.starting.map (fun x => if x.frame = frame then { x with index := some index } else x) }
  let n := max 1 (r.spans * r.spanFrames)
  let begins := match r.starting with
    | some x => x.frame == frame
    | none => fbit r.stat F.RAMAN_STAT.RUNNING && decide (r.startFrame ≤ frame) && (frame - r.startFrame) % n == 0
  if begins then { r1 with marks := ((frame, tach, stamp) :: r.marks).take 4 } else r1

/-- A trace takes its number (R60), and the leg moves to its next launch. -/
def State.numberTrace (leg k j slot n stamp boundary : Nat) (late replay : Bool) (tach : Vector Nat 8) (s : State) : State :=
  let p := s.probe
  let b := s.legBank leg
  let row := vget p.trace leg (Vector.replicate 8 0)
  let l : Launch :=
    { leg, slot, trace := vget row slot 0, frame := s.globalFrame k, boundary, index := n, stamp, late, tach, bank := b
      detail := s.detail, survey := s.fw.mode == modeSurvey, tF := p.active.tF, planTrace := vget (vget p.planTrace leg (Vector.replicate 8 0)) slot 0
      table := if b.isTable slot then s.tableOf leg slot else {}, base := p.frameBase, replay }
  let last := decide (b.count ≤ j + 1)
  let h := s.hall leg
  let s := if j = 0 then s.setHall leg { h with raman := h.raman.launched l.frame n stamp tach } else s
  { s with
    probe := { p with
      trace := vset p.trace leg (vset row slot (l.trace + 1))
      frame := vset p.frame leg (if last then k + 1 else k)
      next := vset p.next leg (if last then 0 else j + 1) }
    halls := { s.halls with launches := insertLaunch l s.halls.launches } }

/-- What leaves the balls: the waveform, the gate's on-window, the Raman burst of a frame's first launch (R48, R52, R53, R56). -/
def State.playout (leg k j slot stamp : Nat) (late : Bool) (s : State) : State :=
  let b := s.legBank leg
  let p := s.probe
  let g := vget s.hearth.gate leg {}
  let opens := !late && g.drives
  let d := b.duration slot
  let w := (stamp - 5 * fget (b.word 0) F.LEG_W0.GATE_LEAD, stamp + 5 * (d + fget (b.word 0) F.LEG_W0.GATE_LAG))
  let fires := j == 0 && b.ramanEn && vget p.ramanOn leg false
  let chips := (List.range b.ramanChips).map (burstChip b.ramanChips (s.codePhase leg k))
  { s with probe := { p with
      played := vset p.played leg (if late then [] else s.waveform leg slot)
      playedAt := vset p.playedAt leg (s.launchTime leg k j)
      gateWindow := if opens then vset p.gateWindow leg w else p.gateWindow
      burst := if fires then vset p.burst leg chips else p.burst
      burstAt := if fires then vset p.burstAt leg (s.frameTime k + 40 * b.ramanOffset) else p.burstAt } }

/-- Codes that the DAC lanes I and Q of a leg hold at their balls at a device time: 30 ns behind playout, 0 between chirps, while the leg is off and in the
safe state (R52). -/
def State.dacCode (s : State) (leg t : Nat) : Int × Int :=
  let from_ := vget s.probe.playedAt leg 0 + 120
  if t < from_ || s.safe then (0, 0) else ((vget s.probe.played leg [])[(t - from_) / 5]?).getD (0, 0)

/-- The chip at the RBURST ball of a leg at a device time, 10 ns each and 30 ns behind playout; none outside the burst (R56). -/
def State.rburst (s : State) (leg t : Nat) : Option Bool :=
  let from_ := vget s.probe.burstAt leg 0 + 120
  if t < from_ || s.safe then none else (vget s.probe.burst leg [])[(t - from_) / 40]?

/-- The Hearth judges the gate's on-window (R71). -/
def State.judgeGate (leg : Nat) (isOpen isShort : Bool) (s : State) : State :=
  let (g, o, h) := (vget s.hearth.gate leg {}).window isOpen isShort
  let s1 := { s with hearth := { s.hearth with gate := vset s.hearth.gate leg g } }
  s1.reportAll ((if o then [(srcGateOpen, leg)] else []) ++ (if h then [(srcGateShort, leg)] else []))

/-- The next launch of leg `leg` is that of `slot`, and no launch of the other leg comes before it. -/
def State.launchTurn (s : State) (leg k j : Nat) : Bool :=
  match s.upcoming (1 - leg) with
  | some (k2, j2, _) =>
    s.replaying (1 - leg) || s.launchTime leg k j < s.launchTime (1 - leg) k2 j2 || (s.launchTime leg k j == s.launchTime (1 - leg) k2 j2 && leg == 0)
      || s.replaying leg
  | none => true

/-- LAUNCH (R43): the next launch of a leg is that of `slot`. `late`: the DAC isle suppresses it (R18); `gateOpen`, `gateShort`: the gate's
on-window met the open or the short criterion (R71). A leg in replay plays nothing; its traces are numbered by the replay stream (R60). -/
def execLaunch (leg : Fin 2) (slot : Fin 8) (late gateOpen gateShort : Bool) (s : State) : Res :=
  match s.upcoming leg.val with
  | none => .next s
  | some (k, j, sl) =>
    if !s.power.front || sl != slot.val || !s.launchTurn leg.val k j then .next s
    else
      let s0 := if j = 0 then s.replaySwitch leg.val (s.globalFrame k) else s
      if s0.replaying leg.val then .next s0
      else
        let t := s0.launchTime leg.val k j
        let n := s0.indexOfTime t
        let stamp := s0.stampOf n
        let s1 := (s0.untilTime t).setpointsDue
        let s2 := if j = 0 then s1.frameChanges leg.val k n else s1
        let snap := s2.tach.map (fun th => th.snapshot stamp)
        let s3 := (s2.playout leg.val k j sl stamp late).numberTrace leg.val k j sl n stamp (s2.frameTime k % 2 ^ 64) late false snap
        let s4 := if late then s3.report srcLaunchLate leg.val else s3
        let s5 := if late then s4 else s4.judgeGate leg.val gateOpen gateShort
        .next s5.stopIfReached

end Sys2Proof.Machine
end

