-- ==== Sys2Proof/Machine/Mailbox.lean ====
section
/-! DEFINITION. Mailboxes, doorbells, MSI-X, locks and snapshot mailboxes: their rules and the meanings of their events
(chapters 19 and 21). -/

namespace Sys2Proof.Machine

/-- The requester number of a path (R354). -/
def pathReq : Path → Nat
  | .pcie => 1 | .study => 3 | .spi => 4 | .debug => 5

/-- The words a read returned to a path. -/
def State.returned (p : Path) (ws : List Word) (s : State) : State :=
  { s with host := { s.host with readBack := vset s.host.readBack (pathReq p) ws } }

/-- MB_SEC.UNLOCKED. -/
def State.unlocked (s : State) : Bool := fbit s.mb.sec F.MB_SEC.UNLOCKED

/-- A denied access to MB4, MB5 or LOCKSk is counted (R343, R354). -/
def State.countDenied (s : State) : State := { s with mb := { s.mb with sec := finc s.mb.sec F.MB_SEC.DENIED } }

/-- The mailbox block is available (R344). -/
def State.mbAvailable (s : State) : Bool := fget s.mb.avail F.MB_AVAIL.STATE == 0

/-- Table 19.1. -/
def State.carrierAllowed (s : State) (p : Path) (c : Nat) : Bool :=
  match p with
  | .pcie => c < 4 || ((c == 4 || c == 5) && s.unlocked)
  | .study => true
  | .spi => c == 4 || c == 5 || c == 6
  | .debug => c == 7

/-- An access that meets a domain that is off, held in reset or asleep: Completer Abort on PCIe, ERR_DOMAIN over SPI and debug
(R316, R327, R342, R344). A read returns 0, a write is discarded. -/
def State.domainError (p : Path) (s : State) : State :=
  match p with
  | .pcie => { s with host := { s.host with abort := true } }
  | .spi => { s with porch := { s.porch with spi := { s.porch.spi with status := s.porch.spi.status ||| 1 } } }
  | .debug => { s with porch := { s.porch with dbg := { s.porch.dbg with errDomain := true } } }
  | .study => s

/-- What an access to channel `c` meets: a domain error first (R344), a denial next (R343), else its own effect. -/
def State.mbAccess (p : Path) (c : Nat) (effect : State → State) (s : State) : State :=
  if !s.mbAvailable then s.domainError p
  else if !s.carrierAllowed p c then (if c == 4 || c == 5 then s.countDenied else s)
  else effect s

/-- A read of channel `c`: what is turned away reads 0. -/
def State.mbReadAccess (p : Path) (c : Nat) (effect : State → State) (s : State) : State :=
  (s.returned p [0]).mbAccess p c effect

/-- A channel's record. -/
def State.chan (s : State) (c : Nat) : Mailbox := vget s.mb.chan c {}

/-- IN_FULL: the words that the header asks for have arrived (R346). -/
def Mailbox.inFull (m : Mailbox) : Bool :=
  match m.inq with | [] => false | h :: _ => decide (nbits h.toNat 0 4 + 1 ≤ m.inq.length)

/-- OUT_FULL. -/
def Mailbox.outFull (m : Mailbox) : Bool := !m.outq.isEmpty

/-- The stall timer runs while both queues are full; `restart` at a read of a word (R349). -/
def Mailbox.timer (m : Mailbox) (up : Nat) (restart : Bool) : Mailbox :=
  if m.inFull && m.outFull then
    { m with stallUp := if restart then some up else some (m.stallUp.getD up) }
  else { m with stallUp := none }

/-- A channel replaced. -/
def State.setChan (c : Nat) (m : Mailbox) (s : State) : State := { s with mb := { s.mb with chan := vset s.mb.chan c m } }

/-- MBc_STAT as it reads. -/
def Mailbox.statWord (m : Mailbox) : Word :=
  fset (fsetB (fset (fsetB m.stat F.MB_STAT.IN_FULL m.inFull) F.MB_STAT.IN_WORDS m.inq.length) F.MB_STAT.OUT_FULL m.outFull)
    F.MB_STAT.OUT_LEFT m.outq.length

/-- One word pushed into the inbound queue (R346): the word that completes the message sets DB_H2D bit c and steps IN_MSGS. -/
def State.pushWord (c : Nat) (w : Word) (s : State) : State :=
  let m := s.chan c
  if m.inFull then s.setChan c { m with stat := fset m.stat F.MB_STAT.IN_OVF 1 }
  else
    let m := { m with inq := m.inq ++ [w] }
    if m.inFull then
      ((s.setChan c ({ m with count := finc m.count F.MB_COUNT.IN_MSGS }.timer s.time.up false))).ringH2d c
    else s.setChan c m

/-- The effect of an MBc_IN access (R346): `first` is the word's place in the window. -/
def State.mbInEffect (c first : Nat) (ws : List Word) (whole : Bool) (s : State) : State :=
  if !whole then
    let m := s.chan c
    s.setChan c { m with stat := fset m.stat F.MB_STAT.SIZE_ERR 1 }
  else (ws.take (16 - first)).foldl (fun t w => t.pushWord c w) s

/-- MB_IN_WRITE (R341 to R346): an access of one or more words from place `first` of the MBc_IN window; `whole`: every write is one
whole aligned word. -/
def execMbInWrite (p : Path) (c : Fin 8) (first : Fin 16) (ws : List Word) (whole : Bool) (s : State) : Res :=
  .next (s.mbAccess p c.val (fun t => t.mbInEffect c.val first.val ws whole))

/-- One word taken from the outbound queue (R347). -/
def State.popWord (c : Nat) (s : State) : Word × State :=
  let m := s.chan c
  match m.outq with
  | [] => (0, s.setChan c { m with stat := fset m.stat F.MB_STAT.OUT_UNDER 1 })
  | w :: rest => (w, s.setChan c ({ m with outq := rest }.timer s.time.up true))

/-- `n` words taken in ascending order. -/
def State.popWords (c : Nat) : Nat → State → List Word × State
  | 0, s => ([], s)
  | n + 1, s =>
    let a := s.popWord c
    let b := State.popWords c n a.2
    (a.1 :: b.1, b.2)

/-- The effect of an MBc_OUT access (R347). -/
def State.mbOutEffect (p : Path) (c first n : Nat) (whole : Bool) (s : State) : State :=
  if !whole then
    let m := s.chan c
    (s.setChan c { m with stat := fset m.stat F.MB_STAT.SIZE_ERR 1 }).returned p [0]
  else
    let r := s.popWords c (min n (16 - first))
    r.2.returned p r.1

/-- MB_OUT_READ (R341 to R344, R347): a read of `n` words from place `first` of the MBc_OUT window. -/
def execMbOutRead (p : Path) (c : Fin 8) (first n : Fin 17) (whole : Bool) (s : State) : Res :=
  .next (s.mbReadAccess p c.val (fun t => t.mbOutEffect p c.val first.val n.val whole))

/-- IN_DISCARD empties a partly written inbound queue (R346). -/
def State.discardIn (c : Nat) (s : State) : State :=
  let m := s.chan c
  if m.inFull then s else s.setChan c { m with inq := [] }

/-- MB_IN_DISCARD (R346). -/
def execMbInDiscard (p : Path) (c : Fin 8) (s : State) : Res :=
  .next (s.mbAccess p c.val (fun t => t.discardIn c.val))

/-- MBX_STALL.MS as taken: 1 to 1,000 (R349). -/
def State.stallMs (s : State) : Nat := max 1 (min 1000 (fget s.mb.stallMs F.MBX_STALL.MS))

/-- MB_STALL_TIMEOUT (R349): the timer of a channel reaches MBX_STALL.MS. -/
def execMbStallTimeout (c : Fin 8) (s : State) : Res :=
  match (s.chan c.val).stallUp with
  | none => .next s
  | some u =>
    let s1 := s.untilUp (u + s.stallMs * ms)
    let m := s1.chan c.val
    let m := { m with stat := finc (fset m.stat F.MB_STAT.STALL 1) F.MB_STAT.STALLS, stallUp := some s1.time.up }
    .next ((((s1.setChan c.val m).ring 10).ringH2d 15).report srcMailboxStall c.val)

/-- Every inbound and outbound queue is empty. -/
def MailboxBlock.quiet (m : MailboxBlock) : Bool := m.chan.toList.all (fun x => x.inq.isEmpty && x.outq.isEmpty)

/-- MB_SLEEP (R344): only in REST and with every queue empty. -/
def execMbSleep (s : State) : Res :=
  if s.mbAvailable && s.inRest && s.mb.quiet && s.boot.phase == .ready then
    .next { s with mb := { s.mb with avail := fset s.mb.avail F.MB_AVAIL.STATE 2 } }
  else .next s

/-- A host write to DB_H2D: ones in bits 26 to 0 set (R353). -/
def State.writeDbH2d (w : Word) (s : State) : State :=
  { s with mb := { s.mb with dbH2d := s.mb.dbH2d ||| (w &&& 0x07FFFFFF) } }

/-- MAILBOX_WAKE (R344): a DB_H2D write with a 1 wakes the block. -/
def execMailboxWake (w : Word) (s : State) : Res :=
  let s1 := s.writeDbH2d w
  if w &&& 0x07FFFFFF != 0 && fget s.mb.avail F.MB_AVAIL.STATE == 2 then
    .next { s1 with mb := { s1.mb with avail := fset s1.mb.avail F.MB_AVAIL.STATE 0 } }
  else .next s1

/-! ### Doorbells and MSI-X -/

/-- DB_D2H_CLEAR (R351): ones clear. -/
def execDbD2hClear (w : Word) (s : State) : Res := .next (s.setDoorbells (s.mb.dbD2h &&& ~~~w) s.mb.dbMask)

/-- DB_D2H_MASK_WRITE (R351): each bit that becomes unmasked while its doorbell bit is 1 sends one message. -/
def execDbD2hMaskWrite (w : Word) (s : State) : Res := .next (s.setDoorbells s.mb.dbD2h w)

/-- An ignored write of the host map is captured (R376): its block's WI_STAT bit, offset, requester, word, count. -/
def State.captureIgnored (block : Fld) (offset req : Nat) (w : Word) (s : State) : State :=
  { s with host := { s.host with
      wiStat := finc (fset s.host.wiStat block 1) F.WI_STAT.COUNT
      wiCapt := fset (fset 0 F.WI_CAPT.OFFSET offset) F.WI_CAPT.REQ req
      wiData := w } }

/-- A write to HINT_CFG of the bits of `sel` (R375, R379): ENABLE from 0 to 1 sends one message for every set and unmasked bit, in
ascending vector order (R384). -/
def State.writeHintCfg (p : Path) (offset : Nat) (sel w : Word) (s : State) : State :=
  let was := fbit s.host.hintCfg F.HINT_CFG.ENABLE
  let r := regWriteSel F.HINT_CFG.kind was sel s.host.hintCfg w
  let s1 := { s with host := { s.host with
    hintCfg := r.word
    idStat := if r.keepAltered then fset s.host.idStat F.ID_STAT.KEEP_ALTERED 1 else s.host.idStat } }
  let s2 := if r.ignored then s1.captureIgnored F.WI_STAT.HINT offset (pathReq p) w else s1
  if !was && fbit r.word F.HINT_CFG.ENABLE then s2.msixAll s2.hintPend else s2

/-- HINT_ENABLE_SET (R375, R384): a HINT_CFG word. -/
def execHintEnableSet (p : Path) (w : Word) (s : State) : Res := .next (s.writeHintCfg p 0x0200 0xFFFFFFFF w)

/-- MSIX_HOLDOFF_END (R384): the holdoff of vector `v` ends; a message follows if its bit is still set and unmasked. -/
def execMsixHoldoffEnd (v : Fin 32) (s : State) : Res :=
  if !s.msix.owed.contains v.val then .next s
  else
    let last := (s.msix.lastUp.find? (fun p => p.1 == v.val)).map (·.2)
    let s1 := s.untilUp (last.getD 0 + s.holdoff)
    let s2 := { s1 with msix := { s1.msix with owed := s1.msix.owed.filter (· != v.val) } }
    .next (if nbit s2.hintPend.toNat v.val && fbit s2.host.hintCfg F.HINT_CFG.ENABLE then s2.msixSend v.val else s2)

/-! ### Locks (R354 to R357) -/

/-- A PCIe access to LOCKSk while the secure unlock is not in force (R354). -/
def State.lockRefused (s : State) (a : LockAccess) : Bool := a.path == .pcie && a.secure && !s.unlocked

/-- The requester number of a lock access (R354). -/
def lockReq (a : LockAccess) : Nat := if a.path == .pcie && a.secure then 2 else pathReq a.path

/-- The owner of a lock, 0 when free. -/
def State.lockOwner (s : State) (k : Nat) : Nat := (vget s.mb.locks k 0).val

/-- The lock's owner set. -/
def State.setLock (k req : Nat) (s : State) : State :=
  { s with mb := { s.mb with locks := vset s.mb.locks k (if h : req < 6 then ⟨req, h⟩ else 0) } }

/-- A lock write (R355): the owner's own number frees the lock; any other write is ignored and flagged. -/
def State.lockWrite (k : Nat) (a : LockAccess) (w : Word) (s : State) : State :=
  if s.lockRefused a then s.countDenied
  else
    let o := s.lockOwner k
    if o != 0 && nbits w.toNat 0 3 == o && lockReq a == o then s.setLock k 0
    else
      let t := fset (fset (fset s.mb.lockStat F.LOCK_STAT.BAD_RELEASE 1) F.LOCK_STAT.LOCK k) F.LOCK_STAT.REQ (lockReq a)
      { s with mb := { s.mb with lockStat := finc t F.LOCK_STAT.BAD_COUNT } }

/-- A lock read (R355): a free lock is acquired and reads 0; an owned one reads its owner. -/
def State.lockRead (k : Nat) (a : LockAccess) (s : State) : State :=
  if s.lockRefused a then (s.countDenied).returned a.path [0xFF]
  else
    let o := s.lockOwner k
    if o == 0 then (s.setLock k (lockReq a)).returned a.path [0] else s.returned a.path [w32 o]

/-- The accesses of one always-on cycle to one lock (R356): valid releases first, then the reads by rising requester number. A write
that is no valid release is ignored and flagged. -/
def State.lockCycle (k : Nat) (reads : List LockAccess) (writes : List (LockAccess × Word)) (s : State) : State :=
  let s1 := writes.foldl (fun t x => t.lockWrite k x.1 x.2) s
  let ordered := (List.range 6).flatMap (fun r => reads.filter (fun a => lockReq a == r))
  ordered.foldl (fun t a => t.lockRead k a) s1

/-- LOCK_READ (R354 to R356): the reads of lock `k` in one cycle, with the writes that meet them. -/
def execLockRead (k : Fin 32) (reads : List LockAccess) (writes : List (LockAccess × Word)) (s : State) : Res :=
  .next (s.lockCycle k.val reads writes)

/-- LOCK_WRITE (R354 to R356). -/
def execLockWrite (k : Fin 32) (a : LockAccess) (w : Word) (s : State) : Res := .next (s.lockWrite k.val a w)

/-! ### Control-page aliases (R378, R379) -/

/-- An alias write of one control-page bit. HINT_CFG alone has bits that a write changes; ID_STAT's KEEP bits follow R377. -/
def State.aliasWrite (a : AliasAccess) (s : State) : State :=
  let sel : Word := 1#32 <<< a.bit.val
  let w : Word := if a.v then sel else 0
  let off := 4 * a.word.val
  if off = 0x200 then s.writeHintCfg a.path (0x8000 + 32 * off + 4 * a.bit.val) sel w
  else if off = 0x00C then
    let r := regWriteSel F.ID_STAT.kind false sel s.host.idStat w
    { s with host := { s.host with idStat := if r.keepAltered then fset r.word F.ID_STAT.KEEP_ALTERED 1 else r.word } }
  else s

/-- ALIAS_WRITE (R378, R379): the alias writes of one always-on cycle; of two on one bit the lower requester number applies last. -/
def execAliasWrite (ws : List AliasAccess) (s : State) : Res :=
  let ordered := ([Path.debug, .spi, .study, .pcie]).flatMap (fun p => ws.filter (fun a => a.path == p))
  .next (ordered.foldl (fun t a => t.aliasWrite a) s)

/-! ### Wide-value snapshot mailbox (R380, R381) -/

/-- The snapshot copy of a path; the Study has none. -/
def wideCopy : Path → Option Nat
  | .pcie => some 0 | .spi => some 1 | .debug => some 2 | .study => none

/-- Current trace number of a slot row: its last launch, 0 before the first (Table 21.2). -/
def State.currentTrace (s : State) (leg slot : Nat) : Nat := vget (vget s.probe.trace leg (Vector.replicate 8 0)) slot 0 - 1

/-- ECC_LAST (R288): DATA0–1 [34:0] Cellar address; DATA2 [0] channel, [1] rank, [31:16] syndrome. -/
def State.eccLastWords (s : State) : List Word := s.cellar.eccLast.toList ++ [0]

/-- The value of a wide index (Table 21.2): `none` unknown, `some none` its domain is off (R381). -/
def State.wideValue (s : State) (i : Nat) : Option (Option (List Word)) :=
  let v (n : Nat) : Option (Option (List Word)) := some (some (w64 n ++ [0, 0]))
  if i = 0x00 then v s.host.serial
  else if i = 0x01 then v s.probe.active.e
  else if i = 0x02 then v s.time.ppsLast
  else if i = 0x03 then v s.tiu.startTime
  else if i = 0x04 then some (some s.eccLastWords)
  else if 0x10 ≤ i ∧ i ≤ 0x1F then v (s.currentTrace ((i - 0x10) / 8) (i % 8))
  else if 0x20 ≤ i ∧ i ≤ 0x2F then
    if !s.power.front then some none
    else
      let t := vget s.tach (i % 8) {}
      if i < 0x28 then v ((t.trail.head?.map (·.1)).getD 0) else v t.count
  else if 0x30 ≤ i ∧ i ≤ 0x37 then v ((s.cw.ring[i - 0x30]?).getD 0)
  else none
/-- A capture completes: DATA, INDEX, ERR; VALID rises and BUSY clears. -/
def WideMailbox.complete (m : WideMailbox) (err index : Nat) (data : List Word) : WideMailbox :=
  { m with
    data := #v[wat data 0, wat data 1, wat data 2, wat data 3]
    stat := fset (fset (fset 0 F.WIDE_STAT.VALID 1) F.WIDE_STAT.ERR err) F.WIDE_STAT.INDEX index }

/-- The copy of a path replaced. -/
def State.setWide (i : Nat) (m : WideMailbox) (s : State) : State := { s with host := { s.host with wide := vset s.host.wide i m } }

/-- A WIDE_SEL write (R380, R381): any capture in progress is abandoned; BUSY is set and VALID cleared, or the snapshot completes at once with
an error. -/
def State.selectWide (p : Path) (index : Nat) (s : State) : State :=
  match wideCopy p with
  | none => s
  | some i =>
    let m := { vget s.host.wide i {} with sel := w32 index }
    match s.wideValue index with
    | none => s.setWide i (m.complete 1 index [])
    | some none => s.setWide i (m.complete 2 index [])
    | some (some _) => s.setWide i { m with stat := fset (fset (fset m.stat F.WIDE_STAT.BUSY 1) F.WIDE_STAT.VALID 0) F.WIDE_STAT.ERR 0 }

/-- WIDE_SEL_WRITE (R380, R381). -/
def execWideSelWrite (p : Path) (index : Fin 256) (s : State) : Res := .next (s.selectWide p index.val)

/-- WIDE_CAPTURE_DONE (R380): all bits of the value from one cycle. -/
def execWideCaptureDone (p : Path) (s : State) : Res :=
  match wideCopy p with
  | none => .next s
  | some i =>
    let m := vget s.host.wide i {}
    let index := fget m.sel F.WIDE_SEL.INDEX
    if !fbit m.stat F.WIDE_STAT.BUSY then .next s
    else
      match s.wideValue index with
      | some (some ws) => .next (s.setWide i (m.complete 0 index ws))
      | _ => .next (s.setWide i (m.complete 2 index []))

/-- The read of WIDE_DATA3 clears VALID (R380). -/
def State.readWide3 (p : Path) (s : State) : State :=
  match wideCopy p with
  | none => s
  | some i =>
    let m := vget s.host.wide i {}
    (s.setWide i { m with stat := fset m.stat F.WIDE_STAT.VALID 0 }).returned p [vget m.data 3 0]

/-- WIDE_DATA3_READ (R380). -/
def execWideData3Read (p : Path) (s : State) : Res := .next (s.readWide3 p)

end Sys2Proof.Machine
end

