-- ==== Sys2Proof/Machine/Pack.lean ====
section
/-! DEFINITION. The compression engine: pre-transform, matching, coding, blocks (R303 to R308). -/

namespace Sys2Proof.Machine

/-! ### Pre-transform (R303) -/

/-- Differences of little-endian 16-bit words; an odd last byte passes. -/
def delta16 : Nat → List Byte → List Byte
  | prev, a :: b :: rest =>
    let w := a.toNat + 256 * b.toNat
    leBytes 2 ((w + 65536 - prev) % 65536) ++ delta16 w rest
  | _, l => l

/-- The low bytes of the whole words, and their high bytes with an odd last byte. -/
def bytePlanes : List Byte → List Byte × List Byte
  | a :: b :: rest => let (lo, hi) := bytePlanes rest; (a :: lo, b :: hi)
  | l => ([], l)

/-- PRE. -/
def preTransform (pre : Nat) (bs : List Byte) : List Byte :=
  let d := if pre % 2 = 1 then delta16 0 bs else bs
  if pre / 2 % 2 = 1 then (let (lo, hi) := bytePlanes d; lo ++ hi) else d

/-! ### Matching (R304) -/

inductive Token where
  | literal (b : Nat)
  | copy (len dist : Nat)
  deriving DecidableEq, Repr

/-- hash(j). -/
def matchHash (b : Array Byte) (j : Nat) : Nat :=
  let at_ (k : Nat) : Nat := (b[j + k]?.getD 0).toNat
  (at_ 0 + 256 * at_ 1 + 65536 * at_ 2 + 2 ^ 24 * at_ 3) * 0x9E3779B1 % 2 ^ 32 / 2 ^ 17

/-- insert(j): a chain keeps its eight newest positions, the most that are tried. -/
def insertAt (b : Array Byte) (heads : Array (List Nat)) (j : Nat) : Array (List Nat) :=
  if j + 4 ≤ b.size then heads.modify (matchHash b j) (fun l => (j :: l).take 8) else heads

/-- Equal bytes from `c` and from `p` on, p above c, up to the end. -/
def matchLength (b : Array Byte) (c p : Nat) : Nat → Nat
  | 0 => 0
  | n + 1 => if b[c]? = b[p]? then 1 + matchLength b (c + 1) (p + 1) n else 0

/-- The longest match, the nearest of equals: length and distance. -/
def bestMatch (b : Array Byte) (pos : Nat) (cands : List Nat) : Nat × Nat :=
  cands.foldl (fun best c => let l := matchLength b c pos (b.size - pos); if best.1 < l then (l, pos - c) else best) (0, 0)

/-- The greedy pass; each round takes at least one byte. -/
def matchPass (b : Array Byte) : Nat → Nat → Array (List Nat) → List Token → List Token
  | 0, _, _, acc => acc.reverse
  | fuel + 1, pos, heads, acc =>
    if b.size ≤ pos then acc.reverse
    else
      let best := if pos + 4 ≤ b.size then bestMatch b pos ((heads[matchHash b pos]?).getD []) else (0, 0)
      if 4 ≤ best.1 then
        matchPass b fuel (pos + best.1) ((List.range best.1).foldl (fun h k => insertAt b h (pos + k)) heads) (.copy best.1 best.2 :: acc)
      else matchPass b fuel (pos + 1) (insertAt b heads pos) (.literal ((b[pos]?).getD 0).toNat :: acc)

/-- The tokens of a block, without the end. -/
def tokens (bs : List Byte) : List Token := matchPass bs.toArray bs.length 0 (Array.replicate 32768 []) []

/-! ### Coding (R305 to R307) -/

/-- Bucket, number of extra bits, and their value. -/
def bucketOf (v : Nat) : Nat × Nat × Nat :=
  if v < 4 then (v, 0, 0) else let k := v.log2; (2 * k + v / 2 ^ (k - 1) % 2, k - 1, v % 2 ^ (k - 1))

/-- Code length of a symbol of LL in a built-in table (Table 17.2). -/
def llLength (t s : Nat) : Nat :=
  match t with
  | 0 => if s < 256 then 9 else if s = 256 then 8 else if s < 269 then 5 else if s < 280 then 7 else 8
  | 1 =>
    if s = 0 ∨ s = 255 then 3 else if s < 16 ∨ (240 ≤ s ∧ s < 255) then 6 else if s < 256 then 11
    else if s = 256 then 10 else if s < 265 then 6 else if s < 269 then 8 else if s < 280 then 9 else 10
  | 2 => if s < 256 then 10 else if s = 256 then 7 else if s < 273 then 5 else if s < 288 then 6 else 7
  | _ => if s < 224 then 8 else if s < 256 then 9 else if s = 256 then 10 else if s < 288 then 9 else 10

/-- Code length of a symbol of D. -/
def dLength (t s : Nat) : Nat :=
  match t with
  | 1 => if s < 4 then 3 else if s < 8 then 5 else 6
  | 2 => if s < 16 then 6 else if s < 24 then 5 else 4
  | _ => 5

/-- First code of a length (RFC 1951 section 3.2.2, as R305 says). -/
def firstCode (count : Nat → Nat) : Nat → Nat
  | 0 => 0
  | n + 1 => (firstCode count n + (if n = 0 then 0 else count n)) * 2

/-- The canonical code of every symbol: value and length. -/
def canonical (n : Nat) (len : Nat → Nat) : Array (Nat × Nat) :=
  let lens := (List.range n).map len
  let count (l : Nat) : Nat := (lens.filter (· == l)).length
  let first := ((List.range 17).map (firstCode count)).toArray
  (((List.range n).map (fun s =>
    let l := len s
    ((first[l]?).getD 0 + ((lens.take s).filter (· == l)).length, l))).toArray)

/-- Bits of a code, most significant first; of extra bits, least significant first. -/
def codeBits (c : Nat × Nat) : List Bool := (List.range c.2).map (fun i => nbit c.1 (c.2 - 1 - i))
def extraBits (n v : Nat) : List Bool := (List.range n).map (nbit v)

/-- LL symbol and its extra bits of a token, D symbol and its extra bits of a match. -/
def Token.parts (t : Token) : (Nat × Nat × Nat) × Option (Nat × Nat × Nat) :=
  match t with
  | .literal b => ((b, 0, 0), none)
  | .copy len dist => let (k, n, v) := bucketOf (len - 4); ((257 + k, n, v), some (bucketOf (dist - 1)))

/-- Bits of a token under a table. -/
def Token.cost (t : Nat) (k : Token) : Nat :=
  let (l, d) := k.parts
  llLength t l.1 + l.2.1 + (match d with | some d => dLength t d.1 + d.2.1 | none => 0)

/-- c_t in bytes. -/
def tableCost (ts : List Token) (t : Nat) : Nat := cdiv (ts.foldl (fun a k => a + k.cost t) (llLength t 256)) 8

/-- The bits of a block's tokens with the end. -/
def encodeTokens (ts : List Token) (t : Nat) : List Bool :=
  let ll := canonical 289 (llLength t)
  let dd := canonical 32 (dLength t)
  let bits (k : Token) : List Bool :=
    let (l, d) := k.parts
    codeBits ((ll[l.1]?).getD (0, 0)) ++ extraBits l.2.1 l.2.2 ++
      (match d with | some d => codeBits ((dd[d.1]?).getD (0, 0)) ++ extraBits d.2.1 d.2.2 | none => [])
  ts.flatMap bits ++ codeBits ((ll[256]?).getD (0, 0))

/-- Bits packed least significant first, zeros up to a byte. -/
def packBits : Nat → List Bool → List Byte
  | 0, _ => []
  | _, [] => []
  | fuel + 1, bs => BitVec.ofNat 8 ((bs.take 8).foldr (fun b a => 2 * a + b.toNat) 0) :: packBits fuel (bs.drop 8)

/-- METHOD and payload of a DATA block (R307). -/
def packData (pre : Nat) (code : Bool) (bs : List Byte) : Nat × List Byte :=
  let x := preTransform pre bs
  let ts := if code then tokens x else []
  let cs := (List.range 4).map (tableCost ts)
  let t := (List.range 4).foldl (fun b i => if (cs[i]?).getD 0 < (cs[b]?).getD 0 then i else b) 0
  let c := (cs[t]?).getD 0
  if !code || x.length ≤ c then (4 + 8 * pre, x) else (t + 8 * pre, packBits (c + 1) (encodeTokens ts t))

/-- A block (Table 17.3). `orig`: ORIG_LEN; `check`: the bytes whose CRC-32C the trailer carries; `first`: FIRST_ITEM. -/
def blockOf (stream type method seq orig first : Nat) (payload check : List Byte) : List Byte :=
  let head := leBytes 2 0x5A42 ++ leBytes 1 (stream % 8) ++ leBytes 1 type ++ leBytes 1 method ++ leBytes 3 0 ++ leBytes 8 seq ++ leBytes 4 orig ++
    leBytes 4 payload.length ++ leBytes 4 first
  let pad := List.replicate ((8 - payload.length % 8) % 8) (0 : Byte)
  let n := 32 + payload.length + pad.length + 8
  head ++ leBytes 4 (crc32c head) ++ payload ++ pad ++ leBytes 4 (crc32c check) ++ leBytes 4 n

end Sys2Proof.Machine
end

