-- ==== Sys2Proof/Machine/Triggers.lean ====
section
/-! DEFINITION. Versions at the vector unit and at the trigger units, missing verdicts, and the record copier (R239, R253 to R265). -/

namespace Sys2Proof.Machine

/-! ### VERSION_COMMIT (R238, R239, R260) -/

/-- A unit has to see a version: it is enabled, or something waits in its queue, or a TRIG_SET is due. -/
def TrigUnit.sees (x : TrigUnit) (f : Nat) : Bool :=
  x.c.on || !x.queue.isEmpty || x.due.any (fun e => e.1 ≤ f && match e.2 with | .config _ => true | _ => false)

/-- An enabled unit's queue holds 65,536 versions (R259). -/
def State.queueFull (s : State) : Bool := s.trig.units.toList.any (fun x => x.c.on && decide (65536 ≤ x.queue.length))

/-- Verdicts that no queued version and no version of the last second can need leave the list. -/
def Triggers.prune (t : Triggers) (time : Nat) : Triggers :=
  { t with verdicts := t.verdicts.filter (fun v => decide (time < v.time + sec) || t.units.toList.any (fun x => x.queue.any (fun q => q.time == v.time))) }

/-- This device's verdict word for a version: held, and sent on the ring (R260). -/
def State.giveVerdict (v : Version) (s : State) : State :=
  let g := s.ownVerdict v
  let t := s.trig.prune v.time
  let s1 := { s with trig := { t with verdicts := t.verdicts ++ [{ time := v.time, device := s.host.serial, groups := g }] } }
  if s.cwRing then s1.cwSend [0, 1] cwVerdict (leBytes 8 v.time ++ leBytes 1 g) else s1

/-- A version reaches a unit: its queue, or at once a unit that has nothing to do with it. -/
def TrigUnit.receive (x : TrigUnit) (v : Version) : TrigUnit :=
  if x.sees v.frame then { x with queue := x.queue ++ [v] } else (x.advance v.frame).pass v

/-- Version f is committed. -/
def State.commitVersion (f : Nat) (s : State) : State :=
  let time := s.boundaryTime f
  let s1 := (List.range 256).foldl (fun t z => t.commitZone f z) s
  let bits := s1.loft.vector
  let s2 := s1.withLoft { s1.loft with vec := { s1.loft.vec with next := some (f + 1), bits, frameTime := time, held := false } }
  let v : Version := { frame := f, time, vector := bits.toList }
  let s3 := s2.giveVerdict v
  { s3 with trig := { s3.trig with units := s3.trig.units.map (fun x => x.receive v) } }

/-- VERSION_COMMIT (R238, R239): the next version, once every zone has delivered and every trigger queue has room; after a stop, up to the probe's last
frame. -/
def execVersionCommit (s : State) : Res :=
  match s.loft.vec.next with
  | none => .next s
  | some f =>
    if !s.power.loft then .next s
    else if !s.probe.running && decide (s.probe.frontier ≤ f) then .next (s.withLoft { s.loft with vec := { s.loft.vec with next := none, held := false } })
    else
      let s1 := (s.distribute f).distributeTrig f
      let s2 := (List.range 256).foldl (fun t z => t.advanceZone z f) s1
      if !s2.delivered f then .next s
      else if s2.queueFull then
        if s.loft.vec.held || decide (s.now < s.boundaryTime f) then .next s
        else .next (s.withLoft { s.loft with vec := { s.loft.vec with held := true, stat := finc s.loft.vec.stat F.VEC_STAT.WAITS } })
      else .next ((s2.untilTime (s.boundaryTime f)).commitVersion f)

/-! ### TRIGGER_VERSION (R255 to R261) -/

/-- Offset from the Loft base of the last RWE register of unit u that a TRIG_SET due at f finds changed (R266). -/
def TrigUnit.ignoredAt (x : TrigUnit) (u f : Nat) : Nat :=
  x.due.foldl (fun a e =>
    match e.2 with
    | .config n =>
      if f < e.1 then a
      else
        let d : List Bool := [n.cfg &&& 0x1FFE != x.c.cfg &&& 0x1FFE, n.pre != x.c.pre, n.post != x.c.post, n.hold != x.c.hold, n.first != x.c.first,
          n.count != x.c.count, n.interval != x.c.interval, n.period != x.c.period]
        match (d.zipIdx.filter (·.1)).getLast? with | some (_, i) => 0xB000 + 0x40 * u + 4 * i | none => a
    | _ => a) 0

/-- A TRIG_SET on an enabled unit leaves its RWE fields (R266): LOFT_STAT.WRITE_IGNORED and TRIG_WI. -/
def State.flagIgnored (u f : Nat) (s : State) : State :=
  let x := s.unit u
  if !x.ignores f then s
  else
    { s with loft := { s.loft with stat := fset s.loft.stat F.LOFT_STAT.WRITE_IGNORED 1 }
             trig := { s.trig with wi := w32 (x.ignoredAt u f) } }

/-- A version at a unit, the changes due at it made (R256). -/
def State.takeVersion (u : Nat) (v : Version) (rest : List Version) (s : State) : State :=
  let x := (s.unit u).advance v.frame
  let ds := s.verdictsFor x v
  let s1 := (s.flagIgnored u v.frame).setUnit u { x with queue := rest }
  if !x.c.on then s1.setUnit u ({ x with queue := rest }.pass v)
  else s1.judgeVersion u v (ds.any x.bitOf) (ds.any (fun d => x.bitOf d && d.device != s.host.serial)) (ds.any (·.missing))

/-- TRIGGER_VERSION (R256 to R261): unit u takes its next version; a ring unit once it holds every verdict, a re-arming one once its record is copied. -/
def execTriggerVersion (u : Fin 16) (s : State) : Res :=
  let x := s.unit u.val
  match x.queue with
  | [] => if s.loft.vec.next.isNone && !x.due.isEmpty then .next (s.setUnit u.val (x.due.foldl (fun y e => y.applyDue e.1 e.2) { x with due := [] })) else .next s
  | v :: rest =>
    let y := x.advance v.frame
    if y.c.on && y.c.ring && (s.awaits v.time).any (fun d => (s.verdictOf d v.time).isNone) then .next s
    else if y.c.on && y.waitsAt v.frame && !s.copied y then
      if fbit x.stat F.TRIG_STAT.WAITING then .next s
      else .next (s.setUnit u.val { x with stat := finc (fset x.stat F.TRIG_STAT.WAITING 1) F.TRIG_STAT.WAITS })
    else .next (s.takeVersion u.val v rest)

/-! ### VERDICT_TIMEOUT (R260) -/

/-- The earliest frame time at the front of a ring unit's queue for which a verdict is missing. -/
def State.missingTime (s : State) : Option Nat :=
  let times := s.trig.units.toList.filterMap (fun x =>
    match x.queue with
    | [] => none
    | v :: _ =>
      let y := x.advance v.frame
      if y.c.on && y.c.ring && (s.awaits v.time).any (fun d => (s.verdictOf d v.time).isNone) then some v.time else none)
  times.foldl (fun m t => match m with | none => some t | some n => some (min n t)) none

/-- VERDICT_TIMEOUT (R260): 10 ms after the frame a missing verdict is taken as 0 and reported. -/
def execVerdictTimeout (s : State) : Res :=
  match s.missingTime with
  | none => .next s
  | some t =>
    let s1 := s.untilTime (t + 10 * ms)
    let gone := (s1.awaits t).filter (fun d => (s1.verdictOf d t).isNone)
    .next (gone.foldl (fun (a : State) d =>
      let w : Verdict := { time := t, device := d, groups := 0, missing := true }
      let b : State := { a with trig := { a.trig with verdicts := a.trig.verdicts ++ [w] } }
      (b.report srcCausewayVerdict 0).emitAt (some t) evVerdictMissing (w64 t ++ w64 d)) s1)

/-! ### The copier (R262 to R265) -/

/-- Frames of a record: F − PRE to F + POST − 1. -/
def Record.from_ (r : Record) : Nat := r.fireFrame - r.pre
def Record.end_ (r : Record) : Nat := r.fireFrame + r.post

/-- The copier may take a fired record: no unit can still make an earlier one (R262). -/
def State.mayTake (s : State) (r : Record) : Bool :=
  (List.range 16).all (fun u => (s.unit u).queue.all (fun v => decide (r.fireFrame < v.frame) || (v.frame == r.fireFrame && decide (r.unit < u))))

/-- First place in the record store with `n` bytes free (R262). -/
def Triggers.findRoom (t : Triggers) (base size n : Nat) : Option Nat :=
  let used := (t.store.map (fun e => (e.base, e.room))) ++ ((t.fired.filter (fun r => r.room != 0)).map (fun r => (r.base, r.room)))
  let free (a : Nat) : Bool := decide (a + n ≤ base + size) && used.all (fun e => decide (a + n ≤ e.1) || decide (e.1 + e.2 ≤ a))
  (base :: used.map (fun e => e.1 + e.2)).foldl (fun m a => if free a then (match m with | none => some a | some b => some (min a b)) else m) none

/-- A record's room has `n` bytes, or grows to them in place (R262). -/
def Triggers.grow (t : Triggers) (base size : Nat) (r : Record) (n : Nat) : Option Record :=
  let used := (t.store.map (fun e => (e.base, e.room))) ++ ((t.fired.filter (fun x => x.room != 0 && x.key != r.key)).map (fun x => (x.base, x.room)))
  if n ≤ r.room then some r
  else if r.base + n ≤ base + size && used.all (fun e => decide (r.base + n ≤ e.1) || decide (e.1 + e.2 ≤ r.base)) then some { r with room := n }
  else none

/-- The copier takes a record (R262, R263): SEQ in copier order, and room; without room it waits. -/
def State.takeRecord (r : Record) (rest : List Record) (s : State) : State × Option Record :=
  let (r, next) := match r.seq with | some _ => (r, s.trig.nextSeq) | none => ({ r with seq := some s.trig.nextSeq }, s.trig.nextSeq + 1)
  if r.room != 0 then (s, some r)
  else
    match s.trig.findRoom (s.cellar.regionBase 8) (s.cellar.regionSize 8) r.need with
    | none => ({ s with trig := { s.trig with storeWait := true } }, none)
    | some a =>
      let r1 := { r with base := a, room := r.need }
      ({ s with trig := { s.trig with storeWait := false, nextSeq := next, fired := r1 :: rest } }, some r1)

/-- The next row of a record in ring order. -/
def Cellar.nextRow (c : Cellar) (r : Record) : Option RingRow :=
  (c.ring r.c.dec).rows.find? (fun x => r.nextP ≤ x.p && r.c.hasLeg x.leg && r.from_ ≤ x.frame && x.frame < r.end_)

/-- Rows of a record's span may still come. -/
def State.rowsDue (s : State) (r : Record) : Bool :=
  let early (f : Nat) : Bool := decide (f < r.end_)
  let legs := [0, 1].filter (fun leg => r.c.hasLeg leg)
  let out := if r.c.dec then s.halls.out5 else s.halls.out0
  (s.probe.running && legs.any (fun leg => (s.legBank leg).on && early (s.globalFrame (vget s.probe.frame leg 0)))) ||
    s.halls.launches.any (fun l => legs.contains l.leg && early l.frame) || out.any (fun x => legs.contains x.leg && early x.frame) ||
    (r.c.dec && legs.any (fun leg => (vget s.halls.leg leg {}).chain.input.any (fun m => early m.frame)))

/-- Header, values and quality of a row's slice, and whether it counts as lost (R262, R264). What a lost row's own header held that its place does
not say is free (DESIGN CHOICE, log entry 31). -/
def State.sliceOf (r : Record) (x : RingRow) (s : State) : State × List Byte × List Nat × List Nat × Bool :=
  let c := s.cellar
  let p5 := r.c.dec
  let len := (x.len - 64) * 4 / 9
  let n := r.c.countN
  let at_ := r.c.firstN
  let lost := (c.ring p5).lost x || c.ringSpoiled p5 x.p x.len
  if lost then
    let open_ (k bits : Nat) : Nat := (Config.openValue 9 [x.leg, x.row, x.trace, k]).toNat % 2 ^ bits
    (s, rowHeader x.trace x.stamp (open_ 0 64) len x.leg x.row (open_ 1 8) (open_ 2 8) (bit reOverrun) 0 len (open_ 3 3), List.replicate n 0x8000,
      List.replicate n 3, true)
  else
    let h := c.readRing p5 x.p 64
    if x.overrun then (s, overrunHeader h, List.replicate n 0x8000, List.replicate n 3, false)
    else
      let vs := c.readRing p5 (x.p + 64 + 2 * at_) (2 * n)
      let qs := c.readRing p5 (x.p + 64 + 2 * len + at_ / 4) (n / 4)
      (s, h, (List.range n).map (fun i => leAt vs (2 * i) 2), (List.range n).map (fun i => leAt qs (i / 4) 1 / 4 ^ (i % 4) % 4), false)

/-- MIN, MAX and quality of one location over an interval (R265). -/
def intervalCell (rows : List (List Nat × List Nat)) (i : Nat) : Nat × Nat × Nat :=
  let qs := rows.map (fun r => (r.2[i]?).getD 3)
  let vs := (rows.filter (fun r => (r.2[i]?).getD 3 != 3)).map (fun r => sx 16 ((r.1[i]?).getD 0))
  match vs with
  | [] => (0x8000, 0x8000, 3)
  | v :: rest =>
    let q := if qs.contains 3 then 2 else if qs.any (· != 0) then 1 else 0
    (wrapTo 16 (rest.foldl min v), wrapTo 16 (rest.foldl max v), q)

/-- The open interval of an overview is closed (R265). -/
def Overview.close (o : Overview) (n : Nat) : Overview :=
  match o.rows with
  | [] => o
  | first :: _ =>
    let rows := o.rows.map (fun r => (r.2.1, r.2.2))
    let cells := (List.range n).map (intervalCell rows)
    { o with
      rows := [], intervals := o.intervals + 1
      bytes := o.bytes ++ leBytes 8 first.1 ++ leBytes 4 o.rows.length ++ zeros 4 ++ cells.flatMap (fun c => leBytes 2 c.1 ++ leBytes 2 c.2.1) ++
        packQuality (cells.map (·.2.2)) }

/-- A row enters the overview of its leg. -/
def Overview.add (o : Overview) (c : TrigConfig) (trace : Nat) (vs qs : List Nat) : Overview :=
  let o1 := { o with first := some (o.first.getD trace), rows := o.rows ++ [(trace, vs, qs)] }
  if c.intervalN ≤ o1.rows.length then o1.close c.countN else o1

/-- The section of a leg (R265). -/
def Overview.block (o : Overview) (c : TrigConfig) (leg : Nat) : List Byte :=
  leBytes 1 leg ++ zeros 3 ++ leBytes 4 c.intervalN ++ leBytes 4 o.intervals ++ zeros 4 ++ leBytes 8 (o.first.getD 0) ++ zeros 40 ++ o.bytes

/-- The header of Table 14.3. -/
def Record.header (r : Record) : List Byte :=
  let kind := r.c.overview.toNat + 2 * r.c.dec.toNat + 4 * fget r.c.cfg F.TRIG_CFG.LEGS
  leBytes 4 0x52454331 ++ leBytes 2 1 ++ leBytes 1 r.unit ++ leBytes 1 kind ++ leBytes 8 (r.seq.getD 0) ++ leBytes 8 r.fireTime ++
    leBytes 8 (vget r.fireTrace 0 0) ++ leBytes 8 (vget r.fireTrace 1 0) ++ leBytes 8 r.firstTime ++ leBytes 4 r.pre ++ leBytes 4 r.post ++
    leBytes 4 r.c.firstN ++ leBytes 4 r.c.countN ++ leBytes 4 (if r.c.overview then r.c.intervalN else 0) ++ leBytes 2 r.cause ++ leBytes 2 r.flags ++
    leBytes 2 r.early ++ leBytes 2 r.rearms ++ leBytes 4 r.items ++ leBytes 8 r.body ++ leBytes 4 r.lost ++ leBytes 4 r.reason ++ zeros 32 ++
    bytesOfWords r.vector ++ zeros 128

/-- A read or a write of the copier enters P2, whose cap paces its grants (R27). -/
def State.copierRequest (a n : Nat) (write : Bool) (s : State) : State :=
  s.withCellar (s.cellar.request 2 { addr := a, bytes := n, write })

/-- The copier waits for room in the record store. -/
def State.waitStore (s : State) : State := { s with trig := { s.trig with storeWait := true } }

/-- The record with its row taken: a slice in the store, or a sample of the overview. -/
def State.copySlice (r : Record) (x : RingRow) (rest : List Record) (s0 : State) : State :=
  let s := s0.copierRequest ((s0.cellar.ring r.c.dec).addr x.p 0) r.c.sliceBytes false
  let (s1, h, vs, qs, lost) := s.sliceOf r x
  let reason := r.reason ||| leAt h 32 4
  let r1 := { r with nextP := x.p + 1, reason, lost := r.lost + lost.toNat, flags := if lost then r.flags ||| 2 else r.flags }
  let s2 := { s1 with trig := { s1.trig with copyLost := if lost then s1.trig.copyLost + 1 else s1.trig.copyLost } }
  if r.c.overview then
    { s2 with trig := { s2.trig with fired := { r1 with overs := vmod r1.overs x.leg (fun o => o.add r.c x.trace vs qs) } :: rest } }
  else
    let bs := h ++ vs.flatMap (leBytes 2) ++ packQuality qs
    { s2 with cellar := s2.cellar.store (r.base + 512 + r.body) bs
              trig := { s2.trig with fired := { r1 with items := r.items + 1, body := r.body + bs.length } :: rest } }.copierRequest
      (r.base + 512 + r.body) bs.length true

/-- Legs of a record, its overviews with the last intervals closed, and the sections of its body (R265). -/
def Record.legs (r : Record) : List Nat := [0, 1].filter (fun leg => r.c.hasLeg leg)
def Record.closed (r : Record) : Vector Overview 2 := r.overs.map (fun o => o.close r.c.countN)
def Record.sections (r : Record) : List Byte :=
  if r.c.overview then r.legs.flatMap (fun leg => (vget r.closed leg {}).block r.c leg) else []

/-- The record is complete: the overview's sections, then the header; RECORD_DONE (R262, R263, R371). -/
def State.finishRecord (r : Record) (rest : List Record) (s : State) : State :=
  let overs := r.closed
  let legs := r.legs
  let body := r.sections
  let r1 := if r.c.overview then { r with body := body.length, items := (legs.map (fun leg => (vget overs leg {}).intervals)).sum } else r
  let c1 := (s.cellar.store (r.base + 512) body).store r.base r1.header
  let st : Stored := { seq := r.seq.getD 0, base := r.base, size := 512 + r1.body, room := r.room, unit := r.unit, fireTime := r.fireTime, flags := r.flags }
  (({ s with cellar := c1, trig := { s.trig with fired := rest, store := s.trig.store ++ [st] } }).copierRequest r.base (512 + body.length) true).emitAt (some st.fireTime) evRecordDone
    (w64 st.seq ++ [w32 st.unit] ++ w64 st.fireTime ++ [w32 st.flags])

/-- A row is copyable (R254). -/
def RingRow.copyable (x : RingRow) (now : Nat) : Bool := decide (x.boundary + sec / 2 + 10 * x.tF ≤ now)

/-- What a record's next step writes, beyond its header. -/
def Record.nextBytes (r : Record) (row : Bool) : Nat :=
  if row then (if r.c.overview then 0 else r.body + r.c.sliceBytes) else if r.c.overview then r.sections.length else r.body

/-- COPY_ROW (R27, R28, R262 to R265): the copier takes the next record, copies its next copyable row, or writes its header after the last. It waits until P2 has
served its last requests, and for room. -/
def execCopyRow (s : State) : Res :=
  match s.trig.fired with
  | [] => .next s
  | r0 :: rest =>
    if !s.power.cellar || !(s.cellar.portOf 2).queue.isEmpty || (r0.seq.isNone && !s.mayTake r0) then .next s
    else
      match s.takeRecord r0 rest with
      | (s1, none) => .next s1
      | (s1, some r1) =>
        let row := s1.cellar.nextRow r1
        match s1.trig.grow (s1.cellar.regionBase 8) (s1.cellar.regionSize 8) r1 (512 + r1.nextBytes row.isSome) with
        | none => .next s1.waitStore
        | some r =>
          match row with
          | some x => if x.copyable s1.now then .next (s1.copySlice r x rest) else .next s1
          | none => if s1.rowsDue r then .next s1 else .next (s1.finishRecord r rest)

/-- COPY_STAT as it reads. -/
def Triggers.copyStat (t : Triggers) : Word :=
  let busy := match t.fired with | r :: _ => r.room != 0 | [] => false
  fsetB (fsetB (fset 0 F.COPY_STAT.QUEUED (min 255 (t.fired.length - busy.toNat))) F.COPY_STAT.BUSY busy) F.COPY_STAT.STORE_WAIT t.storeWait

end Sys2Proof.Machine
end

