-- ==== Sys2Proof/Machine/StreamCore.lean ====
section
/-! DEFINITION. Output streams: their items, the original and its cut, blocks, buffers and staging (R300 to R314). -/

namespace Sys2Proof.Machine

def State.stream (s : State) (n : Nat) : Stream := vget s.streams.str n {}
def State.setStream (n : Nat) (t : Stream) (s : State) : State := { s with streams := { s.streams with str := vset s.streams.str n t } }

def Stream.running (t : Stream) : Bool := fbit t.stat F.STR_STAT.RUNNING
def Stream.source (t : Stream) : Nat := fget t.cfg F.STR_CFG.SOURCE
def Stream.udpCarrier (t : Stream) : Bool := fbit t.cfg F.STR_CFG.CARRIER
def Stream.hasLeg (t : Stream) (leg : Nat) : Bool := nbit (fget t.cfg F.STR_CFG.LEGS) leg
/-- The slice: FIRST, and COUNT, 0 for whole rows. -/
def Stream.first (t : Stream) : Nat := 4 * fget t.span F.STR_SPAN.FIRST4
def Stream.count (t : Stream) : Nat := 4 * fget t.span F.STR_SPAN.COUNT4
def Stream.head (t : Stream) : Nat := t.headLo.toNat + 2 ^ 32 * t.headHi.toNat
/-- Bytes of a datagram, and of the staging. -/
def Stream.dgram (t : Stream) : Nat := 8 * fget t.udp F.STR_UDP.DGRAM
def Stream.stage (t : Stream) : Nat := 2 ^ 20 * fget t.udp F.STR_UDP.STAGE

/-- STRs_STAT as it reads. -/
def Stream.statWord (t : Stream) : Word := fsetB t.stat F.STR_STAT.STOPPING t.ending.isSome

/-- COMP_STAT as it reads. -/
def Streams.statWord (x : Streams) : Word :=
  fset x.stat F.COMP_STAT.ACTIVE ((List.range 8).foldl (fun a i => if (vget x.str i {}).running then a + 2 ^ i else a) 0)

/-! ### Items (R300, R301, Table 17.1) -/

/-- An item of a source: its place, LEG of its prefix, stamp and frame, where its bytes lie (a span of a ring of `size` bytes at `base`), whether the
Cellar marked it overrun, whether it is lost, whether it is readable, and the SEQ of a record. -/
structure ItemRef where
  key : Nat
  leg : Nat
  stamp : Nat
  frame : Nat
  base : Nat
  size : Nat
  off : Nat
  len : Nat
  overrun : Bool := false
  lost : Bool := false
  readable : Bool := true
  record : Option Nat := none
  deriving DecidableEq, Repr

/-- Bytes of a span within a ring of `size` bytes at `base`. -/
def Cellar.readWrap (c : Cellar) (base size off n : Nat) : List Byte :=
  let a := off % max 1 size
  let k := min n (size - a)
  c.readBytes (base + a) k ++ c.readBytes base (n - k)
def Cellar.spoiledWrap (c : Cellar) (base size off n : Nat) : Bool :=
  let a := off % max 1 size
  let k := min n (size - a)
  c.spoiled (base + a) k || c.spoiled base (n - k)

/-- Items of a ring of rows. -/
def State.ringItems (s : State) (t : Stream) (dec : Bool) : List ItemRef :=
  let r := s.cellar.ring dec
  (r.rows.filter (fun x => t.hasLeg x.leg && t.startFrame ≤ x.frame && t.nextItem ≤ x.p)).map (fun x =>
    { key := x.p, leg := x.leg, stamp := x.stamp, frame := x.frame, base := r.base, size := r.size, off := x.p, len := x.len
      overrun := x.overrun, lost := r.lost x, readable := x.copyable s.now })

/-- Items of a store of rows in a region. -/
def State.storeItems (s : State) (t : Stream) (region : Nat) (st : RowStore) (pick : StoreRow → Bool) (leg : StoreRow → Nat) : List ItemRef :=
  let size := s.cellar.regionSize region
  (st.rows.filter (fun x => pick x && t.startFrame ≤ x.frame && t.nextItem ≤ x.p)).map (fun x =>
    { key := x.p, leg := leg x, stamp := x.stamp, frame := x.frame, base := s.cellar.regionBase region, size, off := x.p, len := x.len
      lost := decide (x.p + size < st.pos) })

/-- The items that a stream has not passed, in the order in which they become readable. -/
def State.items (s : State) (t : Stream) : List ItemRef :=
  let sel := fget t.sel F.STR_SEL.SEL
  match t.source with
  | 1 => (s.trig.store.filter (fun e => nbit sel e.unit && t.nextItem ≤ e.seq)).map (fun e =>
      { key := e.seq, leg := 0xFF, stamp := e.fireTime, frame := 0, base := e.base, size := e.size, off := 0, len := e.size, record := some e.seq })
  | 2 => s.ringItems t false
  | 3 => s.ringItems t true
  | 4 => s.storeItems t 6 s.loft.mapStore (fun x => t.hasLeg x.leg) (·.leg)
  | 5 => s.storeItems t 5 s.loft.zoneStore (fun x => sel % 256 ≤ x.item && x.item ≤ sel / 256) (fun _ => 0xFF)
  | 6 => (s.loft.tempStore.rows.filter (fun x => t.hasLeg x.leg && t.startFrame ≤ x.frame && t.nextItem ≤ x.p)).map (fun x =>
      { key := x.p, leg := x.leg, stamp := x.stamp, frame := x.frame, base := x.item, size := x.len, off := 0, len := x.len
        lost := decide (64 ≤ (s.loft.tempStore.rows.filter (fun y => y.leg == x.leg && x.p < y.p)).length) })
  | _ => []

/-- Bytes of a location in a row of a source. -/
def locBytes (source : Nat) : Nat := if source = 4 then 16 else 2

/-- A stream slices the rows of its source. -/
def Stream.slices (t : Stream) : Bool := t.count != 0 && 2 ≤ t.source && t.source ≤ 4

/-- Spans of an item that are read: (offset, bytes). `len`: L of a row. -/
def Stream.spans (t : Stream) (x : ItemRef) (len : Nat) : List (Nat × Nat) :=
  if !t.slices then [(0, x.len)]
  else let w := locBytes t.source; [(0, 64), (64 + w * t.first, w * t.count), (64 + w * len + t.first / 4, t.count / 4)]

/-- L of a row from its header. -/
def State.itemLen (s : State) (x : ItemRef) : Nat := leAt (s.cellar.readWrap x.base x.size (x.off + 24) 4) 0 4 % 2 ^ 17

/-- The item holds a codeword that cannot be read. -/
def State.itemSpoiled (s : State) (t : Stream) (x : ItemRef) : Bool :=
  (t.spans x (s.itemLen x)).any (fun p => s.cellar.spoiledWrap x.base x.size (x.off + p.1) p.2)

/-- The item's bytes; an overrun row has every value 0x8000, every quality 0b11 and the reason (R293). -/
def State.itemBytes (s : State) (t : Stream) (x : ItemRef) : List Byte :=
  let len := s.itemLen x
  if x.overrun then
    let n := if t.slices then t.count else len
    overrunHeader (s.cellar.readWrap x.base x.size x.off 64) ++ (List.replicate n ()).flatMap (fun _ => leBytes 2 0x8000) ++ List.replicate (n / 4) 0xFF
  else (t.spans x len).flatMap (fun p => s.cellar.readWrap x.base x.size (x.off + p.1) p.2)

/-- A running stream has items or blocks under way: it waits for no buffer, and there is something to deliver (R40 step 3). -/
def State.streamBusy (s : State) (t : Stream) : Bool :=
  t.running && !fbit t.stat F.STR_STAT.AWAIT_BUFFER && (!t.ready.isEmpty || !(s.items t).isEmpty)

/-! ### The original and its blocks (R302, R308, R309) -/

/-- A block joins those that wait. -/
def Stream.push (t : Stream) (type : Nat) (bytes : List Byte) (ends : List Nat) : Stream :=
  { t with ready := t.ready ++ [{ bytes, type, ends }], seq := t.seq + 1 }

/-- A block of TYPE 1 to 3. -/
def Stream.pushOther (t : Stream) (n type : Nat) (payload : List Byte) : Stream :=
  t.push type (blockOf n type 4 t.seq payload.length 0xFFFFFFFF payload payload) []

/-- A DATA block is cut from the first `k` bytes that wait. -/
def Stream.cutBlock (t : Stream) (n k : Nat) : Stream :=
  let bs := t.rest.take k
  let stop := t.cut + k
  let first := match t.prefixes.find? (· < stop) with | some o => o % 2 ^ 32 | none => 0xFFFFFFFF
  let pre := fget t.cfg F.STR_CFG.PRE
  let (method, payload) := packData pre (fbit t.cfg F.STR_CFG.CODE_EN) bs
  let ends := (t.ends.filter (fun e => e.1 ≤ stop)).map (·.2)
  { t.push 0 (blockOf n 0 method t.seq bs.length first payload bs) ends with
    rest := t.rest.drop k, cut := stop, prefixes := t.prefixes.filter (stop ≤ ·), ends := t.ends.filter (fun e => stop < e.1) }

/-- Whole blocks of 65,536 B are cut. -/
def Stream.cutWhole (n : Nat) : Nat → Stream → Stream
  | 0, t => t
  | fuel + 1, t => if t.rest.length < 65536 then t else (t.cutBlock n 65536).cutWhole n fuel

/-- The pending partial block is closed. -/
def Stream.closePartial (t : Stream) (n : Nat) : Stream := if t.rest.isEmpty then t else t.cutBlock n t.rest.length

/-- Owed GAP blocks go out; `to_`: first stamp of the next item delivered. -/
def Stream.sendGaps (t : Stream) (n to_ : Nat) : Stream :=
  if t.owed.isEmpty then t
  else
    t.owed.foldl (fun u g =>
      let v := u.pushOther n 1 (leBytes 8 g.from_ ++ leBytes 8 to_ ++ leBytes 8 g.items ++ leBytes 1 g.cause ++ List.replicate 7 0)
      { v with stat := fset v.stat F.STR_STAT.GAP 1, gaps := finc v.gaps F.STR_GAPS.GAPS }) { t.closePartial n with owed := [] }

/-- An item joins the original. -/
def Stream.addItem (t : Stream) (n : Nat) (x : ItemRef) (bytes : List Byte) : Stream :=
  let t := t.sendGaps n x.stamp
  let item := leBytes 4 bytes.length ++ leBytes 1 t.source ++ leBytes 1 x.leg ++ leBytes 2 0 ++ leBytes 8 t.itemSeq ++ bytes
  let at_ := t.cut + t.rest.length
  let t1 := { t with
    rest := t.rest ++ item, prefixes := t.prefixes ++ [at_], itemSeq := t.itemSeq + 1, nextItem := x.key + 1, lastTime := x.stamp
    ends := match x.record with | some q => t.ends ++ [(at_ + item.length, q)] | none => t.ends }
  let t2 := t1.cutWhole n (t1.rest.length / 65536 + 1)
  if fbit t.cfg F.STR_CFG.ITEM_CLOSE then t2.closePartial n else t2

/-! ### Start and end (R301, R308, R313) -/

/-- A stream starts: registers as they stand, SEQ 0. -/
def Stream.begin_ (t : Stream) (eff time frame : Nat) : Stream :=
  { t with
    cfg := fset t.cfg F.STR_CFG.ENABLE 1, stat := fset (fset t.stat F.STR_STAT.RUNNING 1) F.STR_STAT.AWAIT_BUFFER 0
    rest := [], cut := 0, prefixes := [], ends := [], itemSeq := 0, startFrame := frame, nextItem := 0, lastTime := 0, seq := 0
    start := some (eff, time), owed := [], ending := none, endMade := false }

/-- The START block. -/
def State.pushStart (n : Nat) (t : Stream) (s : State) : Stream :=
  match t.start with
  | none => t
  | some (eff, time) =>
    { t with start := none }.pushOther n 2 (bytesOfWords [t.cfg, t.span, t.sel, s.host.idFw] ++ leBytes 8 eff ++ leBytes 8 time)

/-- Registers of STREAM_SET. -/
def Stream.define (t : Stream) (ws : List Word) : Stream :=
  { t with cfg := (wat ws 0 &&& 0x3FFFFE) ||| (t.cfg &&& 0x800), span := wat ws 1, sel := wat ws 2, headLo := wat ws 3, headHi := wat ws 4, udp := wat ws 5
           lastDesc := 0, cur := none }

/-- The frame, over all plans, from which a stream that starts now takes items, with its trace and boundary. -/
def State.streamFrom (s : State) : Nat × Nat × Nat :=
  if s.probe.running then
    let k := s.frameFrom s.now
    let leg := s.probe.active.leader
    (s.traceOf leg (s.legBank leg).lowest k, s.frameTime k % 2 ^ 64, s.globalFrame k)
  else (allOnes64, s.now, s.globalFrame (max (vget s.probe.frame 0 0) (vget s.probe.frame 1 0)))

/-- The END block has been written: the stream is off, or a redefinition starts (Table 17.5). -/
def State.streamEnded (n : Nat) (s : State) : State :=
  let t := s.stream n
  let off := { t with cfg := fset t.cfg F.STR_CFG.ENABLE 0, stat := fset t.stat F.STR_STAT.RUNNING 0, ending := none, endMade := false }
  match t.redefine with
  | none => s.setStream n off
  | some ws =>
    let (eff, time, frame) := s.streamFrom
    s.setStream n (({ off with redefine := none }.define ws).begin_ eff time frame)

/-! ### Buffers and staging (R310 to R312) -/

/-- Records whose last byte has been delivered leave the store (R301). -/
def State.dropRecords (qs : List Nat) (s : State) : State :=
  if qs.isEmpty then s else { s with trig := { s.trig with store := s.trig.store.filter (fun e => !qs.contains e.seq) } }

/-- The next buffer that the device may open: the chain's first, or NEXT of the last descriptor, with OWN = 1. -/
def Stream.nextBuffer (t : Stream) (mem : List D2hDescriptor) : Option D2hDescriptor :=
  let a := if t.lastDesc = 0 then t.head else ((mem.find? (fun d => d.addr == t.lastDesc)).map (·.next)).getD 0
  if a = 0 then none else mem.find? (fun d => d.addr == a && d.own)

/-- The open buffer is closed (R311). -/
def State.closeBuffer (n : Nat) (s : State) : State :=
  let t := s.stream n
  match t.cur with
  | none => s
  | some d =>
    let w : DescDone := { addr := d.addr, used := t.data.length, status := 1 + t.inside, data := t.data }
    let s1 := (s.setStream n { t with
      cur := none, lastDesc := d.addr, data := [], inside := 0, done := [], stat := finc t.stat F.STR_STAT.BUFFERS }).dropRecords t.done
    let s2 := { s1 with porch := { s1.porch with done := s1.porch.done ++ [w] } }
    if d.int then s2.ring (16 + n) else s2

/-- DMA can run. -/
def Pcie.alive (p : Pcie) : Bool := p.link && !p.perst

def Stream.await (t : Stream) (b : Bool) : Stream := { t with stat := fsetB t.stat F.STR_STAT.AWAIT_BUFFER b }

/-- Blocks that wait go to the open buffer, the next one, or staging, as far as they can; `fresh`: the host has rung for new buffers. -/
def State.serve (n : Nat) (mem : List D2hDescriptor) (fresh : Bool) : Nat → State → State
  | 0, s => s
  | fuel + 1, s =>
    let t := s.stream n
    if t.udpCarrier then
      match t.ready with
      | [] => s.setStream n (t.await false)
      | b :: more =>
        let held := t.staged.foldl (fun a x => a + x.bytes.length) 0
        if held + b.bytes.length ≤ t.stage then (s.setStream n { t with ready := more, staged := t.staged ++ [b] }).serve n mem fresh fuel
        else s.setStream n (t.await true)
    else if !s.porch.pcie.alive then s
    else
      match t.cur with
      | none =>
        if fbit t.stat F.STR_STAT.AWAIT_BUFFER && !fresh then s
        else
          match t.nextBuffer mem with
          | none => s.setStream n (t.await true)
          | some d => (s.setStream n ({ t with cur := some d, data := [], inside := 0, done := [] }.await false)).serve n mem false fuel
      | some d =>
        match t.ready with
        | [] => s
        | b :: more =>
          if t.data.length + b.bytes.length ≤ d.bufLen then
            let t1 := { t with
              ready := more, data := t.data ++ b.bytes, firstUp := if t.data.isEmpty then s.time.up else t.firstUp
              inside := t.inside ||| (if b.type = 1 then 2 else if b.type = 3 then 4 else 0), done := t.done ++ b.ends, blocks := t.blocks + 1 }
            let s1 := s.setStream n t1
            if b.type = 3 then ((s1.closeBuffer n).streamEnded n).serve n mem fresh fuel else s1.serve n mem fresh fuel
          else (s.closeBuffer n).serve n mem fresh fuel

/-- As far as it goes. -/
def State.serveAll (n : Nat) (mem : List D2hDescriptor) (fresh : Bool) (s : State) : State :=
  s.serve n mem fresh (2 * (s.stream n).ready.length + 4)

/-- A plan that leaves REST discards the rings (R253): what a stream has not read becomes a gap of cause 3 (R309). -/
def State.discardRings (s : State) : State :=
  let gap (t : Stream) : Stream :=
    if t.running && (t.source == 2 || t.source == 3) then
      match s.items t with
      | [] => t
      | x :: xs => { t with owed := t.owed ++ [{ from_ := x.stamp, items := xs.length + 1, cause := 3 }], itemSeq := t.itemSeq + xs.length + 1
                            nextItem := (s.cellar.ring (t.source == 3)).pos }
    else t
  let empty (r : Ring) : Ring := { r with rows := [], index := [] }
  { s with streams := { s.streams with str := s.streams.str.map gap }
           cellar := { s.cellar with full := empty s.cellar.full, dec := empty s.cellar.dec } }

end Sys2Proof.Machine
end

