-- ==== Sys2Proof/Machine/Streams.lean ====
section
/-! DEFINITION. The rows of the output streams (R301 to R313). -/

namespace Sys2Proof.Machine

/-- STREAM_START takes effect (R301). -/
def State.applyStreamStart (p : Stamped) (s : State) : State :=
  let n := p.item % 8
  let f := p.frame.getD 0
  s.setStream n ((s.stream n).begin_ (p.eff.getD allOnes64) (s.boundaryTime f) f)

/-- Starts that are due by now. -/
def State.streamStarts (s : State) : State :=
  if s.probe.running then s.applyDue (fun p => p.code == cStreamStart) (s.globalFrame (s.frameAt s.now)) State.applyStreamStart else s

/-- The reader meets a lost item (R309): it resumes at the first item of the newest readable frame, or at the newest readable item. -/
def Stream.skip (t : Stream) (xs : List ItemRef) : Option Stream :=
  let ok := xs.filter (fun x => !x.lost && x.readable)
  let newest (y : ItemRef) : ItemRef := if t.source = 2 ∨ t.source = 3 then (ok.find? (fun x => x.frame == y.frame)).getD y else y
  let to_ : Option ItemRef := ok.getLast?.map newest
  match xs, to_ with
  | x :: _, some y =>
    let k := (xs.filter (fun z => z.key < y.key)).length
    some { t with owed := t.owed ++ [{ from_ := x.stamp, items := k, cause := 1 }], itemSeq := t.itemSeq + k, nextItem := y.key }
  | _, _ => none

/-- Reads of an item enter P3, whose cap paces their grants (R27). -/
def State.readerRequests (t : Stream) (x : ItemRef) (s : State) : State :=
  let spans := t.spans x (s.itemLen x)
  s.withCellar (spans.foldl (fun c p => c.request 3 { addr := x.base + (x.off + p.1) % max 1 x.size, bytes := p.2, write := false }) s.cellar)

/-- The next item is taken, or a gap noted in its place. -/
def State.readItem (n : Nat) (s : State) : State :=
  let t := s.stream n
  let xs := s.items t
  let (t, xs) := match xs with
    | x :: _ => if x.lost then (match t.skip xs with | some u => (u, s.items u) | none => (t, [])) else (t, xs)
    | [] => (t, xs)
  match xs with
  | [] => s
  | x :: _ =>
    if !x.readable then s
    else if s.itemSpoiled t x then
      (s.setStream n { t with owed := t.owed ++ [{ from_ := x.stamp, items := 1, cause := 2 }], itemSeq := t.itemSeq + 1, nextItem := x.key + 1 }).dropRecords
        x.record.toList
    else (s.readerRequests t x).setStream n (t.addItem n x (s.itemBytes t x))

/-- The END block, after the partial block and what gaps are owed: the TO_TIME of a gap that no item follows is free (DESIGN CHOICE, log entry 33). -/
def State.pushEnd (n cause : Nat) (s : State) : State :=
  let t := s.stream n
  let (to_, s1) := if t.owed.isEmpty then (0, s) else s.draw 64
  let t1 := (t.sendGaps n to_).closePartial n
  s1.setStream n { t1.pushOther n 3 (leBytes 8 t.lastTime ++ leBytes 1 cause ++ List.replicate 7 0) with endMade := true }

/-- A definition of stream n is refused with STREAM_SEL (R300) under a plan's bank; none where no plan runs. -/
def State.streamSelBad (s : State) (n : Nat) (t : Stream) (b : Option Bank) : Bool :=
  let others := (List.range 8).filter (fun i => i != n)
  let units := t.source == 1 && others.any (fun i => (s.stream i).running && (s.stream i).source == 1 &&
    (fget (s.stream i).sel F.STR_SEL.SEL &&& fget t.sel F.STR_SEL.SEL) != 0)
  let slice := t.slices && (match b with
    | some k => [0, 1].any (fun leg => t.hasLeg leg && (k.legBank leg).on && decide ((k.legBank leg).len < t.first + t.count))
    | none => false)
  let staging := t.udpCarrier && decide (s.cellar.regionSize 7 <
    (others.foldl (fun a i => if (s.stream i).running && (s.stream i).udpCarrier then a + (s.stream i).stage else a) t.stage))
  units || slice || staging

/-- The reader may take no further item of a stream: it has no buffer, a block waits, or P3 has still to serve its last reads (R27). -/
def State.readerHeld (s : State) (t : Stream) : Bool :=
  fbit t.stat F.STR_STAT.AWAIT_BUFFER || !t.ready.isEmpty || !(s.cellar.portOf 3).queue.isEmpty

/-- STREAM_ITEM_READ (R27, R301, R302, R309): the next item of stream n. `mem`: the descriptors of its chain as host memory holds them. -/
def execStreamItemRead (n : Fin 8) (mem : List D2hDescriptor) (s : State) : Res :=
  let s0 := s.streamStarts
  let i := n.val
  if !(s0.stream i).running || !fbit s0.streams.cfg F.COMP_CFG.ENABLE || !fbit (s0.stream i).cfg F.STR_CFG.ENABLE then .next s0
  else
    let s1 := (s0.setStream i (s0.pushStart i (s0.stream i))).serveAll i mem false
    let t := s1.stream i
    if !t.running || t.endMade then .next s1
    else
      match t.ending with
      | some c => .next ((s1.pushEnd i c).serveAll i mem false)
      | none => if s1.readerHeld t then .next s1 else .next ((s1.readItem i).serveAll i mem false)

/-- STREAM_FLUSH_TIMEOUT (R311): the open buffer has held a block for FLUSH_MS. -/
def execStreamFlushTimeout (n : Fin 8) (mem : List D2hDescriptor) (s : State) : Res :=
  let i := n.val
  let t := s.stream i
  if t.cur.isNone || t.data.isEmpty || !s.porch.pcie.alive then .next s
  else .next (((s.untilUp (t.firstUp + max 1 (min 1000 (fget t.cfg F.STR_CFG.FLUSH_MS)) * ms)).closeBuffer i).serveAll i mem false)

/-- STREAM_BUFFERS_ADDED (R311, R353): DB_H2D bit 16 + n is taken; the device reads NEXT again and resumes. -/
def execStreamBuffersAdded (n : Fin 8) (mem : List D2hDescriptor) (s : State) : Res :=
  let i := n.val
  if !nbit s.mb.dbH2d.toNat (16 + i) then .next s
  else .next ((s.takeH2d (16 + i)).serveAll i mem true)

/-- A block cut into datagrams of `k` bytes behind their headers. -/
def fragments (k : Nat) : Nat → List Byte → List (List Byte)
  | 0, _ => []
  | _, [] => []
  | fuel + 1, bs => bs.take k :: fragments k fuel (bs.drop k)

/-- A destination that packets can go to (R321): its entry is set and resolved and its port is up. -/
def State.destReady (s : State) (d : Nat) : Bool :=
  let e := vget s.porch.eth.dest d {}
  let p := vget s.porch.eth.port e.port {}
  e.set && e.resolved && fbit p.cfg F.ETH_CFG.ENABLE && fbit p.stat F.ETH_STAT.LINK

/-- UDP_BLOCK_SEND (R312): the oldest staged block goes out as datagrams. -/
def execUdpBlockSend (n : Fin 8) (s : State) : Res :=
  let i := n.val
  let t := s.stream i
  let d := fget t.udp F.STR_UDP.DEST
  match t.staged with
  | [] => .next s
  | b :: more =>
    if !s.destReady d || !(vget s.porch.eth.dest d {}).streams then .next s
    else
      let parts := fragments (max 1 (t.dgram - 16)) (b.bytes.length + 1) b.bytes
      let out := parts.zipIdx.map (fun (x, k) => EthOut.block d i (leAt b.bytes 8 8) k parts.length x)
      let s1 := { s with porch := { s.porch with eth := { s.porch.eth with sent := s.porch.eth.sent ++ out } } }
      let s2 := (s1.setStream i { t with staged := more, blocks := t.blocks + 1 }).dropRecords b.ends
      .next ((if b.type = 3 then s2.streamEnded i else s2).serveAll i [] false)

end Sys2Proof.Machine
end

