-- ==== Sys2Proof/Machine/ZoneCore.lean ====
section
/-! DEFINITION. What firmware judges and places for a zone: bindings, parameter pages, state pages, page space; pools and images as last accepted
(R201, R205, R229 to R234). -/

namespace Sys2Proof.Machine

/-! ### Settings as last accepted -/

/-- RESP and ENABLE of a leg's chain as last accepted. -/
def State.chainLatest (s : State) (leg : Nat) : Nat × Bool :=
  match (s.fw.stamped.filter (pickLeg cChainSet leg)).getLast? with
  | some p => ((wat p.words 2).toNat, fbit (wat p.words 1) F.CHAIN_CFG.ENABLE)
  | none => (fget (s.chain leg).resp F.CHAIN_RESP.RESP, fbit (s.chain leg).cfg F.CHAIN_CFG.ENABLE)

/-- A leg's chain as it is to be at a frame: RESP and ENABLE, and the frame of merged sample 0 of its run. -/
structure ChainAhead where
  resp : Nat
  on : Bool
  start : Nat

/-- A waiting CHAIN_SET or CHAIN_RESET, or another reset, at a frame (R187). -/
def ChainAhead.after (a : ChainAhead) (frame : Nat) (p : Option Stamped) : ChainAhead :=
  let again (b : Bool) (x : ChainAhead) : ChainAhead := if b then { x with start := frame } else x
  match p with
  | none => again a.on a
  | some p =>
    if p.code = cChainReset then again a.on a
    else
      let resp := (wat p.words 2).toNat
      let on := fbit (wat p.words 1) F.CHAIN_CFG.ENABLE
      again (on && (!a.on || respDecim resp != respDecim a.resp)) { a with resp, on }

/-- The next frame boundary that a leg's chain is to process. -/
def State.chainBoundary (s : State) (leg : Nat) : Nat :=
  match (s.chain leg).input.find? (fun x => x.place == 0) with
  | some x => x.frame
  | none => match s.halls.launches.find? (fun l => l.leg == leg && l.bank.place l.slot == 0) with | some l => l.frame | none => s.nextFrame leg

/-- A leg's chain at frame f, over all plans: what waits until then is applied in order, a pending plan, tokens and a reset that is owed included (R183, R187). -/
def State.chainAhead (s : State) (leg f : Nat) : ChainAhead :=
  let c := s.chain leg
  let b := s.legBank leg
  let run := if s.traceOf leg b.lowest 0 ≤ c.resetTrace then s.globalFrame (s.frameOf leg b.lowest c.resetTrace) else s.probe.frameBase
  let plan : List Nat := match s.probe.pending with | some p => (match p.atFrame with | some e => [s.globalFrame e] | none => []) | none => []
  let resets := plan ++ c.resets.map s.frameAhead ++ (if c.due.isSome then [s.chainBoundary leg] else [])
  let waits := s.fw.stamped.filter (fun p => pickLeg cChainSet leg p || (p.code == cChainReset && p.leg == leg))
  let events := resets.map (fun g => (g, none)) ++ waits.filterMap (fun p => p.frame.map (fun g => (g, some p)))
  (sortOn (·.1) (events.filter (fun e => decide (e.1 ≤ f)))).foldl (fun a e => a.after e.1 e.2)
    { resp := fget c.resp F.CHAIN_RESP.RESP, on := fbit c.cfg F.CHAIN_CFG.ENABLE, start := run }

/-- The leg bank, mode and T_f of the plan in which frame f lies. -/
def State.planAhead (s : State) (leg f : Nat) : LegBank × Nat × Nat :=
  match s.probe.pending with
  | some p =>
    match p.atFrame with
    | some e => if p.mode != 0 && s.globalFrame e ≤ f then (p.bank.legBank leg, p.mode, p.bank.tF) else (s.legBank leg, s.fw.mode, s.probe.active.tF)
    | none => (s.legBank leg, s.fw.mode, s.probe.active.tF)
  | none => (s.legBank leg, s.fw.mode, s.probe.active.tF)

/-- RESP of a leg under a plan that takes effect at frame k of the plan in force, none where the probe starts: what takes effect by then, then what was
accepted before the plan and is valid under it, at the plan's rate (R176, R365). -/
def State.respAhead (s : State) (leg : Nat) (k : Option Nat) (b : LegBank) (tF : Nat) : Nat :=
  let now := match k with | some n => (s.chainAhead leg (s.globalFrame n)).resp | none => fget (s.chain leg).resp F.CHAIN_RESP.RESP
  let held := (s.fw.stamped.filter (fun p => pickLeg cChainSet leg p && p.frame.isNone && rateIndex b.count tF == some (respRate (wat p.words 2).toNat))).getLast?
  respForPlan ((held.map (fun p => (wat p.words 2).toNat)).getD now) b.count tF

/-- MAP_CFGn.ON and RAMAN_EN of a leg as last accepted. -/
def State.mapLatest (s : State) (leg : Nat) : Bool :=
  match (s.fw.stamped.filter (pickLeg cMapSet leg)).getLast? with
  | some p => fbit (wat p.words 1) F.MAP_CFG.ON
  | none => fbit (s.mapLeg leg).cfg F.MAP_CFG.ON
def State.ramanLatest (s : State) (leg f : Nat) : Bool :=
  match (s.fw.stamped.filter (pickLeg cTempSet leg)).getLast? with
  | some p => nbit (wat p.words 1).toNat 0
  | none => (s.planAhead leg f).1.ramanEn

/-- MAP_CFGn.ON of a leg at frame f, what waits until then included. -/
def State.mapAhead (s : State) (leg f : Nat) : Bool :=
  match (s.changesTo (pickLeg cMapSet leg) f).getLast? with
  | some p => fbit (wat p.words 1) F.MAP_CFG.ON
  | none => fbit (s.mapLeg leg).cfg F.MAP_CFG.ON

/-- RAMAN_EN of a leg at frame f: of the plan in force then, and of what changes it after that plan's start. -/
def State.ramanAhead (s : State) (leg f : Nat) : Bool :=
  match ((s.changesTo (pickLeg cTempSet leg) f).filter (fun p => decide ((s.planOver f).base ≤ p.frame.getD 0))).getLast? with
  | some p => nbit (wat p.words 1).toNat 0
  | none => (s.planAhead leg f).1.ramanEn

/-- A pool as the words of a POOL_SET give it. -/
def poolOfWords (ws : List Word) : Pool := { cfg := wat ws 1 &&& 0x3FF, quad := wat ws 2, quadh := wat ws 3, cplx := wat ws 4 }
/-- The pools as last accepted. -/
def State.poolsLatest (s : State) : Vector Pool 8 :=
  (s.fw.stamped.filter (fun p => p.code == cPoolSet)).foldl (fun v p => vset v p.item (poolOfWords p.words)) s.loft.pool

/-- The setting that a ZONE_SET's words give. -/
def ZoneWant.ofWords (ws : List Word) (page : List Byte) : ZoneWant :=
  { pages := wat ws 0, cfg := wat ws 1, span := wat ws 2, out := wat ws 3, param := page }

/-- Settings of a zone, oldest first: in force, then those that wait. -/
def State.zoneWants (s : State) (z : Nat) : List ZoneWant :=
  let x := s.zone z
  (if x.configured then [{ pages := x.page, cfg := x.cfg, span := x.span, out := x.out, param := x.param }] else []) ++
    x.due.filterMap (fun e => match e.2 with | .set ws page => some (.ofWords ws page) | _ => none) ++
    (s.fw.stamped.filter (fun p => p.code == cZoneSet && p.item == z)).map (fun p => .ofWords (p.words.drop 1) p.bulk)

/-- ENABLE of a zone as last accepted. -/
def State.zoneOnLatest (s : State) (z : Nat) : Bool :=
  ((s.fw.stamped.filterMap (·.zoneDue z)).foldl Zone.written (s.zone z).asWritten).on

/-- The settings of a zone from frame f on, what waits for a frame included: the one in force then, and those that follow it. -/
def State.zoneFrom (s : State) (z f : Nat) : List Zone :=
  let x := s.zone z
  let due := sortOn (·.1) (x.due ++ s.fw.stamped.filterMap (fun p => match p.frame, p.zoneDue z with | some g, some d => some (g, d) | _, _ => none))
  let y := (due.filter (fun e => decide (e.1 ≤ f))).foldl (fun y e => y.written e.2) x
  ((due.filter (fun e => decide (f < e.1))).foldl (fun (a : List Zone × Zone) e => let v := a.2.written e.2; (a.1 ++ [v], v)) ([y], y)).1

/-- The latest setting of a zone, if a ZONE_SET has ever been accepted. -/
def State.zoneLatest (s : State) (z : Nat) : Option ZoneWant := (s.zoneWants z).getLast?

/-! ### Pages (Tables 13.3 and 13.4) -/

/-- INIT_BYTES of a zone program (Tables 13.1 and 11.5). -/
def Loft.initBytes (l : Loft) (img : Nat) : Nat :=
  if img = imgZband ∨ img = imgZtemp then 512 else if img = imgZorder then 2048 else if img = imgZmeas then 4096
  else match l.image img with | some m => m.initBytes | none => 0

/-- Quantities of a library program. -/
def pageQuantities (img : Nat) (page : List Byte) : Nat :=
  if img = imgZband then 8 else if img = imgZorder then (pgOrders page).length else if img = imgZtemp then 2 else 0

/-- A library parameter page breaks Table 13.4. -/
def libraryPageBad (w : ZoneWant) : Bool :=
  let p := w.param
  let img := fget w.cfg F.ZONE_CFG.PROGRAM
  let every := fget w.cfg F.ZONE_CFG.EVERY
  let first := fget w.span F.ZONE_SPAN.FIRST
  let count := fget w.span F.ZONE_SPAN.COUNT
  let list := (List.range 8).map (fun i => leAt p (16 + 4 * i) 4)
  let n := pageQuantities img p
  let common := decide (7 < leAt p 0 1) || decide (15 < pgHistShift p) || decide (15 < pgDecay p) || decide (3 < leAt p 5 1) || leAt p 6 2 != 0 ||
    (pgHistOn p && decide (n ≤ pgHistQty p))
  let own :=
    if img = imgZorder then
      list.any (fun o => decide (2 ^ 24 ≤ o)) || (list.drop (pgOrders p).length).any (· != 0) || decide (every < 16)
    else
      pgRatio p != 0 ||
        (if img = imgZtemp then pgMinRevs p == 0 || decide (15 < pgMinRevs p) || list.any (· != 0)
         else if img = imgZmeas then
           let locs := pgLocs p
           pgMinRevs p != 0 || locs.isEmpty || (list.drop locs.length).any (· != 0xFFFFFFFF) ||
             locs.any (fun l => decide (l < first) || decide (first + count ≤ l)) || !([64, 128, 256, 512, 1024].contains every)
         else pgMinRevs p != 0 || list.any (· != 0))
  let det (d : Nat) : Bool :=
    decide (n ≤ pgQty p d) || decide (2 < pgMode p d) || pgMinLoc p d == 0 || decide (count < pgMinLoc p d) || (bytesAt p (54 + 16 * d) 10).any (· != 0)
  common || own || (List.range (fget w.cfg F.ZONE_CFG.N_DET)).any det

/-- The page is refused with ZONE_PARAM. -/
def ZoneWant.pageBad (w : ZoneWant) : Bool :=
  let n := w.param.length
  let lib := isLibrary (fget w.cfg F.ZONE_CFG.PROGRAM)
  (if lib then n != 176 else n % 16 != 0 || decide (n < 16) || decide (65520 < n)) || 16 * fget w.out F.ZONE_OUT.PARAM_LEN != n || (lib && libraryPageBad w)

/-! ### Bindings (R229, R230) -/

/-- A zone pool of an image's kind, as last accepted. -/
def State.zonePool (s : State) (complex : Bool) : Bool :=
  s.poolsLatest.toList.any (fun p => p.on && p.work == 1 && !p.cells.isEmpty && p.complex == complex)

/-- The producer of a source of a leg is off at frame f. -/
def State.producerOff (s : State) (leg src f : Nat) : Bool :=
  !(s.planAhead leg f).1.on || (src == 0 && !s.mapAhead leg f) || (src == 1 && !(s.chainAhead leg f).on) || (src == 2 && !s.ramanAhead leg f)

/-- The binding is refused with ZONE_BIND; `f`: its effective frame, none while no plan runs (R365). -/
def State.zoneBindBad (s : State) (w : ZoneWant) (f : Option Nat) : Bool :=
  let img := fget w.cfg F.ZONE_CFG.PROGRAM
  let src := fget w.cfg F.ZONE_CFG.SOURCE
  let wrong := if isLibrary img then
      !((img == imgZband && src == 0) || (img == imgZorder && src == 1 && fbit w.cfg F.ZONE_CFG.TACH_EN) || (img == imgZtemp && src == 2) ||
        (img == imgZmeas && src == 1))
    else (s.loft.image img).isNone
  wrong || !s.zonePool (s.loft.imageComplex img) ||
    (match f with | some k => s.producerOff (fget w.cfg F.ZONE_CFG.LEG) src k | none => false)

/-- The span lies beyond L of its leg, where that leg is on (R229). -/
def ZoneWant.spanBad (w : ZoneWant) (b : LegBank) : Bool :=
  b.on && decide (b.len < fget w.span F.ZONE_SPAN.FIRST + fget w.span F.ZONE_SPAN.COUNT)

/-! ### Space and placement (R232) -/

/-- The area of pages and user tables. -/
def pageArea : Nat := 0x80000

/-- Bytes that the pages of a setting take. -/
def ZoneWant.bytes (w : ZoneWant) (l : Loft) : Nat := up16 w.param.length + w.stateLen l

/-- User tables: image, place and length. -/
def Loft.tables (l : Loft) : List (Nat × Nat × Nat) :=
  (List.range 64).filterMap (fun i => match l.image i with | some m => if m.tableBytes = 0 then none else some (i, m.tab, m.tableBytes) | none => none)

/-- Bytes that enabled zones other than `but`, and user tables, take. -/
def State.pageTotal (s : State) (but : List Nat) : Nat :=
  ((List.range 256).foldl (fun n z =>
    if but.contains z || !s.zoneOnLatest z then n else n + ((s.zoneLatest z).map (fun w => w.bytes s.loft)).getD 0) 0) +
    (s.loft.tables.foldl (fun n t => n + t.2.2) 0)

/-- Regions, from the base of the area, of a setting's pages. -/
def ZoneWant.regions (w : ZoneWant) (l : Loft) : List (Nat × Nat) :=
  [(16 * fget w.pages F.ZONE_PAGE.PARAM_AT, up16 w.param.length), (16 * fget w.pages F.ZONE_PAGE.STATE_AT, w.stateLen l)]

/-- Regions in use beside those of zone z: of zones that are enabled or are to be, with `all` of every zone that has a setting, and of user tables. -/
def State.pageRegions (s : State) (z : Nat) (all : Bool) : List (Nat × Nat) :=
  ((List.range 256).flatMap (fun y =>
    if y = z || !(all || (s.zone y).on || s.zoneOnLatest y) then [] else (s.zoneWants y).flatMap (fun w => w.regions s.loft))) ++
    s.loft.tables.map (fun t => (t.2.1 - landPages, t.2.2))

/-- The lowest free place for `len` bytes within `limit`. -/
def firstFit (used : List (Nat × Nat)) (len limit : Nat) : Option Nat :=
  let free (a : Nat) : Bool := decide (a + len ≤ limit) && used.all (fun r => decide (r.1 + r.2 ≤ a) || decide (a + len ≤ r.1) || r.2 == 0)
  ((0 :: used.map (fun r => r.1 + r.2)).filter free).min?

/-- Places of a setting's pages in units of 16 B as ZONEz_PAGE. -/
def pageWord (param state : Nat) : Word := fset (fset 0 F.ZONE_PAGE.PARAM_AT (param / 16)) F.ZONE_PAGE.STATE_AT (state / 16)

/-- Places found for a setting's pages without moving any other; `all`: beside the pages of disabled zones too. -/
def State.fitPages (s : State) (z : Nat) (w : ZoneWant) (all : Bool) : Option Word :=
  let used := s.pageRegions z all
  match firstFit used (up16 w.param.length) pageArea with
  | none => none
  | some p => (firstFit ((p, up16 w.param.length) :: used) (w.stateLen s.loft) pageArea).map (pageWord p)

/-- A zone's pages go to a new place: registers, waiting settings, and the bytes of its state page. -/
def State.moveZone (z : Nat) (word : Word) (bytes : List Byte) (s : State) : State :=
  let x := s.zone z
  let due := x.due.map (fun e => match e.2 with | .set ws page => (e.1, ZoneDue.set (word :: ws.drop 1) page) | _ => e)
  let s1 := s.setZone z { x with page := word, due }
  let s2 := { s1 with fw := { s1.fw with stamped := s1.fw.stamped.map (fun (p : Stamped) =>
    if p.code == cZoneSet && p.item == z then { p with words := (p.words.take 1) ++ [word] ++ p.words.drop 2 } else p) } }
  (s2.withLoft (s2.loft.write (landPages + 16 * fget word F.ZONE_PAGE.STATE_AT) bytes)).putPage z

/-- Every page and table is packed from the base of the area; zone z gets room for setting w. State pages and tables are copied whole. Answers the
place of z's pages. -/
def State.repack (s : State) (z : Nat) (w : ZoneWant) : State × Word :=
  let l := s.loft
  let tabs := l.tables.map (fun t => (t.1, l.read t.2.1 t.2.2))
  let hold := (List.range 257).filter (fun y => y = z || (s.zone y).on || s.zoneOnLatest y)
  let wants (y : Nat) : List ZoneWant := if y = z then s.zoneWants y ++ [w] else s.zoneWants y
  let zones := hold.map (fun y =>
    let ws := wants y
    let cur := if (s.zone y).configured then (ws.head?).map (fun v => l.read (landPages + 16 * fget v.pages F.ZONE_PAGE.STATE_AT) (v.stateLen l)) else none
    (y, (ws.map (fun v => up16 v.param.length)).foldl max 0, (ws.map (fun v => v.stateLen l)).foldl max 0, cur.getD []))
  let clear := s.withLoft { l with landing := Mem.clearRange l.landing landPages pageArea }
  let put := tabs.foldl (fun (a : State × Nat) t =>
    match a.1.loft.image t.1 with
    | some m => (a.1.withLoft ({ a.1.loft with images := vset a.1.loft.images t.1 (some { m with tab := landPages + a.2 }) }.write (landPages + a.2) t.2), a.2 + t.2.length)
    | none => a) (clear, 0)
  let r := zones.foldl (fun (a : State × Nat × Word) e =>
    let word := pageWord a.2.1 (a.2.1 + e.2.1)
    (a.1.moveZone e.1 word e.2.2.2, a.2.1 + e.2.1 + e.2.2.1, if e.1 = z then word else a.2.2)) (put.1, put.2, 0)
  (r.1, r.2.2)

/-- Places for a setting's pages: where they fit beside every other zone's, else beside those of enabled zones, else after packing (R232). Of a disabled zone
that finds no room they are open: it has none (DESIGN CHOICE, log entry 72). -/
def State.placePages (s : State) (z : Nat) (w : ZoneWant) : State × Word :=
  match s.fitPages z w true with
  | some p => (s, p)
  | none =>
    match s.fitPages z w false with
    | some p => (s, p)
    | none =>
      if s.pageTotal [z] + w.bytes s.loft ≤ pageArea then s.repack z w
      else (s, w32 (Config.openValue 12 [z, w.param.length]).toNat &&& 0x7FFF7FFF)

end Sys2Proof.Machine
end

