-- ==== Sys2Proof/Machine/Omp.lean ====
section
/-! DEFINITION. How firmware takes, checks and answers a command, and how it stamps one (R22, R322 to R325, R359 to R367). -/

namespace Sys2Proof.Machine

/-! ### The command set (Tables 20.2 and 20.3) -/

/-- Codes of Table 20.3. -/
def knownCodes : List Nat :=
  [0x001, 0x002, 0x003, 0x010, 0x011, 0x012, 0x013, 0x018, 0x019, 0x020, 0x021, 0x028, 0x030, 0x031, 0x038, 0x039, 0x03A, 0x03B] ++
  [0x040, 0x041, 0x042, 0x043, 0x044, 0x045, 0x048, 0x049, 0x04A, 0x050, 0x051, 0x058, 0x059, 0x05A, 0x060, 0x068, 0x069, 0x06A] ++
  [0x06B, 0x06C, 0x06D, 0x070, 0x071, 0x072, 0x073, 0x078, 0x079, 0x080, 0x081, 0x088, 0x089, 0x090, 0x091, 0x098, 0x0A0, 0x0A1, 0x0A2, 0x0A3]

/-- A command of Table 20.3: its code, its class letters, the parameter words it may carry after the AT block, and whether a bulk payload belongs
to it: 0 never, 1 it may, 2 always. -/
structure Spec where
  code : Nat
  q : Bool := false
  s : Bool := false
  l : Bool := false
  k : Bool := false
  r : Bool := false
  lo : Nat
  hi : Nat
  bulk : Nat := 0
  deriving DecidableEq, Repr

/-- A command as firmware carries it out. -/
structure Cmd where
  code : Nat
  tag : Nat
  carrier : Nat
  udp : Option UdpTag
  /-- AT_CTRL and VALUE (R364). -/
  atCtrl : Nat
  atValue : Nat
  /-- Parameters after the AT block. -/
  w : List Word
  hasBulk : Bool
  bulk : List Byte
  deriving DecidableEq, Repr

/-- How a command ends: refused; refused with an effect that the refusal itself has; answered at once with the items after the status; or answered
later. -/
inductive Reply where
  | refuse (e : Err)
  | refuseWith (e : Err) (s : State)
  | done (items : List Word) (s : State)
  | later (s : State)

/-- A refusal with DETAIL and INDEX. -/
def no (st : Status) (detail : Nat := 0) (index : Nat := 0xFF) : Reply := .refuse { status := st, detail, index }

/-- LEG of the AT block, and parameter words. -/
def Cmd.atLeg (c : Cmd) : Nat := nbits c.atCtrl 2 1
def Cmd.p (c : Cmd) (i : Nat) : Nat := (wat c.w i).toNat
/-- A parameter that names an item: its value lies in [7:0], with 0 above (R362). -/
def Cmd.badItem (c : Cmd) (i limit : Nat) : Bool := decide (limit ≤ c.p i)

/-! ### Headers and admission (R361 steps 1 to 7) -/

/-- Steps 1 and 2 of R361. -/
def headerErr (m : Msg) : Option Status :=
  if msgMajor m != 1 then some .version
  else if msgKind m != 0 then some .kind
  else if knownCodes.contains (msgCode m) then none else some .unknownCode

/-- Codes accepted in the safe state although they carry no Q (Table 20.2). -/
def safeCodes : List Nat := [0x098, 0x071, 0x045, 0x048, 0x049, 0x04A]

/-- A UDP request's source may be acted on (R325). -/
def State.sourceAllowed (s : State) (code : Nat) (u : UdpTag) : Bool :=
  let list := s.porch.eth.allow.toList
  if list.all (·.isNone) then code == 1 || code == 2 || code == 3 || code == 0x06D else list.contains (some u.source)

/-- SURVEY is the running long operation (R366). -/
def State.surveying (s : State) : Bool :=
  let waits := s.probe.running && (match s.probe.pending with | some p => p.mode == modeSurvey | none => false)
  match s.fw.long with | some op => op.code == cModeSet && (s.fw.mode == modeSurvey || waits) | none => false

/-- Step 6 of R361: a long operation runs and the command is one too. -/
def State.longBusy (s : State) (sp : Spec) : Bool :=
  match s.fw.long with
  | none => false
  | some op =>
    if sp.code = cModeSet then !s.surveying
    else if sp.code = 0x098 then op.code == 0x089 || op.code == 0x098
    else sp.l

/-- Parameter words a request carries. -/
def Request.params (r : Request) (sp : Spec) : List Word := r.msg.drop (if sp.s then 4 else 1)

/-- The length is wrong (step 4 of R361; R322, R362, R364). -/
def Request.badLength (r : Request) (sp : Spec) (c : Nat) : Bool :=
  let n := (r.params sp).length
  (sp.s && decide (r.msg.length < 4)) || decide (n < sp.lo) || decide (sp.hi < n) || (msgBulk r.msg && (sp.bulk == 0 || c == 6 || c == 7)) ||
    (sp.bulk == 2 && !msgBulk r.msg)

/-- Steps 3 to 7 of R361. -/
def State.entryCheck (s : State) (sp : Spec) (r : Request) (c : Nat) : Option Status :=
  if sp.k && c = 8 then some .secureCarrier
  else if (match r.udp with | some u => !s.sourceAllowed sp.code u | none => false) then some .notAllowed
  else if sp.k && c != 4 && c != 5 && c != 6 then some .secureRequired
  else if r.badLength sp c then some .length
  else if s.fw.shut && !sp.q then some .busy
  else if s.safe && !sp.q && !safeCodes.contains sp.code then some .safeState
  else if s.longBusy sp then some .busy
  else if sp.r && !s.inRest then some .notRest
  else none

/-! ### Bulk payloads (R362) -/

/-- The payload behind a bulk header that matches its command. -/
def bulkOf (code tag : Nat) (bs : List Byte) : Option (List Byte) :=
  let n := leAt bs 8 4
  let body := (bs.drop 16).take n
  if bs.length < 16 + n || leAt bs 0 2 != 0x4B42 || leAt bs 2 2 != code || leAt bs 4 1 != tag || leAt bs 5 3 != 0 || leAt bs 12 4 != crc32c body then none
  else some body

/-- No other carrier's command was accepted earlier and still waits for its buffer. -/
def State.bulkTurn (s : State) (c up : Nat) : Bool :=
  (List.range 8).all (fun d =>
    match vget s.fw.inbox d [] with
    | r :: _ => d == c || (match r.waitUp with | some u => decide (up < u) || (u == up && decide (c < d)) | none => true)
    | [] => true)

/-! ### Answers -/

/-- The request at the head of a carrier's store is answered. -/
def State.popHead (c : Nat) (s : State) : State := { s with fw := { s.fw with inbox := vmod s.fw.inbox c (fun q => q.drop 1) } }

/-- Requests at the head whose header is refused are answered (R361 steps 1 and 2, R363). -/
def State.settle (c : Nat) : Nat → State → State
  | 0, s => s
  | fuel + 1, s =>
    match vget s.fw.inbox c [] with
    | [] => s
    | r :: _ =>
      match headerErr r.msg with
      | none => s
      | some e => ((s.popHead c).reply c r.udp (msgCode r.msg) (msgTag r.msg) e.num 0 0xFF []).settle c fuel

def State.settleAll (c : Nat) (s : State) : State := s.settle c ((vget s.fw.inbox c []).length + 1)

/-- A refusal is sent; NOT_ALLOWED is counted (R325). -/
def State.refuse (c : Nat) (r : Request) (e : Err) (s : State) : State :=
  let s1 := if e.status = .notAllowed then { s with porch := { s.porch with eth := { s.porch.eth with notAllowed := s.porch.eth.notAllowed + 1 } } } else s
  ((s1.popHead c).reply c r.udp (msgCode r.msg) (msgTag r.msg) e.status.num e.detail e.index []).settleAll c

/-- A reply is carried out; `index`: the leg that the command concerns (R360). -/
def State.conclude (c : Nat) (r : Request) (index : Nat) (s : State) : Reply → State
  | .refuse e => s.refuse c r { e with index := if e.index = 0xFF then index else e.index }
  | .refuseWith e t => t.refuse c r { e with index := if e.index = 0xFF then index else e.index }
  | .done items t => ((t.popHead c).reply c r.udp (msgCode r.msg) (msgTag r.msg) 0 0 index items).settleAll c
  | .later t => (t.popHead c).settleAll c

/-! ### The AT block (R364, R365) -/

/-- No plan runs whose trace could be current in the Hall (R365). -/
def State.unplanned (s : State) : Bool :=
  !s.measuring || !s.probe.running ||
    (s.probe.fresh && [0, 1].all (fun leg => vget s.probe.frame leg 0 == 0 && vget s.probe.next leg 0 == 0))

/-- Step 8 of R361 for the AT block. -/
def State.badAt (s : State) (code : Nat) (c : Cmd) : Bool :=
  let mode := c.atCtrl % 4
  let form := decide (8 ≤ c.atCtrl) || mode == 3 || (mode == 0 && c.atValue != 0)
  if s.unplanned then (code == cModeSet || code == cFire || code == cStreamStop) && form else form || !(s.legBank c.atLeg).on

/-- The trace of a frame in a leg's lowest active slot row, under the plan of the frame; in the row of the plan in force where that plan has the leg off. -/
def State.traceAhead (s : State) (leg f : Nat) : Nat :=
  let p := s.planOver f
  let b := p.bank.legBank leg
  if b.on then p.trace leg b.lowest f else s.traceOf leg (s.legBank leg).lowest (f - s.probe.frameBase)

/-- The frame of a trace number in that row; none before the plan in force. -/
def State.traceFrame (s : State) (leg n : Nat) : Option Nat :=
  let first := s.traceAhead leg s.probe.frameBase
  if n < first then none
  else
    let f := s.probe.frameBase + (n - first)
    let p := s.planOver f
    some (if p.base ≤ s.probe.frameBase then f else p.base + (n - s.traceAhead leg p.base))

/-- The first placement at or after a frame. -/
def nextPlace (ok : Nat → Bool) : Nat → Nat → Nat
  | 0, f => f
  | n + 1, f => if ok f then f else nextPlace ok n (f + 1)

/-- Where a class S command takes effect while a plan runs: frame and effective trace (R22, R364). `ok`: the frames that are placements. -/
def State.placeAt (s : State) (c : Cmd) (ok : Nat → Bool) : Except Err (Nat × Nat) :=
    let leg := c.atLeg
    let low := s.currentFrame leg + 8
    let want : Option Nat :=
      match c.atCtrl % 4 with
      | 0 => some low
      | 1 => s.traceFrame leg c.atValue
      | _ => some (s.frameAhead c.atValue)
    match want with
    | none => .error { status := .traceEarly }
    | some f =>
      let g := nextPlace ok 256 f
      if g < low then .error { status := .traceEarly }
      else if s.now + 600 * sec < s.boundaryAhead g then .error { status := .param }
      else .ok (g, s.traceAhead leg g)

/-- The same; none where the command is held (R365). -/
def State.place (s : State) (c : Cmd) (ok : Nat → Bool) : Except Err (Option (Nat × Nat)) :=
  if s.unplanned then .ok none else (s.placeAt c ok).map some

/-- Stamped changes that wait (R364). -/
def State.waitingChanges (s : State) : Nat := (s.fw.stamped.filter (fun p => !p.also)).length

/-- Condition 9 of R31 for a leg under a plan: bank, mode. -/
def ramanFits (b : LegBank) (mode tF : Nat) : Bool :=
  (mode == modeWatch || mode == modeReach) && decide ((b.ramanOffset + b.len + b.ramanChips + 64) * 4 ≤ tF)

/-- The reference sections of a TEMP_CAL lie beyond L. -/
def refsBeyond (bulk : List Byte) (len : Nat) : Bool := decide (len ≤ leAt bulk 4 4) || decide (len ≤ leAt bulk 84 4)

/-- What a zone's setting breaks under the plan in force: its binding, its span (R229, R230). -/
def State.zoneHeldError (s : State) (w : ZoneWant) : Option Status :=
  if s.zoneBindBad w (some s.probe.frameBase) then some .zoneBind
  else if w.spanBad (s.legBank (fget w.cfg F.ZONE_CFG.LEG)) then some .zoneSpan else none

/-- Settings of a unit as last accepted. -/
def State.unitLatest (s : State) (u : Nat) : TrigConfig :=
  let due := (s.unit u).due.filterMap (fun e => match e.2 with | .config c => some c | _ => none)
  let wait := (s.fw.stamped.filter (fun p => p.code == cTrigSet && p.item == u)).map (fun p => TrigConfig.ofWords (p.words.drop 1) p.bulk)
  ((due ++ wait).getLast?).getD (s.unit u).c

/-- Groups of the ring units in a mask. -/
def State.ringGroups (s : State) (mask : Nat) : List Nat := ((onesOf mask 16).map s.unitLatest).filterMap (fun c => if c.ring then some c.group else none)

/-- The ring's master sends an ARM token for each group of the ring units in a mask; every ring unit of the group arms at its frame (R260). -/
def State.armTokens (mask time : Nat) (s : State) : State :=
  let groups := s.ringGroups mask
  (List.range 4).foldl (fun t g =>
    if groups.contains g && t.cwMaster then ((if t.cwRing then t.cwSend [0, 1] cwArm (leBytes 1 g ++ leBytes 8 time) else t).armGroup g time) else t) s

/-- The HOLD that a TRIG_SET carries is below the minimum under a plan (R259). -/
def State.holdBad (s : State) (n : TrigConfig) (b : Bank) : Bool := !n.holdMin && decide (n.holdN < s.holdMin n b)

/-- Why a change accepted before its plan is invalid under it (R365). -/
def State.heldError (s : State) (p : Stamped) : Option Status :=
  let b := s.legBank p.item
  let tF := s.probe.active.tF
  let yes (c : Bool) (e : Status) : Option Status := if c then some e else none
  if !(s.legBank p.leg).on then some .param
  else if p.code = cChainSet then yes (!b.on || rateIndex b.count tF != some (respRate (wat p.words 2).toNat)) .chainRate
  else if p.code = cZoneSet then s.zoneHeldError (.ofWords (p.words.drop 1) p.bulk)
  else if p.code = cZoneEnable && nbit (wat p.words 2).toNat 0 then
    ((List.range ((wat p.words 1).toNat % 256 + 1 - p.item)).filterMap (fun i => (s.zoneLatest (p.item + i)).bind s.zoneHeldError)).head?
  else if p.code = cTrigSet then 
    let n := TrigConfig.ofWords (p.words.drop 1) p.bulk
    yes (s.trigSpanBad n s.probe.active || s.holdBad n s.probe.active) .trigSpan
  else if p.code = cTempSet then yes (nbit (wat p.words 1).toNat 0 && !ramanFits (b.withTemp p.words) s.fw.mode tF) .planInfeasible
  else if p.code = cFrontSet then yes (fbit (wat p.words 1) F.FRONT_CFG.FADE_REF && s.fw.mode == modeDetail) .noSurvey
  else if p.code = cStreamStart then yes ((s.stream p.item).source == 0 || s.streamSelBad p.item (s.stream p.item) (some s.probe.active)) .streamSel
  else if p.code = cTempCal then yes (refsBeyond p.bulk b.len) .param
  else none

/-- Changes accepted before the plan in force are given its first frame, or are discarded (R365). An ARM of ring units takes effect 8 frames on, so that its token
leads (R260; DEDUCED, log entry 74). -/
def State.settleHeld (s : State) : State :=
  let f := s.probe.frameBase
  s.fw.stamped.foldl (fun t p =>
    let keep (q : Stamped) : State := { t with fw := { t.fw with stamped := t.fw.stamped ++ [q] } }
    if p.frame.isSome then keep p
    else match s.heldError p with
      | some e => t.dropChange p e
      | none =>
        let g := if p.code = cArm && !(t.ringGroups (wat p.words 0).toNat).isEmpty then f + 8 else f
        let u := keep { p with frame := some g, eff := some (t.traceAhead p.leg g) }
        if p.code = cArm then u.armTokens (wat p.words 0).toNat (s.boundaryAhead g % 2 ^ 64) else u) { s with fw := { s.fw with stamped := [] } }

/-- A change joins those that wait, its trace counted on a leg; one accepted while its plan has started and not launched takes the plan's first
frame (R365). -/
def State.stampOn (leg : Nat) (c : Cmd) (at_ : Option (Nat × Nat)) (words : List Word) (bulk : List Byte) (also : Bool) (s : State) : State :=
  let p : Stamped := { code := c.code, tag := c.tag, leg, eff := at_.map (fun a => s.traceAhead leg a.1), frame := at_.map (·.1), held := at_.isNone
                       words, bulk, also }
  let t := { s with fw := { s.fw with stamped := s.fw.stamped ++ [p] } }
  (if at_.isNone && s.measuring && s.probe.running then t.settleHeld else t).summarise

/-- The same on the leg of the AT block. -/
def State.stamp (c : Cmd) (at_ : Option (Nat × Nat)) (words : List Word) (bulk : List Byte) (also : Bool) (s : State) : State :=
  s.stampOn c.atLeg c at_ words bulk also

/-- EFF of a response. -/
def effWords (at_ : Option (Nat × Nat)) : List Word := w64 ((at_.map (·.2)).getD allOnes64)

/-- A class S command whose change waits for its trace: EFF, then what `rest` gives for the placement. -/
def State.stamped (s : State) (c : Cmd) (ok : Nat → Bool) (words : List Word) (bulk : List Byte) (rest : Option (Nat × Nat) → List Word) : Reply :=
  match s.place c ok with
  | .error e => .refuse e
  | .ok at_ => if 64 ≤ s.waitingChanges then no .busy else .done (effWords at_ ++ rest at_) (s.stamp c at_ words bulk false)

/-- Every trace is a placement. -/
def anyTrace : Nat → Bool := fun _ => true

/-- Device time of a frame as a response gives it (R442): all ones where it is held. -/
def State.frameWords (s : State) (at_ : Option (Nat × Nat)) : List Word := w64 ((at_.map (fun a => s.boundaryAhead a.1 % 2 ^ 64)).getD allOnes64)

/-! ### Locks (R367) -/

/-- The LOCK word: taken as requester 3; the owner's number where another holds it. -/
def State.takeLock (w : Word) (s : State) : Except Err (State × Option Nat) :=
  if !nbit w.toNat 5 then .ok (s, none)
  else
    let k := w.toNat % 32
    let o := s.lockOwner k
    if o != 0 && o != 3 then .error { status := .lockHeld, detail := o } else .ok (s.setLock k 3, some k)

/-! ### Long operations (R366) -/

/-- The long operation of a command. -/
def Cmd.longOp (c : Cmd) : LongOp := { code := c.code, tag := c.tag, carrier := c.carrier, udp := c.udp, lock := none, words := c.w }
/-- A long operation begins: progress reads 1, 0. -/
def State.startLong (c : Cmd) (lock : Option Nat) (unit : Nat) (s : State) : State :=
  { s with fw := { s.fw with long := some { c.longOp with lock } } }.progress c.code 1 unit 0

/-! ### The run of a command row -/

/-- Firmware runs (R405, R408). -/
def State.fwReady (s : State) : Bool := s.boot.phase == .ready

/-- The command in hand. -/
def Request.cmd (r : Request) (sp : Spec) (c : Nat) (bulk : List Byte) : Cmd :=
  { code := sp.code, tag := msgTag r.msg, carrier := c, udp := r.udp, atCtrl := if sp.s then (wat r.msg 1).toNat else 0
    atValue := if sp.s then wat64 r.msg 2 else 0, w := r.params sp, hasBulk := msgBulk r.msg, bulk }

/-- The command is carried out; step 8 of R361 for the AT block comes first. -/
def State.perform (sp : Spec) (c : Nat) (r : Request) (bulk : List Byte) (index : Cmd → Nat) (body : Cmd → State → Reply) (s : State) : State :=
  let cmd := r.cmd sp c bulk
  s.conclude c r (index cmd) (if sp.s && s.badAt sp.code cmd then no .param else body cmd s)

/-- The request at the head of carrier c is run, if it is this command: checks, the bulk payload, the effect, the response. A PCIe bulk command
that was admitted waits for its buffer (R362). -/
def State.command (sp : Spec) (c : Nat) (index : Cmd → Nat) (body : Cmd → State → Reply) (s : State) : Res :=
  match vget s.fw.inbox c [] with
  | [] => .next s
  | r :: rest =>
    if !s.fwReady || (headerErr r.msg).isSome || msgCode r.msg != sp.code then .next s
    else
      match if r.waitUp.isSome then none else s.entryCheck sp r c with
      | some e => .next (s.refuse c r { status := e })
      | none =>
        if !msgBulk r.msg then .next (s.perform sp c r [] index body)
        else if c = 8 then
          match bulkOf sp.code (msgTag r.msg) r.bulk with
          | none => .next (s.refuse c r { status := .bulk })
          | some b => .next (s.perform sp c r b index body)
        else
          let up := r.waitUp.getD s.time.up
          match s.fw.bulk with
          | bs :: more =>
            if s.bulkTurn c up then
              let s1 := { s with fw := { s.fw with bulk := more } }
              match bulkOf sp.code (msgTag r.msg) bs with
              | none => .next (s1.refuse c r { status := .bulk })
              | some b => .next (s1.perform sp c r b index body)
            else .next { s with fw := { s.fw with inbox := vset s.fw.inbox c ({ r with waitUp := some up } :: rest) } }
          | [] => .next { s with fw := { s.fw with inbox := vset s.fw.inbox c ({ r with waitUp := some up } :: rest) } }

/-- No leg applies. -/
def noLeg : Cmd → Nat := fun _ => 0xFF
/-- The leg that the first parameter names. -/
def legFirst : Cmd → Nat := fun c => if c.p 0 < 2 then c.p 0 else 0xFF

end Sys2Proof.Machine
end

