-- ==== Sys2Proof/Machine/Plan.lean ====
section
/-! DEFINITION. Plans: their words, the feasibility rule, figures and the plan helper (R29 to R32, R44 to R51, R56, R369, R441). -/

namespace Sys2Proof.Machine

/-! ### Images and items of a command (R362, R364) -/

/-- A register image carries 1 in a bit that the register table does not give it. -/
def badImage (k : RegKind) (w : Word) : Bool := (w &&& ~~~(k.rw ||| k.rwe ||| k.keep ||| k.w1s ||| k.w1c)) != 0

/-! ### The words of a plan (R369, R441) -/

/-- A plan as a command carries it. -/
structure PlanWords where
  mode : Nat
  ng : Nat
  bank : Bank
  deriving DecidableEq, Repr

/-- f as a 48-bit frequency code (R47). -/
def freqCode (hz : Int) : Int := divHalfAway (hz * ((2 ^ 48 : Nat) : Int)) 800000000

/-- Band edges of a slot in Hz (Table 3.1, R46). -/
def bandOf (mode slot : Nat) : Int × Int :=
  if mode = modeDetail then (-150000000, 150000000) else (-156000000 + 40000000 * (slot : Int), -124000000 + 40000000 * (slot : Int))

/-- Leg descriptor W0 to W3: ZERO fields; where the leg is on, RAMAN_LEN and RAMAN_OFFSET within their ranges (Table 3.3, R56, R441). -/
def badLegWords (ws : List Word) : Bool :=
  badImage F.LEG_W0.kind (wat ws 0) || badImage F.LEG_W1.kind (wat ws 1) || badImage F.LEG_W2.kind (wat ws 2) || badImage F.LEG_W3.kind (wat ws 3) ||
    (fbit (wat ws 0) F.LEG_W0.LEG_ON && (decide (4 < fget (wat ws 0) F.LEG_W0.RAMAN_LEN) || decide (80000 < fget (wat ws 3) F.LEG_W3.RAMAN_OFFSET)))

/-- A slot descriptor: ZERO fields; where the leg is on, a WINDOW of Table 3.2. -/
def badSlotWords (on : Bool) (ws : List Word) : Bool :=
  badImage F.SLOT_W0.kind (wat ws 0) || badImage F.SLOT_W4.kind (wat ws 4) || badImage F.SLOT_W5.kind (wat ws 5) || badImage F.SLOT_W6.kind (wat ws 6) ||
    badImage F.SLOT_W7.kind (wat ws 7) || (on && decide (5 < fget (wat ws 0) F.SLOT_W0.WINDOW))

/-- Eight words as a slot descriptor, four as a leg descriptor. -/
def slotOf (ws : List Word) : Vector Word 8 := ⟨((List.range 8).map (wat ws)).toArray, by simp⟩
def legWordsOf (ws : List Word) : Vector Word 4 := #v[wat ws 0, wat ws 1, wat ws 2, wat ws 3]

/-- The NCO chirp that a FORM 0 slot word gives slot s: the whole band, upwards or downwards (R369). -/
def formSlot (mode : Nat) (w : Word) (s : Nat) : Vector Word 8 :=
  let v := w.toNat
  let d := nbits v 11 14
  let (lo, hi) := bandOf mode s
  let (f0, f1) := if nbit v 25 then (hi, lo) else (lo, hi)
  let code := wrapTo 48 (freqCode f0)
  let rate := wrapTo 48 (divHalfAway ((f1 - f0) * ((2 ^ 48 : Nat) : Int)) (d * 800000000))
  let w0 := fset (fsetB 0 F.SLOT_W0.ACTIVE (nbit v s)) F.SLOT_W0.WINDOW (nbits v 8 3)
  #v[w0, w32 code, w32 (code / 2 ^ 32), w32 rate, w32 (rate / 2 ^ 32), w32 d, 0x7333, 0x640]

/-- A leg of FORM 0: W0 to W3 and the slot word. -/
def formLeg (mode : Nat) (ws : List Word) : LegBank :=
  { w := legWordsOf ws, slot := ⟨((List.range 8).map (formSlot mode (wat ws 4))).toArray, by simp⟩ }

/-- A leg of FORM 1: W0 to W3 and eight slot descriptors. -/
def bulkLeg (ws : List Word) : LegBank :=
  { w := legWordsOf ws, slot := ⟨((List.range 8).map (fun s => slotOf (ws.drop (4 + 8 * s)))).toArray, by simp⟩ }

/-- Mode and FORM of word A. -/
def planMode (a : Word) : Nat := nbits a.toNat 20 3
def planForm (a : Word) : Bool := nbit a.toNat 23

/-- Parameter words that word A asks for: 2 with FORM 1, 12 with FORM 0; REST takes what it finds (R441). -/
def planLength (a : Word) : Nat × Nat := if planMode a = 0 then (2, 12) else if planForm a then (2, 2) else (12, 12)
/-- Whether a bulk payload belongs to it. -/
def planBulk (a : Word) : Nat := if planMode a = 0 then 1 else if planForm a then 2 else 0

/-- The plan that a command's parameters give; a REST command's words after the mode field are not looked at (R441). -/
def decodePlan (ws : List Word) (bulk : List Byte) : Except Err PlanWords :=
  let a := wat ws 0
  let b := (wat ws 1).toNat
  let mode := planMode a
  let tF := nbits a.toNat 0 20
  let bw := wordsOfBytes bulk
  let legs := if planForm a then [bw.drop 3, bw.drop 71] else [ws.drop 2, ws.drop 7]
  let on (l : List Word) : Bool := fbit (wat l 0) F.LEG_W0.LEG_ON
  if mode = 0 then .ok { mode := 0, ng := 14682, bank := {} }
  else if nbits a.toNat 24 8 != 0 || 5 < mode || b < 14400 || 14900 < b then .error { status := .param }
  else if planForm a && bulk.length != 556 then .error { status := .bulk }
  else if planForm a && (wat bw 0).toNat != tF then .error { status := .param }
  else if legs.any badLegWords then .error { status := .param }
  else if planForm a && legs.any (fun l => (List.range 8).any (fun s => badSlotWords (on l) ((l.drop (4 + 8 * s)).take 8))) then .error { status := .param }
  else if !planForm a && legs.any (fun l => decide (2 ^ 26 ≤ (wat l 4).toNat) || (on l && decide (5 < nbits (wat l 4).toNat 8 3))) then .error { status := .param }
  else
    let leg (l : List Word) : LegBank := if planForm a then bulkLeg l else formLeg mode l
    .ok { mode, ng := b, bank := { tF, leg := #v[leg (wat2 legs 0), leg (wat2 legs 1)] } }
where
  /-- Element of a list of word lists. -/
  wat2 (l : List (List Word)) (i : Nat) : List Word := (l[i]?).getD []

/-! ### Feasibility (R30, R31, R32) -/

/-- A row of Table 2.1: S, T_f in 2.5 ns units, f_loc in Hz, L, chirp duration in DAC clocks, Raman. -/
structure ModeLimits where
  slots : List Nat
  tLo : Nat
  tHi : Nat
  fLo : Nat
  fHi : Nat
  lMax : Nat
  dMax : Nat
  raman : Bool

/-- Table 2.1. SPEED's L is limited by the frame rule alone. -/
def modeLimits (mode : Nat) : ModeLimits :=
  if mode = modeSurvey then ⟨[1], 400000, 400000, 0, 64000, 81920, 8000, false⟩
  else if mode = modeWatch then ⟨[1, 2, 4, 8], 100000, 800000, 500, 32000, 49728, 1600, true⟩
  else if mode = modeReach then ⟨[1, 2, 4], 320000, 800000, 500, 5000, 78912, 8000, true⟩
  else if mode = modeDetail then ⟨[1], 80000, 800000, 500, 5000, 79296, 1200, false⟩
  else ⟨[1, 2, 4, 8], 50000, 80000, 5000, 64000, 131071, 1600, false⟩

/-- Condition 4 for a slot: duration, and the bounds of R47 on an NCO chirp. -/
def LegBank.chirpOk (b : LegBank) (mode slot : Nat) : Bool :=
  let d := b.duration slot
  let (lo, hi) := bandOf mode slot
  let f0 := sx 48 (b.freqStart slot)
  let rate := sx 48 (b.rate slot)
  let f1 := f0 + rate * (d : Int)
  let tol : Int := ((cdiv d 2 : Nat) : Int)
  decide (160 ≤ d) && decide (d ≤ (modeLimits mode).dMax) &&
    (b.isTable slot || (decide (freqCode lo ≤ f0) && decide (f0 ≤ freqCode hi) && decide (freqCode lo - tol ≤ f1) && decide (f1 ≤ freqCode hi + tol) &&
      decide (freqCode 1000000 ≤ (rate.natAbs : Int) * (d : Int))))

/-- Condition c of R31 for a leg that is on. DETAIL runs in slot row 0 and SURVEY in slot row 3 alone (R37, R46). -/
def PlanWords.holds (p : PlanWords) (c leg : Nat) : Bool :=
  let b := p.bank.legBank leg
  let m := modeLimits p.mode
  let detail := p.mode == modeDetail
  let tF := p.bank.tF
  match c with
  | 1 => m.slots.contains b.count && (!detail || b.slots == [0]) && (p.mode != modeSurvey || b.slots == [3])
  | 2 => decide (m.tLo ≤ tF) && decide (tF ≤ m.tHi)
  | 3 => match rateIndex b.count tF with | some i => decide (m.fLo ≤ rateHz i) && decide (rateHz i ≤ m.fHi) | none => false
  | 4 => b.slots.all (b.chirpOk p.mode)
  | 5 => b.len % 64 == 0 && decide (64 ≤ b.len) && decide (b.len ≤ m.lMax)
  | 6 => b.slots.all (fun s => decide ((b.len + b.span detail s + 64) * pointStep detail ≤ tF))
  | 7 => decide (b.count * b.len ≤ 397824)
  | 8 => p.mode == modeSurvey || (decide (2 ≤ b.gauge) && decide (b.gauge ≤ 64) && decide (b.gauge < b.len))
  | _ => !b.ramanEn || (m.raman && decide ((b.ramanOffset + b.len + b.ramanChips + 64) * 4 ≤ tF))

/-- The first failed condition and the leg it concerns, 0xFF where it concerns no one leg: leg 0's conditions in their order, then leg 1's (R32). -/
def PlanWords.failed (p : PlanWords) : Option (Nat × Nat) :=
  let legs := [0, 1].filter (fun l => (p.bank.legBank l).on)
  if p.mode = 0 then none
  else if legs.isEmpty then some (1, 0xFF)
  else
    (legs.flatMap (fun l => ([1, 2, 3, 4, 5, 6, 7, 8, 9] : List Nat).map (fun c => (c, l)))).find? (fun e => !p.holds e.1 e.2)
      |>.map (fun e => (e.1, if e.1 = 2 then 0xFF else e.2))

/-- PLAN_INFEASIBLE with its condition and leg. -/
def PlanWords.infeasible (p : PlanWords) : Option Err := p.failed.map (fun e => { status := .planInfeasible, detail := e.1, index := e.2 })

/-! ### PLAN_CHECK and PLAN_SUGGEST -/

/-- Points per second of a leg, rounded down. -/
def PlanWords.points (p : PlanWords) (leg : Nat) : Nat :=
  let b := p.bank.legBank leg
  if p.mode = 0 || !b.on || p.bank.tF = 0 then 0 else b.count * b.len * 400000000 / p.bank.tF

/-- P0 load of both legs in MB/s: whole rows of 64 + 2.25 × L bytes. -/
def PlanWords.load (p : PlanWords) : Nat :=
  let rows (leg : Nat) : Nat := let b := p.bank.legBank leg; if p.mode = 0 || !b.on then 0 else b.count * (256 + 9 * b.len)
  (rows 0 + rows 1) * 100 / max 1 p.bank.tF

/-- Word A of the request at the head of a carrier, after `skip` words. -/
def State.planWord (s : State) (c skip : Nat) : Word := match vget s.fw.inbox c [] with | r :: _ => wat r.msg skip | [] => 0

/-- PLAN_CHECK (R31, R32). -/
def execPlanCheck (c : Fin 9) (s : State) : Res :=
  let a := s.planWord c.val 1
  s.command { code := 0x011, q := true, lo := (planLength a).1, hi := (planLength a).2, bulk := planBulk a } c.val noLeg (fun cmd t =>
    match decodePlan cmd.w cmd.bulk with
    | .error e => .refuse e
    | .ok p => match p.infeasible with | some e => .refuse e | none => .done [w32 (p.points 0), w32 (p.points 1), w32 p.load] t)

/-- The smallest T_f in range with S / T_f on the ladder that holds l points behind a chirp of d DAC clocks (the helper of R32). -/
def smallestFrame (m : ModeLimits) (s l d : Nat) : Option Nat :=
  ((List.range 17).reverse.filterMap (fun i =>
    let hz := rateHz i
    let t := s * 400000000 / hz
    if s * 400000000 % hz = 0 ∧ m.tLo ≤ t ∧ t ≤ m.tHi ∧ (l + chirpSpan false d + 64) * 4 ≤ t then some t else none)).head?

/-- The plan helper of R32 for a fibre of `metres`: mode, S, T_f, L and chirp. -/
def suggestPlan (metres ng : Nat) : Option (List Nat) :=
  let need := cdiv (metres * ng * 10000) 149896229
  let l := 64 * cdiv need 64
  (([(modeSpeed, 1600), (modeWatch, 1600), (modeReach, 8000)] : List (Nat × Nat)).flatMap (fun (mode, d) =>
    let m := modeLimits mode
    m.slots.reverse.filterMap (fun n =>
      if m.lMax < l || 397824 < n * l then none else (smallestFrame m n l d).map (fun t => [mode, n, t, l, d])))).head?

/-- PLAN_SUGGEST (R9, R31, R32): mode and T_f are common to both legs, so the helper plans the longer one. -/
def execPlanSuggest (c : Fin 9) (s : State) : Res :=
  s.command { code := 0x012, q := true, lo := 3, hi := 3 } c.val noLeg (fun cmd t =>
    let d := max (cmd.p 0) (cmd.p 1)
    if cmd.p 2 < 14400 || 14900 < cmd.p 2 then no .param
    else if d = 0 then no .planInfeasible 1
    else match suggestPlan d (cmd.p 2) with | some ws => .done (ws.map w32) t | none => no .planInfeasible)

end Sys2Proof.Machine
end

