-- ==== Sys2Proof/Machine/Hearth.lean ====
section
/-! DEFINITION. The meanings of the Hearth's events: loops, setpoints, enables, coolers, chain port, interlock (chapter 4). -/

namespace Sys2Proof.Machine

/-- A channel output is held off: the safe state; with KILL = 1 also ILOCK_N low, or ILOCK raised, since firmware restores a cut output only once
the fault is cleared (R78 to R80). -/
def State.holdsOff (s : State) (kill : Bool) : Bool := s.safe || ((s.hearth.ilockLow || (s.source srcIlock).raised) && kill)

/-- A plan runs: a measuring mode or SURVEY with its probe, in which setpoint changes wait for a frame (R70). -/
def State.setpointsWait (s : State) : Bool := s.probe.running && s.planRuns

/-- Firmware's stamp for a setpoint change: the first frame at least 8 after the one current in the Hall (R22, R70). -/
def State.setpointFrame (s : State) : Nat := s.currentFrame s.probe.active.leader + 8

/-- A setpoint change (R70): stamped while a plan runs, else taken at once. -/
def State.setpoint (ch : Nat) (w : Word) (s : State) : State :=
  if s.setpointsWait then s.withHearth { s.hearth with waits := s.hearth.waits ++ [⟨s.setpointFrame, ch, w⟩] }
  else s.withHearth (s.hearth.writeSet ch w)

/-- Reports of open and short of one channel. -/
def openShortReports (srcOpen srcShort detail : Nat) (o h : Bool) : List (Nat × Nat) :=
  (if o then [(srcOpen, detail)] else []) ++ (if h then [(srcShort, detail)] else [])

/-- One channel's 1 µs update (R68, R71): its fade, its sample, its judgement after 64 samples. -/
def Hearth.updateDrive (h : Hearth) (ch : Nat) (m : Option Sensed) : Hearth × List (Nat × Nat) :=
  let hd := decide (ch < 8)
  let c := ((h.drive ch).fadeStep).sample hd m
  let q : DriveChannel × Bool × Bool := if !hd && fbit c.cfg F.HD_CFG.PWM then (c, false, false) else c.judge 64
  (h.setDrive ch q.1,
   if hd then openShortReports srcHdOpen srcHdShort ch q.2.1 q.2.2
   else openShortReports srcHsOpen srcHsShort (ch - 8) q.2.1 q.2.2)

/-- HD_LOOP_UPDATE (R65, R66, R68, R70, R71). -/
def execHdLoopUpdate (m : List Sensed) (s0 : State) : Res :=
  if !s0.power.hearth then .next s0
  else
    let s := s0.setpointsDue
    let r := (List.range 12).foldl (fun (acc : Hearth × List (Nat × Nat)) ch =>
      let u := acc.1.updateDrive ch m[ch]?
      (u.1, acc.2 ++ u.2)) (s.hearth, [])
    .next ((s.withHearth r.1).reportAll r.2).afterFade

/-- HD_SETPOINT_WRITE (R68 to R70): a fade from the present OUT. Channels 0 to 7 are HD, 8 to 11 HS. -/
def execHdSetpointWrite (ch : Fin 12) (setpoint : BitVec 16) (s : State) : Res :=
  if !s.power.hearth then .next s else .next (s.setpoint ch.val (setpoint.setWidth 32))

/-- SETPOINT_STEP (R68, R70, R71): OUT is the setpoint without a fade. -/
def execSetpointStep (ch : Fin 12) (setpoint : BitVec 16) (s : State) : Res :=
  if !s.power.hearth then .next s else .next (s.setpoint ch.val (setpoint.setWidth 32 ||| 0x80000000))

/-- Kinds of the CFG words of HD, HS and gates (Table 4.3): PWM is ZERO on HD, KILL, SHAPE, PWM and FADE_MS are ZERO on gates. -/
def cfgKindHd : RegKind := { F.HD_CFG.kind with rwe := 0xFFFFFF0E }
def cfgKindHs : RegKind := F.HD_CFG.kind
def cfgKindGate : RegKind := { F.HD_CFG.kind with rwe := 0x0000FF04 }

/-- An ignored RWE write in the Hearth: WRITE_IGNORED and the offset (R81). -/
def Hearth.ignored (h : Hearth) (flag : Bool) (offset : Nat) : Hearth :=
  if flag then { h with stat := fset h.stat F.HEARTH_STAT.WRITE_IGNORED 1, wi := w32 (offset % 1024) } else h

/-- A KEEP field has been altered (R377). -/
def State.keepAltered (flag : Bool) (s : State) : State :=
  if flag then { s with host := { s.host with idStat := fset s.host.idStat F.ID_STAT.KEEP_ALTERED 1 } } else s

/-- An HS setting that would be judged on windows too short for it: PWM mode with DET_EN = 1 and PWM_ON below 16 clocks (R72). -/
def pwmTooShort (cfg pwmOn : Word) : Bool := fbit cfg F.HD_CFG.PWM && fbit cfg F.HD_CFG.DET_EN && decide (pwmOn.toNat < 16)

/-- A CFG word that firmware refuses for an HD or HS channel: FADE_MS = 0 (Table 4.3), or an HS channel's too short on-window (R72). A refused setting
is not written (DESIGN CHOICE, log entry 96). A gate's LEVEL of 241 to 255 is stored as it stands (R67 gives no consequence; DESIGN CHOICE, log entry 96). -/
def DriveChannel.refuses (c : DriveChannel) (hd : Bool) (w : Word) : Bool :=
  let r := regWrite (if hd then cfgKindHd else cfgKindHs) (fbit c.cfg F.HD_CFG.ENABLE) c.cfg w
  fget r.word F.HD_CFG.FADE_MS == 0 || (!hd && pwmTooShort r.word c.pwmOn)

/-- A CFG write of HD 0 to 7, HS 8 to 11 or gate 12 and 13, with the effect of its ENABLE bit (R69, R375). -/
def State.writeDriveCfg (ch : Nat) (w : Word) (s : State) : State :=
  let h := s.hearth
  if ch < 12 && (h.drive ch).refuses (ch < 8) w then s
  else if ch < 12 then
    let c := h.drive ch
    let r := regWrite (if ch < 8 then cfgKindHd else cfgKindHs) (fbit c.cfg F.HD_CFG.ENABLE) c.cfg w
    let c' := c.enableEdge { c with cfg := r.word } (s.holdsOff (fbit r.word F.HD_CFG.KILL))
    let off := if ch < 8 then 0x10 * ch else 0x80 + 0x20 * (ch - 8)
    (s.withHearth ((h.setDrive ch c').ignored r.ignored off)).keepAltered r.keepAltered
  else
    let g := vget h.gate (ch - 12) {}
    let r := regWrite cfgKindGate (fbit g.cfg F.HD_CFG.ENABLE) g.cfg w
    let g' := g.enableEdge { g with cfg := r.word } (s.holdsOff true)
    (s.withHearth ({ h with gate := vset h.gate (ch - 12) g' }.ignored r.ignored (0x100 + 0x10 * (ch - 12)))).keepAltered
      r.keepAltered

/-- CHANNEL_ENABLE (R69, R79, R375): a CFG word whose ENABLE bit is `on`. -/
def execChannelEnable (ch : Fin 14) (w : Word) (s : State) : Res :=
  if !s.power.hearth then .next s else .next (s.writeDriveCfg ch.val w)

/-! ### TEC controllers (R73, R74) -/

/-- Every enabled TEC reports SETTLED (R410 step 2). -/
def State.tecsSettled (s : State) : Bool :=
  s.hearth.tec.toList.all (fun t => !fbit t.cfg F.TEC_CFG.ENABLE || fbit t.stat F.TEC_STAT.SETTLED)

/-- Step 3 of Sequence 23.2: the pumps fade in; ILOCK_N low sets FLAGS[0] (R412). -/
def State.beginFadeIn (s : State) : State :=
  { s with
    hearth := s.hearth.fadeAll false
    fw := { s.fw with
      optical := .fadeIn, opticalUp := s.time.up
      flags := if s.hearth.ilockLow then s.fw.flags ||| 1 else s.fw.flags } }

/-- The wait for the TECs ends when every enabled one is settled. -/
def State.afterTec (s : State) : State :=
  if s.fw.optical = .tecWait && s.tecsSettled then s.beginFadeIn else s

/-- The selected housekeeping entry gives no live, intact result (R74); `stale` counts milliseconds without a new sweep. -/
def State.tecSensorBad (s : State) (sel stale : Nat) : Bool :=
  let r := vget s.thr.hk.res sel 0
  decide (fget s.thr.hk.cfg F.HK_CFG.COUNT < sel) || fbit r F.HK_RES.OPEN || !fbit r F.HK_RES.VALID || decide (10 ≤ stale)

/-- TEC_LOOP_UPDATE (R73, R74): one millisecond of TEC `t`. A bad sensor holds duty at 0 and raises TEC_SENSOR, whose cause stands while either
loop's entry is bad; the loop resumes when its entry is good again and the source is no longer raised. -/
def execTecLoopUpdate (t : Fin 2) (s : State) : Res :=
  let l := s.hearth.tec[t]
  if !s.power.hearth || !fbit l.cfg F.TEC_CFG.ENABLE || s.safe || !s.hearth.tecOn then .next s
  else
    let sel := fget l.cfg F.TEC_CFG.HK_SEL
    let r := vget s.thr.hk.res sel 0
    let sw := fget r F.HK_RES.SWEEP
    let l := if sw = l.sweep then { l with staleMs := l.staleMs + 1 } else { l with sweep := sw, staleMs := 0 }
    let bad := s.tecSensorBad sel l.staleMs
    if bad then
      let l := { l.stop with stat := fset l.stop.stat F.TEC_STAT.SENSOR 1, faulted := true, bad := true }
      .next ((s.withHearth { s.hearth with tec := vset s.hearth.tec t l }).setCondition srcTecSensor true t.val)
    else
      let others := (vget s.hearth.tec (1 - t.val) {}).bad
      let held := l.faulted && (s.source srcTecSensor).raised
      let l := if held then { l.stop with bad := false } else { l.update (fget r F.HK_RES.RESULT) with faulted := false, bad := false }
      let s1 := s.withHearth { s.hearth with tec := vset s.hearth.tec t l }
      .next ((if others then s1 else s1.setCondition srcTecSensor false t.val).afterTec)

/-- TEC_LIMIT (R74): |duty| has stayed at DUTY_MAX for 60 s; the loop keeps regulating. -/
def execTecLimit (t : Fin 2) (s : State) : Res :=
  let l := s.hearth.tec[t]
  if !s.power.hearth || !fbit l.cfg F.TEC_CFG.ENABLE || l.duty.natAbs != fget l.cfg F.TEC_CFG.DUTY_MAX then .next s
  else
    let l := { l with stat := fset l.stat F.TEC_STAT.LIMIT 1 }
    .next ((s.withHearth { s.hearth with tec := vset s.hearth.tec t l }).report srcTecLimit t.val)

/-! ### Chain port (R75 to R77) -/

/-- CHAIN_GO (R75, R77). In the safe state a GO starts nothing: the outputs are CHAIN_SAFE or kept (R80; DEDUCED, log entry 89). -/
def execChainGo (s : State) : Res :=
  if !s.power.hearth || s.safe then .next s else .next (s.withHearth { s.hearth with chain := s.hearth.chain.go })

/-- CHAIN_TRANSFER_DONE (R75 to R77): `din` is what CHAIN_DI gave in the last pass, word 0 first. Without VERIFY the outputs latch;
with it only if every bit matches, else MISMATCH is set and CHAIN_VERIFY raised. A pending GO then starts. A transfer that the safe state met does
not latch (R80). Clearing CHAIN_CFG.ENABLE stops no transfer that runs nor a GO that waits (the manual is silent; DESIGN CHOICE, log entry 89). -/
def execChainTransferDone (din : List Word) (s : State) : Res :=
  if !s.power.hearth || !fbit s.hearth.chain.stat F.HCHAIN_STAT.BUSY then .next s
  else
    let r := s.hearth.chain.done din (!s.safe)
    let s1 := s.withHearth { s.hearth with chain := r.1 }
    .next (if r.2 then s1 else s1.report srcChainVerify 0)

/-! ### Interlock (R78, R79) -/

/-- ILOCK_FALL (R78, R79, R412): a taken low. TECs and the chain port are unaffected. -/
def execIlockFall (s : State) : Res :=
  let s1 := s.withHearth s.hearth.interlock
  let s2 := if s.fw.optical = .selfCal || s.fw.optical = .tecWait || s.fw.optical = .fadeIn
    then { s1 with fw := { s1.fw with flags := s1.fw.flags ||| 1 } } else s1
  .next (s2.setCondition srcIlock true 0)

/-- ILOCK_N_RISE (R79, R387): the level and the cause; the cut outputs stay off. -/
def execIlockNRise (s : State) : Res :=
  let s1 := s.withHearth { s.hearth with stat := fset s.hearth.stat F.HEARTH_STAT.ILOCK_LEVEL 1 }
  .next (s1.setCondition srcIlock false 0)

/-- HS_PWM_ON_WINDOW (R66, R71, R72): the sample 15 ns after the on edge of an HS sink in PWM mode; an on-window shorter than
20 ns (16 clocks) is not judged. -/
def execHsPwmOnWindow (n : Fin 4) (m : Sensed) (s : State) : Res :=
  let c := s.hearth.hs[n]
  if !s.power.hearth || !c.drives || !fbit c.cfg F.HD_CFG.PWM || !fbit c.cfg F.HD_CFG.DET_EN || decide (c.pwmOn.toNat < 16) then
    .next s
  else
    let q := (c.count (c.meetsOpen false m) (c.meetsShort m)).judge 4
    .next ((s.withHearth { s.hearth with hs := vset s.hearth.hs n q.1 }).reportAll
      (openShortReports srcHsOpen srcHsShort n.val q.2.1 q.2.2))

end Sys2Proof.Machine
end

