-- ==== Sys2Proof/Machine/Threshold.lean ====
section
/-! DEFINITION. Threshold rows: gain, automatic ranging, housekeeping, self-calibration, retrims, full calibration (chapters 5 and 6). -/

namespace Sys2Proof.Machine

/-! ### Gain -/

/-- A GAIN_REQn write (R100); with ARM it arms a request for the first index at or after now whose bits [31:0] are GAIN_ATn. -/
def State.writeGainReq (leg : Nat) (w : Word) (s : State) : State :=
  let t := s.thrLeg leg
  let t := { t with req := (regWrite F.GAIN_REQ.kind false t.req w).word }
  if !fbit w F.GAIN_REQ.ARM then s.setThrLeg leg t
  else
    let cur := s.indexOfTime s.now
    let n := cur + (t.at_.toNat + 2 ^ 32 - cur % 2 ^ 32) % 2 ^ 32
    let r : GainRequest := { index := n, coh := some (fget w F.GAIN_REQ.COH_G), dir := some (fget w F.GAIN_REQ.ST_G, fget w F.GAIN_REQ.AS_G) }
    s.setThrLeg leg { t with pending := some r, direct := none }

/-- GAIN_REQ_ARM. -/
def execGainReqArm (leg : Fin 2) (w : Word) (s : State) : Res :=
  if !s.power.front then .next s else .next (s.writeGainReq leg.val w)

/-- The codes of a request take effect at sample index n, those in force standing where it carries none; equal codes make no step (R86, R87). -/
def ThrLeg.takeCodes (t : ThrLeg) (r : GainRequest) (n : Nat) : ThrLeg :=
  let coh := r.coh.getD t.coh
  let (st, as_) := r.dir.getD (t.st, t.as_)
  if coh != t.coh || st != t.st || as_ != t.as_ then t.setCodes n coh st as_ else t

/-- A coherent request takes effect at sample index n (R86 to R89): codes, limits, a new evaluation window, the automatic count. -/
def ThrLeg.takeGain (t : ThrLeg) (r : GainRequest) (n : Nat) : ThrLeg :=
  let t1 := t.takeCodes r n
  let t2 := { t1 with
    pending := none
    cfg := match r.cfg with | some c => c | none => t1.cfg
    stat := if r.auto then finc (fset t1.stat F.GAIN_STAT.AUTO_STEPPED 1) F.GAIN_STAT.AUTO_COUNT else t1.stat }
  t2.newWindow n

/-- A direct-lane request takes effect at sample index n. -/
def ThrLeg.takeDirect (t : ThrLeg) (r : GainRequest) (n : Nat) : ThrLeg := { t.takeCodes r n with direct := none }

/-- GAIN_CHANGE (R86, R89): the leg's armed coherent request, or its direct-lane request, takes effect at its sample index; an index inside a
calibration gap is first moved past the gap. -/
def execGainChange (leg : Fin 2) (direct : Bool) (s : State) : Res :=
  let t := s.thrLeg leg.val
  match (if direct then t.direct else t.pending) with
  | none => .next s
  | some r =>
    let n := s.gainIndex r.index
    let moved : Option GainRequest := some { r with index := n }
    if n != r.index then .next (s.setThrLeg leg.val (if direct then { t with direct := moved } else { t with pending := moved }))
    else .next ((s.untilTime (s.timeOfIndex n)).setThrLeg leg.val (if direct then t.takeDirect r n else t.takeGain r n))

/-- Frames of the lowest active slot launched on a leg so far. -/
def State.framesLaunched (s : State) (leg : Nat) : Nat := vget s.probe.frame leg 0 + (if vget s.probe.next leg 0 = 0 then 0 else 1)

/-- Frames of the present evaluation window of a leg (R88). -/
def State.windowFrames (s : State) (leg : Nat) : Nat := s.framesLaunched leg - s.frameFrom (s.timeOfIndex (s.thrLeg leg).winStart)

/-- A commanded change of a leg waits (R89 rule 1). -/
def State.gainWaiting (s : State) (leg : Nat) : Bool := (s.thrLeg leg).pending.isSome || s.fw.stamped.any (pickLeg cGainSet leg)

/-- The step of R88: none to hold. -/
def ThrLeg.decide (t : ThrLeg) : Option Bool :=
  if (t.ovr || 7373 ≤ t.peak) && fget t.cfg F.LEG_CFG.GAIN_MIN < t.coh then some false
  else if !t.ovr && t.peak < 1843 && t.coh < fget t.cfg F.LEG_CFG.GAIN_MAX then some true
  else none

/-- AUTO_GAIN_DECISION (R88 to R90): at the end of a window of 64 frames; a step takes effect at the next launch of the lowest active slot, where
the next window begins. -/
def execAutoGainDecision (leg : Fin 2) (s : State) : Res :=
  let t := s.thrLeg leg.val
  if !s.legOn leg.val || s.windowFrames leg.val < 64 then .next s
  else
    let n := s.indexOfTime (s.boundaryAhead (s.globalFrame (s.framesLaunched leg.val)))
    let ranging := fbit t.cfg F.LEG_CFG.AUTO && s.measuring && !s.replaying leg.val && !s.calibrating && !s.gainWaiting leg.val
    let t1 := t.newWindow n
    match (if ranging then t.decide else none) with
    | none => .next (s.setThrLeg leg.val t1)
    | some up =>
      let coh := if up then t.coh + 1 else t.coh - 1
      .next (s.setThrLeg leg.val { t1 with pending := some { index := n, coh := some coh, auto := true } })

/-! ### Housekeeping (R94, R95) -/

/-- Duration of an entry in 500 ns units: settling, conversions, and 8.5 µs of open-wire check. -/
def entryUnits (ent : Word) : Nat :=
  fget ent F.HK_ENT.SETTLE + 2 ^ fget ent F.HK_ENT.AVG + (if fget ent F.HK_ENT.PULL = 0 then 0 else 17)

/-- RESULT from the conversions of an entry (R94). -/
def hkResult (avg : Nat) (codes : List (Fin 4096)) : Nat :=
  let sum := codes.foldl (fun a c => a + c.val) 0
  if avg = 0 then sum else (sum + 2 ^ (avg - 1)) / 2 ^ avg

/-- The wire is found open (R95). -/
def wireOpen (pull check : Nat) : Bool := (pull == 1 && 0xFF0 ≤ check) || (pull == 2 && check ≤ 0xF)

/-- A result is stamped for the temperature channel of every live leg with the first trace of the lowest active row launched at or after it (R94), and kept with
those of the window to come. -/
def State.stampHk (m res : Nat) (s : State) : State :=
  [0, 1].foldl (fun t leg =>
    let f := t.frameAhead t.now
    let p := t.planOver f
    let b := p.bank.legBank leg
    if !t.probe.running || !b.on || t.replaying leg || !t.frameRuns f then t
    else
      let h := t.hall leg
      let r := h.raman
      let tr := p.trace leg b.lowest f
      let keep := if fbit r.stat F.RAMAN_STAT.RUNNING then r.hk else r.hk.filter (fun x => tr ≤ x.trace)
      t.setHall leg { h with raman := { r with hk := keep ++ [⟨tr, m, res % 8192⟩] } }) s

/-- The monitor compares a die-sensor result (R104): not within a gap, and in REST and its start not at all, where R107 compares at the first plan. -/
def State.monitor (ent : Word) (code : Nat) (s : State) : State :=
  match dieSensor ent with
  | none => s
  | some k =>
    if fbit s.trim.cfg F.TRIM_CFG.ENABLE && s.trim.gap.isNone && s.planRuns && s.trim.crossed k code then s.retrimDue s.now else s

/-- HK_ENTRY_CONVERSION (R94, R95, R104): the sequencer completes its next entry with these conversions and, with PULL, this open-wire conversion. OPEN
clears only at a check that finds the wire intact. -/
def execHkEntryConversion (codes : List (Fin 4096)) (check : Fin 4096) (s : State) : Res :=
  let h := s.thr.hk
  let m := h.next
  let ent := vget h.ent m 0
  let avg := fget ent F.HK_ENT.AVG
  let pull := fget ent F.HK_ENT.PULL
  if !s.power.front || !fbit h.cfg F.HK_CFG.ENABLE || codes.length != 2 ^ avg then .next s
  else
    let opened := pull != 0 && wireOpen pull check.val
    let code := if opened then (if pull = 1 then 0xFFF else 0) else hkResult avg codes
    let old := vget h.res m 0
    let flag := if pull = 0 then fbit old F.HK_RES.OPEN else opened
    let res := fset (fsetB (fset old F.HK_RES.RESULT code) F.HK_RES.OPEN flag) F.HK_RES.SWEEP h.count
    let units := h.units + entryUnits ent
    let last := fget h.cfg F.HK_CFG.COUNT ≤ m
    let ress := vset h.res m res
    let ress := if last then
        ⟨(ress.toArray.mapIdx (fun i w => if i ≤ m then fset w F.HK_RES.VALID 1 else w)), by simp⟩ else ress
    let h1 := { h with
      res := ress
      open_ := if opened then h.open_ ||| w32 (bit m) else h.open_
      units := if last then 0 else units
      sweep := if last then fset h.sweep F.HK_SWEEP.PERIOD units else h.sweep
      count := if last then (h.count + 1) % 65536 else h.count
      next := if last then 0 else m + 1 }
    let s1 := { s with thr := { s.thr with hk := h1 } }
    let anyOpen := ress.toList.any (fun w => fbit w F.HK_RES.OPEN)
    let s2 := s1.setCondition srcHkOpen anyOpen m
    let s3 := (s2.stampHk m res.toNat).monitor ent code
    let owed := last && s3.trim.refsOwed
    .next (if owed then s3.setTrim { s3.trim with ref := h1.dieCodes, refsOwed := false } else s3)

/-! ### Self-calibration (R92, R93) -/

/-- The leg of a lane (Table 5.2) and its place in LANE_STAT. -/
def laneLeg (k : Nat) : Nat := if k < 8 then k / 4 else (k - 8) / 2
def lanePlace (k : Nat) : Nat := if k < 8 then k % 4 else 4 + k % 2
/-- The lane at a place of a leg. -/
def laneOf (leg place : Nat) : Nat := if place < 4 then 4 * leg + place else 8 + 2 * leg + (place - 4)

/-- LANE_STAT.CAL_FAIL of a leg from the failed lanes. -/
def calFailBits (fails : List (Fin 12)) (leg : Nat) : Nat :=
  (List.range 6).foldl (fun a p => if fails.any (fun k => k.val == laneOf leg p) then a + 2 ^ p else a) 0

/-- Self-calibration starts as the front domain powers up (R92). -/
def State.startSelfCal (s : State) : State :=
  { s with thr := { s.thr with calUp := some s.time.up, stat := fset (fset s.thr.stat F.THR_STAT.ADC_CAL_DONE 0) F.THR_STAT.HK_CAL_DONE 0 } }

/-- The running long operation is CALIBRATE. -/
def State.runsCalibrate (s : State) : Bool := match s.fw.long with | some op => op.code == 0x058 | none => false

/-- A CALIBRATE that was told to abort ends at this boundary (R366): the front domain is off again. -/
def State.abortCalibrate (s : State) : Option State :=
  match s.fw.long with
  | some op =>
    if op.code == 0x058 && op.abort then
      some ({ s with power := { s.power with front := false }, thr := { s.thr with calUp := none } }.endLong ⟨.aborted, 0, 0xFF⟩ [])
    else none
  | none => none

/-- ADC_SELF_CALIBRATION_DONE (R92, R93): 4 ms after the front domain powered up; new factors of every lane, and the lanes that failed. -/
def execAdcSelfCalibrationDone (factors : List (List Word)) (fails : List (Fin 12)) (s : State) : Res :=
  match s.thr.calUp with
  | none => .next s
  | some u =>
    if fbit s.thr.stat F.THR_STAT.ADC_CAL_DONE then .next s
    else
      let s1 := s.untilUp (u + 4 * ms)
      let calf : Vector (Vector Word 48) 12 :=
        ⟨((List.range 12).map (fun k => fillVec (vget s1.thr.calf k (Vector.replicate 48 0)) ((factors[k]?).getD []) 48)).toArray, by simp⟩
      let leg (t : ThrLeg) (n : Nat) : ThrLeg := { t with lane := fset t.lane F.LANE_STAT.CAL_FAIL (calFailBits fails n) }
      let s2 := { s1 with thr := { s1.thr with
        calf, leg := #v[leg (s1.thrLeg 0) 0, leg (s1.thrLeg 1) 1], stat := fset s1.thr.stat F.THR_STAT.ADC_CAL_DONE 1 } }
      let s3 := fails.foldl (fun t k => t.report srcAdcCal k.val) s2
      match s3.abortCalibrate with
      | some t => .next t
      | none => .next (if s3.runsCalibrate then s3.progress 0x058 1 0 20 else s3)

/-- Step 2 of Sequence 23.2 begins once self-calibration has ended. -/
def State.afterSelfCal (s : State) : State :=
  if s.fw.optical = .selfCal then ({ s with fw := { s.fw with optical := .tecWait } }).afterTec else s

/-- HK_SELF_CALIBRATION_DONE (R92, R112): 12 ms later (after the delay sweep in a full calibration); the sequencer then sweeps (DEDUCED, log entry 18). -/
def execHkSelfCalibrationDone (s : State) : Res :=
  match s.thr.calUp with
  | none => .next s
  | some u =>
    if !fbit s.thr.stat F.THR_STAT.ADC_CAL_DONE || fbit s.thr.stat F.THR_STAT.HK_CAL_DONE then .next s
    else
      let s1 := s.untilUp (u + (if s.runsCalibrate then 1936 else 16) * ms)
      let hk := s1.thr.hk
      let s2 := { s1 with thr := { s1.thr with
        stat := fset s1.thr.stat F.THR_STAT.HK_CAL_DONE 1
        calUp := if s1.runsCalibrate then s1.thr.calUp else none
        hk := { hk with cfg := fset hk.cfg F.HK_CFG.ENABLE 1, next := 0, units := 0 } } }
      match s2.abortCalibrate with
      | some t => .next t
      | none => .next (if s2.runsCalibrate then s2.progress 0x058 1 0 9900 else s2.afterSelfCal)

/-! ### Retrims (R101 to R111, R114) -/

/-- A TRIM_CTRL write (R104, R114): REQ stands until its gap starts. -/
def State.requestTrim (w : Word) (s : State) : State :=
  if fbit w F.TRIM_CTRL.REQ then (s.setTrim { s.trim with req := true }).retrimDue s.now else s

/-- TRIM_REQ (R104): a TRIM_CTRL write. -/
def execTrimReq (w : Word) (s : State) : Res := .next (if s.power.front then s.requestTrim w else s)

/-- TRIM_DEFER_TICK (R106): the deferral counts down each second. -/
def execTrimDeferTick (s : State) : Res :=
  let n := s.trim.seconds
  .next (if n = 0 then s else s.setTrim { s.trim with defer := fset s.trim.defer F.TRIM_DEFER.SECONDS (n - 1) })

/-- CALIBRATION_GAP_START (R59, R103, R105, R108): a due retrim starts its gap at the next frame boundary, if that boundary allows it; after the last frame
of a plan that ends, at the boundary that ends the quiet interval. -/
def execCalibrationGapStart (s : State) : Res :=
  match s.gapBoundary s.now with
  | none => .next s
  | some t =>
    if !s.gapMayStart t then .next s
    else
      let s1 := s.untilTime t
      let tr := s1.trim
      let s2 := s1.setTrim { tr with due := none, req := false, gap := some { first := s1.indexOfTime t, time := t } }
      let day := (tr.starts.filter (fun u => s1.time.up < u + 86400 * sec)).length
      .next (if 24 ≤ day then s2.report srcRetrimRate 0 else s2)

/-- A quantity moved by a list of steps (0: -1, 1: hold, 2: +1) within a range, and whether a step would have left it (R102). -/
def moveWithin (lo hi : Int) : List (Fin 3) → Int → Int × Bool
  | [], v => (v, false)
  | m :: ms, v =>
    let w := v + (m.val : Int) - 1
    let inside := decide (lo ≤ w) && decide (w ≤ hi)
    let r := moveWithin lo hi ms (if inside then w else v)
    (r.1, r.2 || !inside)

/-- Factor j of a lane: half j mod 2 of word j / 2 (Table 5.7). -/
def factorOf (ws : Vector Word 48) (j : Nat) : Int := sx 16 (nbits (vget ws (j / 2) 0).toNat (16 * (j % 2)) 16)
def setFactor (ws : Vector Word 48) (j : Nat) (v : Int) : Vector Word 48 := vset ws (j / 2) (fset (vget ws (j / 2) 0) ⟨16 * (j % 2), 16⟩ (wrapTo 16 v))

/-- The threshold offsets 0 to 47 of a lane, each moved by one step of the list (R101, R103 step 3). -/
def moveOffsets (ws : Vector Word 48) (moves : List (Fin 3)) : Vector Word 48 × Bool :=
  ((moves.take 48).zipIdx).foldl (fun acc (m, j) =>
    let r := moveWithin (-32768) 32767 [m] (factorOf acc.1 j)
    (setFactor acc.1 j r.1, acc.2 || r.2)) (ws, false)

/-- A CAL record of the present factors (R113). -/
def State.calRecord (s : State) (t : Nat) : CalRecord :=
  { refs := s.trim.ref, taps := s.trim.dly, factors := s.thr.calf, time := t, fw := s.host.idFw, valid := true }

/-- Frames counted over all plans whose traces a gap can touch: up to the first that begins after it, of the plan before the one in force at the
earliest. -/
def State.gapFrames (s : State) (first : Nat) : List Nat :=
  let tUnits (b : Bank) : Nat := max 1 b.tUnits
  let past := match s.probe.past with | some p => p.base | none => s.probe.frameBase
  let shortest := (([s.probe.pending.map (·.bank), s.probe.past.map (·.bank)].filterMap id).map tUnits).foldl min (tUnits s.probe.active)
  let last := s.frameAhead (s.timeOfIndex (first + gapSamples))
  let n := gapSamples * 10 / shortest + 4
  (List.range (n + 1)).filterMap (fun i => if n - i ≤ last && past ≤ last - (n - i) then some (last - (n - i)) else none)

/-- A slot row's trace of frame f holds a CAL_GAP point of a gap (R109 to R111). -/
def State.gapHits (s : State) (leg slot first f : Nat) : Bool :=
  let p := s.planOver f
  let b := p.bank.legBank leg
  let detail := p.mode == modeDetail
  let point0 := s.indexOfTime (p.launchTime leg slot f) + 26 + b.headDelay
  p.fires leg slot && s.frameRuns f && decide (point0 ≤ first + gapSamples - 1 + 10) &&
    decide (first ≤ point0 + pointStep detail * (b.len - 1 + b.span detail slot))

/-- The traces of a slot row that hold a CAL_GAP point of a gap (R109 to R111): first and last, if any. The trace after the last that the gap touches
holds one too, unless the row starts afresh there. -/
def State.gapTraces (s : State) (leg slot first : Nat) : Option (Nat × Nat) :=
  let fs := (s.gapFrames first).filter (s.gapHits leg slot first)
  match fs.head?, fs.getLast? with
  | some a, some z =>
    let kept := (s.planOver (z + 1)).base == (s.planOver z).base && s.frameRuns (z + 1) && !(s.hall leg).reset
    some ((s.planOver a).trace leg slot a, (s.planOver z).trace leg slot (if kept then z + 1 else z))
  | _, _ => none

/-- Row entries of CAL_EVENT (Table 20.4): live legs, leg 0 first, slot row ascending. -/
def State.gapEntries (s : State) (first : Nat) : List (List Word) :=
  [0, 1].flatMap (fun leg =>
    if s.replaying leg then []
    else (List.range 8).filterMap (fun slot =>
      (s.gapTraces leg slot first).map (fun (a, z) => [w32 leg, w32 slot] ++ w64 a ++ w64 z)))

/-- CALIBRATION_GAP_END (R101 to R103, R111, R113): 1.2 ms after its start; `moves` holds per lane the 16 tap steps and the 48 offset steps that the
lane's measurements called for. -/
def execCalibrationGapEnd (moves : List (List (Fin 3) × List (Fin 3))) (s : State) : Res :=
  match s.trim.gap with
  | none => .next s
  | some g =>
    let s1 := s.untilTime (g.time + 10 * gapSamples)
    let lane (k : Nat) : List (Fin 3) × List (Fin 3) := (moves[k]?).getD ([], [])
    let taps := (List.range 12).map (fun k => moveWithin 0 255 ((lane k).1.take 16) (fget (vget s1.trim.dly k 0) F.DLY.TAP : Int))
    let offs := (List.range 12).map (fun k => moveOffsets (vget s1.thr.calf k (Vector.replicate 48 0)) (lane k).2)
    let out := (List.range 12).filter (fun k => ((taps[k]?).map (·.2)).getD false || ((offs[k]?).map (·.2)).getD false)
    let tr := s1.trim
    let stat := finc (if out.isEmpty then tr.stat else fset tr.stat F.TRIM_STAT.RANGE 1) F.TRIM_STAT.COUNT
    let tr1 := { tr with
      stat, gap := none, lastGap := some g.first, gapEndUp := some s1.time.up
      starts := (g.time - s1.time.epoch) :: tr.starts.filter (fun u => s1.time.up < u + 86400 * sec)
      dly := fillVec tr.dly (taps.map (fun t => w32 t.1.toNat)) 12
      ref := s1.thr.hk.dieCodes }
    let calf : Vector (Vector Word 48) 12 :=
      ⟨((List.range 12).map (fun k => ((offs[k]?).map (·.1)).getD (Vector.replicate 48 0))).toArray, by simp⟩
    let s2 := { s1 with thr := { s1.thr with trim := tr1, calf } }
    let s3 := { s2 with larder := { s2.larder with calLast := s2.calRecord (s2.now - 10), old := { s2.larder.old with calLast := s2.larder.calLast } } }.wrote calEntryBytes
    let es := s3.gapEntries g.first
    let s4 := s3.emitAt (some g.time) evCal (w64 g.time ++ [w32 es.length] ++ es.flatten)
    .next (out.foldl (fun t k => t.report srcTrimRange k) s4).watchWear

/-! ### Full calibration (R112) -/

/-- CALIBRATE_DONE (R112, R113): the delay sweep's optimum of every lane is set, the references are latched and CAL_BASE is journalled; the front domain
is powered down again. -/
def execCalibrateDone (taps : List (Fin 256)) (s : State) : Res :=
  if !s.runsCalibrate || !fbit s.thr.stat F.THR_STAT.HK_CAL_DONE then .next s
  else match s.abortCalibrate with
  | some t => .next t
  | none =>
    let tr := s.trim
    let dly := fillVec tr.dly (taps.map (fun t => w32 t.val)) 12
    let ends := (List.range 12).filter (fun k => let t := fget (vget dly k 0) F.DLY.TAP; t ≤ 16 || 239 ≤ t)
    let s1 := { s with thr := { s.thr with trim := { tr with dly, ref := s.thr.hk.dieCodes }, calUp := none } }
    let l := { s1.larder with calBase := s1.calRecord s1.now, old := { s1.larder.old with calBase := s1.larder.calBase } }
    let s2 := { s1 with larder := l, power := { s1.power with front := false } }.wrote calEntryBytes
    let s3 := if ends.isEmpty then s2 else s2.setTrim { s2.trim with stat := fset s2.trim.stat F.TRIM_STAT.RANGE 1 }
    let s4 := ends.foldl (fun t k => t.report srcTrimRange k) s3
    .next (s4.endLong ⟨.ok, 0, 0xFF⟩ ((List.range 12).flatMap (fun k => [vget dly k 0, w32 (ends.contains k).toNat])))

end Sys2Proof.Machine
end

