-- ==== Sys2Proof/Machine/Ptp.lean ====
section
/-! DEFINITION. The PTP port: time stamps, clocks compared, delay mechanisms, Sync exchanges (R274, R275). What R274 leaves to IEEE 1588-2019 is
PRESUMED (log entry 95). -/

namespace Sys2Proof.Machine

/-! ### Times -/

/-- The PTP port replaced. -/
def State.withPtp (p : PtpPort) (s : State) : State := { s with time := { s.time with ptp := p } }

/-- Device time in 2^-16 ns of the PTP timescale: 946,684,800 s on (R275). -/
def ptpTime (t : Nat) : Int := (t : Int) * 16384 + 946684800 * 1000000000 * 65536

/-- A start of frame delimiter's stamp, to 1.25 ns and corrected for the port's latency (R275): at reception the latency lies behind it, on
transmission before the line. -/
def State.ptpStamp (s : State) (send : Bool) (t : Nat) : Int :=
  let x := s.ethPort s.time.ptp.port
  let fast := fbit x.stat F.ETH_STAT.AT_25G
  let late : Int := Config.ptpLatency fast (fast && fbit x.cfg F.ETH_CFG.FEC) send
  ptpTime (t / 5 * 5) + 16384 * (if send then late else -late)

/-- An interval of 2^`log` s in units of 0.25 ns, for `log` from −7 on. -/
def ptpInterval (log : Int) : Nat := sec * 2 ^ (log + 7).toNat / 128

/-! ### Clocks -/

/-- The first number in which two lists differ is the smaller in the first. -/
def listBefore : List Nat → List Nat → Bool
  | a :: as, b :: bs => decide (a < b) || (a == b && listBefore as bs)
  | _, _ => false

/-- A clock comes before another in the default best master clock algorithm. -/
def clockBefore (a b : PtpClock) : Bool :=
  let f (c : PtpClock) := [c.priority1, c.clockClass, c.accuracy, c.variance, c.priority2, c.identity, c.steps]
  listBefore (f a) (f b)

/-- clockClass (Table 15.5): 6 locked to SRC 2 or 3, 7 in holdover within HOLD_MAX, 248 otherwise. -/
def State.clockClass (s : State) : Nat :=
  if s.time.holdUp.isSome then (if s.time.holdSeconds ≤ fget s.time.cfg F.TB_CFG.HOLD_MAX then 7 else 248)
  else if fbit s.time.timeStat F.TIME_STAT.LOCKED && (s.srcInUse == 2 || s.srcInUse == 3) then 6 else 248

/-- This device as a grandmaster: its identity is the EUI-64 of the port's MAC address. -/
def State.ownClock (s : State) : PtpClock :=
  let x := s.ethPort s.time.ptp.port
  let mac := if x.mac = 0 then x.fuse else x.mac
  { priority1 := 128, clockClass := s.clockClass, accuracy := 0xFE, variance := 0xFFFF, priority2 := 128
    identity := mac / 2 ^ 24 * 2 ^ 40 + 0xFFFE * 2 ^ 24 + mac % 2 ^ 24, steps := 0 }

/-! ### The port -/

/-- The port measures its link's delay with its peer, not the path's with the master. -/
def PtpPort.peer (p : PtpPort) : Bool := p.profile == 1

/-- The exchange under way, and what was learnt from it, are forgotten; a link's delay outlives a change of master. -/
def PtpPort.forget (p : PtpPort) : PtpPort :=
  { p with syncRun := 0, begun := none, ahead := none, asked := if p.peer then p.asked else none, delay := if p.peer then p.delay else none }

/-- The settings of TIME_CFG: another port, profile, domain or role starts the port anew. -/
def PtpPort.configure (p q : PtpPort) : PtpPort :=
  if p.port = q.port ∧ p.profile = q.profile ∧ p.domain = q.domain ∧ p.role = q.role then
    { p with logSync := q.logSync, logAnnounce := q.logAnnounce, receiptTimeout := q.receiptTimeout }
  else { port := q.port, profile := q.profile, domain := q.domain, logSync := q.logSync, logAnnounce := q.logAnnounce
         receiptTimeout := q.receiptTimeout, role := q.role, discarded := p.discarded }

/-- An option outside Table 15.5: a domain above 127, the other delay mechanism, or one that the message names. -/
def PtpPort.unsupported (p : PtpPort) (m : PtpMessage) : Bool :=
  decide (127 < m.domain.val) ||
  match m.body with
  | .unsupported => true
  | .delayReq | .delayResp _ _ => p.peer
  | .pdelayReq | .pdelayResp _ _ _ | .pdelayRespFollowUp _ _ => !p.peer
  | _ => false

/-- An Announce of another clock: one heard before within four announce intervals can become the master when it comes before the master so far, unless
this device's own clock may lead and comes before it. -/
def State.ptpAnnounce (src : Nat) (c : PtpClock) (utc : Int) (s : State) : State :=
  let p := s.time.ptp
  let up := s.time.up
  let known := p.heard.any (fun h => h.1 == src && decide (up ≤ h.2 + 4 * ptpInterval p.logAnnounce))
  let p1 := { p with heard := ((src, up) :: p.heard.filter (fun h => h.1 != src)).take 8 }
  let same := match p.master with | some (m, _) => m == src | none => false
  let best := same || match p.master with | some (_, q) => clockBefore c q | none => true
  if !(known || same) || !best || 255 ≤ c.steps then s.withPtp p1
  else if p.role == 1 && clockBefore s.ownClock c then s.withPtp { p1.forget with master := none, leads := true }
  else
    let p2 := if same then p1 else p1.forget
    s.withPtp { p2 with master := some (src, c), leads := false, announceUp := up, utcOffset := utc
                        syncUp := if same then p2.syncUp else up }

/-- A delay request leaves, as the port's mechanism has it. -/
def State.ptpAsk (s : State) : State :=
  let p := s.time.ptp
  (s.withPtp { p with asked := some (p.seq, s.ptpStamp true s.now), turned := none, seq := (p.seq + 1) % 65536 }).withEth
    { s.porch.eth with sent := s.porch.eth.sent ++ [.ptp p.port p.domain p.seq (if p.peer then .pdelayReq else .delayReq)] }

/-- A message answered. -/
def State.ptpAnswer (seq : Nat) (ms : List PtpSent) (s : State) : State :=
  s.withEth { s.porch.eth with sent := s.porch.eth.sent ++ ms.map (fun m => .ptp s.time.ptp.port s.time.ptp.domain seq m) }

/-- The uptimes at which Sync and Announce are missing, and which of the two comes first: a Sync that is missing already is not missed again. -/
def PtpPort.syncEnd (p : PtpPort) : Nat := p.syncUp + 4 * ptpInterval p.logSync
def PtpPort.announceEnd (p : PtpPort) : Nat := p.announceUp + p.receiptTimeout * ptpInterval p.logAnnounce
def PtpPort.syncFirst (p : PtpPort) : Bool := p.syncRun != 0 && decide (p.syncEnd < p.announceEnd)

/-- PTP gives the phase under SRC 4 and 5. -/
def State.usesPtp (s : State) : Bool := s.srcInUse == 4 || s.srcInUse == 5

/-- A Sync's receive time less its origin time is known: with the delay, a valid Sync exchange, whose offset is the phase error; the sixteenth in a
row makes PTP present (R271). The port asks for the delay again. -/
def State.ptpExchange (ahead : Int) (s : State) : State :=
  let p := { s.time.ptp with ahead := some ahead, begun := none }
  let t := match p.delay with
    | none => s.withPtp p
    | some d =>
      (s.withPtp { p with syncRun := p.syncRun + 1, offset := ahead - d }).timeStatus (fun u =>
        let v := if u.time.ptp.syncRun < 16 || fbit u.time.timeStat F.TIME_STAT.PTP_PRESENT then u
          else
            let w := u.setTimeStat F.TIME_STAT.PTP_PRESENT true
            if w.freqInput = 3 then w.leaveHoldover else w
        if fbit v.time.timeStat F.TIME_STAT.PTP_PRESENT && v.usesPtp then
          State.phaseGiven (divHalfAway (ahead - d) 16384) { v with time := { v.time with seconds := true } }
        else v)
  t.ptpAsk

/-- The mean path delay is known. -/
def State.ptpDelay (round : Int) (s : State) : State :=
  s.withPtp { s.time.ptp with asked := none, turned := none, delay := some (divHalfAway round 2) }

/-- A message of the port's domain, with an option of Table 15.5, is used. -/
def State.ptpTake (m : PtpMessage) (s : State) : State :=
  let p := s.time.ptp
  let t := s.ptpStamp false m.sfd
  let ofMaster := match p.master with | some (src, _) => src == m.source | none => false
  match m.body with
  | .announce c utc => s.ptpAnnounce m.source c utc
  | .sync twoStep origin =>
    let ahead := t - (origin * 65536 + m.correction)
    if !ofMaster then s
    else
      let s1 := s.withPtp { p with syncUp := s.time.up, begun := some (m.seq.val, t - m.correction) }
      if twoStep then s1 else s1.ptpExchange ahead
  | .followUp origin =>
    match p.begun with
    | some (seq, at_) => if ofMaster && seq == m.seq.val then s.ptpExchange (at_ - (origin * 65536 + m.correction)) else s
    | none => s
  | .delayReq => if p.leads then s.ptpAnswer m.seq.val [.delayResp m.source t m.correction] else s
  | .delayResp forUs receive =>
    match p.asked, p.ahead with
    | some (seq, sent), some ahead =>
      if forUs && ofMaster && seq == m.seq.val then s.ptpDelay (ahead + (receive * 65536 - m.correction - sent)) else s
    | _, _ => s
  | .pdelayReq => s.ptpAnswer m.seq.val [.pdelayResp m.source t, .pdelayRespFollowUp m.source (s.ptpStamp true s.now) m.correction]
  | .pdelayResp forUs twoStep receive =>
    match p.asked with
    | some (seq, sent) =>
      if !forUs || seq != m.seq.val then s
      else if twoStep then s.withPtp { p with turned := some (seq, t - sent + receive * 65536 - m.correction) }
      else s.ptpDelay (t - sent - m.correction)
    | none => s
  | .pdelayRespFollowUp forUs response =>
    match p.turned with
    | some (seq, turned) => if forUs && seq == m.seq.val then s.ptpDelay (turned - response * 65536 - m.correction) else s
    | none => s
  | .managementGet => s.ptpAnswer m.seq.val [.got m.source]
  | .unsupported => s

end Sys2Proof.Machine
end

