-- ==== Sys2Proof/Machine/TimeBase.lean ====
section
/-! DEFINITION. The meanings of the time base's, TIU's and tachs' events (chapter 15). -/

namespace Sys2Proof.Machine

/-- The time base replaced. -/
def State.withTime (t : TimeBase) (s : State) : State := { s with time := t }
/-- The TIU replaced. -/
def State.withTiu (t : Tiu) (s : State) : State := { s with tiu := t }
/-- A tach replaced. -/
def State.setTach (k : Nat) (t : Tach) (s : State) : State := { s with tach := vset s.tach k t }
/-- A tach's record. -/
def State.tachOf (s : State) (k : Nat) : Tach := vget s.tach k {}

/-- An ignored RWE write in the time base's block (R283). -/
def State.tbIgnored (flag : Bool) (offset : Nat) (s : State) : State :=
  if flag then s.withTime { s.time with stat := fset s.time.stat F.TB_STAT.WRITE_IGNORED 1, wi := w32 (offset % 4096) } else s

/-- TB_CFG and the PTP port take new values: a new source gives its first phase error under R270. -/
def State.takeTimeCfg (w : Word) (ptp : PtpPort) (s : State) : State :=
  s.timeStatus (fun u => (u.withTime { u.time with cfg := w, ptp }).judgeSource u.srcInUse)

/-- A TB_CFG word as a raw write leaves it: SRC 7 is refused, and SRC keeps its value (R269; DEDUCED, log entry 77). -/
def TimeBase.cfgWord (t : TimeBase) (w : Word) : Word :=
  if fget w F.TB_CFG.SRC = 7 then fset w F.TB_CFG.SRC (fget t.cfg F.TB_CFG.SRC) else w

/-- 50 ppm, 10 ppm and 1 ppm in TB_STEER units of 2^-40, rounded towards zero (R269). -/
def ppm50 : Int := 54975581
def ppm10 : Int := 10995116
def ppm1 : Int := 1099511

/-- A number held within ± a bound. -/
def clampAbs (b z : Int) : Int := max (-b) (min b z)

/-- TB_STEER as the loop writes it, at most ±50 ppm (R269). -/
def steerWord (z : Int) : Word := w32 (wrapTo 32 (clampAbs ppm50 z))

/-- TB_STEER as a raw write leaves it: within ±55,000,000 (Table 15.10; the bound for a word beyond it is DEDUCED, log entry 77). -/
def rawSteer (w : Word) : Word := w32 (wrapTo 32 (clampAbs 55000000 (sx 32 w.toNat)))

/-! ### Tachs -/

/-- The oldest launch stamp a snapshot may still be asked at (R280). -/
def State.oldestStamp (s : State) : Nat := s.halls.launches.foldl (fun m l => min m l.stamp) s.now

/-- Snapshots of tach `k` of traces launched at or after an edge are formed again with it (R279, R280). -/
def State.refreshSnapshots (k edge : Nat) (s : State) : State :=
  let th := s.tachOf k
  let f (l : Launch) : Launch := if edge ≤ l.stamp then { l with tach := vset l.tach k (th.snapshot l.stamp) } else l
  { s with halls := { s.halls with launches := s.halls.launches.map f } }

/-- An edge counts on tach `k`. -/
def State.tachCount (k stamp : Nat) (up : Bool) (s : State) : State :=
  (s.setTach k ((s.tachOf k).countEdge stamp up s.time.up s.oldestStamp)).refreshSnapshots k stamp

/-- The tach whose QUAD pair input `k` belongs to. -/
def State.quadOf (s : State) (k : Nat) : Option Nat :=
  let e := k / 2 * 2
  if fbit (s.tachOf e).cfg F.TACH_CFG.QUAD then some e else none

/-- TACH_EDGE (R278, R279, R280): input `k` shows `level` for `held` samples from device time `stamp`; `both`: the other input of its
pair changed at the same sample. A change held for FILT samples or fewer is rejected; stamps are multiples of 1.25 ns. -/
def execTachEdge (k : Fin 8) (level : Bool) (held stamp : Nat) (both : Bool) (s : State) : Res :=
  if !s.power.front then .next s
  else
    let stamp := stamp / 5 * 5
    let s := s.untilTime stamp
    let t := s.tachOf k.val
    let pair := s.quadOf k.val
    let cfgT := s.tachOf (pair.getD k.val)
    if held ≤ fget cfgT.cfg F.TACH_CFG.FILT then
      .next (s.setTach k.val { t with stat := finc t.stat F.TACH_STAT.REJECTED })
    else if t.level = level then .next s
    else
      let s1 := s.setTach k.val { t with level }
      match pair with
      | some e =>
        if !fbit cfgT.cfg F.TACH_CFG.ENABLE then .next s1
        else if both then
          let o := if k.val = e then e + 1 else e
          let s2 := s1.setTach o { s1.tachOf o with level := !(s1.tachOf o).level }
          let a := s2.tachOf e
          .next ((s2.setTach e { a with stat := fset a.stat F.TACH_STAT.QUAD_ERR 1 }).report srcTachQuad e)
        else
          let other := (s1.tachOf (if k.val = e then e + 1 else e)).level
          let aLeads := if k.val = e then level != other else level == other
          .next (s1.tachCount e stamp (aLeads == Config.quadUpWhenALeads))
      | none =>
        let edge := fget t.cfg F.TACH_CFG.EDGE
        let counts := edge == 2 || (edge == 0 && level) || (edge == 1 && !level)
        if fbit t.cfg F.TACH_CFG.ENABLE && counts then .next (s1.tachCount k.val stamp true) else .next s1

/-- TACH_STALL (R280): no counted edge for STALL_MS sets STOPPED. -/
def execTachStall (k : Fin 8) (s : State) : Res :=
  let t := s.tach[k]
  if !s.power.front || !fbit t.cfg F.TACH_CFG.ENABLE then .next s
  else
    let s1 := s.untilUp (t.sinceUp + fget t.stall F.TACH_STALL.STALL_MS * ms)
    .next (s1.setTach k.val { t with stat := fset t.stat F.TACH_STAT.STOPPED 1 })

/-- TACHk_CFG fields: QUAD is ZERO on odd k (Table 15.10). -/
def tachCfgKind (k : Nat) : RegKind :=
  if k % 2 = 0 then F.TACH_CFG.kind else { F.TACH_CFG.kind with rwe := F.TACH_CFG.kind.rwe &&& ~~~8#32 }

/-- A TACHk_CFG write (R280, R283): setting ENABLE clears COUNT and the edge history; firmware's copy follows (R281). EDGE 3 is refused: EDGE keeps its
value (log entry 96). -/
def State.writeTachCfg (k : Nat) (w : Word) (s : State) : State :=
  let t := s.tachOf k
  let was := fbit t.cfg F.TACH_CFG.ENABLE
  let w := if fget w F.TACH_CFG.EDGE = 3 then fset w F.TACH_CFG.EDGE (fget t.cfg F.TACH_CFG.EDGE) else w
  let r := regWrite (tachCfgKind k) was t.cfg w
  let t1 := { t with cfg := r.word, cfgCopy := r.word }
  let t2 := if !was && fbit r.word F.TACH_CFG.ENABLE then t1.enable s.time.up else t1
  ((s.setTach k t2).tbIgnored r.ignored (0x200 + 0x20 * k)).keepAltered r.keepAltered

/-- TACH_ENABLE (R280, R283): a TACHk_CFG word that sets ENABLE. -/
def execTachEnable (k : Fin 8) (w : Word) (s : State) : Res :=
  if !s.power.front then .next s else .next (s.writeTachCfg k.val w)

/-! ### PPS, REF_10M, PTP, discipline -/

/-- A PPS edge gives the second phase under SRC 2 and 3. -/
def State.usesPps (s : State) : Bool := s.srcInUse == 2 || s.srcInUse == 3

/-- PPS_EDGE (R270, R271): an edge stamped `stamp`. After lock one more than 1 µs off the second is rejected and counted, unless three edges agree
with one another. The edge marks the second once the epoch's seconds are known. -/
def execPpsEdge (stamp : Nat) (s : State) : Res :=
  let s := s.untilTime stamp
  let t := s.time
  let edges := (stamp :: t.ppsEdges).take 3
  let s1 := s.withTime { t with ppsEdges := edges }
  let err := secondError stamp
  if s.usesPps && fbit t.timeStat F.TIME_STAT.LOCKED && decide (4000 < err.natAbs) && !edgesAgree edges then
    .next (s1.withTime { s1.time with stat := finc s1.time.stat F.TB_STAT.PPS_REJECT })
  else
    .next (s1.timeStatus (fun u =>
      let v := u.withTime { u.time with ppsLast := stamp }
      let w := if fbit v.time.timeStat F.TIME_STAT.PPS_PRESENT || !edgesAgree edges then v
        else
          let x := v.setTimeStat F.TIME_STAT.PPS_PRESENT true
          if x.freqInput = 2 then x.leaveHoldover else x
      if w.usesPps && fbit w.time.timeStat F.TIME_STAT.PPS_PRESENT && w.time.seconds then w.phaseGiven err else w))

/-- PPS_MISSING (R271, R272): no accepted edge for 1.1 s. -/
def execPpsMissing (s : State) : Res :=
  if !fbit s.time.timeStat F.TIME_STAT.PPS_PRESENT then .next s
  else
    let s := s.untilTime (s.time.ppsLast + 4400000000)
    .next (s.timeStatus (fun u =>
      let u := (u.withTime { u.time with ppsEdges := [] }).setTimeStat F.TIME_STAT.PPS_PRESENT false
      if u.freqInput = 2 then u.enterHoldover else u))

/-- REF_10M_LOSS (R271, R272). -/
def execRef10mLoss (s : State) : Res :=
  .next (s.timeStatus (fun u =>
    let u := u.setTimeStat F.TIME_STAT.REF_PRESENT false
    if u.freqInput = 1 then u.enterHoldover else u))

/-- REF_10M_RETURN (R271, R272): edges continuous for 100 ms at a measured offset of `ppb`; within ±20 ppm the reference is present. -/
def execRef10mReturn (ppb : Int) (s : State) : Res :=
  if 20000 < ppb.natAbs then .next s
  else .next (s.timeStatus (fun u =>
    let u := u.setTimeStat F.TIME_STAT.REF_PRESENT true
    if u.freqInput = 1 then u.leaveHoldover else u))

/-- HOLDOVER_LIMIT (R272): the holdover seconds exceed HOLD_MAX. -/
def execHoldoverLimit (s : State) : Res :=
  match s.time.holdUp with
  | none => .next s
  | some u =>
    let s1 := s.untilUp (u + (fget s.time.cfg F.TB_CFG.HOLD_MAX + 1) * sec)
    .next (s1.setCondition srcTimeHoldoverLimit true 0)

/-- PTP_EVENT_MESSAGE (R271, R274, R275): what the selected Ethernet port receives while it runs and has link. A message of an option outside Table 15.5
is discarded and counted; one of another domain is not the port's. -/
def execPtpEventMessage (m : PtpMessage) (s : State) : Res :=
  let p := s.time.ptp
  let x := s.ethPort p.port
  if m.port.val != p.port || !fbit x.cfg F.ETH_CFG.ENABLE || !fbit x.stat F.ETH_STAT.LINK then .next s
  else
    let s := s.untilTime m.sfd
    .next (if p.unsupported m then s.withPtp { p with discarded := p.discarded + 1 } else if m.domain.val != p.domain then s else s.ptpTake m)

/-- PTP_TIMEOUT (R271, R272): whichever comes first, no valid Sync for 4 Sync intervals or no Announce of the selected master for the announce receipt
timeout. The latter drops the master, and a master-capable port then leads. -/
def execPtpTimeout (s : State) : Res :=
  let p := s.time.ptp
  let announce := !p.syncFirst
  let s := s.untilUp (if announce then p.announceEnd else p.syncEnd)
  .next (s.timeStatus (fun u =>
    let q := if announce then { p.forget with master := none, leads := p.role == 1 } else { p with syncRun := 0 }
    let v := (u.withPtp q).setTimeStat F.TIME_STAT.PTP_PRESENT false
    if v.freqInput = 3 then v.enterHoldover else v))

/-- The time constants of frequency and of phase of a source, in 0.1 s (Table 15.2; SRC 6: R335). -/
def loopTau (src : Nat) : Nat × Nat :=
  match src with
  | 1 | 2 | 5 => (100, 1000)
  | 6 => (1, 1)
  | _ => (1000, 1000)

/-- The frequency estimate after `dt`: it closes on the frequency that the input shows as a first-order loop does, by at most 1 ppm per second (R269; DEDUCED,
log entry 77). -/
def loopEstimate (tau est freq : Int) (dt : Nat) : Int :=
  let far := (freq - est) * min (dt : Int) (tau * 400000000)
  clampAbs ppm50 (est + clampAbs (ppm1 * dt / 4000000000) (divHalfAway far (tau * 400000000).toNat))

/-- The pull that removes a phase error (units of 0.25 ns) within the time constant, at most 10 ppm (R269, R270). -/
def loopPull (tau err : Int) : Int := clampAbs ppm10 (-divHalfAway (err * 2 ^ 40) (tau * 400000000).toNat)

/-- DISCIPLINE_UPDATE (R269, R272): after `elapsedMs` the loop takes the frequency that its input shows (TB_STEER units) and the phase error `err` (units of
0.25 ns; SRC 1 gives no phase), and says whether it is locked. The total correction is at most 50 ppm. SRC 0 and 7, holdover and TB_CFG.ENABLE = 0
leave TB_STEER alone. -/
def execDisciplineUpdate (freq err : Int) (elapsedMs : Nat) (locked : Bool) (s : State) : Res :=
  let s := s.pass (elapsedMs * ms)
  let src := s.srcInUse
  if !fbit s.time.cfg F.TB_CFG.ENABLE || src == 0 || src == 7 || s.time.holdUp.isSome then .next s
  else .next (s.timeStatus (fun u =>
    let t := u.time
    let est := loopEstimate (loopTau src).1 t.freqEst freq (t.up - t.loopUp)
    let pull := if src = 1 then 0 else loopPull (loopTau src).2 err
    let log := if locked then (t.up, est) :: t.freqLog.filter (fun e => t.up ≤ e.1 + 60 * sec) else t.freqLog
    u.withTime { t with freqEst := est, freqLog := log, steer := steerWord (est + pull), loopUp := t.up
                        timeStat := fsetB t.timeStat F.TIME_STAT.LOCKED locked }))

/-- TIME_STEP (R270): TB_CTRL.STEP loads TB_SET; refused while a plan runs. -/
def execTimeStep (s : State) : Res :=
  if s.planRuns then .next (s.withTime { s.time with stat := fset s.time.stat F.TB_STAT.STEP_REFUSED 1 })
  else .next (s.stepTime (s.time.setLo.toNat + 2 ^ 32 * s.time.setHi.toNat))

/-- PPS_OUT_PULSE (Table 15.1): PPS_OUT rises at the next device time that is a multiple of 4 × 10⁹. -/
def execPpsOutPulse (s : State) : Res :=
  let t := cdiv s.now sec * sec
  let s1 := s.pass (t - s.now)
  .next (s1.withTime { s1.time with ppsRise := some (t % 2 ^ 64) })

/-- TPLL_LOCK_CHANGE (Table 22.1): TCXO_LOSS holds while TPLL is unlocked. -/
def execTpllLockChange (locked : Bool) (s : State) : Res :=
  .next ((s.withTime { s.time with tpllLocked := locked }).setCondition srcTcxoLoss (!locked) 0)

/-- SAMPLE_PLL_LOCK_CHANGE (Table 22.1): SAMPLE_PLL holds while the sample PLL is unlocked. -/
def execSamplePllLockChange (locked : Bool) (s : State) : Res :=
  .next ((s.withTime { s.time with samplePllLocked := locked }).setCondition srcSamplePll (!locked) 0)

/-! ### TIU -/

/-- TIU_GO (R277): the interpolator is calibrated on 16 one-period and 16 two-period codes; a difference outside 1,000 to 1,600 fails.
A GO while BUSY, or with ENABLE = 0, is ignored. -/
def execTiuGo (one two : List Int) (s : State) : Res :=
  let t := s.tiu
  if !fbit t.cfg F.TIU_CFG.ENABLE || t.phase != .idle then .next s
  else
    let k1 := tiuMean one
    let k2 := tiuMean two
    let cal := fset (fset 0 F.TIU_CAL.K1 (wrapTo 16 k1)) F.TIU_CAL.K2 (wrapTo 16 k2)
    let t := { t with cal, goUp := s.time.up }
    let s1 := s.pass (20 * us)
    if k2 - k1 < 1000 ∨ 1600 < k2 - k1 then
      .next (((s1.withTiu { t with stat := fset t.stat F.TIU_STAT.CAL_FAIL 1 }).report srcTiuCal 0).tiuAnswer ⟨.ok, 0, 0xFF⟩)
    else
      .next (s1.withTiu { t with
        phase := .armed, stat := fset t.stat F.TIU_STAT.SEEN 0, res := Vector.replicate 8 0xFFFFFFFF })

/-- The measurement ends with its results (Sequence 15.1 step 7). -/
def State.tiuDone (s : State) : State :=
  (s.withTiu { s.tiu with phase := .idle, stat := fset s.tiu.stat F.TIU_STAT.DONE 1 }).tiuAnswer ⟨.ok, 0, 0xFF⟩

/-- A TIU source exists: sources 0 to 5 need the front and Hearth domains, 14 and 15 are none (R276). -/
def State.tiuSourceLive (s : State) (src : Nat) : Bool := decide (src < 14) && (decide (6 ≤ src) || (s.power.front && s.power.hearth))

/-- TIU_START_EVENT (R277): coarse count, code and device time are latched. -/
def execTiuStartEvent (count : Nat) (code : Int) (time : Nat) (s : State) : Res :=
  let t := s.tiu
  if t.phase != .armed || !s.tiuSourceLive (fget t.cfg F.TIU_CFG.START) then .next s
  else
    let s1 := s.untilTime time
    .next (s1.withTiu { t with phase := .running, startCount := count, startCode := code, startTime := time, startUp := s1.time.up })

/-- TIU_STOP_EVENT (R277): stop `j` takes the first event of its source at or after the start event, of the start's own source the next one; a result beyond
32 bits is out of range and not seen. -/
def execTiuStopEvent (j : Fin 8) (count : Nat) (code : Int) (s : State) : Res :=
  let t := s.tiu
  let src := nbits t.stopSel.toNat (4 * j.val) 4
  if t.phase != .running || decide (t.stops ≤ j.val) || nbit (fget t.stat F.TIU_STAT.SEEN) j.val || !s.tiuSourceLive src then .next s
  else
    let r := t.result count code
    if r < 0 ∨ 2 ^ 32 ≤ r ∨ (r = 0 ∧ src = fget t.cfg F.TIU_CFG.START) then .next s
    else
      let seen := fget t.stat F.TIU_STAT.SEEN + 2 ^ j.val
      let t1 := { t with res := vset t.res j.val (w32 r.toNat), stat := fset t.stat F.TIU_STAT.SEEN seen }
      let s1 := s.withTiu t1
      .next (if t1.allSeen then s1.tiuDone else s1)

/-- TIU_RANGE_END (R277): start + 4,194,304 ns; stops not seen keep all ones. -/
def execTiuRangeEnd (s : State) : Res :=
  if s.tiu.phase != .running then .next s
  else .next ((s.untilUp (s.tiu.startUp + 4 * 4194304)).tiuDone)

/-- TIU_NO_START (R277): no start within 1 s. -/
def execTiuNoStart (s : State) : Res :=
  if s.tiu.phase != .armed then .next s
  else
    let s1 := s.untilUp (s.tiu.goUp + 20 * us + sec)
    .next ((s1.withTiu { s1.tiu with phase := .idle, stat := fset s1.tiu.stat F.TIU_STAT.NO_START 1 }).tiuAnswer
      ⟨.noStart, 0, 0xFF⟩)

end Sys2Proof.Machine
end

