-- ==== Sys2Proof/Machine/Begin.lean ====
section
/-! DEFINITION. A plan begins: banks, numbering, rings, zones, triggers, Raman channels, journal (R33 to R36, R42, R57, R60 to R62, R107, R240, R253, R261, R298,
R336, R365, R394), and the rows at which one does: QUIET_INTERVAL_END, PROBE_START, JOURNALLED_PLAN_RESTART. -/

namespace Sys2Proof.Machine

/-! ### Its parts -/

/-- Table memories in use: the plan's own for every slot that it makes SOURCE = 1 (R50). -/
def PendingPlan.inUse (q : PendingPlan) (old : Vector (Vector SlotTable 8) 2) : Vector (Vector SlotTable 8) 2 :=
  let none_ : Vector SlotTable 8 := Vector.replicate 8 {}
  let at_ (leg slot : Nat) : SlotTable := vget (vget (if (q.bank.legBank leg).isTable slot then q.tables else old) leg none_) slot {}
  let row (leg : Nat) : Vector SlotTable 8 := ⟨((List.range 8).map (at_ leg)).toArray, by simp⟩
  #v[row 0, row 1]

/-- The scheduler takes the plan: banks swapped (R62), E (R42), frame 0 of the plan numbered `base` over all plans. `mode`: that of the plan before it. -/
def Probe.begin_ (p : Probe) (q : PendingPlan) (e base : Nat) (fresh : Bool) (mode : Nat) : Probe :=
  { p with
    active := { q.bank with e }, shadow := p.active, ngs := (insertNg (base, q.ng) p.ngs).take 16
    running := true, fresh, pending := none
    frame := Vector.replicate 2 0, next := Vector.replicate 2 0, planTrace := p.trace, frameBase := base
    past := some { base := p.frameBase, bank := p.active, planTrace := p.planTrace, mode }, inUse := q.inUse p.inUse }

/-- A leg's Raman channel starts with the plan, or stops (R57, R162, Table 2.3). -/
def State.ramanWithPlan (s : State) (leg : Nat) : State :=
  let b := s.legBank leg
  if s.measuring && b.on && b.ramanEn then s.ramanStartAt leg s.probe.frameBase (s.traceOf leg b.lowest 0) else s.ramanStop leg

/-- Playout index of the new plan's first frame in a stream whose launches follow the plan before it: the quiet interval passes in the stream as on the
device (R61, R99; DEDUCED, log entry 98). -/
def State.replayOriginAhead (s : State) (r : Replay) : Option (Nat × Nat) :=
  match r.origin, s.probe.past with
  | some (n0, k0), some p => some (n0 + (s.probe.frameBase - p.base + 1 - k0) * p.bank.tF, 0)
  | _, _ => none

/-- A leg's converters, Hall and map at the plan's first frame: LEGn_CFG.ENABLE, the ranging window (R88), the map's merged sample 0 (R199). -/
def State.legWithPlan (e : Nat) (halted : Bool) (s : State) (leg : Nat) : State :=
  let b := s.legBank leg
  let t := s.thrLeg leg
  let h := s.hall leg
  let m := vget s.loft.map leg {}
  let s1 := s.setThrLeg leg { t.newWindow (s.indexOfTime e) with cfg := fsetB t.cfg F.LEG_CFG.ENABLE b.on }
  let s2 := (s1.setHall leg { h with reset := false, ramanAgain := false, replay := { h.replay with origin := if halted then none else s.replayOriginAhead h.replay } }).hallWithPlan leg
  let base := if s.measuring && b.on then some (s.probe.frameBase, b, s.detail, s.probe.active.tF) else none
  (s2.withLoft { s2.loft with map := vset s2.loft.map leg { m with base, block := 1, group := 0, rows := [] } }).ramanWithPlan leg

/-- Zones: they restart (R240); on entry to SURVEY their bits fall too, and no version follows. -/
def State.zonesWithPlan (s : State) : State :=
  let base := s.probe.frameBase
  let s1 := s.restartZones base (fun _ => true)
  if s.measuring then
    s1.withLoft { s1.loft with cfg := fset s1.loft.cfg F.LOFT_CFG.ENABLE 1
                               vec := { s1.loft.vec with next := some (if s.probe.fresh then base else s1.loft.vec.next.getD base) } }
  else
    let s2 := (List.range 256).foldl (fun t z => (t.advanceZone z base).commitZone base z) s1
    s2.withLoft { s2.loft with vec := { s2.loft.vec with next := none, held := false } }

/-- A setting whose HOLD tracks the plan (R259). -/
def State.holdFor (s : State) (c : TrigConfig) : TrigConfig :=
  if c.holdMin then { c with hold := w32 (s.holdMin c s.probe.active % 2 ^ 24) } else c

/-- Trigger units: records end before the plan, units refill, resume or stop, and the minimum HOLD is recomputed (R259, R261). -/
def State.triggersWithPlan (fromSurvey : Bool) (s : State) : State :=
  let base := s.probe.frameBase
  let d : TrigDue := if !s.measuring then .stop true else if fromSurvey then .resume else .restart
  let t := s.trig.cutAll base
  let due (x : TrigUnit) : List (Nat × TrigDue) := x.due.map (fun e => match e.2 with | .config c => (e.1, .config (s.holdFor c)) | _ => e)
  { s with trig := { t with units := t.units.map (fun (x : TrigUnit) => { x with c := s.holdFor x.c, due := due x ++ [(base, d)] }) } }

/-- Regions 8 to 10 in 16 MiB units, one after the other from 2 GiB: REGION words (R298). -/
def regionWord (base size : Nat) : Word := fset (fset 0 F.REGION.BASE base) F.REGION.SIZE size
def mapBases (n8 n9 : Nat) : List Nat := [128, 128 + n8, 128 + n8 + n9]

/-- Sizes that MEM_MAP gave take effect with a measuring mode (R298). -/
def Cellar.takeMap (c : Cellar) : Cellar :=
  match c.nextMap with
  | none => c
  | some (a, b, d) =>
    let unit := 2 ^ 24
    { c with
      nextMap := none
      region := vset (vset (vset c.region 8 (regionWord 128 a)) 9 (regionWord (128 + a) b)) 10 (regionWord (128 + a + b) d)
      dec := { c.dec with base := (128 + a) * unit, size := b * unit, rows := [], index := [] }
      full := { c.full with base := (128 + a + b) * unit, size := d * unit, rows := [], index := [] } }

/-- The map of a capacity: above 2 GiB, 80 % to the full-rate ring, 10 % each to the decimated ring and the record store, in whole 256 MiB (R298). -/
def Cellar.defaultMap (c : Cellar) : Cellar :=
  let above := c.capacity - 2 ^ 31
  let tenths (k : Nat) : Nat := above * k / 10 / 2 ^ 28 * 16
  { c with nextMap := some (tenths 1, tenths 1, tenths 8) }.takeMap

/-- Firmware gives the Cellar its descriptor; another capacity is mapped anew (R285, R298). -/
def Cellar.describe (c : Cellar) (memDesc : Word) : Cellar :=
  let d := { c with memDesc }
  if memDescListed memDesc && d.capacity != c.capacity then d.defaultMap else d

/-- Each ring's frame index begins a new epoch at the plan's first frame (R253). -/
def Cellar.restartRings (c : Cellar) (base : Nat) : Cellar := { c with full := { c.full with epoch := base }, dec := { c.dec with epoch := base } }

/-- A retrim that is owed to the first plan after REST or a start (R107, R113); leaving REST waives the hold-off (R105). -/
def State.retrimWithPlan (e : Nat) (waive : Bool) (s : State) : State :=
  let tr := { s.trim with gapEndUp := if waive then none else s.trim.gapEndUp }
  let codes := s.thr.hk.dieCodes
  let moved := fbit tr.cfg F.TRIM_CFG.ENABLE && (List.range 4).any (fun k => tr.crossed k (fget (vget codes k 0) F.TRIM_REF.CODE))
  let s1 := s.setTrim { tr with planOwed := false }
  if tr.planOwed || moved then s1.retrimDue e else s1

/-- Bytes of a journalled plan: entry header, 564 bytes of plan in codewords, closing codeword (R420; DEDUCED, log entry 10). -/
def planEntryBytes : Nat := 608

/-- The plan is journalled (R394). -/
def State.journalPlan (q : PendingPlan) (s : State) : State :=
  if s.measuring then
    { s with fw := { s.fw with journal := some { q with atFrame := none } } }.wrote planEntryBytes
  else { s with fw := { s.fw with journal := none } }

/-! ### The beginning -/

/-- SURVEY follows SURVEY: the operation of the old one ends as that of the new one begins (R36). -/
def State.nextSurveyOp (s : State) : State :=
  match s.fw.surveyNext with
  | some op => (({ s.endSurveyOp with fw := { s.endSurveyOp.fw with long := some op, surveyNext := none } }).progress op.code 1 1 0)
  | none => s

/-- A plan begins at device time e (Table 2.3). `fromRest`: the device leaves REST or the start state; `halted`: no probe ran until now. -/
def State.planBegins (q : PendingPlan) (e : Nat) (fromRest halted : Bool) (s : State) : State :=
  let wasSurvey := s.fw.mode == modeSurvey
  let s := if q.mode = modeSurvey then s.nextSurveyOp else s.endSurveyOp
  let base := if halted then s.probe.frontier + 1 else s.globalFrame ((q.atFrame).getD 0)
  let fresh := halted || wasSurvey
  let s1 := { s with
    probe := s.probe.begin_ q e base fresh s.fw.mode
    fw := { s.fw with mode := q.mode, startState := false, optical := .running, opticalUp := s.time.up } }
  let s2 := if halted && !wasSurvey then (if fromRest then s1.discardRings else s1).retrimWithPlan e fromRest else s1
  let s3 := if s2.measuring then s2.withCellar (s2.cellar.takeMap.restartRings base) else s2
  let s4 := [0, 1].foldl (State.legWithPlan e halted) s3
  let s5 := (s4.zonesWithPlan).triggersWithPlan wasSurvey
  let s6 := if s5.measuring then s5
    else { s5 with fw := { s5.fw with surveyPartial := false
                                      survey := #v[{ on := s5.legOn 0, gain := 7 }, { on := s5.legOn 1, gain := 7 }] } }
  let s7 := ((if s6.measuring then s6 else (s6.surveyGain 0 7 (s6.indexOfTime e)).surveyGain 1 7 (s6.indexOfTime e)).journalPlan q).sendEpoch
  (if s7.measuring then s7.settleHeld else s7).summarise

/-! ### E of a plan that starts the probe -/

/-- The first boundary of a grid at or after a device time. -/
def gridFrom (e0 step t : Nat) : Nat := if t ≤ e0 then e0 else e0 + cdiv (t - e0) (max 1 step) * step

/-- E of a plan that starts no earlier than device time t: a multiple of 2.5 ns (R42), on the master's grid where this device follows one (R336). -/
def State.startE (s : State) (t : Nat) : Nat :=
  match s.cw.epoch with
  | some (e0, tF) => if s.cwRing && !s.cwMaster then gridFrom e0 (10 * tF) t else gridFrom 0 10 t
  | none => gridFrom 0 10 t

/-! ### The response (Table 20.6) -/

/-- The items of a response to a MODE_SET that starts a plan. -/
def State.modeItems (s : State) (b : Bank) (k : Option Nat) (e flags : Nat) : List Word :=
  let row (leg slot : Nat) : Nat := if (b.legBank leg).on && (b.legBank leg).active slot then s.firstTrace k leg slot else allOnes64
  let resp (leg : Nat) : Word :=
    let l := b.legBank leg
    if l.on then w32 (s.respAhead leg k l b.tF) else 0xFFFFFFFF
  w64 (row b.leader (b.legBank b.leader).lowest) ++ w64 (e % 2 ^ 64) ++ [resp 0, resp 1, w32 flags] ++
    (List.range 2).flatMap (fun leg => (List.range 8).flatMap (fun slot => w64 (row leg slot)))

/-- The items of a response to a MODE_SET to REST. -/
def restItems (eff : Nat) : List Word := w64 eff ++ w64 allOnes64 ++ [0xFFFFFFFF, 0xFFFFFFFF, 0] ++ List.replicate 32 0xFFFFFFFF

/-- The operation that entered SURVEY keeps its items until it ends (R366). -/
def State.keepItems (ws : List Word) (s : State) : State := { s with fw := { s.fw with long := s.fw.long.map (fun op => { op with words := ws }) } }

/-! ### Rows -/

/-- QUIET_INTERVAL_END (R33, R35, R61): the last frame before the effective one has been launched and one old T_f has passed; the new plan begins. -/
def execQuietIntervalEnd (s : State) : Res :=
  match s.probe.pending with
  | none => .next s
  | some q =>
    match q.atFrame with
    | none => .next s
    | some k =>
      if !s.probe.running || q.mode = 0 || !s.legsReached k then .next s
      else
        let e := s.nextE k
        .next ((s.untilTime e).planBegins q e false false)

/-- The probe starts after REST: the plan that waits begins at the next boundary, and the MODE_SET is answered; one to SURVEY when the survey ends. -/
def State.startProbe (q : PendingPlan) (s : State) : State :=
  let e := s.startE s.now
  let items := s.modeItems q.bank none e s.fw.flags
  let s1 := (s.untilTime e).planBegins q e true true
  if q.mode = modeSurvey then s1.keepItems items else s1.finishLong { status := .ok } items

/-- PROBE_START (R41, R410 step 4): the fades in have ended. -/
def execProbeStart (s : State) : Res :=
  match s.probe.pending with
  | none => .next s
  | some q => if s.fw.optical != .fadeIn || s.hearth.fading || s.safe then .next s else .next (s.startProbe q)

/-- JOURNALLED_PLAN_RESTART (R394): 8 frames after firmware is ready following a chip reset, the journalled plan and settings start anew. -/
def execJournalledPlanRestart (s : State) : Res :=
  match s.fw.journal with
  | none => .next s
  | some q =>
    if !s.boot.restartPlan || s.boot.phase != .ready || s.safe || !s.power.front then .next s
    else
      let e := s.startE (s.now + 8 * q.bank.tUnits)
      let s1 := { s with
        boot := { s.boot with restartPlan := false }
        fw := { s.fw with stamped := s.fw.stamped ++ s.fw.journalStamped, journalStamped := [] } }
      .next ((s1.untilTime e).planBegins q e false true)

end Sys2Proof.Machine
end

