-- ==== Sys2Proof/Machine/Images.lean ====
section
/-! DEFINITION. Boot images in the flash: the header and its check, staging, activation (R329, R366 to R369, R408, R409). -/

namespace Sys2Proof.Machine

/-! ### The flash (R329) and the image header (Table 23.2) -/

/-- Bytes of the flash; an erased byte reads 0xFF. -/
def Porch.flashRead (p : Porch) (a n : Nat) : List Byte := Mem.slice 0xFF p.flash a n

/-- Base and size of an image slot: 0 A, 1 B. -/
def slotBase (slot : Nat) : Nat := 0x01000000 * (slot + 1)
def slotSize : Nat := 0x01000000

/-- A field of a slot's image header. -/
def State.imageField (s : State) (slot at_ n : Nat) : Nat := leAt (s.porch.flashRead (slotBase slot) 128) at_ n

def State.imageVersion (s : State) (slot : Nat) : Word := w32 (s.imageField slot 4 4)
def State.imageRollback (s : State) (slot : Nat) : Nat := s.imageField slot 8 4
def State.imageBytes (s : State) (slot : Nat) : Nat := s.imageField slot 16 4

/-- MAGIC, BODY_BYTES and signature of a slot hold (R408). -/
def State.imageSigned (s : State) (slot : Nat) : Bool :=
  let body := s.imageField slot 12 4
  let base := slotBase slot
  s.imageField slot 0 4 == 0x4F4E4657 && decide (1 ≤ body) && decide (body ≤ 983040) &&
    Config.ed25519 Config.vendorKey (s.porch.flashRead base 64 ++ s.porch.flashRead (base + 128) body) (s.porch.flashRead (base + 64) 64)

/-- What is wrong with a slot's image: its signature, or a ROLLBACK below the Larder's counter (R408). -/
def State.imageFault (s : State) (slot : Nat) : Option Status :=
  if !s.imageSigned slot then some .imageSignature
  else if s.imageRollback slot < s.larder.rollback then some .rollback else none

/-- The boot ROM accepts a slot. -/
def State.imageGood (s : State) (slot : Nat) : Bool := (s.imageFault slot).isNone

/-- PREF: byte 0 of the flash header; any value but 1 is slot A. -/
def State.preferred (s : State) : Nat := if Mem.read 0xFF s.porch.flash 0 = 0x01 then 1 else 0

/-! ### FW_STAGE -/

/-- FW_STAGE: the chunk is programmed page by page. -/
def execFwStage (c : Fin 9) (s : State) : Res :=
  s.command { code := 0x088, l := true, k := true, r := true, lo := 3, hi := 3, bulk := 2 } c.val noLeg (fun cmd t =>
    let slot := cmd.p 0
    let offset := cmd.p 1
    let n := cmd.bulk.length
    if cmd.badItem 0 2 || 63 < cmd.p 2 || slotSize < offset + n then no .param
    else if n = 0 || 2 ^ 20 < n then no .bulk
    else
      match t.takeLock (wat cmd.w 2) with
      | .error e => .refuse e
      | .ok (t1, lock) =>
        let t2 := { t1 with porch := { t1.porch with flashWrite := some (slotBase slot + offset, cmd.bulk) } }
        .later (t2.startLong { cmd with w := cmd.w ++ [w32 n] } lock 0))

/-- Bytes that one page program takes from an address on: pages of 256 bytes. -/
def pageRoom (a : Nat) : Nat := 256 - a % 256

/-- The chunk is in the flash: bytes staged in the slot, counted anew from a chunk at offset 0, and the check of an image that it completes (Table 20.3). -/
def State.chunkStaged (op : LongOp) (s : State) : State :=
  let slot := (wat op.words 0).toNat
  let first := (wat op.words 1).toNat
  let upTo := max (if first = 0 then 0 else vget s.fw.staging.staged slot 0) (first + (wat op.words 3).toNat)
  let s1 := { s with
    porch := { s.porch with flashWrite := none }
    fw := { s.fw with staging := { s.fw.staging with staged := vset s.fw.staging.staged slot upTo } } }
  let complete := decide (s1.imageBytes slot ≤ upTo)
  match (if complete then s1.imageFault slot else none) with
  | some e => s1.endLong { status := e } []
  | none => s1.endLong { status := .ok } [w32 upTo]

/-- FLASH_WRITE_DONE: one page is programmed; a command told to abort ends here (R366). -/
def execFlashWriteDone (s : State) : Res :=
  match s.porch.flashWrite with
  | none => .next s
  | some (a, bs) =>
    let page := bs.take (pageRoom a)
    let rest := bs.drop (pageRoom a)
    let s1 := { s with porch := { s.porch with
      flash := Mem.writeN 0xFF s.porch.flash a page, flashWrite := if rest.isEmpty then none else some (a + page.length, rest) } }
    match s1.fw.long with
    | none => .next { s1 with porch := { s1.porch with flashWrite := none } }
    | some op =>
      if op.code != 0x088 then .next { s1 with porch := { s1.porch with flashWrite := none } }
      else if op.abort then .next ({ s1 with porch := { s1.porch with flashWrite := none } }.endLong { status := .aborted } [])
      else if rest.isEmpty then .next (s1.chunkStaged op)
      else
        let n := (wat op.words 3).toNat
        .next (s1.progress 0x088 1 0 (10000 * (n - rest.length) / max 1 n))

/-! ### FW_ACTIVATE (R369) -/

/-- FW_ACTIVATE: the image is checked; the Study then restarts into it with the mailbox block held in reset. -/
def execFwActivate (c : Fin 9) (s : State) : Res :=
  s.command { code := 0x089, l := true, k := true, r := true, lo := 1, hi := 1 } c.val noLeg (fun cmd t =>
    let slot := cmd.p 0
    if cmd.badItem 0 2 then no .param
    else
      match t.imageFault slot with
      | some e => no e
      | none =>
        let t1 := (t.startLong cmd none 0)
        let t2 := t1.resetStudy
        .later { t2 with boot := { t2.boot with activate := some slot }, fw := { t2.fw with long := t1.fw.long } })

end Sys2Proof.Machine
end

