-- ==== Sys2Proof/Machine/SelfTest.lean ====
section
/-! DEFINITION. Self-test, DRAM training and shutdown (R296, R297, R366, R412, R414 to R418). -/

namespace Sys2Proof.Machine

/-! ### Spares (R417) -/

/-- A failing bit: memory, word address, bit. -/
abbrev BitAt := Nat × Nat × Nat

/-- A repair covers a bit of its macro: its whole row, or its whole column. -/
def Repair.covers (r : Repair) (b : BitAt) : Bool := r.memory == b.1 && (if r.row then r.word == b.2.1 else r.bit == b.2.2)

/-- The lowest free spare of a macro: 4 rows, 2 columns. -/
def freeSpare (used : List Repair) (memory : Nat) (row : Bool) : Option Nat :=
  (List.range (if row then 4 else 2)).find? (fun i => !used.any (fun r => r.memory == memory && r.row == row && r.spare == i))

/-- Columns of a macro that fail in two or more rows take free spare columns, in rising order. -/
def spareColumns (bits : List BitAt) : List BitAt → List Repair → List Repair
  | [], used => used
  | b :: rest, used =>
    let twice := bits.any (fun x => x.1 == b.1 && x.2.2 == b.2.2 && x.2.1 != b.2.1)
    match freeSpare used b.1 false with
    | some i => spareColumns bits rest (if twice && !used.any (fun r => r.covers b) then used ++ [⟨b.1, b.2.1, b.2.2, false, i⟩] else used)
    | none => spareColumns bits rest used

/-- Rows that still hold a failing bit take free spare rows, in rising order. -/
def spareRows : List BitAt → List Repair → List Repair
  | [], used => used
  | b :: rest, used =>
    match freeSpare used b.1 true with
    | some i => spareRows rest (if used.any (fun r => r.covers b) then used else used ++ [⟨b.1, b.2.1, b.2.2, true, i⟩])
    | none => spareRows rest used

/-- A failing bit goes before the first whose key is not lower. -/
def insertBit (key : BitAt → Nat) (x : BitAt) : List BitAt → List BitAt
  | [] => [x]
  | y :: ys => if key x ≤ key y then x :: y :: ys else y :: insertBit key x ys

/-- Failing bits by rising key. -/
def sortBits (key : BitAt → Nat) (bits : List BitAt) : List BitAt := bits.foldr (insertBit key) []

/-- The spares in use after a slice: the macros' failing bits, sorted, against those in use before. -/
def allocateSpares (bits : List BitAt) (used : List Repair) : List Repair :=
  spareRows (sortBits (fun b => b.2.1) bits) (spareColumns bits (sortBits (fun b => b.2.2) bits) used)

/-! ### A BIST run -/

/-- The tested memories have lost their contents (R416). -/
def State.wipeTested (s : State) : State :=
  let hall (x : Hall) : Hall :=
    { x.discard.clearRows with reset := false, replay := {}, chain := { x.discard.chain with loc := [], recent := [], m := 0, resets := [] } }
  let cell (c : Cell) : Cell := { image := c.image, stat := c.stat }
  { s with halls := { s.halls with leg := s.halls.leg.map hall }, loft := { s.loft.halt with cell := s.loft.cell.map cell } }

/-- A run begins: its domains are powered. -/
def State.startBist (budget : Nat) (s : State) : State :=
  let s1 := s.powerFront
  let b : Bist := { running := true, budgetMs := budget, background := s1.boot.bist.background }
  { s1 with power := { s1.power with loft := true }, boot := { s1.boot with bist := b } }

/-- A word of the BIST_FAIL entry: word address, bit, REPAIR_EXHAUSTED (Table 20.7). -/
def failWord (w b : Nat) (ok : Bool) : Nat := w % 2 ^ 20 + 2 ^ 20 * (b % 256) + (if ok then 0 else 2 ^ 28)

/-- What a run reports: failing bits, each with its memory, and the spares allocated. -/
def Bist.items (b : Bist) : List Word :=
  [w32 b.failing.length] ++ (b.failing.take 1900).flatMap (fun f => [w32 f.1, w32 (failWord f.2.1 f.2.2.1 f.2.2.2)]) ++ [w32 b.repaired.length]

/-- A run ends: the failing bits are logged and the repair set is written as one entry (R418). -/
def State.endBist (s : State) : State :=
  let b := s.boot.bist
  let s1 := b.failing.foldl (fun (t : State) f => t.logEvent 3 f.1 (failWord f.2.1 f.2.2.1 f.2.2.2)) s
  let all := (s1.larder.repairs ++ b.repaired).take 4096
  let s2 := { s1 with larder := { s1.larder with repairs := all, old := { s1.larder.old with repairs := s1.larder.repairs } } }.wrote (repairEntryBytes all.length)
  { s2 with boot := { s2.boot with bist := { b with running := false } } }.watchWear

/-- BIST (R366, R416): a budget that holds no slice ends at once. -/
def execBist (c : Fin 9) (s : State) : Res :=
  s.command { code := 0x090, l := true, r := true, lo := 2, hi := 2 } c.val noLeg (fun cmd t =>
    if 63 < cmd.p 1 then no .param
    else
      match t.takeLock (wat cmd.w 1) with
      | .error e => .refuse e
      | .ok (t1, lock) =>
        if cmd.p 0 < 20 then
          .later ((t1.startLong cmd lock 0).endLong { status := .ok } ({ : Bist }).items)
        else .later ((t1.startLong cmd lock 0).startBist (cmd.p 0)))

/-! ### SHUTDOWN -/

/-- Blocks that a stream has not delivered. -/
def Stream.undelivered (t : Stream) : Nat := t.ready.length + t.staged.length + (if fbit t.stat F.STR_STAT.RUNNING && !t.endMade then 1 else 0)

/-- Steps 5 and 6 of R414: SHUTDOWN_OK, power-down, the response, POWER_OFF_OK. The response follows the self-test's items with the count of blocks not
delivered per stream. -/
def State.powerOff (op : LongOp) (s : State) : State :=
  let items := s.boot.bist.items ++ op.words.drop 1
  let s1 := s.logEvent 2 0 0
  let s2 := { s1 with
    power := { s1.power with front := false, loft := false, hearth := false, cellar := false }
    hearth := { s1.hearth with tecOn := false }
    cellar := { s1.cellar with cfg := fset s1.cellar.cfg F.CELLAR_CFG.ENABLE 0 }
    cw := { s1.cw with cfg := fset s1.cw.cfg F.CW_CFG.ENABLE 0, members := [], stable := false, ring := [] }
    fw := { s1.fw with optical := .idle, startState := false, shut := true }
    boot := { s1.boot with pwrCtrl := fset s1.boot.pwrCtrl F.PWR_CTRL.POWER_OFF_OK 1 } }
  s2.finishLong { status := .ok } items

/-- The self-test's budget that a SHUTDOWN carries, 2,000 ms where it carries none (R414). -/
def shutdownBudget (ws : List Word) : Nat := match ws with | [] => 2000 | w :: _ => w.toNat

/-- Streams are drained: self-test within the budget, or steps 5 and 6 at once (R414 step 4, R415). -/
def State.drained (op : LongOp) (s : State) : State :=
  let budget := shutdownBudget op.words
  let op1 := { op with words := [w32 budget] ++ s.streams.str.toList.map (fun t => w32 t.undelivered), step := 1 }
  let s1 := ({ s with fw := { s.fw with long := some op1, optical := .idle }, boot := { s.boot with bist := { background := s.boot.bist.background } } }).progress 0x098 1 0 2000
  if s1.safe || budget < 20 then s1.powerOff op1 else s1.startBist budget

/-- SHUTDOWN (R414, R415): it begins at once, or when the operation that it ends has reached its next boundary. -/
def execShutdown (c : Fin 9) (s : State) : Res :=
  s.command { code := 0x098, l := true, lo := 0, hi := 1 } c.val noLeg (fun cmd t =>
    if 30000 < cmd.p 0 then no .param
    else if t.fw.down.isSome then no .busy
    else
      let op : LongOp := { code := cmd.code, tag := cmd.tag, carrier := cmd.carrier, udp := cmd.udp, lock := none, words := cmd.w }
      match t.fw.long with
      | none => .later (t.beginShutdown op)
      | some run =>
        if run.code = cModeSet then .later (t.endForShutdown.beginShutdown op)
        else .later { t with fw := { t.fw with long := some { run with abort := true }, down := some op } })

/-- SHUTDOWN_DRAIN_DONE (R414 step 3): every record is copied and every END block delivered, or 5 s have passed. -/
def execShutdownDrainDone (s : State) : Res :=
  match s.fw.long with
  | none => .next s
  | some op =>
    if op.code != 0x098 || s.fw.optical != .draining then .next s
    else
      let waits := !s.trig.fired.isEmpty || s.streams.str.toList.any (fun t => fbit t.stat F.STR_STAT.RUNNING)
      .next ((if waits then s.untilUp (s.fw.opticalUp + 5 * sec) else s).drained op)

/-! ### BIST_SLICE_DONE -/

/-- One slice: failing bits recorded, spares allocated, cursor advanced; the background changes with the pass. -/
def State.slice (fails : List FailingBit) (s : State) : State :=
  let b := s.boot.bist
  let bits : List BitAt := (fails.map (fun f => (f.memory.val, f.word.val, f.bit.val))).filter (fun x => !b.failing.any (fun f => (f.1, f.2.1, f.2.2.1) == x))
  let before := s.boot.fuses ++ s.larder.repairs ++ b.repaired
  let after := allocateSpares bits before
  let cursor := (s.larder.cursor + 1) % 96
  let b1 := { b with
    usedMs := b.usedMs + 20
    background := if cursor = 0 then (b.background + 1) % 4 else b.background
    failing := b.failing ++ bits.map (fun x => (x.1, x.2.1, x.2.2, after.any (fun r => r.covers x)))
    repaired := b.repaired ++ after.drop before.length }
  { s.wipeTested with larder := { s.larder with cursor }, boot := { s.boot with bist := b1 } }

/-- Domains that a run of the BIST command powered are off again in REST. -/
def State.afterBist (s : State) : State :=
  if s.fw.startState || s.fw.optical != .idle || s.safe then s else { s with power := { s.power with front := false, loft := false } }

/-- The progress a run reports after a slice, in ten-thousandths: of the whole, or of the part of a SHUTDOWN that follows its drain. -/
def State.bistProgress (op : LongOp) (s : State) : State :=
  let b := s.boot.bist
  if op.code == 0x098 then s.progress 0x098 1 0 (2000 + 8000 * b.usedMs / max 1 b.budgetMs)
  else s.progress op.code 1 0 (10000 * b.usedMs / max 1 b.budgetMs)

/-- Whether another slice follows: 20 ms of the budget remain and no abort is asked for (R416). -/
def State.bistGoesOn (op : LongOp) (s : State) : Bool :=
  s.boot.bist.usedMs + 20 ≤ s.boot.bist.budgetMs && !op.abort

/-- A shutdown's complete run leaves no result stale. -/
def State.freshBist (s : State) : State :=
  { s with
    larder := { s.larder with bistStale := false }
    host := { s.host with idStat := fset s.host.idStat F.ID_STAT.BIST_STALE 0 }
    boot := { s.boot with bistStat := fset s.boot.bistStat F.BIST_STAT.STALE 0 } }

/-- What follows the run's last slice: the shutdown goes on to power off, or the BIST command is answered. -/
def State.bistOver (op : LongOp) (s : State) : State :=
  if op.code == 0x098 then s.freshBist.powerOff op
  else s.afterBist.endLong { status := if op.abort then .aborted else .ok } s.boot.bist.items

/-- A slice of 20 ms has ended with these bits failing. -/
def State.bistSliced (fails : List FailingBit) (op : LongOp) (s : State) : State :=
  let t := (s.pass (20 * ms)).slice fails
  if t.bistGoesOn op then t.bistProgress op else (t.bistProgress op).endBist.bistOver op

/-- BIST_SLICE_DONE (R416, R417): a slice of 20 ms ends; a run ends once less than 20 ms of its budget remain, or at an abort. -/
def execBistSliceDone (fails : List FailingBit) (s : State) : Res :=
  match s.fw.long with
  | none => .next s
  | some op => if !s.boot.bist.running then .next s else .next (s.bistSliced fails op)

/-! ### DRAM training (R296, R297) -/

/-- Training begins: the stored result is tried where it fits the memory fitted, unless full training is asked for. -/
def State.startTraining (full : Bool) (s : State) : State :=
  let stored := match s.larder.dramTrain with | some d => d.memDesc == s.cellar.memDesc | none => false
  { s with
    cellar := { s.cellar with cfg := fset s.cellar.cfg F.CELLAR_CFG.ENABLE 0
                              stat := fset (fset s.cellar.stat F.CELLAR_STAT.TRAINED 0) F.CELLAR_STAT.FROM_STORE 0 }
    boot := { s.boot with training := some (s.time.up, full || !stored) } }

/-- TRAIN. -/
def execTrain (c : Fin 9) (s : State) : Res :=
  s.command { code := 0x091, l := true, r := true, lo := 1, hi := 1 } c.val noLeg (fun cmd t =>
    if 1 < cmd.p 0 then no .param
    else if !memDescListed t.cellar.memDesc then no .memFault
    else .later ((t.startLong cmd none 0).startTraining (cmd.p 0 == 1)))

/-- The Cellar runs on the settings that training found. -/
def State.trained (phy : Vector Phy 4) (fromStore : Bool) (s : State) : State :=
  let c := s.cellar
  { s with
    cellar := { c with
      phy, cfg := fset c.cfg F.CELLAR_CFG.ENABLE 1, scrubUp := s.time.up
      stat := fsetB (fset c.stat F.CELLAR_STAT.TRAINED 1) F.CELLAR_STAT.FROM_STORE fromStore }
    boot := { s.boot with training := none } }

/-- The training command, if it runs, is told to abort. -/
def State.trainAborts (s : State) : Bool := match s.fw.long with | some op => op.code == 0x091 && op.abort | none => false

/-- A TRAIN command that runs is answered. -/
def State.answerTrain (e : Err) (extra : List Word) (s : State) : State :=
  match s.fw.long with
  | some op => if op.code = 0x091 then s.endLong e ([s.cellar.stat] ++ extra) else s
  | none => s

/-- Detail byte of DRAM_TRAIN: bit of the channel in [6:0], channel in [7]; the response gives the rank as well. -/
def trainDetail (f : Fin 2 × Fin 2 × Fin 72) : Nat := f.2.2.val + 128 * f.1.val

/-- TRAINING_DONE (R297): the stored result is confirmed after 25 ms, or full training follows; full training ends after 450 ms with the settings `phy`, or with
the bit that fails verification. -/
def execTrainingDone (phy : Vector Phy 4) (fail : Option (Fin 2 × Fin 2 × Fin 72)) (s : State) : Res :=
  match s.boot.training with
  | none => .next s
  | some (u, full) =>
    let s1 := s.untilUp (u + (if full then 450 else 25) * ms)
    if s1.trainAborts then .next ({ s1 with boot := { s1.boot with training := none } }.answerTrain { status := .aborted } [])
    else if !full then
      match fail, s1.larder.dramTrain with
      | none, some d => .next ((s1.trained d.phy true).answerTrain { status := .ok } [])
      | _, _ => .next { s1 with boot := { s1.boot with training := some (s1.time.up, true) } }
    else
      match fail with
      | none =>
        let d : DramTrain := { memDesc := s1.cellar.memDesc, phy }
        let s2 := { s1 with larder := { s1.larder with dramTrain := some d, old := { s1.larder.old with dramTrain := s1.larder.dramTrain } } }.wrote trainEntryBytes
        .next ((s2.trained phy false).answerTrain { status := .ok } [])
      | some f =>
        let s2 := ({ s1 with boot := { s1.boot with training := none } }).report srcDramTrain (trainDetail f)
        .next (s2.answerTrain { status := .memFault } [w32 f.1.val, w32 f.2.1.val, w32 f.2.2.val])

end Sys2Proof.Machine
end

