-- ==== Sys2Proof/Machine/Boot.lean ====
section
/-! DEFINITION. Power-up, start-up and the always-on monitors (R113, R285, R297, R344, R387, R388, R394, R395, R398, R399, R402 to R409, R418 to R420); the
meaning of a fault report. -/

namespace Sys2Proof.Machine

/-! ### Reports (R387 to R389, R420) -/

/-- An uncorrectable codeword lies in a live record: it falls back to its previous entry, or to its default (R420). -/
def Larder.fallBack (r : LarderRecord) (l : Larder) : Larder :=
  match r with
  | .calBase => { l with calBase := l.old.calBase, old := { l.old with calBase := {} } }
  | .calLast => { l with calLast := l.old.calLast, old := { l.old with calLast := {} } }
  | .dramTrain => { l with dramTrain := l.old.dramTrain, old := { l.old with dramTrain := none } }
  | .repair => { l with repairs := l.old.repairs, old := { l.old with repairs := [] } }
  | .rollback => { l with rollback := l.old.rollback, old := { l.old with rollback := 0 } }
  | .faultCfg => { l with faultCfg := l.old.faultCfg, old := { l.old with faultCfg := [] } }
  | .other => l

/-- Sources whose cause is a level (Table 22.1). -/
def levelSources : List Nat :=
  [srcTecSensor, srcIlock, srcHearthHot, srcHkOpen, srcSamplePll, srcRamanRef, srcI2cBus, srcEthLink, srcCausewayLink, srcRingSize, srcTimeHoldover,
   srcTimeHoldoverLimit, srcTimeOffset, srcTcxoLoss, srcRailLow, srcRailHigh, srcDieHot, srcDieCrit, srcLarderWear]

/-- What a report changes before it is counted: the condition of an L source, the record of a LARDER_UNCORR. -/
def State.noteReport (r : FaultReport) (s : State) : State :=
  let n := r.source.val
  if levelSources.contains n then
    let f := s.source n
    s.setSource n { f with cond := r.holds, detail := if r.holds then r.detail.val else f.detail }
  else if n = srcLarderUncorr then
    { s with larder := s.larder.fallBack r.record, boot := { s.boot with larderStat := fset s.boot.larderStat F.LARDER_STAT.UNCORR 1 } }
  else s

/-- A report is an occurrence: every report of an E source, the rise of an L source's condition once the collector watches (R387). -/
def State.isOccurrence (s : State) (r : FaultReport) : Bool :=
  if levelSources.contains r.source.val then r.holds && !(s.source r.source.val).cond && s.fc.watching else r.source.val != srcCollectorCfg

/-- The reports of one always-on cycle. -/
def State.takeReports (rs : List FaultReport) (s : State) : State :=
  let occ := rs.filter s.isOccurrence
  (rs.foldl (fun (t : State) r => t.noteReport r) s).reportAll (occ.map (fun r => (r.source.val, r.detail.val)))

/-- FAULT_OCCURRENCE (R389, R391 to R396): the reports that reach the collector in one always-on cycle. -/
def execFaultOccurrence (rs : List FaultReport) (s : State) : Res := .next (s.takeReports rs)

/-- COLLECTOR_CFG_CHECK (R398): the two copies are compared; a mismatch or code error raises COLLECTOR_CFG at once. -/
def execCollectorCfgCheck (bad : Bool) (s : State) : Res :=
  if !bad || !s.fc.watching then .next s
  else .next (({ s with fc := { s.fc with corrupt := true, stat := fset s.fc.stat F.FC_STAT.CFG_ERR 1 } }).report srcCollectorCfg 0)

/-- WATCHDOG (R388): firmware has not served the watchdog for 100 ms. -/
def execWatchdog (s : State) : Res :=
  if s.boot.phase != .firmware && s.boot.phase != .ready then .next s
  else
    let s1 := s.untilUp (s.boot.watchdogUp + 100 * ms)
    .next ({ s1 with boot := { s1.boot with watchdogUp := s1.time.up } }.report srcWatchdog 0)

/-- A sample of a comparator as a report of its source: the detail byte while its condition holds. -/
def sampled (n : Fin 128) (c : Option (Fin 256)) : FaultReport := { source := n, detail := c.getD 0, holds := c.isSome, record := .other }

/-- RAIL_DIE_SAMPLE (R388, R404): rail low, rail high, die at 105 °C, die at 115 °C, drive stage at 125 °C, each with the detail byte of its sensor while it
holds. -/
def execRailDieSample (low high hot crit drive : Option (Fin 256)) (s : State) : Res :=
  .next (s.takeReports [sampled 0x0A drive, sampled 0x70 low, sampled 0x71 high, sampled 0x72 hot, sampled 0x73 crit])

/-! ### Power (R402 to R404) -/

/-- The whole device as at power-on: the Larder, the flash and the fuses keep what they hold (R34, R403, R404, R419); ILOCK_N keeps its level. -/
def State.powerReset (good : Bool) (s : State) : State :=
  let z := State.reset
  let t := { z with
    pending := s.pending, free := s.free
    larder := { s.larder with udpSeq := [], dayUp := 0 }
    boot := { z.boot with railsGood := good, fuses := s.boot.fuses }
    host := { z.host with serial := s.host.serial }
    porch := { z.porch with flash := s.porch.flash } }
  if s.hearth.ilockLow then t
  else
    { t with hearth := { t.hearth with stat := fset t.hearth.stat F.HEARTH_STAT.ILOCK_LEVEL 1 } }.setSource srcIlock { t.source srcIlock with cond := false }

/-- RAILS_GOOD (R403): every rail has reached 94 % with RESET_N high. -/
def execRailsGood (s : State) : Res :=
  .next (if s.boot.phase == .off then { s with boot := { s.boot with railsGood := true } } else s)

/-- RESET_N_LOW (R403): a low of 1 µs or more. Power-on reset is released 2 ms after the next rails good. -/
def execResetNLow (s : State) : Res := .next (s.powerReset false)

/-- RAIL_REMOVAL (R404, R419, R420): the rails go; `torn`: a journal write was under way. -/
def execRailRemoval (torn : Bool) (s : State) : Res :=
  let t := s.powerReset false
  .next { t with larder := { t.larder with torn := t.larder.torn || torn } }

/-- POR_RELEASE (R403, R405 steps 2 to 4): MASTER_SEL is latched; the boot ROM mounts the Larder and discards a torn entry, and the collector begins to watch;
at 10 ms the Study and the Cellar are powered. -/
def execPorRelease (masterSel : Bool) (s : State) : Res :=
  if s.boot.phase != .off || !s.boot.railsGood then .next s
  else
    let s1 := s.untilUp (10 * ms)
    let st := fset s1.boot.larderStat F.LARDER_STAT.MOUNTED 1
    let s2 := { s1 with
      power := { s1.power with study := true, cellar := true, masterSel }
      larder := { s1.larder with torn := false }
      boot := { s1.boot with
        phase := .rom, bootUp := s1.time.up, powerLoss := !s1.larder.shutdownOk
        larderStat := if s1.larder.torn then fset st F.LARDER_STAT.TORN 1 else st } }
    .next s2.startWatching

/-! ### The boot ROM and the start of firmware (R405 to R409) -/

/-- The journalled fault configuration is loaded (R399). -/
def State.loadFaultCfg (s : State) : State :=
  s.larder.faultCfg.foldl (fun t e =>
    let f := t.source e.1
    let keep := f.src &&& 1
    t.setSource e.1 { f with src := (e.2 &&& 0xFFFFFFFE) ||| keep }) s

/-- Taps and references from CAL_LAST, else from CAL_BASE; with neither, the first sweep gives the references and a retrim is owed (R113). -/
def State.loadCal (s : State) : State :=
  let use (c : CalRecord) : State := s.setTrim { s.trim with dly := c.taps, ref := c.refs, refsOwed := false }
  if s.larder.calLast.valid then use s.larder.calLast
  else if s.larder.calBase.valid then use s.larder.calBase
  else (s.setTrim { s.trim with dly := Vector.replicate 12 0x80, refsOwed := true, planOwed := true }).report srcCalMissing 0

/-- ID_STAT and BIST_STAT show whether the self-test is stale (R419). -/
def State.showStale (s : State) : State :=
  { s with
    host := { s.host with idStat := fsetB s.host.idStat F.ID_STAT.BIST_STALE s.larder.bistStale }
    boot := { s.boot with bistStat := fsetB s.boot.bistStat F.BIST_STAT.STALE s.larder.bistStale } }

/-- A start after an abrupt power loss (R419). -/
def State.afterPowerLoss (s : State) : State :=
  if !s.boot.powerLoss then s.showStale
  else
    let s1 := { s with larder := { s.larder with bistStale := true }, boot := { s.boot with powerLoss := false } }.showStale
    let s2 := (s1.logEvent 1 0 0).report srcBistStale 0
    s2.setTrim { s2.trim with planOwed := true }

/-- N and B reactions that waited for their targets apply (R391 rule 5). -/
def State.applyHeld (s : State) : State :=
  let held := s.fc.held
  let nmi := held.any (fun r => nbit (s.source r.1).applied 1)
  (held.filter (fun r => nbit (s.source r.1).applied 2)).foldl (fun (t : State) r => t.blockReset r.1 r.2)
    { s with fc := { s.fc with held := [], nmi := s.fc.nmi || nmi } }

/-- Firmware runs from a slot (R405 steps 6 to 8): domains powered, self-calibration and the Cellar started. A descriptor outside Table 16.1 starts no
Cellar (R285). -/
def State.startFirmware (slot : Nat) (memDesc : Word) (s : State) : State :=
  let s1 := { s with
    boot := { s.boot with
      phase := .firmware, activate := none, image := s.imageVersion slot, imageRollback := s.imageRollback slot, watchdogUp := s.time.up
      bootStat := fset (fset s.boot.bootStat F.BOOT_STAT.SLOT slot) F.BOOT_STAT.ROM_HOLD 0 }
    host := { s.host with idStat := fset s.host.idStat F.ID_STAT.BOOT_SLOT slot }
    cellar := s.cellar.describe memDesc }
  let s2 := s1.loadFaultCfg.loadCal.afterPowerLoss.powerFront
  let s3 := { s2 with power := { s2.power with loft := true, hearth := true } }.startSelfCal
  (if memDescListed memDesc then s3.startTraining false else s3).applyHeld

/-- BOOT_IMAGE_LOADED (R408): the preferred slot, else the other with FALLBACK, else ROM_HOLD; `memDesc`: MEM_DESC of the board descriptor. -/
def execBootImageLoaded (memDesc : Word) (s : State) : Res :=
  if s.boot.phase != .rom then .next s
  else
    let p := s.preferred
    let at_ (n : Nat) : State := s.untilUp (s.boot.bootUp + n * 55 * ms)
    if s.imageGood p then .next ((at_ 1).startFirmware p memDesc)
    else if s.imageGood (1 - p) then
      let s1 := (at_ 2).startFirmware (1 - p) memDesc
      .next (({ s1 with boot := { s1.boot with bootStat := fset s1.boot.bootStat F.BOOT_STAT.FALLBACK 1 } }).report srcFwRollback p)
    else
      let s1 := at_ 2
      .next (({ s1 with boot := { s1.boot with phase := .hold, bootStat := fset s1.boot.bootStat F.BOOT_STAT.ROM_HOLD 1 } }).report srcFwRollback 0xFF)

/-! ### FW_READY -/

/-- The new image of an activation runs: PREF, the log, the answer (R369, R409). -/
def State.activated (slot : Nat) (s : State) : State :=
  let s1 := { s with
    porch := { s.porch with flash := Mem.write 0xFF s.porch.flash 0 (BitVec.ofNat 8 slot) }
    host := { s.host with idStat := fset s.host.idStat F.ID_STAT.BOOT_SLOT slot }
    boot := { s.boot with activate := none, bootStat := fset s.boot.bootStat F.BOOT_STAT.SLOT slot } }
  (s1.logEvent 5 0 s1.boot.image.toNat).finishLong { status := .ok } [s1.boot.image]

/-- Firmware accepts commands: the mailbox block is released, the rollback counter rises, Causeway and compression are enabled (R344, R405 step 9, R409). -/
def State.ready (s : State) : State :=
  let l := s.larder
  let higher := decide (l.rollback < s.boot.imageRollback)
  let s1 := { s with
    boot := { s.boot with phase := .ready }
    larder := if higher then { l with rollback := s.boot.imageRollback, old := { l.old with rollback := l.rollback } } else l
    host := { s.host with idStat := fset s.host.idStat F.ID_STAT.FW_READY 1, idFw := s.boot.image }
    mb := { s.mb with avail := fset s.mb.avail F.MB_AVAIL.STATE 0 }
    cw := if fbit s.cw.cfg F.CW_CFG.ENABLE then s.cw else { s.cw with cfg := fset s.cw.cfg F.CW_CFG.ENABLE 1, heldUp := s.time.up }
    streams := { s.streams with cfg := fset s.streams.cfg F.COMP_CFG.ENABLE 1 } }
  (if higher then s1.wrote logEntryBytes else s1).summarise

/-- FW_READY (R369, R405, R407, R409): self-calibration and the start of the Cellar are over. `ok`: the image that FW_ACTIVATE names starts; else the previous
one runs and answers. -/
def execFwReady (ok : Bool) (s : State) : Res :=
  if s.boot.phase != .firmware || s.thr.calUp.isSome || s.boot.training.isSome then .next s
  else
    match s.boot.activate with
    | none => .next s.ready
    | some slot =>
      if ok then
        let s1 := { s with boot := { s.boot with image := s.imageVersion slot, imageRollback := s.imageRollback slot } }
        .next (s1.ready.activated slot)
      else .next (({ s.ready with boot := { s.ready.boot with activate := none } }).finishLong { status := .rollback } [])

end Sys2Proof.Machine
end

