-- ==== Sys2Proof/Machine/Cells.lean ====
section
/-! DEFINITION. The commands of the cell instruction set: the cell issues its next word, which holds the operation named (chapter 12). An event of a
word that does not hold it changes nothing. -/

namespace Sys2Proof.Machine

/-- NOP (R203, R216, R218): a word with NOP in slot A or slot B; an idle operation counts as one issued. A word of which neither operation is listed is issued
here, and traps. -/
def execNop (c : Fin 72) (s : State) : Res := .next (s.issueWord c.val (fun w => hasA 0 w || hasB 0 w || hasNone w) .clean)
/-- ADD (R218, Table 12.4). -/
def execAdd (c : Fin 72) (s : State) : Res := .next (s.issueWord c.val (hasA 1) .clean)
/-- SUB (R218, Table 12.4). -/
def execSub (c : Fin 72) (s : State) : Res := .next (s.issueWord c.val (hasA 2) .clean)
/-- BFY (R218, Table 12.4). -/
def execBfy (c : Fin 72) (s : State) : Res := .next (s.issueWord c.val (hasA 3) .clean)
/-- NEG (R218, Table 12.4). -/
def execNeg (c : Fin 72) (s : State) : Res := .next (s.issueWord c.val (hasA 4) .clean)
/-- ABS (R218, Table 12.4). -/
def execAbs (c : Fin 72) (s : State) : Res := .next (s.issueWord c.val (hasA 5) .clean)
/-- MIN (R218, Table 12.4). -/
def execMin (c : Fin 72) (s : State) : Res := .next (s.issueWord c.val (hasA 6) .clean)
/-- MAX (R218, Table 12.4). -/
def execMax (c : Fin 72) (s : State) : Res := .next (s.issueWord c.val (hasA 7) .clean)
/-- SHR (R218, Table 12.4). -/
def execShr (c : Fin 72) (s : State) : Res := .next (s.issueWord c.val (hasA 8) .clean)
/-- SHL (R218, Table 12.4). -/
def execShl (c : Fin 72) (s : State) : Res := .next (s.issueWord c.val (hasA 9) .clean)
/-- BCAST (R218, Table 12.4). -/
def execBcast (c : Fin 72) (s : State) : Res := .next (s.issueWord c.val (hasA 10) .clean)
/-- TRN4 (R218, Table 12.4). -/
def execTrn4 (c : Fin 72) (s : State) : Res := .next (s.issueWord c.val (hasA 11) .clean)
/-- MAC (R218, Table 12.4). -/
def execMac (c : Fin 72) (s : State) : Res := .next (s.issueWord c.val (hasA 16) .clean)
/-- MACSQ (R218, Table 12.4). -/
def execMacsq (c : Fin 72) (s : State) : Res := .next (s.issueWord c.val (hasA 17) .clean)
/-- MOVAD (R218, Table 12.4). -/
def execMovad (c : Fin 72) (s : State) : Res := .next (s.issueWord c.val (hasA 18) .clean)
/-- MOVDA (R218, Table 12.4). -/
def execMovda (c : Fin 72) (s : State) : Res := .next (s.issueWord c.val (hasA 19) .clean)
/-- CMAC (R218, Table 12.4). -/
def execCmac (c : Fin 72) (s : State) : Res := .next (s.issueWord c.val (hasA 24) .clean)
/-- CMAGSQ (R218, Table 12.4). -/
def execCmagsq (c : Fin 72) (s : State) : Res := .next (s.issueWord c.val (hasA 25) .clean)
/-- CROT (R218, Table 12.4). -/
def execCrot (c : Fin 72) (s : State) : Res := .next (s.issueWord c.val (hasA 26) .clean)
/-- LD (R220, Table 12.5); `k`: what the read finds (R193). -/
def execLd (c : Fin 72) (k : ReadCheck) (s : State) : Res := .next (s.issueWord c.val (hasB 1) k)
/-- ST (R220, Table 12.5). -/
def execSt (c : Fin 72) (s : State) : Res := .next (s.issueWord c.val (hasB 2) .clean)
/-- LDS (R220, Table 12.5). -/
def execLds (c : Fin 72) (s : State) : Res := .next (s.issueWord c.val (hasB 3) .clean)
/-- STS (R220, Table 12.5). -/
def execSts (c : Fin 72) (s : State) : Res := .next (s.issueWord c.val (hasB 4) .clean)
/-- LDL (R221, Table 12.5); `k`: what the read finds (R193). -/
def execLdl (c : Fin 72) (k : ReadCheck) (s : State) : Res := .next (s.issueWord c.val (hasB 5) k)
/-- STL (R221, Table 12.5). -/
def execStl (c : Fin 72) (s : State) : Res := .next (s.issueWord c.val (hasB 6) .clean)
/-- SCALE (R223, Table 12.5). -/
def execScale (c : Fin 72) (s : State) : Res := .next (s.issueWord c.val (hasB 7) .clean)
/-- GSET (R220, Table 12.5). -/
def execGset (c : Fin 72) (s : State) : Res := .next (s.issueWord c.val (hasB 8) .clean)
/-- SLI (R220, Table 12.5). -/
def execSli (c : Fin 72) (s : State) : Res := .next (s.issueWord c.val (hasB 9) .clean)
/-- SALU (R220, Table 12.5). -/
def execSalu (c : Fin 72) (s : State) : Res := .next (s.issueWord c.val (hasB 10) .clean)
/-- SALUI (R220, Table 12.5). -/
def execSalui (c : Fin 72) (s : State) : Res := .next (s.issueWord c.val (hasB 11) .clean)
/-- SDIV (R224, Table 12.5). -/
def execSdiv (c : Fin 72) (s : State) : Res := .next (s.issueWord c.val (hasB 12) .clean)
/-- SRED (R220, Table 12.5). -/
def execSred (c : Fin 72) (s : State) : Res := .next (s.issueWord c.val (hasB 13) .clean)
/-- SGET (R220, Table 12.5). -/
def execSget (c : Fin 72) (s : State) : Res := .next (s.issueWord c.val (hasB 14) .clean)
/-- SPUT (R220, Table 12.5). -/
def execSput (c : Fin 72) (s : State) : Res := .next (s.issueWord c.val (hasB 15) .clean)
/-- LOOP (R225, Table 12.5). -/
def execLoop (c : Fin 72) (s : State) : Res := .next (s.issueWord c.val (hasB 16) .clean)
/-- BR (R226, Table 12.5). -/
def execBr (c : Fin 72) (s : State) : Res := .next (s.issueWord c.val (hasB 17) .clean)
/-- BXADD (R220, Table 12.5). -/
def execBxadd (c : Fin 72) (s : State) : Res := .next (s.issueWord c.val (hasB 18) .clean)
/-- HALT (R227): the state page goes to the Landing and the job ends as completed; its results follow (R156 to R167, R209 to R212, R235 to R248). -/
def execHalt (c : Fin 72) (s : State) : Res :=
  let library := match (s.cell c.val).job with | some j => isLibrary j.image | none => false
  .next (if library then s.haltLibrary c.val else s.issueWord c.val (hasB 19) .clean)

/-- JOB_START (R202 to R206): the dispatcher starts the next job of a stream: the map jobs of a group of a leg (kind 0; 4,096 × leg + group), a zone
(kind 1), the decoding of a leg (kind 2). `k`: what reading its image and pages finds (R193). -/
def execJobStart (kind : Fin 3) (item : Fin 8192) (k : ReadCheck) (s : State) : Res :=
  if !s.power.loft || !fbit s.loft.cfg F.LOFT_CFG.ENABLE then .next s
  else
    .next (match kind.val with
      | 0 => s.startMap (item.val / 4096) (item.val % 4096) k
      | 1 => s.startZone (item.val % 256) k
      | _ => s.startDecode (item.val % 2) k)

end Sys2Proof.Machine
end

