-- ==== Sys2Proof/Machine/CmdAcq.lean ====
section
/-! DEFINITION. Commands of the probe, converters, Hall, chain, map, temperature channel and replay (R25, R50, R87, R119, R126, R140, R162, R163, R176,
R183, R187, R209, R368). -/

namespace Sys2Proof.Machine

/-! ### TABLE_LOAD (R50) -/

/-- A table entry: bits [15:14] equal bit 13. -/
def tableEntryOk (w : Nat) : Bool := nbits w 13 3 == 0 || nbits w 13 3 == 7

/-- n little-endian 16-bit entries at a place. -/
def tableLane (bulk : List Byte) (at_ n : Nat) : List Nat := (List.range n).map (fun i => leAt bulk (at_ + 2 * i) 2)

/-- TABLE_LOAD: the I entries, then the Q entries. -/
def execTableLoad (c : Fin 9) (s : State) : Res :=
  s.command { code := 0x013, lo := 3, hi := 3, bulk := 2 } c.val legFirst (fun cmd t =>
    let leg := cmd.p 0
    let slot := cmd.p 1
    let n := cmd.p 2
    if cmd.badItem 0 2 || cmd.badItem 1 8 || n = 0 || 8192 < n then no .param
    else if cmd.bulk.length != 4 * n then no .bulk
    else
      let i := tableLane cmd.bulk 0 n
      let q := tableLane cmd.bulk (2 * n) n
      if !(i ++ q).all tableEntryOk then no .tableFormat
      else
        let tab : SlotTable := { i := i.map code14, q := q.map code14, loaded := true }
        let row := vget t.probe.tables leg (Vector.replicate 8 {})
        .done [] { t with probe := { t.probe with tables := vset t.probe.tables leg (vset row slot tab) } })

/-! ### GAIN_SET (R87, R89) -/

/-- GAIN_SET: only COH_G of the GAIN_REQn image may be other than 0. -/
def execGainSet (c : Fin 9) (s : State) : Res :=
  s.command { code := cGainSet, s := true, lo := 3, hi := 3 } c.val legFirst (fun cmd t =>
    let img := wat cmd.w 1
    if cmd.badItem 0 2 || badImage F.LEG_CFG.kind img || (cmd.p 2) % 2 ^ 31 ≥ 8 ||
        decide (fget img F.LEG_CFG.GAIN_MAX < fget img F.LEG_CFG.GAIN_MIN) then no .param
    else t.stamped cmd anyTrace cmd.w [] (fun at_ =>
      w64 ((at_.map (fun a => t.gainIndex (t.indexOfTime (t.boundaryAhead a.1)))).getD allOnes64)))

/-! ### FRONT_SET (R119, R126, R140) -/

/-- RX_WIN and COMB_HALF of a leg as last accepted. -/
def State.frontLatest (s : State) (leg : Nat) : Word :=
  match (s.fw.stamped.filter (pickLeg cFrontSet leg)).getLast? with | some p => wat p.words 1 | none => (s.hall leg).frontCfg

/-- A FRONT_SET that changes RX_WIN or COMB_HALF is an excitation change at frame f (R119, R33): the plan in force starts afresh there. -/
def State.excite (f : Nat) (s : State) : State :=
  { s with probe := { s.probe with
      shadow := s.probe.active
      pending := some { bank := s.probe.active, mode := s.fw.mode, ng := s.probe.ngAt f, atFrame := some (f - s.probe.frameBase), tables := s.probe.tables } } }

/-- FRONT_SET. -/
def execFrontSet (c : Fin 9) (s : State) : Res :=
  s.command { code := cFrontSet, s := true, lo := 4, hi := 4 } c.val legFirst (fun cmd t =>
    let leg := cmd.p 0
    let cfg := wat cmd.w 1
    let tau := (cmd.p 3) % 128
    let was := t.frontLatest leg
    let excites := fget cfg F.FRONT_CFG.RX_WIN != fget was F.FRONT_CFG.RX_WIN || fget cfg F.FRONT_CFG.COMB_HALF != fget was F.FRONT_CFG.COMB_HALF
    if cmd.badItem 0 2 || badImage F.FRONT_CFG.kind cfg || badImage F.FRONT_REL.kind (wat cmd.w 2) || badImage F.PHASE_CFG.kind (wat cmd.w 3) ||
        decide (3 < fget cfg F.FRONT_CFG.RX_WIN) || decide (32 < fget cfg F.FRONT_CFG.COMB_HALF) || fget cfg F.FRONT_CFG.FADE_MUL == 0 ||
        tau == 0 || decide (100 < tau) then no .param
    else if fbit cfg F.FRONT_CFG.FADE_REF && (!(vget t.fw.surveyDone leg {}).complete || t.detail) then no .noSurvey
    else if excites && t.probe.pending.isSome && t.measuring then no .modePending
    else
      match t.place cmd anyTrace with
      | .error e => .refuse e
      | .ok at_ =>
        if 64 ≤ t.waitingChanges then no .busy
        else
          let u := t.stamp cmd at_ cmd.w [] false
          .done (effWords at_) (match at_ with | some a => if excites then (u.excite a.1).summarise else u | none => u))

/-! ### CHAIN_SET and CHAIN_RESET (R176, R183, R187) -/

/-- Frame f is an output boundary of a leg whose response has factor r (R183). -/
def State.outputBoundary (s : State) (leg r f : Nat) : Bool := (f - (s.chainAhead leg f).start) * (s.planAhead leg f).1.count % r == 0

/-- A CHAIN_SET at frame f is a swap (R183): it changes RESP alone, or repeats one whose fade runs or is to run (R185). -/
def State.chainSwaps (s : State) (leg : Nat) (ws : List Word) (f : Nat) : Bool :=
  let a := s.chainAhead leg f
  let c := s.chain leg
  let resp := (wat ws 2).toNat
  fbit (wat ws 1) F.CHAIN_CFG.ENABLE && a.on && respDecim resp == respDecim a.resp &&
    (resp != a.resp || resp != c.now || c.fade.isSome || s.fw.stamped.any (pickLeg cChainSet leg))

/-- Frames at which a CHAIN_SET may be placed: a swap stands on an output boundary (R183). -/
def State.chainPlaces (s : State) (leg : Nat) (ws : List Word) (f : Nat) : Bool :=
  !s.chainSwaps leg ws f || s.outputBoundary leg (respR (wat ws 2).toNat) f

/-- A CHAIN_SET forces a synchronising reset by a change of DECIM (R183); held, by what was accepted last. -/
def State.chainForced (s : State) (leg : Nat) (ws : List Word) (at_ : Option (Nat × Nat)) : Bool :=
  let was := match at_ with | some a => (s.chainAhead leg a.1).resp | none => (s.chainLatest leg).1
  fbit (wat ws 1) F.CHAIN_CFG.ENABLE && respDecim (wat ws 2).toNat != respDecim was

/-- The rate index of the plan in which frame f lies. -/
def State.rateAhead (s : State) (leg f : Nat) : Option Nat :=
  let b := match s.probe.pending with
    | some p => (match p.atFrame with | some e => if p.mode != 0 && s.globalFrame e ≤ f then p.bank else s.probe.active | none => s.probe.active)
    | none => s.probe.active
  let l := b.legBank leg
  if l.on then rateIndex l.count b.tF else none

/-- CHAIN_SET: FADE_LEN 16 to 4,096; the RATE of RESP is that of the plan it takes effect under. -/
def execChainSet (c : Fin 9) (s : State) : Res :=
  s.command { code := cChainSet, s := true, lo := 3, hi := 3 } c.val legFirst (fun cmd t =>
    let leg := cmd.p 0
    let cfg := wat cmd.w 1
    let resp := cmd.p 2
    let fade := fget cfg F.CHAIN_CFG.FADE_LEN
    if cmd.badItem 0 2 || badImage F.CHAIN_CFG.kind cfg || badImage F.CHAIN_RESP.kind (wat cmd.w 2) || fade < 16 || 4096 < fade then no .param
    else if !respLegal resp then no .chainRate
    else
      match t.place cmd (t.chainPlaces leg cmd.w) with
      | .error e => .refuse e
      | .ok at_ =>
        if (match at_ with | some a => t.rateAhead leg a.1 != some (respRate resp) | none => false) then no .chainRate
        else if 64 ≤ t.waitingChanges then no .busy
        else .done (effWords at_ ++ [w32 (t.chainForced leg cmd.w at_).toNat]) (t.stamp cmd at_ cmd.w [] false))

/-- CHAIN_RESET: one reset for each leg of the mask that is on. -/
def execChainReset (c : Fin 9) (s : State) : Res :=
  s.command { code := cChainReset, s := true, lo := 1, hi := 1 } c.val noLeg (fun cmd t =>
    let mask := cmd.p 0
    if mask = 0 || 3 < mask then no .param
    else
      match t.place cmd anyTrace with
      | .error e => .refuse e
      | .ok at_ =>
        let legs := [0, 1].filter (fun l => nbit mask l && (at_.isNone || (t.legBank l).on))
        let trace (l : Nat) : Nat := match at_ with | some a => if legs.contains l then t.traceAhead l a.1 else allOnes64 | none => allOnes64
        if 64 ≤ t.waitingChanges then no .busy
        else .done (effWords at_ ++ w64 (trace 0) ++ w64 (trace 1))
          (legs.foldl (fun u l => u.stampOn l cmd at_ cmd.w [] (decide (l = 1) && legs.length == 2)) t))

/-! ### MAP_SET (R209, Table 11.8) -/

/-- The nine edges in 1/16 bin. -/
def mapEdges (ws : List Word) : List Nat :=
  [16 * fget (wat ws 1) F.MAP_CFG.EDGE0] ++ (List.range 7).map (fun i => (wat ws (2 + i)).toNat) ++ [16 * fget (wat ws 1) F.MAP_CFG.EDGE8]

/-- Strictly rising. -/
def rising : List Nat → Bool
  | a :: b :: rest => decide (a < b) && rising (b :: rest)
  | _ => true

/-- MAP_SET: EDGE8 1 to 128; edges that do not ascend are refused. -/
def execMapSet (c : Fin 9) (s : State) : Res :=
  s.command { code := cMapSet, s := true, lo := 9, hi := 9 } c.val legFirst (fun cmd t =>
    let edges := mapEdges cmd.w
    if cmd.badItem 0 2 || badImage F.MAP_CFG.kind (wat cmd.w 1) || (List.range 7).any (fun i => badImage F.MAP_EDGE.kind (wat cmd.w (2 + i))) ||
        decide (128 < fget (wat cmd.w 1) F.MAP_CFG.EDGE8) || !rising edges then no .param
    else t.stamped cmd anyTrace cmd.w [] (fun _ => []))

/-! ### Temperature channel (R56, R162 to R164, Table 9.2) -/

/-- An earlier start of a leg's channel is pending (R164 rule 1): by a waiting TEMP_SET, a block reset, or a waiting change of plan at another frame than
`at_`; one at the same frame makes one start with it (rule 2). -/
def State.tempStartWaits (s : State) (leg : Nat) (at_ : Option Nat) : Bool :=
  s.fw.stamped.any (fun p => pickLeg cTempSet leg p && s.tempStarts leg p.words) || (s.hall leg).ramanAgain ||
    (match s.probe.pending with
     | some p => (match p.atFrame with | some e => p.mode != 0 && (p.bank.legBank leg).ramanEn && at_ != some (s.globalFrame e) | none => false)
     | none => false)

/-- TEMP_SET. -/
def execTempSet (c : Fin 9) (s : State) : Res :=
  s.command { code := cTempSet, s := true, lo := 8, hi := 8 } c.val legFirst (fun cmd t =>
    let leg := cmd.p 0
    if cmd.badItem 0 2 || 1 < cmd.p 1 || cmd.p 2 < 10 || 600 < cmd.p 2 || 4 < cmd.p 3 || 80000 < cmd.p 4 || 1023 < cmd.p 5 || 7 < cmd.p 6 || 7 < cmd.p 7 then
      no .param
    else
      let starts := t.tempStarts leg cmd.w
      match t.place cmd anyTrace with
      | .error e => .refuse e
      | .ok at_ =>
        if starts && t.tempStartWaits leg (at_.map (·.1)) then no .tempPending
        else match at_ with
        | none =>
          if 64 ≤ t.waitingChanges then no .busy
          else .done (effWords none ++ w64 allOnes64 ++ [0xFFFFFFFF]) (t.stamp cmd none cmd.w [] false)
        | some a =>
          let (b, mode, tF) := t.planAhead leg a.1
          let (k, fs) := windowSpans (cmd.p 2) (10 * tF)
          let start := if cmd.p 1 = 0 || !b.on then allOnes64 else if starts then t.traceAhead leg a.1 else (t.raman leg).startTrace
          if cmd.p 1 = 1 && b.on && !ramanFits (b.withTemp cmd.w) mode tF then no .planInfeasible 9
          else if 64 ≤ t.waitingChanges then no .busy
          else .done (effWords (some a) ++ w64 start ++ [w32 (k * fs)]) (t.stamp cmd (some a) cmd.w [] false))

/-- A reference section of a TEMP_CAL breaks Table 9.2: length, entry, its pull, TK. -/
def State.badSection (s : State) (bulk : List Byte) (at_ : Nat) : Bool :=
  let f := leAt bulk at_ 4
  let l := leAt bulk (at_ + 4) 4
  let e := leAt bulk (at_ + 8) 4
  let tk := (List.range 17).map (fun i => leAt bulk (at_ + 12 + 4 * i) 4)
  decide (l < f + 15) || decide (f + 4095 < l) || decide (23 < e) || fget (vget s.thr.hk.ent e 0) F.HK_ENT.PULL == 0 ||
    tk.any (fun t => decide (t < 11347559) || decide (31008358 < t))

/-- The reference sections overlap. -/
def sectionsOverlap (bulk : List Byte) : Bool := decide (leAt bulk 0 4 ≤ leAt bulk 84 4) && decide (leAt bulk 80 4 ≤ leAt bulk 4 4)

/-- TEMP_CAL: modes 0 to 2 need both reference sections; mode 3 needs none. -/
def execTempCal (c : Fin 9) (s : State) : Res :=
  s.command { code := cTempCal, s := true, lo := 8, hi := 8, bulk := 1 } c.val legFirst (fun cmd t =>
    let mode := cmd.p 1
    let dalpha := sx 64 (wat64 cmd.w 3)
    let lnc := sx 64 (wat64 cmd.w 5)
    let b := t.legBank (cmd.p 0)
    if cmd.badItem 0 2 || cmd.badItem 1 4 || cmd.p 2 < 26214400 || 58982400 < cmd.p 2 || 2 ^ 30 < dalpha.natAbs || 2 ^ 45 < lnc.natAbs ||
        cmd.p 7 = 0 || 255 < cmd.p 7 then no .param
    else if cmd.hasBulk && cmd.bulk.length != 160 then no .bulk
    else if mode != 3 && !cmd.hasBulk then no .param
    else if cmd.hasBulk && (t.badSection cmd.bulk 0 || t.badSection cmd.bulk 80 || sectionsOverlap cmd.bulk || (!t.unplanned && b.on && refsBeyond cmd.bulk b.len)) then
      no .param
    else t.stamped cmd anyTrace cmd.w cmd.bulk (fun _ => []))

/-! ### Replay (R25) -/

/-- A leg is in replay once its waiting changes have applied. -/
def State.replayLatest (s : State) (leg : Nat) : Bool :=
  match (s.fw.stamped.filter (fun p => (p.code == cReplayStart || p.code == cReplayStop) && p.item == leg)).getLast? with
  | some p => p.code == cReplayStart
  | none => s.replaying leg

/-- REPLAY_START. -/
def execReplayStart (c : Fin 9) (s : State) : Res :=
  s.command { code := cReplayStart, s := true, lo := 1, hi := 1 } c.val legFirst (fun cmd t =>
    if cmd.badItem 0 2 then no .param
    else if t.replayLatest (cmd.p 0) then no .busy
    else t.stamped cmd anyTrace cmd.w [] (fun _ => []))

/-- REPLAY_STOP: the last replayed trace is the one before its frame. -/
def execReplayStop (c : Fin 9) (s : State) : Res :=
  s.command { code := cReplayStop, s := true, lo := 1, hi := 1 } c.val legFirst (fun cmd t =>
    if cmd.badItem 0 2 || !t.replayLatest (cmd.p 0) then no .param
    else t.stamped cmd anyTrace cmd.w [] (fun at_ => w64 ((at_.map (fun a => t.traceAhead (cmd.p 0) a.1 - 1)).getD allOnes64)))

end Sys2Proof.Machine
end

