-- ==== Sys2Proof/Machine/CmdHost.lean ====
section
/-! DEFINITION. Commands of the ports, the memory map and secure access (R298, R320, R321, R323, R325, R343, R367, R370). -/

namespace Sys2Proof.Machine

/-! ### NET_SET (R320, R321, R323, R325; the layout of its items is DEDUCED, log entry 37) -/

/-- Four words as one address of 128 bits, low word first. -/
def addrOf (ws : List Word) (i : Nat) : Nat := wat64 ws i + 2 ^ 64 * wat64 ws (i + 2)

/-- A write of ETHp_CFG: RWE fields need ENABLE = 0 (R340); RATE 3 is refused and leaves RATE as it was (DEDUCED, log entry 37). -/
def State.writeEthCfg (p : Nat) (w : Word) (s : State) : State :=
  let e := s.porch.eth
  let x := vget e.port p {}
  let w := if fget w F.ETH_CFG.RATE = 3 then fset w F.ETH_CFG.RATE (fget x.cfg F.ETH_CFG.RATE) else w
  let r := regWrite F.ETH_CFG.kind (fbit x.cfg F.ETH_CFG.ENABLE) x.cfg w
  let y := { x with cfg := r.word, stat := if r.ignored then fset x.stat F.ETH_STAT.WRITE_IGNORED 1 else x.stat }
  let s1 := s.withEth { e with port := vset e.port p y }
  { s1 with porch := { s1.porch with wi := if r.ignored then w32 (0x20 * p) else s1.porch.wi } }.keepAltered r.keepAltered

/-- The condition of ETH_LINK (Table 22.1): an enabled port without LINK. -/
def State.ethLinkLost (s : State) : Bool :=
  s.porch.eth.port.toList.any (fun y => fbit y.cfg F.ETH_CFG.ENABLE && !fbit y.stat F.ETH_STAT.LINK)

/-- A port's configuration that Table 18.7 does not admit: RATE 3, a VID outside 1 to 4,094, an MTU outside 9 to 141 units. -/
def ethCfgBad (w : Word) : Bool :=
  let vid := fget w F.ETH_CFG.VID
  let mtu := fget w F.ETH_CFG.MTU64
  badImage F.ETH_CFG.kind w || fget w F.ETH_CFG.RATE == 3 || vid == 0 || vid == 4095 || decide (mtu < 9) || decide (141 < mtu)

/-- Item 0: a port's ETHp_CFG and its IPv4 and IPv6 addresses. The condition of ETH_LINK follows. -/
def State.netPort (cmd : Cmd) (s : State) : Reply :=
  let p := cmd.p 1
  if cmd.w.length != 8 || 1 < p || ethCfgBad (wat cmd.w 2) then no .param
  else
    let s1 := s.writeEthCfg p (wat cmd.w 2)
    let e := s1.porch.eth
    let x := vget e.port p {}
    let s2 := s1.withEth { e with port := vset e.port p { x with ip4 := cmd.p 3, ip6 := addrOf cmd.w 4 } }
    .done [] (s2.setCondition srcEthLink s2.ethLinkLost p)

/-- Item 1: a destination entry; flags [0] set, [1] port, [2] IPv6, [3] streams, [4] events. It is not resolved yet. -/
def State.netDest (cmd : Cmd) (s : State) : Reply :=
  let d := cmd.p 1
  let f := cmd.p 2
  if cmd.w.length != 12 || 15 < d || 31 < f then no .param
  else
    let x : Destination :=
      { set := nbit f 0, port := nbits f 1 1, v6 := nbit f 2, streams := nbit f 3, events := nbit f 4, srcPort := cmd.p 3 % 65536
        dstPort := cmd.p 3 / 65536, addr := addrOf cmd.w 4, gateway := addrOf cmd.w 8 }
    .done [] (s.withEth { s.porch.eth with dest := vset s.porch.eth.dest d x })

/-- NET_SET. -/
def execNetSet (c : Fin 9) (s : State) : Res :=
  s.command { code := 0x078, k := true, lo := 2, hi := 12 } c.val noLeg (fun cmd t =>
    let e := t.porch.eth
    let n := cmd.w.length
    match cmd.p 0 with
    | 0 => t.netPort cmd
    | 1 => t.netDest cmd
    | 2 =>
      if n != 7 || 3 < cmd.p 1 || 1 < cmd.p 2 then no .param
      else .done [] (t.withEth { e with allow := vset e.allow (cmd.p 1) (if cmd.p 2 = 1 then some (addrOf cmd.w 3) else none) })
    | 3 => if n != 2 || cmd.p 1 < 1024 || 65535 < cmd.p 1 then no .param else .done [] (t.withEth { e with ctlPort := cmd.p 1 })
    | 4 =>
      let mac := wat64 cmd.w 2
      if n != 4 || 1 < cmd.p 1 || 2 ^ 48 ≤ mac || (mac != 0 && (!nbit mac 41 || nbit mac 40)) then no .param
      else .done [] (t.withEth { e with port := vmod e.port (cmd.p 1) (fun x => { x with mac }) })
    | _ => no .param)

/-! ### MEM_MAP (R298, R367) -/

/-- MEM_MAP: sizes of regions 8 to 10 that fill the capacity above 2 GiB at most; the bases they will take, in 16 MiB units. -/
def execMemMap (c : Fin 9) (s : State) : Res :=
  s.command { code := 0x079, k := true, r := true, lo := 4, hi := 4 } c.val noLeg (fun cmd t =>
    let (a, b, d) := (cmd.p 0, cmd.p 1, cmd.p 2)
    if a = 0 || b = 0 || d = 0 || t.cellar.capacity / 2 ^ 24 < 128 + a + b + d || 63 < cmd.p 3 then no .param
    else
      match t.takeLock (wat cmd.w 3) with
      | .error e => .refuse e
      | .ok _ => .done ((mapBases a b).map w32) (t.withCellar { t.cellar with nextMap := some (a, b, d) }))

/-! ### Secure access (R343, R370) -/

/-- SEC_CHALLENGE: a nonce of 16 bytes. -/
def execSecChallenge (c : Fin 9) (s : State) : Res :=
  s.command { code := 0x0A0, lo := 0, hi := 0 } c.val noLeg (fun _ t =>
    let (a, t1) := t.draw 64
    let (b, t2) := t1.draw 64
    let nonce := w64 a ++ w64 b
    .done nonce { t2 with fw := { t2.fw with sec := { t2.fw.sec with nonce := some nonce, nonceUp := t2.time.up } } })

/-- The signature opens the device: key, fresh nonce, Ed25519 over nonce and serial number. -/
def State.unlocks (s : State) (sig : List Byte) : Bool :=
  match s.fw.sec.key, s.fw.sec.nonce with
  | some k, some n => decide (s.time.up ≤ s.fw.sec.nonceUp + 10 * sec) && Config.ed25519 k (bytesOfWords n ++ leBytes 8 s.host.serial) sig
  | _, _ => false

/-- SEC_UNLOCK: it uses up its nonce; the third refusal within 60 s shuts out every SEC_UNLOCK for 60 s. -/
def execSecUnlock (c : Fin 9) (s : State) : Res :=
  s.command { code := 0x0A1, lo := 0, hi := 0, bulk := 2 } c.val noLeg (fun cmd t =>
    let x := t.fw.sec
    let up := t.time.up
    if cmd.bulk.length != 64 then no .bulk
    else
      let shut := match x.lockUntil with | some u => decide (up < u) | none => false
      let spent := { x with nonce := none }
      if shut then .refuseWith { status := .authFail } { t with fw := { t.fw with sec := spent } }
      else if t.unlocks cmd.bulk then
        .done [] { t with fw := { t.fw with sec := spent }, mb := { t.mb with sec := fset t.mb.sec F.MB_SEC.UNLOCKED 1 } }
      else
        let recent := up :: x.refusals.filter (fun u => up < u + 60 * sec)
        let third := decide (3 ≤ recent.length)
        let t1 := { t with fw := { t.fw with sec := { spent with refusals := if third then [] else recent, lockUntil := if third then some (up + 60 * sec) else x.lockUntil } } }
        .refuseWith { status := .authFail } (if third then t1.report srcSecAuth 0 else t1))

/-- The unlock is revoked: the queues of MB4 and MB5 are emptied, locks of requester 2 freed (R343, R357). -/
def State.revoke (s : State) : State :=
  let m := s.mb
  ({ s with mb := { m with sec := fset m.sec F.MB_SEC.UNLOCKED 0, chan := vmod (vmod m.chan 4 Mailbox.empty) 5 Mailbox.empty } }).freeLocksOf [2]

/-- SEC_REVOKE. -/
def execSecRevoke (c : Fin 9) (s : State) : Res :=
  s.command { code := 0x0A2, lo := 0, hi := 0 } c.val noLeg (fun _ t => .done [] t.revoke)

/-- SEC_KEY: on MB6 alone. -/
def execSecKey (c : Fin 9) (s : State) : Res :=
  s.command { code := 0x0A3, k := true, lo := 8, hi := 8 } c.val noLeg (fun cmd t =>
    if c.val != 6 then no .secureRequired else .done [] { t with fw := { t.fw with sec := { t.fw.sec with key := some cmd.w } } })

end Sys2Proof.Machine
end

