-- ==== Sys2Proof/Machine/CmdLoft.lean ====
section
/-! DEFINITION. Commands of the Loft: program images, pools, zones (R201, R204, R205, R229 to R233, R368). -/

namespace Sys2Proof.Machine

/-! ### CELL_LOAD (R205, Table 11.5) -/

/-- A field of an image as Table 11.5 places it. -/
def imgAt (bs : List Byte) (at_ n : Nat) : Nat := leAt bs at_ n

/-- Sizes beyond their limits: code, initialisation, page, table. -/
def imageTooBig (bs : List Byte) : Bool :=
  let code := imgAt bs 8 4
  let init := imgAt bs 12 4
  let page := imgAt bs 24 4
  let tab := imgAt bs 28 4
  code == 0 || decide (2048 < code) || decide (32768 < init) || decide (65536 < page) || decide (262144 < tab) || decide (65536 < init + page) ||
    init % 16 != 0 || page % 16 != 0 || tab % 16 != 0

/-- A wrong MAGIC, ISA or CRC; fields outside Table 11.5 and a length that the fields do not give are taken as that too. -/
def imageWrong (bs : List Byte) : Bool :=
  decide (bs.length < 64) || imgAt bs 0 4 != 0x4C434C46 || imgAt bs 4 2 != 1 || imgAt bs 32 4 != crc32c (bs.drop 64)
def imageOdd (bs : List Byte) : Bool :=
  decide (1 < imgAt bs 6 1) || imgAt bs 7 1 != 0 || decide (imgAt bs 8 4 ≤ imgAt bs 16 4) || imgAt bs 20 4 == 0 || decide (16777215 < imgAt bs 20 4) ||
    (bytesAt bs 36 28).any (· != 0) || bs.length != 64 + 8 * imgAt bs 8 4 + imgAt bs 12 4 + imgAt bs 28 4

/-- Base and size of the program store (Table 11.2). -/
def storeBase : Nat := 0x300000
def storeSize : Nat := 0x80000

/-- Bytes of code and initialisation. -/
def Image.storeLen (m : Image) : Nat := 8 * m.codeWords + m.initBytes

/-- User images that are loaded. -/
def Loft.loaded (l : Loft) : List (Nat × Image) := (List.range 64).filterMap (fun i => (l.image i).map (fun m => (i, m)))

/-- Images packed from the base of the program store; answers the first free place. -/
def Loft.packStore (l : Loft) : Loft × Nat :=
  let held := l.loaded.map (fun e => (e.1, e.2, l.read e.2.at_ e.2.storeLen))
  let clear := { l with landing := Mem.clearRange l.landing storeBase storeSize }
  held.foldl (fun (a : Loft × Nat) e =>
    ({ a.1 with images := vset a.1.images e.1 (some { e.2.1 with at_ := storeBase + a.2 }) }.write (storeBase + a.2) e.2.2, a.2 + e.2.2.length)) (clear, 0)

/-- A place for n bytes in the program store: where they fit, or after packing. -/
def Loft.storePlace (l : Loft) (n : Nat) : Option (Loft × Nat) :=
  match firstFit (l.loaded.map (fun e => (e.2.at_ - storeBase, e.2.storeLen))) n storeSize with
  | some a => some (l, storeBase + a)
  | none => let (m, a) := l.packStore; if a + n ≤ storeSize then some (m, storeBase + a) else none

/-- An image is bound to an enabled pool or zone, as last accepted (KIND, Table 20.5 note). -/
def State.imageBound (s : State) (i : Nat) : Bool :=
  s.poolsLatest.toList.any (fun p => p.on && p.work != 1 && p.program == i) ||
    (List.range 256).any (fun z => (s.zone z).on && (s.zone z).program == i ||
      (s.zoneOnLatest z && (match s.zoneLatest z with | some w => fget w.cfg F.ZONE_CFG.PROGRAM == i | none => false)))

/-- An image is stored; cells that held the one before reload it (R204). -/
def State.storeImage (i : Nat) (bs : List Byte) (tab : Word) (l : Loft) (at_ : Nat) (s : State) : State :=
  let code := imgAt bs 8 4
  let init := imgAt bs 12 4
  let tabBytes := imgAt bs 28 4
  let place := landPages + 16 * fget tab F.ZONE_PAGE.PARAM_AT
  let m : Image := { at_, complex := imgAt bs 6 1 == 1, codeWords := code, initBytes := init, entry := imgAt bs 16 4, budget := imgAt bs 20 4
                     pageBytes := imgAt bs 24 4, tableBytes := tabBytes, check := imgAt bs 32 4, tab := place }
  let l1 := { l with
    images := vset l.images i (some m)
    cell := l.cell.map (fun (c : Cell) => if c.image = some i then { c with image := none } else c) }
  s.withLoft ((l1.write at_ (bytesAt bs 64 (8 * code + init))).write place (bytesAt bs (64 + 8 * code + init) tabBytes))

/-- CELL_LOAD. -/
def execCellLoad (c : Fin 9) (s : State) : Res :=
  s.command { code := 0x030, lo := 1, hi := 1, bulk := 2 } c.val noLeg (fun cmd t =>
    let i := cmd.p 0
    let bs := cmd.bulk
    if i < 16 || 63 < i then no .param
    else if imageWrong bs then no .cellImage
    else if imageTooBig bs then no .cellSize
    else if imageOdd bs then no .cellImage
    else if t.imageBound i then no .imageInUse
    else
      let t0 := t.withLoft { t.loft with images := vset t.loft.images i none }
      let n := 8 * imgAt bs 8 4 + imgAt bs 12 4
      let tabBytes := imgAt bs 28 4
      match t0.loft.storePlace n with
      | none => no .cellSize
      | some (l, a) =>
        let t1 := t0.withLoft l
        if tabBytes = 0 then .done [w32 (imgAt bs 32 4)] (t1.storeImage i bs 0 t1.loft a)
        else
          let w : ZoneWant := { pages := 0, cfg := fset 0 F.ZONE_CFG.PROGRAM i, span := 0, out := 0, param := zeros tabBytes }
          if pageArea < t1.pageTotal [] + tabBytes then no .cellSize
          else
            let (t2, word) := t1.placePages 256 w
            .done [w32 (imgAt bs 32 4)] (t2.storeImage i bs word t2.loft a))

/-! ### POOL_SET (R201, R204, R213) -/

/-- Cells of a pool's words as a mask of 72. -/
def Pool.mask (p : Pool) : Nat := p.quad.toNat + 2 ^ 32 * p.quadh.toNat + 2 ^ 64 * fget p.cplx F.POOL_CELLS.CELLS

/-- The pool mixes quad and complex cells. -/
def Pool.mixed (p : Pool) : Bool := fget p.cplx F.POOL_CELLS.CELLS != 0 && (p.quad != 0 || p.quadh != 0)

/-- The kinds of zone program in use: quad, complex. -/
def State.zoneKind (s : State) (complex : Bool) : Bool :=
  (List.range 256).any (fun z => s.zoneOnLatest z &&
    (match s.zoneLatest z with | some w => s.loft.imageComplex (fget w.cfg F.ZONE_CFG.PROGRAM) == complex | none => false))

/-- A layout leaves a kind of work in use without a pool. -/
def State.poolMissing (s : State) (ps : List Pool) : Bool :=
  let has (work : Nat) (ok : Pool → Bool) : Bool := ps.any (fun p => p.on && p.work == work && !p.cells.isEmpty && ok p)
  let fits (p : Pool) : Bool := (isLibrary p.program || (s.loft.image p.program).isSome) && s.loft.imageComplex p.program == p.complex
  let leg (f : Nat → Bool) : Bool := f 0 || f 1
  (leg s.mapLatest && !has 0 fits) ||
    (leg (fun l => s.ramanLatest l s.probe.frameBase && (s.legBank l).on) && !has 2 fits) ||
    (s.zoneKind false && !has 1 (fun p => !p.complex)) || (s.zoneKind true && !has 1 Pool.complex)

/-- A cell belongs to two pools. -/
def cellTwice (ps : List Pool) : Bool :=
  (ps.zipIdx).any (fun a => (ps.zipIdx).any (fun b => decide (a.2 < b.2) && (Pool.mask a.1 &&& Pool.mask b.1) != 0))

/-- POOL_SET. -/
def execPoolSet (c : Fin 9) (s : State) : Res :=
  s.command { code := cPoolSet, s := true, lo := 5, hi := 5 } c.val noLeg (fun cmd t =>
    let p := poolOfWords cmd.w
    if cmd.badItem 0 8 || badImage F.POOL_CFG.kind (wat cmd.w 1) || 2 < p.work then no .param
    else
      let ps := (vset t.poolsLatest (cmd.p 0) p).toList
      if p.mixed || cellTwice ps || t.poolMissing ps then no .loftPool
      else t.stamped cmd anyTrace cmd.w [] (fun _ => []))

/-! ### ZONE_SET, ZONE_PARAM, ZONE_ENABLE (R229 to R233, R240) -/

/-- Ranges of a ZONE_SET (Table 13.9). -/
def zoneRangeBad (cmd : Cmd) : Bool :=
  let cfg := wat cmd.w 1
  let n := fget cfg F.ZONE_CFG.N_DET
  let every := fget cfg F.ZONE_CFG.EVERY
  let count := fget (wat cmd.w 2) F.ZONE_SPAN.COUNT
  let det (d : Nat) : Bool :=
    let w := wat cmd.w (5 + d)
    badImage F.DET_CFG.kind w || fget w F.DET_CFG.WIN == 0 || fget w F.DET_CFG.K_SET == 0 ||
      decide (fget w F.DET_CFG.WIN < fget w F.DET_CFG.K_SET) || decide (fget w F.DET_CFG.K_SET ≤ fget w F.DET_CFG.K_CLEAR)
  cmd.badItem 0 256 || badImage F.ZONE_SPAN.kind (wat cmd.w 2) || badImage F.ZONE_OUT.kind (wat cmd.w 3) || badImage F.ZONE_APPLY.kind (wat cmd.w 4) ||
    fget cfg F.ZONE_CFG.SOURCE == 3 || decide (8 < n) || every == 0 || decide (4096 < every) || count == 0 || decide (4096 < count) ||
    (List.range n).any det

/-- The leg bank under which a change at a placement runs; none while it is held. -/
def State.bankAt (s : State) (leg : Nat) (at_ : Option (Nat × Nat)) : Option LegBank := at_.map (fun a => (s.planAhead leg a.1).1)

/-- What a zone's setting breaks at a placement: binding, page, space, span. `area`: the zone is to be enabled. -/
def State.zoneError (s : State) (z : Nat) (w : ZoneWant) (at_ : Option (Nat × Nat)) (area : Bool) : Option Status :=
  let img := fget w.cfg F.ZONE_CFG.PROGRAM
  if s.zoneBindBad w (at_.map (·.1)) then some .zoneBind
  else if w.pageBad then some .zoneParam
  else if 65536 < w.stateLen s.loft + s.loft.initBytes img || (area && decide (pageArea < s.pageTotal [z] + w.bytes s.loft)) then some .zoneSpace
  else
    match s.bankAt (fget w.cfg F.ZONE_CFG.LEG) at_ with
    | some b => if w.spanBad b then some .zoneSpan else none
    | none => none

/-- ZONE_SET; without a bulk payload the words after the detectors are the page. -/
def execZoneSet (c : Fin 9) (s : State) : Res :=
  s.command { code := cZoneSet, s := true, lo := 5, hi := 15, bulk := 1 } c.val noLeg (fun cmd t =>
    let z := cmd.p 0
    let n := fget (wat cmd.w 1) F.ZONE_CFG.N_DET
    let page := if cmd.hasBulk then cmd.bulk else bytesOfWords (cmd.w.drop (5 + n))
    if n ≤ 8 && (cmd.w.length < 5 + n || (cmd.hasBulk && 5 + n < cmd.w.length)) then no .length
    else if zoneRangeBad cmd then no .param
    else
      let w : ZoneWant := { pages := 0, cfg := wat cmd.w 1, span := wat cmd.w 2, out := wat cmd.w 3, param := page }
      match t.place cmd anyTrace with
      | .error e =>
        match t.zoneError z w (some (t.probe.frameBase, 0)) (fbit w.cfg F.ZONE_CFG.ENABLE) with
        | some st => no st
        | none => .refuse e
      | .ok at_ =>
        match t.zoneError z w at_ (fbit w.cfg F.ZONE_CFG.ENABLE) with
        | some st => no st
        | none =>
          if 64 ≤ t.waitingChanges then no .busy
          else
            let (t1, word) := t.placePages z w
            .done (effWords at_ ++ t1.frameWords at_ ++ [w32 (fget word F.ZONE_PAGE.PARAM_AT), w32 (fget word F.ZONE_PAGE.STATE_AT)])
              (t1.stamp cmd at_ ([wat cmd.w 0, word] ++ (cmd.w.drop 1).take (4 + n)) page false))

/-- ZONE_PARAM: the page keeps the lengths of the page before (R233). -/
def execZoneParam (c : Fin 9) (s : State) : Res :=
  s.command { code := cZoneParam, s := true, lo := 1, hi := 1, bulk := 2 } c.val noLeg (fun cmd t =>
    if cmd.badItem 0 256 then no .param
    else
      match t.zoneLatest (cmd.p 0) with
      | none => no .zoneParam
      | some w =>
        let v := { w with param := cmd.bulk }
        if v.pageBad || v.param.length != w.param.length || v.stateLen t.loft != w.stateLen t.loft then no .zoneParam
        else t.stamped cmd anyTrace cmd.w cmd.bulk (fun _ => []))

/-- The first error of a ZONE_ENABLE over its zones, with the zone in DETAIL. -/
def State.enableError (s : State) (zs : List Nat) (at_ : Option (Nat × Nat)) : Option Err :=
  let bad := zs.filterMap (fun z =>
    match s.zoneLatest z with
    | none => some ({ status := .zoneBind, detail := z } : Err)
    | some w => (s.zoneError z w at_ false).map (fun st => { status := st, detail := z }))
  let need := zs.foldl (fun n z => n + ((s.zoneLatest z).map (fun w => w.bytes s.loft)).getD 0) 0
  match bad with
  | e :: _ => some e
  | [] => if pageArea < s.pageTotal zs + need then some { status := .zoneSpace } else none

/-- Pages are packed again once zones that had none to hold are to be enabled. -/
def State.packAll (s : State) : State := (s.repack 256 { pages := 0, cfg := 0, span := 0, out := 0, param := [] }).1

/-- ZONE_ENABLE. -/
def execZoneEnable (c : Fin 9) (s : State) : Res :=
  s.command { code := cZoneEnable, s := true, lo := 3, hi := 3 } c.val noLeg (fun cmd t =>
    let a := cmd.p 0
    let b := cmd.p 1
    let on := cmd.p 2 = 1
    if 255 < a || 255 < b || b < a || 1 < cmd.p 2 then no .param
    else
      let zs := (List.range (b + 1 - a)).map (a + ·)
      match t.place cmd anyTrace with
      | .error e =>
        match (if on then t.enableError zs (some (t.probe.frameBase, 0)) else none) with
        | some x => .refuse x
        | none => .refuse e
      | .ok at_ =>
        match (if on then t.enableError zs at_ else none) with
        | some x => .refuse x
        | none =>
          if 64 ≤ t.waitingChanges then no .busy
          else
            let u := t.stamp cmd at_ cmd.w [] false
            let fresh := on && zs.any (fun z => !((t.zone z).on || t.zoneOnLatest z))
            .done (effWords at_) (if fresh then u.packAll else u))

end Sys2Proof.Machine
end

