-- ==== Sys2Proof/Machine/CmdQuery.lean ====
section
/-! DEFINITION. The query commands (class Q of Table 20.3) but for the plan's: what they answer (R368, R442, Table 20.6). -/

namespace Sys2Proof.Machine

/-! ### The device -/

/-- IDENTIFY (Table 20.6). -/
def execIdentify (c : Fin 9) (s : State) : Res :=
  s.command { code := 0x001, q := true, lo := 0, hi := 0 } c.val noLeg (fun _ t =>
    let v := t.boot.image.toNat
    .done ([0x8650, w32 (fget t.host.idDevice ⟨16, 8⟩), w32 (nbits v 16 8), w32 (nbits v 8 8), w32 (nbits v 0 8), w32 (nbits v 24 8)] ++
      w64 t.host.serial ++ [w32 t.larder.wear]) t)

/-- The current trace of a leg's lowest active row; all ones while it is off or has launched nothing. -/
def State.traceNow (s : State) (leg : Nat) : Nat :=
  if !s.legOn leg || (vget s.probe.frame leg 0 == 0 && vget s.probe.next leg 0 == 0) then allOnes64
  else s.traceOf leg (s.legBank leg).lowest (s.currentFrame leg - s.probe.frameBase)

/-- STATUS (Table 20.6). -/
def execStatus (c : Fin 9) (s : State) : Res :=
  s.command { code := 0x002, q := true, lo := 0, hi := 0 } c.val noLeg (fun _ t =>
    .done ([w32 t.fw.mode, w32 (t.legOn 0).toNat, w32 (t.legOn 1).toNat] ++ w64 (t.traceNow 0) ++ w64 (t.traceNow 1) ++
      [w32 ((t.fw.long.map (·.code)).getD 0), w32 t.safe.toNat, w32 (t.fc.sources.toList.filter (·.raised)).length]) t)

/-- PROGRESS (R366): what PROG_STAT and PROG_VALUE hold. -/
def execProgress (c : Fin 9) (s : State) : Res :=
  s.command { code := 0x003, q := true, lo := 0, hi := 0 } c.val noLeg (fun _ t =>
    let p := t.host.progStat
    .done [w32 (fget p F.PROG_STAT.CODE), w32 (fget p F.PROG_STAT.STATE), t.host.progValue, w32 (fget p F.PROG_STAT.UNIT)] t)

/-! ### Zones and records -/

/-- ZONE_READ: ZONEz_STAT and the eight DETz_d_STAT. -/
def execZoneRead (c : Fin 9) (s : State) : Res :=
  s.command { code := 0x03B, q := true, lo := 1, hi := 1 } c.val noLeg (fun cmd t =>
    if cmd.badItem 0 256 then no .param
    else
      let x := t.zone (cmd.p 0)
      .done (x.stat :: x.det.toList.map (·.stat)) t)

/-- RECORD_LIST: records whose header is written, from the lowest SEQ at or above the first SEQ. -/
def execRecordList (c : Fin 9) (s : State) : Res :=
  s.command { code := 0x044, q := true, lo := 3, hi := 3 } c.val noLeg (fun cmd t =>
    if cmd.p 2 = 0 || 64 < cmd.p 2 then no .param
    else
      let hits := (t.trig.store.filter (fun r => wat64 cmd.w 0 ≤ r.seq)).take (cmd.p 2)
      .done (hits.flatMap (fun r => w64 r.seq ++ [w32 r.unit] ++ w64 r.fireTime ++ [w32 r.size, w32 r.flags])) t)

/-! ### Survey -/

/-- Items of a survey: length, reflections as position and strength, loss, baseline; none where the survey gives none (R38, R39). -/
def State.surveyItem (s : State) (leg item : Nat) : Option (List (List Nat)) :=
  let v := vget s.fw.survey leg {}
  let refl := vget s.larder.surveyReflections leg []
  match item with
  | 0 => if v.on then some [[v.length]] else if vget s.larder.surveyLength leg 0 = 0 then none else some [[vget s.larder.surveyLength leg 0]]
  | 1 =>
    let l := if v.on then v.reflections else refl
    if !v.on && vget s.larder.surveyLength leg 0 = 0 then none else some (l.map (fun r => [r.1, r.2]))
  | 2 => if v.on then some (v.loss.map (fun x => [x])) else none
  | _ => if v.on then some (v.baseline.map (fun x => [x])) else none

/-- SURVEY_READ: the values asked for; a series holds at most 256 messages, 3,839 words beside its headers and status. -/
def execSurveyRead (c : Fin 9) (s : State) : Res :=
  s.command { code := 0x060, q := true, lo := 4, hi := 4 } c.val legFirst (fun cmd t =>
    if cmd.badItem 0 2 || cmd.badItem 1 4 then no .param 0 0xFF
    else
      match t.surveyItem (cmd.p 0) (cmd.p 1) with
      | none => no .noSurvey
      | some l =>
        let words := ((l.drop (cmd.p 2)).take (cmd.p 3)).flatten
        if 3839 < words.length then no .param else .done (words.map w32) t)

/-! ### Time and tachs -/

/-- TACH_STATUS (R281, R282): in REST, with the front domain off, a stopped tach. -/
def execTachStatus (c : Fin 9) (s : State) : Res :=
  s.command { code := 0x06C, q := true, lo := 1, hi := 1 } c.val noLeg (fun cmd t =>
    if cmd.badItem 0 8 then no .param
    else
      let k := vget t.tach (cmd.p 0) {}
      if !t.power.front then .done [0, 0, 0xFFFFFFFF, 0, 1] t
      else .done (w64 k.count ++ [w32 k.period, w32 (wrapTo 32 k.speed), k.stat]) t)

/-- TIME_READ (R273): device time to 40 ns, TIME_STAT, TB_STEER, the PTP offset while PTP is in use. -/
def execTimeRead (c : Fin 9) (s : State) : Res :=
  s.command { code := 0x06D, q := true, lo := 0, hi := 0 } c.val noLeg (fun _ t =>
    let offset := if t.srcInUse = 4 || t.srcInUse = 5 then divHalfAway t.time.ptp.offset 65536 else 0
    .done (w64 (t.now / 160 * 160) ++ [t.timeStatWord, t.time.steer, w32 (wrapTo 32 offset)]) t)

/-! ### Faults and the log -/

/-- FAULT_READ: five words a source. -/
def execFaultRead (c : Fin 9) (s : State) : Res :=
  s.command { code := 0x070, q := true, lo := 2, hi := 2 } c.val noLeg (fun cmd t =>
    let n := cmd.p 0
    let k := cmd.p 1
    if 127 < n || k = 0 || 32 < k || 128 < n + k then no .param
    else .done ((List.range k).flatMap (fun i =>
      let f := t.source (n + i)
      let state := f.raised.toNat + 2 * f.cond.toNat + 4 * (fbit f.src F.FC_SRC.EN).toNat
      ([n + i, state, fget f.src F.FC_SRC.SEVERITY, fget f.src F.FC_SRC.REACT, f.history.length] : List Nat).map w32)) t)

/-- Nine words of a log entry. -/
def LogEntry.words (e : LogEntry) : List Word :=
  w32 e.number :: w64 e.time ++ [w32 e.kind, w32 e.source, w32 e.detail, w32 e.arg, w32 e.severity, w32 e.reactions]

/-- An entry in its place by number. -/
def insertEntry (e : LogEntry) : List LogEntry → List LogEntry
  | [] => [e]
  | x :: xs => if e.number ≤ x.number then e :: x :: xs else x :: insertEntry e xs

/-- Fault history and event log in entry-number order. -/
def Larder.entries (l : Larder) : List LogEntry := l.faultLog.foldr insertEntry (l.eventLog.foldr insertEntry [])

/-- LOG_READ. -/
def execLogRead (c : Fin 9) (s : State) : Res :=
  s.command { code := 0x073, q := true, lo := 2, hi := 2 } c.val noLeg (fun cmd t =>
    let k := cmd.p 1
    if k = 0 || 64 < k then no .param
    else .done (((t.larder.entries.filter (fun e => cmd.p 0 ≤ e.number)).take k).flatMap LogEntry.words) t)

end Sys2Proof.Machine
end

