-- ==== Sys2Proof/Machine/CmdTrig.lean ====
section
/-! DEFINITION. Commands of the trigger units and the record store (R255 to R263, R368). -/

namespace Sys2Proof.Machine

/-! ### TRIG_SET (R255, R258, R259, Table 14.5) -/

/-- The bank in force at frame f, over all plans. -/
def State.bankAhead (s : State) (f : Nat) : Bank :=
  match s.probe.pending with
  | some p =>
    match p.atFrame with
    | some e => if p.mode != 0 && s.globalFrame e ≤ f then p.bank else s.probe.active
    | none => s.probe.active
  | none => s.probe.active

/-- Ranges of a TRIG_SET. -/
def trigRangeBad (cmd : Cmd) : Bool :=
  let w := cmd.w
  cmd.badItem 0 16 || badImage F.TRIG_CFG.kind (wat w 1) || badImage F.TRIG_PRE.kind (wat w 2) || badImage F.TRIG_POST.kind (wat w 3) ||
    badImage F.TRIG_HOLD.kind (wat w 4) || badImage F.TRIG_FIRST.kind (wat w 5) || badImage F.TRIG_COUNT.kind (wat w 6) ||
    badImage F.TRIG_INTERVAL.kind (wat w 7) || decide (2 ^ 24 ≤ cmd.p 8) || fget (wat w 1) F.TRIG_CFG.LEGS == 0 || wat w 3 == 0 || wat w 8 == 0 ||
    decide (cmd.p 7 < 2) || decide (65536 < cmd.p 7)

/-- TRIG_SET: the response's HOLD is the one in force; while the change is held it is the carried one. -/
def execTrigSet (c : Fin 9) (s : State) : Res :=
  s.command { code := cTrigSet, s := true, lo := 9, hi := 9, bulk := 2 } c.val noLeg (fun cmd t =>
    let n := TrigConfig.ofWords (cmd.w.drop 1) cmd.bulk
    if cmd.bulk.length != 512 then no .length
    else if trigRangeBad cmd then no .param
    else if fbit n.cfg F.TRIG_CFG.SRC_PAT && n.care.all (· == 0) then no .trigPattern
    else
      match t.place cmd anyTrace with
      | .error e => if t.trigSpanBad n t.probe.active || t.holdBad n t.probe.active then no .trigSpan else .refuse e
      | .ok at_ =>
        let b := t.bankAhead ((at_.map (·.1)).getD 0)
        let bad := match at_ with
          | some _ => t.trigSpanBad n b || t.holdBad n b
          | none => t.trigSpanBad n {}
        if bad then no .trigSpan
        else if 64 ≤ t.waitingChanges then no .busy
        else
          let hold := if n.holdMin && at_.isSome then t.holdMin n b % 2 ^ 24 else n.holdN
          .done (effWords at_ ++ [w32 hold]) (t.stamp cmd at_ cmd.w cmd.bulk false))

/-! ### ARM and DISARM (R256, R260) -/

/-- The mask names a ring unit, and this device is not the ring's master. -/
def State.notMaster (s : State) (mask : Nat) : Bool := !s.cwMaster && (onesOf mask 16).any (fun u => (s.unitLatest u).ring)

/-- ARM and DISARM. -/
def State.armCommand (cmd : Cmd) (s : State) : Reply :=
  let mask := cmd.p 0
  if 2 ^ 16 ≤ mask then no .param
  else if s.notMaster mask then no .notMaster
  else
    match s.place cmd anyTrace with
    | .error e => .refuse e
    | .ok at_ =>
      if 64 ≤ s.waitingChanges then no .busy
      else
        let t := s.stamp cmd at_ cmd.w [] false
        .done (effWords at_ ++ s.frameWords at_)
          (match at_ with | some a => if cmd.code = cArm then t.armTokens mask (s.boundaryAhead a.1 % 2 ^ 64) else t | none => t)

/-- ARM. -/
def execArm (c : Fin 9) (s : State) : Res :=
  s.command { code := cArm, s := true, lo := 1, hi := 1 } c.val noLeg (fun cmd t => t.armCommand cmd)

/-- DISARM. -/
def execDisarm (c : Fin 9) (s : State) : Res :=
  s.command { code := cDisarm, s := true, lo := 1, hi := 1 } c.val noLeg (fun cmd t => t.armCommand cmd)

/-! ### FIRE (R255, R261) -/

/-- The frame of a ring in which a device time lies, of its present epoch (R253). -/
def Ring.frameAtTime (r : Ring) (t : Nat) : Option FrameEntry :=
  (r.index.filter (fun e => decide (r.epoch ≤ e.frame) && decide (e.time ≤ t) && decide (t < e.time + 10 * e.tF))).getLast?

/-- First and last frame whose rows a ring still holds, of its present epoch: no record reaches those before (R253). -/
def Ring.span (r : Ring) : Option (Nat × Nat) :=
  match r.rows.filter (fun x => !r.lost x && decide (r.epoch ≤ x.frame)) with
  | [] => none
  | x :: xs => some (xs.foldl (fun m y => min m y.frame) x.frame, xs.foldl (fun m y => max m y.frame) x.frame)

/-- Trace of a leg's lowest slot row in a frame of a ring; all ones where it holds none. -/
def Ring.traceIn (r : Ring) (leg frame : Nat) : Nat :=
  match r.rows.filter (fun x => x.leg == leg && x.frame == frame) with
  | [] => allOnes64
  | x :: xs => (xs.foldl (fun (m : RingRow) y => if y.row < m.row then y else m) x).trace

/-- The vector of a frame that is no longer held: 64 open words, one value for each frame (R20; DEDUCED, log entry 74). -/
def openVector (time : Nat) : List Word := (List.range 64).map (fun i => w32 (Config.openValue 8 [time, i]).toNat)

/-- A FIRE into the retained ring (R261, R263): the record is taken at once. The vector of that frame is no longer held: free words. -/
def State.fireRetained (u time : Nat) (s : State) : Except Err (Nat × State) :=
  let x := s.unit u
  let r := s.cellar.ring x.c.dec
  match r.frameAtTime time, r.span with
  | some e, some (a, b) =>
    if e.frame < a || b < e.frame then .error { status := .param }
    else
      let pre := min x.c.preN (e.frame - a)
      let post := min x.c.postN (b + 1 - e.frame)
      let cut := decide (pre < x.c.preN) || decide (post < x.c.postN)
      let trace (leg : Nat) : Nat := if x.c.hasLeg leg then r.traceIn leg e.frame else allOnes64
      let first := (e.time + 2 ^ 64 - pre * (10 * e.tF)) % 2 ^ 64
      let rows := (r.rows.filter (fun y => x.c.hasLeg y.leg && decide (e.frame - pre ≤ y.frame) && decide (y.frame < e.frame + post))).length
      let rec_ : Record :=
        { key := s.trig.nextKey, unit := u, c := x.c, fireFrame := e.frame, fireTime := e.time, fireTrace := #v[trace 0, trace 1], firstTime := first
          pre, post, cause := 2, flags := 8 + cut.toNat, early := x.early, rearms := x.rearms, vector := openVector e.time, seq := some s.trig.nextSeq
          need := 640 + (if x.c.overview then cdiv rows x.c.intervalN * x.c.intervalBytes + x.c.intervalBytes else rows * x.c.sliceBytes) }
      let stat := finc (if cut then fset x.stat F.TRIG_STAT.TRUNCATED 1 else x.stat) F.TRIG_STAT.RECORDS
      let s2 := s.setUnit u { x with early := 0, rearms := 0, stat, fireLo := w32 e.time, fireHi := w32 (e.time / 2 ^ 32), lastRecord := some rec_.key }
      .ok (e.time, { s2 with trig := { s2.trig with
        fired := s2.trig.fired ++ [rec_], nextKey := s2.trig.nextKey + 1, nextSeq := s2.trig.nextSeq + 1 } })
  | _, _ => .error { status := .param }

/-- FIRE: in REST with a device time, otherwise with the unit alone. -/
def execFire (c : Fin 9) (s : State) : Res :=
  let n := if s.inRest then 3 else 1
  s.command { code := cFire, s := true, lo := n, hi := n } c.val noLeg (fun cmd t =>
    if cmd.badItem 0 16 then no .param
    else if t.inRest then
      match t.fireRetained (cmd.p 0) (wat64 cmd.w 1) with
      | .error e => .refuse e
      | .ok (f, u) => .done (effWords none ++ w64 f) u
    else if (t.unit (cmd.p 0)).state = .idle then no .notArmed
    else t.stamped cmd anyTrace cmd.w [] (fun at_ => t.frameWords at_))

/-! ### RECORD_DELETE -/

/-- RECORD_DELETE: records of the range whose header is written. -/
def execRecordDelete (c : Fin 9) (s : State) : Res :=
  s.command { code := 0x045, lo := 4, hi := 4 } c.val noLeg (fun cmd t =>
    let a := wat64 cmd.w 0
    let b := wat64 cmd.w 2
    let gone (r : Stored) : Bool := decide (a ≤ r.seq) && decide (r.seq ≤ b)
    .done [w32 (t.trig.store.filter gone).length] { t with trig := { t.trig with store := t.trig.store.filter (fun r => !gone r) } })

end Sys2Proof.Machine
end

