-- ==== Sys2Proof/Machine/CmdStream.lean ====
section
/-! DEFINITION. Commands of the output streams (R300, R301, R310, R313, R368). -/

namespace Sys2Proof.Machine

/-- Payload bytes of a datagram that a port's MTU admits behind its IP and UDP headers. -/
def State.dgramLimit (s : State) (dest : Nat) : Nat :=
  let d := vget s.porch.eth.dest dest {}
  let m := fget (vget s.porch.eth.port d.port {}).cfg F.ETH_CFG.MTU64
  (if 141 ≤ m then 9000 else 64 * m) - (if d.v6 then 48 else 28)

/-- Ranges of a STREAM_SET (Table 17.7). -/
def State.streamRangeBad (s : State) (w : List Word) : Bool :=
  let t := ({} : Stream).define (w.drop 1)
  let cfg := wat w 1
  let src := t.source
  let legs := fget cfg F.STR_CFG.LEGS == 0 && [2, 3, 4, 6].contains src
  let sel := fget t.sel F.STR_SEL.SEL
  let flush := fget cfg F.STR_CFG.FLUSH_MS
  let dgram := fget t.udp F.STR_UDP.DGRAM
  let stage := fget t.udp F.STR_UDP.STAGE
  decide (7 < (wat w 0).toNat) || badImage F.STR_CFG.kind cfg || fbit cfg F.STR_CFG.ENABLE || badImage F.STR_SPAN.kind (wat w 2) ||
    badImage F.STR_SEL.kind (wat w 3) || badImage F.STR_UDP.kind (wat w 6) || src == 7 || legs ||
    (src == 5 && decide (sel / 256 < sel % 256)) || (src != 1 && src != 5 && sel != 0) || flush == 0 || decide (1000 < flush) ||
    t.head % 32 != 0 || decide (dgram < 64) || decide (1119 < dgram) || stage == 0 || decide (256 < stage) ||
    (t.udpCarrier && decide (s.dgramLimit (fget t.udp F.STR_UDP.DEST) < 8 * dgram))

/-- The plan whose L a slice is judged by. -/
def State.bankNow (s : State) : Option Bank := if s.measuring then some s.probe.active else none

/-- The words of a STREAM_SET are those of the stream, whose HEAD a PCIe reset has cleared: they supply a new chain (Table 17.5, R319). -/
def Stream.rechained (t : Stream) (ws : List Word) : Bool :=
  let u := t.define ws
  t.running && t.redefine.isNone && t.head == 0 && !t.udpCarrier && (u.cfg &&& 0x3FFFFE) == (t.cfg &&& 0x3FFFFE) && u.span == t.span && u.sel == t.sel && u.udp == t.udp

/-- STREAM_SET: on a running stream, a redefinition (Table 17.5). -/
def execStreamSet (c : Fin 9) (s : State) : Res :=
  s.command { code := 0x048, lo := 7, hi := 7 } c.val noLeg (fun cmd t =>
    let n := cmd.p 0
    let ws := cmd.w.drop 1
    let x := t.stream n
    if t.streamRangeBad cmd.w then no .param
    else if t.streamSelBad n (x.define ws) t.bankNow then no .streamSel
    else if x.rechained ws then .done [] (t.setStream n { x with headLo := wat ws 3, headHi := wat ws 4, lastDesc := 0 })
    else if x.running then .done [] (t.setStream n { x with redefine := some ws, ending := some (x.ending.getD 2) })
    else .done [] (t.setStream n (x.define ws)))

/-- A start of stream n waits for its trace. -/
def State.startWaits (s : State) (n : Nat) : Bool := s.fw.stamped.any (fun p => p.code == cStreamStart && p.item == n)

/-- STREAM_START: PARAM for a stream that runs or is to start already. -/
def execStreamStart (c : Fin 9) (s : State) : Res :=
  s.command { code := cStreamStart, s := true, lo := 1, hi := 1 } c.val noLeg (fun cmd t =>
    let n := cmd.p 0
    let x := t.stream n
    if 7 < n || x.running || t.startWaits n then no .param
    else
      match t.place cmd anyTrace with
      | .error e => if x.source == 0 || t.streamSelBad n x t.bankNow then no .streamSel else .refuse e
      | .ok at_ =>
        if x.source == 0 || t.streamSelBad n x (at_.map (fun a => t.bankAhead a.1)) then no .streamSel
        else if 64 ≤ t.waitingChanges then no .busy
        else .done (effWords at_) (t.stamp cmd at_ cmd.w [] false))

/-- STREAM_STOP: no item is taken after its acceptance (R365); a stream that does not run is left as it is. -/
def execStreamStop (c : Fin 9) (s : State) : Res :=
  s.command { code := cStreamStop, s := true, lo := 1, hi := 1 } c.val noLeg (fun cmd t =>
    let n := cmd.p 0
    let x := t.stream n
    if 7 < n then no .param
    else if x.running && x.ending.isSome then no .streamStopping
    else
      match t.place cmd anyTrace with
      | .error e => .refuse e
      | .ok at_ => .done (effWords at_) (t.setStream n (x.endWith 1)))

end Sys2Proof.Machine
end

