-- ==== Sys2Proof/Machine/CmdSys.lean ====
section
/-! DEFINITION. Commands of calibration, the time base, the TIU, the tachs and the faults (R104, R106, R112, R114, R269, R270, R274, R277, R283, R368, R390,
R399). -/

namespace Sys2Proof.Machine

/-! ### Calibration and retrims -/

/-- CALIBRATE (R112, R366, R367): the front domain is powered with the optics off and self-calibration begins. A REST whose fades and power-down are still
to come refuses it as not yet REST (DEDUCED, log entry 97). -/
def execCalibrate (c : Fin 9) (s : State) : Res :=
  s.command { code := 0x058, l := true, r := true, lo := 1, hi := 1 } c.val noLeg (fun cmd t =>
    if t.fw.optical != .idle then no .notRest
    else if 63 < cmd.p 0 then no .param
    else
      match t.takeLock (wat cmd.w 0) with
      | .error e => .refuse e
      | .ok (t1, lock) =>
        .later (({ t1.powerFront with fw := { t1.fw with startState := false } }.startLong cmd lock 0).startSelfCal))

/-- RETRIM_DEFER (R106): a new deferral replaces the old one; whether a retrim is due, and its latest start. -/
def execRetrimDefer (c : Fin 9) (s : State) : Res :=
  s.command { code := 0x059, lo := 1, hi := 1 } c.val noLeg (fun cmd t =>
    if 600 < cmd.p 0 then no .param
    else
      let latest := match t.trim.due with | some d => (d + 600 * sec) % 2 ^ 64 | none => allOnes64
      .done (w32 t.trim.due.isSome.toNat :: w64 latest) (t.setTrim { t.trim with defer := fset t.trim.defer F.TRIM_DEFER.SECONDS (cmd.p 0) }))

/-- TRIM_SET (R104, R114): TH 8 to 128; ENABLE needs a sweep that covers the die sensors; TH is gated by ENABLE. -/
def execTrimSet (c : Fin 9) (s : State) : Res :=
  s.command { code := 0x05A, lo := 1, hi := 1 } c.val noLeg (fun cmd t =>
    let w := wat cmd.w 0
    let th := fget w F.TRIM_CFG.TH
    if badImage F.TRIM_CFG.kind w || th < 8 || 128 < th || (fbit w F.TRIM_CFG.ENABLE && !t.thr.hk.coversDie) then no .param
    else
      let r := regWrite F.TRIM_CFG.kind (fbit t.trim.cfg F.TRIM_CFG.ENABLE) t.trim.cfg w
      let t1 := t.setTrim { t.trim with cfg := r.word }
      let t2 := if r.ignored then { t1 with thr := { t1.thr with stat := fset t1.thr.stat F.THR_STAT.WRITE_IGNORED 1, wi := 0x300 } } else t1
      .done [] (t2.keepAltered r.keepAltered))

/-! ### The time base -/

/-- Ranges of TIME_CFG (R272, Tables 15.2 and 15.5). -/
def timeCfgBad (cmd : Cmd) : Bool :=
  let w := wat cmd.w 0
  let hold := fget w F.TB_CFG.HOLD_MAX
  let sync := sx 32 (cmd.p 4)
  let ann := sx 32 (cmd.p 5)
  badImage F.TB_CFG.kind w || fget w F.TB_CFG.SRC == 7 || hold == 0 || decide (86400 < hold) || decide (1 < cmd.p 1) || decide (1 < cmd.p 2) ||
    decide (127 < cmd.p 3) || decide (sync < -7) || decide (4 < sync) || decide (ann < -3) || decide (4 < ann) || decide (cmd.p 6 < 2) ||
    decide (10 < cmd.p 6) || decide (1 < cmd.p 7)

/-- TIME_CFG (R269, R272, R274): a new source gives its first phase error under R270. -/
def execTimeCfg (c : Fin 9) (s : State) : Res :=
  s.command { code := 0x068, lo := 8, hi := 8 } c.val noLeg (fun cmd t =>
    if timeCfgBad cmd then no .param
    else
      let keep := F.TB_CFG.kind.keep
      let w := wat cmd.w 0
      let ptp := t.time.ptp.configure { port := cmd.p 1, profile := cmd.p 2, domain := cmd.p 3, logSync := sx 32 (cmd.p 4), logAnnounce := sx 32 (cmd.p 5)
                                        receiptTimeout := cmd.p 6, role := cmd.p 7 }
      .done [] ((t.takeTimeCfg w ptp).keepAltered (w &&& keep != t.time.cfg &&& keep)))

/-- TIME_SET (R270). -/
def execTimeSet (c : Fin 9) (s : State) : Res :=
  s.command { code := 0x069, lo := 2, hi := 2 } c.val noLeg (fun cmd t =>
    if t.planRuns then no .timeRunning
    else
      let v := wat64 cmd.w 0
      let t1 := (t.withTime { t.time with seconds := true }).stepTime v
      .done (w64 t1.now) t1)

/-- Sources 0xE and 0xF of Table 15.6 are reserved; `cfg`, `sel`: TIU_CFG and TIU_STOPSEL. -/
def tiuSourceBad (cfg sel : Word) : Bool :=
  decide (14 ≤ fget cfg F.TIU_CFG.START) || (List.range (fget cfg F.TIU_CFG.NSTOP + 1)).any (fun j => decide (14 ≤ nbits sel.toNat (4 * j) 4))

/-- TIU_MEASURE (R277): the measurement is set up and starts with TIU_GO; its results answer the command. -/
def execTiuMeasure (c : Fin 9) (s : State) : Res :=
  s.command { code := 0x06A, lo := 2, hi := 2 } c.val noLeg (fun cmd t =>
    let cfg := wat cmd.w 0
    if badImage F.TIU_CFG.kind cfg || !fbit cfg F.TIU_CFG.ENABLE || tiuSourceBad cfg (wat cmd.w 1) then no .param
    else if t.tiu.phase != .idle || t.tiu.asker.isSome then no .busy
    else .later (t.withTiu { t.tiu with
      cfg, stopSel := wat cmd.w 1, stat := t.tiu.stat &&& ~~~F.TIU_STAT.kind.w1c, asker := some (c.val, cmd.tag), askerUdp := cmd.udp }))

/-! ### Tachs (R278 to R283) -/

/-- The first frame, over all plans, that begins after now. -/
def State.frameAfter (s : State) : Nat := s.globalFrame (s.frameFrom (s.now + 1))

/-- TACH_CFG. -/
def execTachCfg (c : Fin 9) (s : State) : Res :=
  s.command { code := 0x06B, lo := 4, hi := 4 } c.val noLeg (fun cmd t =>
    let n := cmd.p 0
    let w := wat cmd.w 1
    let stall := cmd.p 2
    let quadMate := n % 2 = 1 && fbit (t.tachOf (n - 1)).cfgCopy F.TACH_CFG.QUAD && fbit w F.TACH_CFG.ENABLE
    if cmd.badItem 0 8 || badImage (tachCfgKind n) w || fget w F.TACH_CFG.EDGE == 3 || stall = 0 || 65535 < stall || quadMate then no .param
    else
      let k := t.tachOf n
      let k1 := { k with cfgCopy := w, stallCopy := w32 stall, distanceNm := cmd.p 3 }
      if !t.power.front then .done (w64 allOnes64) (t.setTach n k1)
      else
        let was := fbit k.cfg F.TACH_CFG.ENABLE
        let now := fbit w F.TACH_CFG.ENABLE
        let changed := (w &&& (tachCfgKind n).rwe) != (k.cfg &&& (tachCfgKind n).rwe) || w32 stall != k.stall
        let k2 := { k1 with cfg := w, stall := w32 stall }
        let t1 := t.setTach n (if now && (!was || changed) then k2.enable t.time.up else k2)
        let bound := t.loft.zone.toList.any (fun z => fbit z.cfg F.ZONE_CFG.ENABLE && fbit z.cfg F.ZONE_CFG.TACH_EN && fget z.cfg F.ZONE_CFG.TACH == n)
        if was && now && changed && bound && t.measuring && t.probe.running then
          let f := t1.frameAfter
          .done (w64 (t1.boundaryAhead f % 2 ^ 64)) (t1.restartZones f (fun z => z.tach == some n))
        else .done (w64 allOnes64) t1)

/-! ### Faults (R390, R397 to R399) -/

/-- A fault source's cause is present: an L condition that holds, or COLLECTOR_CFG, which only POR clears (R390, R397). -/
def State.causePresent (s : State) (n : Nat) : Bool := (s.source n).cond || n == srcCollectorCfg

/-- One raised source is cleared: its history empties, the FAULT event and the fault history say so (R390, R392). -/
def State.clearSource (n : Nat) (s : State) : State :=
  let f := s.source n
  let s1 := s.faultEvent n f false
  let s2 := s1.logFault 1 n f.detail (fget f.src F.FC_SRC.SEVERITY) f.applied
  s2.setSource n { f with raised := false, applied := 0, history := [] }

/-- Sources of a mask of four words. -/
def maskSources (ws : List Word) : List Nat := (List.range 128).filter (fun n => nbit (wat ws (n / 32)).toNat (n % 32))
/-- And back. -/
def sourceMask (ns : List Nat) : List Word :=
  (List.range 4).map (fun i => w32 (ns.foldl (fun m n => if n / 32 = i then m + 2 ^ (n % 32) else m) 0))

/-- FAULT_CLEAR (R390, R397): refused as a whole while one named raised source has its cause. -/
def execFaultClear (c : Fin 9) (s : State) : Res :=
  s.command { code := 0x071, lo := 4, hi := 4 } c.val noLeg (fun cmd t =>
    let ns := (maskSources cmd.w).filter (fun n => (t.source n).raised)
    match ns.find? t.causePresent with
    | some n =>
      .refuseWith { status := .causePresent, detail := n }
        { t with fc := { t.fc with stat := finc (fset t.fc.stat F.FC_STAT.CLEAR_REFUSED 1) F.FC_STAT.CLEAR_REFUSALS } }
    | none =>
      let t1 := (ns.foldl (fun u n => u.clearSource n) t).leaveSafe
      .done (sourceMask ns) { t1 with fc := t1.fc.driveFaultN })

/-- The FC_SRC word that a FAULT_CFG gives; its last word holds W in [17:0] and UNIT in [18] (DEDUCED, log entry 36). -/
def faultCfgWord (cmd : Cmd) (old : Word) : Word :=
  let w := cmd.p 4
  let x := fset (fset (fset old F.FC_SRC.SEVERITY (cmd.p 1)) F.FC_SRC.REACT (cmd.p 2)) F.FC_SRC.K (cmd.p 3)
  fset (fset x F.FC_SRC.W (w % 2 ^ 18)) F.FC_SRC.UNIT (nbits w 18 1)

/-- FAULT_CFG (R391 rule 3, R398, R399): journalled; a change of k or W empties the history. -/
def execFaultCfg (c : Fin 9) (s : State) : Res :=
  s.command { code := 0x072, k := true, lo := 5, hi := 5 } c.val noLeg (fun cmd t =>
    let n := cmd.p 0
    if 127 < n || !sourceListed n || n == srcCollectorCfg || 3 < cmd.p 1 || 63 < cmd.p 2 || cmd.p 3 = 0 || 15 < cmd.p 3 || 2 ^ 19 ≤ cmd.p 4 ||
        cmd.p 4 % 2 ^ 18 = 0 then no .param
    else
      let f := t.source n
      let src := faultCfgWord cmd f.src
      let t1 := t.setSource n (f.configure src)
      let l := t1.larder
      .done [] ({ t1 with larder := { l with
        faultCfg := (n, src) :: l.faultCfg.filter (fun e => e.1 != n), old := { l.old with faultCfg := l.faultCfg } } }.wrote logEntryBytes).watchWear)

end Sys2Proof.Machine
end

