-- ==== Sys2Proof/Machine/Firmware.lean ====
section
/-! DEFINITION. Firmware's visits to its carriers, its outbound messages, bulk waits and aborts (R250, R347, R348, R353, R360 to R363, R366, R371). -/

namespace Sys2Proof.Machine

/-! ### FIRMWARE_TAKE_INBOUND (R348, R353, R363) -/

/-- One visit to channel c: a whole message moves to the pending store while that has room. -/
def State.visit (s : State) (c : Nat) : State :=
  let m := s.chan c
  let held := vget s.fw.inbox c []
  if !m.inFull || 64 ≤ held.length then s
  else
    let s1 := (s.setChan c ({ m with inq := [] }.timer s.time.up true)).takeH2d c
    let r : Request := { msg := m.inq }
    ({ s1 with fw := { s1.fw with inbox := vset s1.fw.inbox c (held ++ [r]) } }).settleAll c

/-- FIRMWARE_TAKE_INBOUND: channels in ascending number, one message each; DB_H2D bits 9 to 15 have no further meaning and are taken. -/
def execFirmwareTakeInbound (s : State) : Res :=
  if !s.fwReady || !s.mbAvailable then .next s
  else
    let s1 := ([9, 10, 11, 12, 13, 14, 15] : List Nat).foldl (fun t b => t.takeH2d b) s
    .next ((List.range 8).foldl State.visit s1)

/-! ### FIRMWARE_OUTBOUND_COMPLETE (R250, R347, R371) -/

/-- The earliest ready of two. -/
def earlier : Option Nat → Option Nat → Bool
  | some a, some b => a ≤ b
  | some _, none => true
  | none, _ => false

/-- An ALARM's DROPPED (Table 13.7 bytes 24 and 25). -/
def withDropped (payload : List Word) (n : Nat) : List Word := payload.set 6 ((wat payload 6 &&& 0xFFFF0000) ||| w32 (n % 65536))

/-- The next event or alarm of queue q, as its series: the state without it. -/
def State.takeEvent (q : Nat) (s : State) : Option (Nat × List Msg × State) :=
  let es := vget s.fw.events q []
  let as_ := vget s.fw.alarms q []
  if earlier (es.head?.map (·.order)) (as_.head?.map (·.order)) then
    match es with
    | [] => none
    | e :: rest => some (e.order, mkSeries 2 e.code 0 (w32 e.seq :: e.payload), { s with fw := { s.fw with events := vset s.fw.events q rest } })
  else
    match as_ with
    | [] => none
    | e :: rest =>
      let n := vget s.fw.alarmDropped q 0
      some (e.order, mkSeries 2 e.code 0 (w32 e.seq :: withDropped e.payload n),
        { s with fw := { s.fw with alarms := vset s.fw.alarms q rest, alarmDropped := vset s.fw.alarmDropped q 0 } })

/-- The event queue of a channel. -/
def eventQueueOf (c : Nat) : Option Nat := if c = 0 then some 0 else if c = 6 then some 1 else none

/-- The next message of a channel in order of readiness, taken from its queue; the rest of an event's series follows it. -/
def State.nextOut (c : Nat) (s : State) : Option (Msg × State) :=
  let out := vget s.fw.out c []
  let ev := (eventQueueOf c).bind (fun q => s.takeEvent q)
  let fromOut : Option (Msg × State) := match out with | [] => none | m :: rest => some (m.msg, { s with fw := { s.fw with out := vset s.fw.out c rest } })
  match ev with
  | none => fromOut
  | some (o, series, t) =>
    if earlier (out.head?.map (·.order)) (some o) then fromOut
    else
      match series with
      | [] => some ([], t)
      | m :: rest => some (m, { t with fw := { t.fw with out := vmod t.fw.out c (fun l => rest.map (fun x => ⟨o, x⟩) ++ l) } })

/-- One message into an empty outbound queue: OUT_FULL, OUT_MSGS, DB_D2H bit c (R347). -/
def State.complete (s : State) (c : Nat) : State :=
  if (s.chan c).outFull then s
  else
    match s.nextOut c with
    | none => s
    | some (m, t) =>
      let ch := t.chan c
      (t.setChan c ({ ch with outq := m, count := finc ch.count F.MB_COUNT.OUT_MSGS }.timer t.time.up false)).ring c

/-- One event to a UDP destination that packets can go to (R321 to R323, R371). -/
def State.completeUdp (s : State) (d : Nat) : State :=
  if !s.destReady d then s
  else
    match s.takeEvent (2 + d) with
    | none => s
    | some (_, series, t) =>
      let e := t.porch.eth
      { t with porch := { t.porch with eth := { e with seq := (e.seq + 1) % 2 ^ 32, sent := e.sent ++ [.event d e.seq series.flatten] } } }

/-- FIRMWARE_OUTBOUND_COMPLETE: the next response, event or alarm of every carrier that is free. -/
def execFirmwareOutboundComplete (s : State) : Res :=
  if !s.fwReady then .next s
  else
    let s1 := if s.mbAvailable then (List.range 8).foldl State.complete s else s
    .next ((List.range 16).foldl State.completeUdp s1)

/-! ### BULK_TIMEOUT and LONG_OPERATION_ABORT -/

/-- BULK_TIMEOUT (R362): a bulk command's buffer has not arrived within 1 s of its acceptance. -/
def execBulkTimeout (c : Fin 9) (s : State) : Res :=
  match vget s.fw.inbox c.val [] with
  | [] => .next s
  | r :: _ =>
    match r.waitUp with
    | none => .next s
    | some u => .next ((s.untilUp (u + sec)).refuse c.val r { status := .bulk })

/-- Long operations that DB_H2D bit 8 aborts (R366). -/
def abortable : List Nat := [0x058, 0x088, 0x090, 0x091]

/-- LONG_OPERATION_ABORT (R353, R366): the bit is taken; an abortable operation ends at its next boundary. -/
def execLongOperationAbort (s : State) : Res :=
  if !nbit s.mb.dbH2d.toNat 8 || !s.fwReady then .next s
  else
    let s1 := s.takeH2d 8
    match s1.fw.long with
    | some op => .next (if abortable.contains op.code then { s1 with fw := { s1.fw with long := some { op with abort := true } } } else s1)
    | none => .next s1

end Sys2Proof.Machine
end

