-- ==== Sys2Proof/Machine/HostMap.lean ====
section
/-! DEFINITION. Whole-word reads and writes of the host register map by any path (R374 to R386, Tables 19.3, 21.1 and 22.4), and the latches
that room reads take. -/

namespace Sys2Proof.Machine

/-! ### Words -/

/-- LOCK_OWNi: the owners of locks 8 i to 8 i + 7 (Table 19.4). -/
def State.lockOwnWord (s : State) (i : Nat) : Word :=
  w32 ((List.range 8).foldl (fun a j => a + s.lockOwner (8 * i + j) * 16 ^ j) 0)

/-- WI_ROOMS mirrors the rooms' WRITE_IGNORED bits (R376). -/
def State.wiRooms (s : State) : Word :=
  let bits : List Bool :=
    [fbit s.hearth.stat F.HEARTH_STAT.WRITE_IGNORED, fbit s.thr.stat F.THR_STAT.WRITE_IGNORED,
     fbit (vget s.halls.leg 0 {}).raman.stat F.RAMAN_STAT.WRITE_IGNORED, fbit (vget s.halls.leg 1 {}).raman.stat F.RAMAN_STAT.WRITE_IGNORED,
     fbit s.loft.stat F.LOFT_STAT.WRITE_IGNORED, fbit s.time.stat F.TB_STAT.WRITE_IGNORED, fbit s.cellar.stat F.CELLAR_STAT.WRITE_IGNORED,
     fbit s.streams.stat F.COMP_STAT.WRITE_IGNORED,
     fbit s.cw.stat F.CW_STAT.WRITE_IGNORED || s.porch.eth.port.toList.any (fun p => fbit p.stat F.ETH_STAT.WRITE_IGNORED)]
  w32 ((List.range 9).foldl (fun a i => if (bits[i]?).getD false then a + 2 ^ i else a) 0)

/-- The control page 0x000 to 0x3FF (Tables 21.3 to 21.5, R273). -/
def State.controlWord (s : State) (off : Nat) : Word :=
  let h := s.host
  match off with
  | 0x000 => h.idDevice | 0x004 => h.idVendor | 0x008 => h.idFw | 0x00C => h.idStat
  | 0x100 => w32 (s.now / 160 * 160) | 0x104 => w32 (s.now / 160 * 160 / 2 ^ 32) | 0x108 => s.timeStatWord
  | 0x200 => h.hintCfg | 0x204 => s.hintPend | 0x208 => h.hintSent
  | 0x300 => h.progStat | 0x304 => h.progValue | 0x308 => h.modeSum
  | 0x310 => vget h.legSum 0 0 | 0x314 => vget h.legSum 1 0 | 0x318 => h.sumGen
  | _ => 0

/-- The fault collector 0x1000 to 0x14FF (Table 22.4). -/
def State.collectorWord (s : State) (off : Nat) : Word :=
  if off = 0x1000 then s.fc.statWord
  else if off = 0x1004 then s.fc.event
  else if 0x1010 ≤ off ∧ off < 0x1020 then s.fc.raisedWord ((off - 0x1010) / 4)
  else if 0x1100 ≤ off ∧ off < 0x1500 then
    let f := s.source ((off - 0x1100) / 8)
    if off % 8 = 0 then f.src else f.cntWord
  else 0

/-- The doorbell registers 0x800 to 0x814 and LOCK_OWNi, LOCK_STAT (Table 19.3). -/
def State.doorWord (s : State) (off : Nat) : Word :=
  match off with
  | 0x800 => s.mb.dbH2d | 0x804 => s.mb.dbD2h | 0x808 => s.mb.dbMask | 0x80C => s.mb.avail | 0x810 => s.mb.stallMs | 0x814 => s.mb.sec
  | 0xC80 => s.lockOwnWord 0 | 0xC84 => s.lockOwnWord 1 | 0xC88 => s.lockOwnWord 2 | 0xC8C => s.lockOwnWord 3
  | 0xC90 => s.mb.lockStat
  | _ => 0

/-- The snapshot copy of a path and the write-ignored block (Tables 21.6 and 21.7); the Study has no copy. -/
def State.wideWord (p : Path) (s : State) (off : Nat) : Word :=
  let m := match wideCopy p with | some i => vget s.host.wide i {} | none => {}
  match off with
  | 0x2000 => m.sel | 0x2004 => m.stat
  | 0x2010 => vget m.data 0 0 | 0x2014 => vget m.data 1 0 | 0x2018 => vget m.data 2 0 | 0x201C => vget m.data 3 0
  | 0x3000 => s.host.wiStat | 0x3004 => s.host.wiCapt | 0x3008 => s.host.wiData | 0x300C => s.wiRooms
  | _ => 0

/-- A channel's registers at 0x900 + 16 c (Table 19.3). -/
def State.chanWord (s : State) (off : Nat) : Word :=
  let m := s.chan ((off - 0x900) / 16)
  match off % 16 with
  | 0 => m.statWord | 8 => m.count | _ => 0

/-! ### Reads -/

/-- One whole-word read: the word goes to the path's `readBack`. An unassigned offset reads 0 (R374). -/
def State.hostRead (p : Path) (off : Nat) (s : State) : State :=
  if off < 0x400 then s.returned p [s.controlWord off]
  else if off < 0x800 then
    let c := (off - 0x400) / 0x80
    s.mbReadAccess p c (fun t => if off % 0x80 < 0x40 then t else t.mbOutEffect p c (off % 0x40 / 4) 1 true)
  else if 0x900 ≤ off ∧ off < 0x980 then s.mbReadAccess p ((off - 0x900) / 16) (fun t => t.returned p [t.chanWord off])
  else if 0xC00 ≤ off ∧ off < 0xC80 then s.lockRead ((off - 0xC00) / 4) { path := p, secure := false }
  else if 0xD00 ≤ off ∧ off < 0xD80 then s.lockRead ((off - 0xD00) / 4) { path := p, secure := true }
  else if off < 0x1000 then s.returned p [s.doorWord off]
  else if off < 0x2000 then s.returned p [s.collectorWord off]
  else if off = 0x201C then (s.returned p [s.wideWord p off]).readWide3 p
  else if off < 0x4000 then s.returned p [s.wideWord p off]
  else if off < 0x8000 then s.returned p [0]
  else s.returned p [w32 (nbits (s.controlWord ((off - 0x8000) / 128 * 4)).toNat ((off - 0x8000) % 128 / 4) 1)]

/-- The word a path's last read returned. -/
def State.lastRead (p : Path) (s : State) : Word := wat (vget s.host.readBack (pathReq p) []) 0

/-! ### Writes -/

/-- A DB_H2D write: the bits set, and a 1 wakes the sleeping mailbox block (R344, R353). -/
def State.ringWake (w : Word) (s : State) : State :=
  let t := s.writeDbH2d w
  if w &&& 0x07FFFFFF != 0 && fget s.mb.avail F.MB_AVAIL.STATE == 2 then
    { t with mb := { t.mb with avail := fset t.mb.avail F.MB_AVAIL.STATE 0 } }
  else t

/-- A write of FC_SRCn (R398, R400): from the Study alone; any other requester's is ignored and captured. COLLECTOR_CFG's severity and reactions
are fixed, and a reserved number reads 0. -/
def State.writeSource (p : Path) (off : Nat) (w : Word) (s : State) : State :=
  let n := (off - 0x1100) / 8
  if p != .study then s.captureIgnored F.WI_STAT.FAULT off (pathReq p) w
  else if !sourceListed n then s
  else
    let f := s.source n
    let r := regWrite F.FC_SRC.kind (fbit f.src F.FC_SRC.EN) f.src w
    let x := if n = srcCollectorCfg then fset (fset r.word F.FC_SRC.SEVERITY 3) F.FC_SRC.REACT 0x33 else r.word
    let t := s.setSource n (f.configure x)
    if r.ignored then t.captureIgnored F.WI_STAT.FAULT off (pathReq p) w else t

/-- A write in the fault collector (R400). -/
def State.writeCollector (p : Path) (off : Nat) (w : Word) (s : State) : State :=
  if off = 0x1000 then { s with fc := { s.fc with stat := (regWrite F.FC_STAT.kind false s.fc.stat w).word } }
  else if 0x1100 ≤ off ∧ off < 0x1500 then
    if off % 8 = 0 then s.writeSource p off w
    else
      let n := (off - 0x1100) / 8
      let f := s.source n
      s.setSource n { f with cnt := (regWrite F.FC_CNT.kind false f.cnt w).word }
  else s

/-- A write of a channel's registers at 0x900 + 16 c: STAT's sticky bits, IN_DISCARD (Table 19.4). -/
def State.writeChan (off : Nat) (w : Word) (s : State) : State :=
  let c := (off - 0x900) / 16
  let m := s.chan c
  match off % 16 with
  | 0 => s.setChan c { m with stat := (regWrite F.MB_STAT.kind false m.stat w).word }
  | 4 => if fbit w F.MB_CTRL.IN_DISCARD then s.discardIn c else s
  | _ => s

/-- A write of the doorbell registers and LOCK_STAT (Table 19.4). -/
def State.writeDoor (off : Nat) (w : Word) (s : State) : State :=
  match off with
  | 0x800 => s.ringWake w
  | 0x804 => s.setDoorbells (s.mb.dbD2h &&& ~~~w) s.mb.dbMask
  | 0x808 => s.setDoorbells s.mb.dbD2h w
  | 0x810 => { s with mb := { s.mb with stallMs := (regWrite F.MBX_STALL.kind false s.mb.stallMs w).word } }
  | 0xC90 => { s with mb := { s.mb with lockStat := (regWrite F.LOCK_STAT.kind false s.mb.lockStat w).word } }
  | _ => s

/-- A write in the control page: HINT_CFG and the KEEP bits of ID_STAT are all that it can change (R377, R383). -/
def State.writeControl (p : Path) (off : Nat) (w : Word) (s : State) : State :=
  if off = 0x200 then s.writeHintCfg p 0x200 0xFFFFFFFF w
  else if off = 0x00C then
    let r := regWrite F.ID_STAT.kind false s.host.idStat w
    ({ s with host := { s.host with idStat := r.word } }).keepAltered r.keepAltered
  else s

/-- One whole-word write (R374): what Table 21.1 leaves unassigned, and every RO or ZERO field, ignores it. -/
def State.hostWrite (p : Path) (off : Nat) (w : Word) (s : State) : State :=
  if off < 0x400 then s.writeControl p off w
  else if off < 0x800 then
    let c := (off - 0x400) / 0x80
    s.mbAccess p c (fun t => if off % 0x80 < 0x40 then t.mbInEffect c (off % 0x40 / 4) [w] true else t)
  else if 0x900 ≤ off ∧ off < 0x980 then s.mbAccess p ((off - 0x900) / 16) (fun t => t.writeChan off w)
  else if 0xC00 ≤ off ∧ off < 0xC80 then s.lockWrite ((off - 0xC00) / 4) { path := p, secure := false } w
  else if 0xD00 ≤ off ∧ off < 0xD80 then s.lockWrite ((off - 0xD00) / 4) { path := p, secure := true } w
  else if off < 0x1000 then s.writeDoor off w
  else if off < 0x2000 then s.writeCollector p off w
  else if off = 0x2000 then s.selectWide p (w.toNat % 256)
  else if off = 0x3000 then { s with host := { s.host with wiStat := (regWrite F.WI_STAT.kind false s.host.wiStat w).word } }
  else if off < 0x8000 then s
  else
    let o := off - 0x8000
    s.aliasWrite { path := p, word := ⟨o / 128 % 256, Nat.mod_lt _ (by decide)⟩
                   bit := ⟨o % 128 / 4 % 32, Nat.mod_lt _ (by decide)⟩, v := nbit w.toNat 0 }

/-- A write with these byte enables (R374): a partial one is discarded and captured; in an MBc_IN window it sets SIZE_ERR (R346). -/
def State.hostWriteBytes (p : Path) (off be : Nat) (w : Word) (s : State) : State :=
  let off := off / 4 * 4
  if be = 15 then s.hostWrite p off w
  else if 0x400 ≤ off ∧ off < 0x800 then
    let c := (off - 0x400) / 0x80
    s.mbAccess p c (fun t => if off % 0x80 < 0x40 then t.mbInEffect c (off % 0x40 / 4) [w] false else t)
  else s.captureIgnored F.WI_STAT.PARTIAL off (pathReq p) w

/-! ### Room reads that latch; in a domain that is off they return 0 (R12) -/

/-- VEC_FRAME_LO_READ (R251): DETVEC0 to DETVEC63, VEC_FRAME_LO and VEC_FRAME_HI come from one version until the next such read. -/
def execVecFrameLoRead (s : State) : Res :=
  let v := s.loft.vec
  if !s.power.loft then .next (s.returned .study [0]) else .next ({ s with loft := { s.loft with vec := { v with latchBits := v.bits, latchHi := w32 (v.frameTime / 2 ^ 32), latched := true } } }.returned .study
    [w32 v.frameTime])

/-- TRIG_FIRE_LO_READ (R266): TRIGu_FIRE_HI is latched from the same fire. -/
def execTrigFireLoRead (u : Fin 16) (s : State) : Res :=
  let x := vget s.trig.units u.val {}
  if !s.power.loft then .next (s.returned .study [0]) else .next ({ s with trig := { s.trig with units := vset s.trig.units u.val { x with fireLatch := x.fireHi } } }.returned .study [x.fireLo])

/-- STR_HEAD_LO_READ (R314): STRs_HEAD_HI is latched. -/
def execStrHeadLoRead (n : Fin 8) (s : State) : Res :=
  let x := vget s.streams.str n.val {}
  if !s.power.cellar then .next (s.returned .study [0]) else .next ({ s with streams := { s.streams with str := vset s.streams.str n.val { x with headLatch := x.headHi } } }.returned .study [x.headLo])

end Sys2Proof.Machine
end

