-- ==== Sys2Proof/Machine/Replay.lean ====
section
/-! DEFINITION. REPLAY_BLOCK: the replay stream in place of a leg's converters (R25, R97 to R99). -/

namespace Sys2Proof.Machine

/-- A side record (Table 5.6), its index resolved. -/
structure SideRecord where
  ty : Nat
  sel : Nat
  arg : Nat
  index : Int
  value : Nat
  deriving DecidableEq, Repr

/-- The header of a block (Table 5.5). -/
structure BlockHeader where
  cycles : Nat
  first : Nat
  sides : Nat
  deriving DecidableEq, Repr

/-- The header, where the block is laid out as Table 5.5 for this leg and its CHECK holds. R99 names no other break of the table: here VERSION, LEG, CYCLES,
FIRST_INDEX, SIDE_COUNT and the length outside it are format errors too, and its zero bytes are not checked (DESIGN CHOICE, log entry 98). -/
def blockHeader (leg : Nat) (bs : List Byte) : Option BlockHeader :=
  let h : BlockHeader := { cycles := leAt bs 4 4, first := leAt bs 8 8, sides := leAt bs 16 2 }
  let good := leAt bs 0 2 == 1 && leAt bs 2 1 == leg && 256 ≤ h.cycles && h.cycles ≤ 4096 && h.cycles % 4 == 0 && h.first % 4 == 0 && h.sides ≤ 1024 &&
    bs.length == 64 + 16 * h.sides + 9 * h.cycles && crc32c (bs.drop 24) == leAt bs 20 4
  if good then some h else none

/-- The side records of a block. -/
def sideRecords (h : BlockHeader) (bs : List Byte) : List SideRecord :=
  (List.range h.sides).map (fun i =>
    let b := bytesAt bs (64 + 16 * i) 16
    { ty := leAt b 0 1, sel := leAt b 1 1, arg := leAt b 2 2, index := (h.first : Int) + sx 32 (leAt b 4 4), value := leAt b 8 8 })

/-- TYPE and SEL are of Table 5.6: R98 refuses other TYPEs, and a SEL outside the table is refused with them (DESIGN CHOICE, log entry 98). -/
def SideRecord.admitted (r : SideRecord) : Bool :=
  (r.ty == 1 && r.sel < 3) || (r.ty == 2 && r.sel < 8) || (r.ty == 3 && r.sel < 8) || (r.ty == 4 && r.sel < 24)

/-- Where the replay of a leg stands: frame, place, origin. -/
structure ReplayPlace where
  k : Nat
  j : Nat
  origin : Option (Nat × Nat)
  deriving DecidableEq, Repr

/-- Playout index at which the next launch is expected (R99); none before the first. -/
def ReplayPlace.expected (p : ReplayPlace) (tF count : Nat) : Option Int :=
  p.origin.map (fun o => ((o.1 + (p.k - o.2) * tF + p.j * tF / max 1 count : Nat) : Int))

/-- A LAUNCH record taken: none where it is misplaced. -/
def ReplayPlace.take (p : ReplayPlace) (b : LegBank) (tF first : Nat) (r : SideRecord) : Option ReplayPlace :=
  let slotOk := b.slots[p.j]? == some r.sel
  let placed := match p.expected tF b.count with | some n => r.index == n | none => decide ((first : Int) ≤ r.index)
  if !slotOk || !placed then none
  else
    let origin := match p.origin with | some o => some o | none => some (r.index.toNat, p.k)
    some (if b.count ≤ p.j + 1 then { k := p.k + 1, j := 0, origin } else { p with j := p.j + 1, origin })

/-- Every LAUNCH record of a block is in its place, and none is missing before its end (R99). -/
def launchesPlaced (b : LegBank) (tF : Nat) (h : BlockHeader) (p : ReplayPlace) (rs : List SideRecord) : Bool :=
  match (rs.filter (fun r => r.ty == 2)).foldl (fun acc r => acc.bind (fun q => q.take b tF h.first r)) (some p) with
  | none => false
  | some q => match q.expected tF b.count with | some n => decide (((h.first + h.cycles : Nat) : Int) ≤ n) | none => true

/-- The snapshot of a tach at a launch: its latest TACH record at or before the launch. -/
def Replay.tachAt (r : Replay) (n : Nat) : Vector Nat 8 :=
  let f (k : Nat) : Nat := match r.tach.find? (fun t => t.1 == k && t.2.1 ≤ n) with | some t => t.2.2 | none => 0
  #v[f 0, f 1, f 2, f 3, f 4, f 5, f 6, f 7]

/-- A LAUNCH record: the leg's next trace takes its number, with the stream's stamp (R60, R99). Frames a REPLAY_STOP ends are left alone. -/
def State.replayLaunch (leg : Nat) (r : SideRecord) (s : State) : State :=
  match s.upcoming leg with
  | none => s
  | some (k, j, sl) =>
    let s0 := if j = 0 then s.replaySwitch leg (s.globalFrame k) else s
    if !s0.replaying leg then s0
    else
      let n := r.index.toNat
      let h := s0.hall leg
      let rp := { h.replay with origin := some (h.replay.origin.getD (n, k)), lastTrace := if j = 0 then s0.probe.nextTrace leg sl else h.replay.lastTrace }
      let s1 := s0.setHall leg { h with replay := rp }
      let s2 := if j = 0 then s1.frameChanges leg k (s1.indexOfTime s1.now) else s1
      let place := 10 * (j * s2.probe.active.tF / max 1 (s2.legBank leg).count)
      s2.numberTrace leg k j sl n r.value (r.value - 120 - place) false true (rp.tachAt n)

/-- The codes and markers of a payload word (R98). -/
def payloadCode (w : Nat) : Int := code14 (w % 16384)
def payloadOvr (w : Nat) : Bool := nbit w 14
def payloadGap (w : Nat) : Bool := nbit w 15

/-- Converter cycle `n` of a block, its four coherent words at byte `at_` (R97, R98). -/
def State.replayCoherent (leg n : Nat) (bs : List Byte) (s : State) : State :=
  let h := s.hall leg
  let w (i : Nat) : Nat := leAt bs (2 * i) 2
  let any (f : Nat → Bool) : Bool := (List.range 4).any (fun i => f (w i))
  let c : CohWord :=
    { xi := payloadCode (w 0), xq := payloadCode (w 1), yi := payloadCode (w 2), yq := payloadCode (w 3), ovr := any payloadOvr, gap := any payloadGap
      step := h.replay.marked 0 8 n, gain := h.replay.gain 0 (s.thrLeg leg).coh (some n) }
  s.setHall leg { h with samples := Mem.write none h.samples n (some c) }

/-- The direct words of a group. -/
def State.replayDirect (leg n : Nat) (bs : List Byte) (s : State) : State :=
  let h := s.hall leg
  let st := leAt bs 0 2
  let as_ := leAt bs 2 2
  let markers := (payloadGap st || payloadGap as_).toNat + 2 * (h.replay.marked 1 32 n || h.replay.marked 2 32 n).toNat
  s.placeDirect leg n (payloadCode st) (payloadCode as_) markers (payloadOvr st || payloadOvr as_)
    (h.replay.gain 1 (s.thrLeg leg).st (some n), h.replay.gain 2 (s.thrLeg leg).as_ (some n))

/-- The groups of a block's payload, in order. -/
def State.replayGroups (leg : Nat) : Nat → Nat → List Byte → State → State
  | 0, _, _, s => s
  | g + 1, n, bs, s =>
    let s1 := (List.range 4).foldl (fun t i => t.replayCoherent leg (n + i) (bs.drop (8 * i))) s
    (s1.replayDirect leg n (bs.drop 32)).replayGroups leg g (n + 4) (bs.drop 36)

/-- A side value joins the list, newest first: of each SEL the latest 2,049 stay, which two blocks cannot exceed. -/
def keepLatest {α : Type} (sel : α → Nat) (x : α) (xs : List α) : List α :=
  x :: (xs.filter (fun y => sel y == sel x)).take 2048 ++ xs.filter (fun y => sel y != sel x)

/-- GAIN, TACH and HK records enter the stream's own side values (R96, R98). -/
def State.replaySides (leg : Nat) (rs : List SideRecord) (s : State) : State :=
  rs.foldl (fun t r =>
    let h := t.hall leg
    let n := r.index.toNat
    match r.ty with
    | 1 => t.setHall leg { h with replay := { h.replay with gains := keepLatest (·.2.1) (n, r.sel, r.arg % 8) h.replay.gains } }
    | 3 => t.setHall leg { h with replay := { h.replay with tach := keepLatest (·.1) (r.sel, n, r.value) h.replay.tach } }
    | _ => t) s

/-- HK records are stamped with the first frame trace at or after their index (R94, R96). -/
def State.replayHk (leg : Nat) (rs : List SideRecord) (s : State) : State :=
  (rs.filter (fun r => r.ty == 4)).foldl (fun t r =>
    let h := t.hall leg
    let b := t.legBank leg
    let n := r.index.toNat
    let k := t.frameAtIndex leg n
    let k := if t.frameIndex leg k < n then k + 1 else k
    t.setHall leg { h with raman := { h.raman with hk := h.raman.hk ++ [⟨t.traceOf leg b.lowest k, r.sel, r.arg % 8192⟩] } }) s

/-- Firmware ends replay before its REPLAY_STOP: the leg's Hall takes its own lanes again, and launches that the stream does not reach are
dropped (R99, R319). -/
def State.replayEnd (leg : Nat) (s : State) : State :=
  let h := s.hall leg
  let s1 := s.setHall leg { h with
    nextIndex := none, raman := { h.raman with lastIndex := none, lastOvr := none }
    replay := { h.replay with on := false, blocks := [], part := [], closing := false } }
  { s1 with halls := { s1.halls with launches := s1.halls.launches.filter (fun l => !(l.leg == leg && l.replay)) } }

/-- A format error: the leg's Hall stops before the block, REPLAY_FORMAT is raised, and firmware ends replay and reports the block's FIRST_INDEX (R99):
the report is the state's own, as no message of chapter 20 carries it (DESIGN CHOICE, log entry 98). -/
def State.replayError (leg first : Nat) (s : State) : State :=
  let s1 := s.replayEnd leg
  let h := s1.hall leg
  (s1.setHall leg { h with replay := { h.replay with errorIndex := some first } }).report srcReplayFormat leg

/-- The DMA channel has stopped and the last complete block has been taken: replay ends (R319). -/
def State.replayClose (leg : Nat) (s : State) : State :=
  let r := (s.hall leg).replay
  if r.closing && r.blocks.isEmpty then s.replayEnd leg else s

/-- A leg whose replay has ended still takes blocks for the traces that replay launched. -/
def State.replayDraining (s : State) (leg : Nat) : Bool := !s.replaying leg && s.halls.launches.any (fun l => l.leg == leg && l.replay)

/-! ### The replay half (R25, R318) -/

/-- Bytes of the first block of a replay stream, once all of it is there; a header outside Table 5.5 makes everything one block. -/
def blockBytes (bs : List Byte) : Option Nat :=
  let cycles := leAt bs 4 4
  let sides := leAt bs 16 2
  let n := 64 + 16 * sides + 9 * cycles
  if bs.length < 64 then none
  else if cycles < 256 || 4096 < cycles || 1024 < sides then some bs.length
  else if n ≤ bs.length then some n else none

/-- The whole blocks of a stream, and the bytes after them. -/
def cutBlocks : Nat → List Byte → List (List Byte) × List Byte
  | 0, bs => ([], bs)
  | fuel + 1, bs =>
    match blockBytes bs with
    | none => ([], bs)
    | some n => let r := cutBlocks fuel (bs.drop n); (bs.take n :: r.1, r.2)

/-- Bytes of the leg's half of the replay buffer in use. -/
def Replay.held (r : Replay) : Nat := r.blocks.foldl (fun a b => a + b.length) r.part.length

/-- A buffer's bytes go where the channel leads: replay of leg 0 or 1, bulk payloads. -/
def State.takeBuffer (ch : Nat) (data : List Byte) (s : State) : State :=
  if ch < 2 then
    let h := s.hall ch
    let all := h.replay.part ++ data
    let r := cutBlocks (all.length / 64 + 1) all
    s.setHall ch { h with replay := { h.replay with blocks := h.replay.blocks ++ r.1, part := r.2 } }
  else { s with fw := { s.fw with bulk := s.fw.bulk ++ [data] } }

/-- A channel reads of its buffer what there is room for, all of it for bulk payloads; a buffer read whole is written back (R25, R318). -/
def State.fillReplay (ch : Nat) (s : State) : State :=
  let c := vget s.porch.h2d ch {}
  match c.back with
  | none => s
  | some b =>
    let n := if ch < 2 then 131072 - (s.hall ch).replay.held else c.rest.length
    let rest := c.rest.drop n
    let done := rest.isEmpty
    let s1 := { s with porch := { s.porch with
      h2d := vset s.porch.h2d ch { c with rest, back := if done then none else some b }
      done := if done then s.porch.done ++ [b] else s.porch.done } }
    s1.takeBuffer ch (c.rest.take n)

/-- REPLAY_BLOCK (R97 to R99): the leg takes the next block of its half of the replay buffer. A plan change that its launches have reached is
awaited. -/
def execReplayBlock (leg : Fin 2) (s : State) : Res :=
  let r := (s.hall leg.val).replay
  match r.blocks with
  | [] => .next s
  | bs :: rest =>
    if !s.power.front || (!r.on && !s.replayDraining leg.val) || (r.on && (s.upcoming leg.val).isNone) then .next s
    else
      let s0 := (s.setHall leg.val { s.hall leg.val with replay := { r with blocks := rest } }).fillReplay leg.val
      match blockHeader leg.val bs with
      | none => .next (s0.replayError leg.val (leAt bs 8 8))
      | some h =>
        let rs := sideRecords h bs
        let seqOk := match r.next with | some n => n == h.first | none => true
        let p : ReplayPlace := { k := vget s.probe.frame leg.val 0, j := vget s.probe.next leg.val 0, origin := r.origin }
        let ok := seqOk && rs.all SideRecord.admitted && (!r.on || launchesPlaced (s.legBank leg.val) s.probe.active.tF h p rs)
        if !ok then .next (s0.replayError leg.val h.first)
        else
          let s1 := s0.setHall leg.val { s0.hall leg.val with replay := { (s0.hall leg.val).replay with next := some (h.first + h.cycles) } }
          let s2 := s1.replaySides leg.val rs
          let s3 := if r.on then (rs.filter (fun x => x.ty == 2)).foldl (fun t x => t.replayLaunch leg.val x) s2 else s2
          let s4 := s3.replayHk leg.val rs
          .next ((s4.replayGroups leg.val (h.cycles / 4) h.first (bs.drop (64 + 16 * h.sides))).stopIfReached.replayClose leg.val)

end Sys2Proof.Machine
end

