-- ==== Sys2Proof/Machine/HostPort.lean ====
section
/-! DEFINITION. The host's ports: management SPI, debug port, PCIe resets and link, host-to-device DMA (R315 to R319, R326, R327, R342, R357). -/

namespace Sys2Proof.Machine

def State.withSpi (x : Spi) (s : State) : State := { s with porch := { s.porch with spi := x } }
def State.withDbg (x : Dbg) (s : State) : State := { s with porch := { s.porch with dbg := x } }
def State.withPcie (x : Pcie) (s : State) : State := { s with porch := { s.porch with pcie := x } }

/-! ### Management SPI (R326, R327, R386) -/

/-- `n` words read at rising offsets. -/
def State.spiRead : Nat → Nat → State → List Word × State
  | 0, _, s => ([], s)
  | n + 1, off, s =>
    let t := s.hostRead .spi off
    let r := State.spiRead n (off + 4) t
    (t.lastRead .spi :: r.1, r.2)

/-- Words written at rising offsets. -/
def State.spiWrite : List Word → Nat → State → State
  | [], _, s => s
  | w :: ws, off, s => State.spiWrite ws (off + 4) (s.hostWrite .spi off w)

/-- The end of a transaction: its status byte with the errors `e` and those owed, or, where the byte was not clocked out, all of them owed to the
next one; `overs`: CS_N rose elsewhere than at the end of the layout (ERR_LENGTH). -/
def State.spiEnd (owed e : Nat) (answered overs : Bool) (s : State) : State :=
  if answered then s.withSpi { status := 0xA0 ||| owed ||| e, owed := if overs then 8 else 0 }
  else s.withSpi { s.porch.spi with owed := owed ||| e ||| 8 }

/-- SPI_TRANSACTION (R326, R327): the whole bytes that the master sent while CS_N was low; `cut`: further bits followed. An opcode, a range or a
word count that is refused accesses no word. -/
def execSpiTransaction (bytes : List Byte) (cut : Bool) (s : State) : Res :=
  let l := bytes.length
  let op := leAt bytes 0 1
  let off := leAt bytes 1 2 / 4 * 4
  let n := leAt bytes 3 1
  let owed := s.porch.spi.owed
  if l = 0 && !cut then .next s
  else if l < 4 then .next (s.spiEnd owed 0 false true)
  else if op != 1 && op != 2 then .next (s.withSpi { s.porch.spi with owed := owed ||| 4 })
  else
    let reading := op == 1
    let whole := if reading then 6 + 4 * n else 5 + 4 * n
    let answered := if reading then decide (6 ≤ l) else decide (whole ≤ l)
    let overs := l != whole || cut
    let bad := (if n = 0 || 16 < n then 8 else 0) ||| (if 0x10000 < off + 4 * n then 2 else 0)
    if bad != 0 then .next (s.spiEnd owed bad answered overs)
    else
      let s0 := s.withSpi { s.porch.spi with status := 0 }
      if reading then
        let r := State.spiRead (min n ((l - 2) / 4)) off s0
        .next ((r.2.returned .spi r.1).spiEnd owed (r.2.porch.spi.status % 2) answered overs)
      else
        let t := State.spiWrite ((wordsOfBytes (bytes.drop 4)).take (min n ((l - 4) / 4))) off s0
        .next (t.spiEnd owed (t.porch.spi.status % 2) answered overs)

/-! ### Debug port (R342, R357) -/

/-- The debug access register as Capture-DR loads it. -/
def Dbg.capture (d : Dbg) : BitVec 52 :=
  BitVec.ofNat 52 (d.data.toNat + 2 ^ 32 * d.offset + 2 ^ 48 * d.write.toNat + 2 ^ 49 * d.done.toNat + 2 ^ 50 * d.errDomain.toNat)

/-- DBG_UPDATE_DR (R342): a scan of the debug access register, Capture-DR first. With GO the access of requester 5 runs and completes. -/
def execDbgUpdateDr (reg : BitVec 52) (s : State) : Res :=
  let d := s.porch.dbg
  let d1 := { d with captured := d.capture, done := false, connected := true }
  let v := reg.toNat
  let off := nbits v 32 16 / 4 * 4
  let w := w32 (nbits v 0 32)
  if !nbit v 49 then .next (s.withDbg d1)
  else
    let s1 := s.withDbg { d1 with errDomain := false }
    let t := if nbit v 48 then s1.hostWrite .debug off w else s1.hostRead .debug off
    .next (t.withDbg { t.porch.dbg with data := if nbit v 48 then w else t.lastRead .debug, offset := off, write := nbit v 48, done := true })

/-- DEBUG_DISCONNECT (R342, R357): locks of requester 5 are freed. -/
def execDebugDisconnect (s : State) : Res :=
  .next ((s.withDbg { s.porch.dbg with connected := false }).freeLocksOf [5])

/-! ### PCIe resets and link (R315, R316, R319, R357, R381) -/

/-- A running PCIe stream loses its chain and awaits a buffer (R319). -/
def Stream.forget (t : Stream) : Stream :=
  let u := { t with cur := none, lastDesc := 0, data := [], inside := 0, done := [] }
  if t.running && !t.udpCarrier then { (u.await true) with headLo := 0, headHi := 0 } else u

/-- What FLR, D3hot entry and PERST_N do (R319). -/
def State.hostStop (s : State) : State :=
  let m := s.mb
  let s1 := { s with
    porch := { s.porch with h2d := Vector.replicate 3 {} }
    streams := { s.streams with str := s.streams.str.map Stream.forget }
    mb := { m with chan := ([0, 1, 2, 3, 4, 5] : List Nat).foldl (fun (v : Vector Mailbox 8) c => vmod v c Mailbox.empty) m.chan } }
  let s2 := (s1.revoke).freeLocksOf [1, 2]
  let close (t : State) (leg : Nat) : State :=
    let h := t.hall leg
    if h.replay.on then (t.setHall leg { h with replay := { h.replay with part := [], closing := true } }).replayClose leg else t
  close (close s2 0) 1

/-- The PCIe snapshot copy at its reset state (R381). -/
def State.clearWidePcie (s : State) : State := s.setWide 0 {}

/-- PERST_N_ASSERT. -/
def execPerstNAssert (s : State) : Res :=
  .next ((s.hostStop.clearWidePcie).withPcie { s.porch.pcie with perst := true, configReady := false, d3hot := false })

/-- FLR: the function is in D0 after it. -/
def execFlr (s : State) : Res := .next ((s.hostStop.clearWidePcie).withPcie { s.porch.pcie with d3hot := false })

/-- D3HOT_ENTRY. -/
def execD3hotEntry (s : State) : Res := .next (s.hostStop.withPcie { s.porch.pcie with d3hot := true })

/-- PERST_N_RELEASE (R316): configuration space becomes ready. -/
def execPerstNRelease (s : State) : Res := .next (s.withPcie { s.porch.pcie with perst := false, configReady := true })

/-- PCIE_LINK_CHANGE (R315, Table 22.1): the link is up or down; going down, or an uncorrectable AER error, reports PCIE_LINK. -/
def execPcieLinkChange (up aer : Bool) (s : State) : Res :=
  let lost := s.porch.pcie.link && !up
  let s1 := s.withPcie { s.porch.pcie with link := up }
  .next (if lost || aer then s1.report srcPcieLink 0 else s1)

/-! ### Host-to-device DMA (R25, R318, R362) -/

/-- H2D_DESCRIPTOR_READ (R318): a channel that is not waiting reads its next descriptor. With OWN it reads the buffer, writes USED and DONE and
follows NEXT; without, or at the end of the chain, it waits for its doorbell. A replay half takes what it has room for: a buffer under way is read on
first (R25). -/
def execH2dDescriptorRead (ch : Fin 3) (d : H2dDescriptor) (s : State) : Res :=
  let c := vget s.porch.h2d ch.val {}
  if !s.porch.pcie.alive then .next s
  else if c.back.isSome then .next (s.fillReplay ch.val)
  else if c.waiting || (c.next != 0 && c.next != d.addr) then .next s
  else if !d.own then
    .next { s with porch := { s.porch with h2d := vset s.porch.h2d ch.val { c with waiting := true, next := d.addr } } }
  else
    let back : DescDone := { addr := d.addr, used := d.data.length, status := 1, data := [] }
    let c1 : H2dChannel := { waiting := d.next == 0, next := d.next, count := c.count + 1, rest := d.data, back := some back }
    let s1 := { s with porch := { s.porch with h2d := vset s.porch.h2d ch.val c1 } }
    .next (s1.fillReplay ch.val)

/-- H2D_CHAIN_EXTENDED (R318, R353): DB_H2D bit 24 + channel is taken and the chain resumes. -/
def execH2dChainExtended (ch : Fin 3) (s : State) : Res :=
  if !nbit s.mb.dbH2d.toNat (24 + ch.val) then .next s
  else
    let s1 := s.takeH2d (24 + ch.val)
    .next { s1 with porch := { s1.porch with h2d := vmod s1.porch.h2d ch.val (fun (c : H2dChannel) => { c with waiting := false }) } }

end Sys2Proof.Machine
end

