-- ==== Sys2Proof/Machine/Trace.lean ====
section
/-! DEFINITION. TRACE_PROCESS: one trace through Hall I and Hall II (R115 to R146). -/

namespace Sys2Proof.Machine

/-- Point 0's sample index (R54). -/
def Launch.point0 (l : Launch) : Nat := l.index + 26 + l.bank.headDelay
/-- C of the launched slot. -/
def Launch.c (l : Launch) : Nat := l.bank.span l.detail l.slot
/-- Separated points of the trace: L + C + 64 (R116). -/
def Launch.points (l : Launch) : Nat := l.bank.len + l.c + 64

/-- The words a trace needs: from 4C + 10 before point 0 to 10 after the last noise point; earlier words than the first received count as
unmarked. `none` while a word of the trace itself is missing. -/
def Hall.run (h : Hall) (l : Launch) : Option WordRun :=
  let k := pointStep l.detail
  let from_ := l.point0 - (k * l.c + 10)
  let to_ := l.point0 + k * (l.points - 1) + 11
  let ws := Mem.slice none h.samples from_ (to_ - from_)
  let own := ws.drop (l.point0 - 10 - from_)
  if own.all Option.isSome then some { base := from_, words := ws.toArray } else none

/-- The points of a trace with their marks (R124 to R131), and the in-band noise where the window is usable (R125). -/
def Hall.points (h : Hall) (l : Launch) (r : WordRun) (dac : Array Cx) : List HallPoint × Option Nat :=
  let len := l.bank.len
  let m := refLength l.detail (l.bank.duration l.slot)
  let x := separateAll l.detail l.slot l.point0 l.points r.ux
  let y := separateAll l.detail l.slot l.point0 l.points r.uy
  let (nf, _) := transformSize m
  let (rk, _) := refSpectrum nf (refSamples l.detail l.slot (fget h.frontCfg F.FRONT_CFG.RX_WIN) (l.bank.duration l.slot) dac)
  let cx := compress rk m len x
  let cy := compress rk m len y
  let xa := (cx.map (·.1)).toArray
  let ya := (cy.map (·.1)).toArray
  let row := vget h.rows l.slot {}
  let inp : MarkInput := { ovr := r.indices (·.ovr), gap := r.indices (·.gap), step := r.indices (·.step), s0 := l.point0, c := l.c, m,
                           detail := l.detail, late := l.late }
  let prof (w : Nat) : Nat := (vget h.prof w 0).toNat
  let pts := ((cx.zip cy).zipIdx).map (fun (t, p) =>
    let sat := t.1.2 || t.2.2
    let (marks, gap, first) := inp.marks p sat ((row.gapOwed[p]?).getD false)
    let (z, a2) := combine (fget h.frontCfg F.FRONT_CFG.COMB_HALF) len xa ya p
    let faded := worst marks != 3 && decide (a2 < fadeThreshold h.frontCfg h.frontRel prof (row.noise.getD 0) p)
    let marks := if faded then marks ||| bit reFaded else marks
    { z, power := a2, marks, bars := nbit marks reOverload || l.late || gap, firstClean := first, affected := gap, saturated := sat : HallPoint })
  let noisePoint (q : Nat) : Nat := l.point0 + pointStep l.detail * q
  let lo := noisePoint (len + l.c) - 10
  let hi := noisePoint (len + l.c + 63) + 10
  let usable := !l.late && !((inp.ovr ++ inp.gap ++ inp.step).any (fun n => lo ≤ n && n ≤ hi))
  let noise := if usable then some (traceNoise (vget h.nref l.slot 0).toNat (x.drop (len + l.c)) (y.drop (len + l.c))) else none
  (pts, noise)

/-- A trace emitted: states of the row's locations, and values with marks. -/
def Hall.phase (h : Hall) (l : Launch) (j : Nat) (pts : Array HallPoint) : List (RowLoc × Emitted) :=
  let len := l.bank.len
  let g := l.bank.gauge
  let own := ((vget h.rows l.slot {}).loc).toArray
  let pred := ((vget h.rows (h.lastSlot.getD l.slot) {}).loc).toArray
  let others := (l.bank.slots.filter (· != l.slot)).map (fun s => ((vget h.rows s {}).loc).toArray)
  let inp : PhaseInput := { j, count := l.bank.count, alignK := fget h.alignK F.ALIGN_K.ALIGN_K,
                            settleFrames := fget h.phaseSet F.PHASE_SET.SETTLE_FRAMES, settled := (vget h.rows l.slot {}).settled }
  let none_ : HallPoint := { z := (0, 0), power := 0, marks := 0, bars := false, firstClean := false, affected := false, saturated := false }
  (List.range len).map (fun i =>
    let st := (own[i]?).getD {}
    if edgeLoc len g i then (st, edgeEmit)
    else
      let a := (pts[i - g / 2]?).getD none_
      let b := (pts[i - g / 2 + g]?).getD none_
      phaseLocation inp a b st ((pred[i]?).getD {}) (others.map (fun o => (o[i]?).getD {})))

/-- The Hall before a trace: a trace of a new plan takes the plan first, one at a frame boundary after a block reset finds the state cleared (R35, R393).
Answers whether either has happened. -/
def Hall.before (h : Hall) (l : Launch) (place : Nat) (wave : Nat → List (Int × Int)) : Hall × Bool :=
  if h.base != some l.base then ({ h.takePlan l.base l.bank l.detail l.tF wave with reset := false }, true)
  else if h.reset && place == 0 then ({ h.clearRows with base := some l.base, reset := false }, true)
  else (h, h.lastSlot.isNone && !h.reset)

/-- The Hall of a leg after a trace, the stored row and the merged sample (R138 to R146). `clears`: the trace is the first after a clearing. -/
def Hall.trace (h : Hall) (l : Launch) (place : Nat) (clears : Bool) (r : WordRun) (dac : Array Cx) : Hall × StoredRow × Merged :=
  let (pts, noise) := h.points l r dac
  let row := vget h.rows l.slot {}
  let j := row.j + 1
  let outs := h.phase l j pts.toArray
  let reason := outs.foldl (fun a t => a ||| t.2.marks) 0
  let values := outs.map (fun t => t.2.value)
  let quality := outs.map (fun t => t.2.quality)
  let faded := (quality.filter (· == 2)).length
  let invalid := (quality.filter (· == 3)).length
  let slewed := (outs.filter (fun t => nbit t.2.marks reSlew)).length
  let gain := ((r.at l.point0).map (·.gain)).getD 0
  let newRow : SlotRow :=
    { j, loc := outs.map (·.1), gapOwed := pts.map (·.affected)
      settled := row.settled || decide (2 + fget h.phaseSet F.PHASE_SET.SETTLE_FRAMES < j)
      noise := match noise with | some n => some (smoothNoise row.noise n) | none => row.noise }
  let h1 := { h with
    rows := vset h.rows l.slot newRow
    lastSlot := some l.slot
    frontStat :=
      let t := if pts.any (fun p => nbit p.marks reOverload) then finc h.frontStat F.FRONT_STAT.OVL_TRACES else h.frontStat
      faddW t F.FRONT_STAT.SAT_POINTS (pts.filter (·.saturated)).length
    frontFaded := h.frontFaded + w32 (pts.filter (fun p => nbit p.marks reFaded)).length
    phaseStat := faddW (faddW h.phaseStat F.PHASE_STAT.SUBST faded) F.PHASE_STAT.SLEW_COUNT slewed
    samples := h.samples.dropWhile (fun e => e.1 + 8192 < l.index) }
  let flags := rowFlags l.detail l.bank.count
  let stored : StoredRow :=
    { leg := l.leg, slot := l.slot, trace := l.trace, stamp := l.stamp, frame := l.frame, boundary := l.boundary, tF := l.tF, values, quality, reason, tach := l.tach
      header := rowHeader l.trace l.stamp l.planTrace l.bank.len l.leg l.slot l.bank.gauge flags reason faded invalid gain }
  let merged : Merged :=
    { slot := l.slot, trace := l.trace, stamp := l.stamp, frame := l.frame, boundary := l.boundary, place, values, quality, reason, tach := l.tach
      bank := l.bank, detail := l.detail, tF := l.tF, opens := clears }
  (h1, stored, merged)

/-- Entry to SURVEY, after the last merged sample of the plan before it: the chain is held in reset from there (Table 2.3). -/
def Hall.holdChain (h : Hall) (l : Launch) : Hall :=
  let mark : Merged :=
    { slot := l.slot, trace := l.trace, stamp := l.stamp, frame := l.frame, boundary := l.boundary, place := 0, values := [], quality := [], reason := 0
      tach := l.tach, bank := l.bank, detail := l.detail, tF := l.tF, opens := false, hold := true }
  { h with chain := { h.chain with input := h.chain.input ++ [mark] } }

/-- A launch comes before another leg's in ring order (R252). -/
def Launch.before (o l : Launch) : Bool := o.stamp < l.stamp || (o.stamp == l.stamp && o.leg < l.leg)

/-- The next trace of a leg: its first unprocessed launch, unless the other leg's comes before it (R252: rows take their ring order from the launch stamps). A live
leg does not wait for samples of a leg in replay, which its host may hold back (R23). -/
def State.nextLaunch (s : State) (leg : Nat) : Option Launch :=
  match s.halls.launches.find? (fun l => l.leg == leg), s.halls.launches.find? (fun l => l.leg != leg) with
  | none, _ => none
  | some l, none => some l
  | some l, some o => if o.before l && (!o.replay || l.replay || ((s.hall o.leg).run o).isSome) then none else some l

/-- A launch leaves the list. -/
def State.dropLaunch (l : Launch) (s : State) : State := { s with halls := { s.halls with launches := s.halls.launches.erase l } }

/-- The trace holds a CAL_GAP point, so a SURVEY average leaves it out (R107). -/
def Launch.gapped (l : Launch) (r : WordRun) : Bool :=
  let last := l.point0 + pointStep l.detail * (l.bank.len - 1 + l.c) + 10
  r.words.toList.zipIdx.any (fun (w, i) => (match w with | some c => c.gap | none => false) && l.point0 ≤ r.base + i + 10 && r.base + i ≤ last)

/-- A SURVEY trace in the average of the leg's present window (R37): firmware seeks the largest gain from the top, so OVR in the window lowers the code and
the average starts afresh; a trace under another code, or one that a gain step touches, is left out, and the average is complete at 2,048 (DEDUCED, log
entry 53). -/
def SurveyLeg.take (v : SurveyLeg) (gain : Nat) (pts : List HallPoint) : SurveyLeg :=
  let own := (pts.drop (1024 * v.windows)).take 1024
  let marked (b : Nat) : Bool := own.any (fun p => nbit p.marks b)
  if gain != v.gain || marked reGainStep || v.complete || surveyTraces ≤ v.traces then v
  else if marked reOverload && 0 < v.gain then { v with gain := v.gain - 1, traces := 0, power := 0 }
  else { v with traces := v.traces + 1, power := own.foldl (fun a p => a + p.power) v.power }

/-- A trace of SURVEY only feeds firmware's averages: no row leaves the Hall (R37, R253, Table 2.3). One with a CAL_GAP point is left out (R107), and one
whose SURVEY has ended. -/
def State.surveyTrace (l : Launch) (r : WordRun) (s : State) : State :=
  let h := s.hall l.leg
  let s1 := s.setHall l.leg { h with samples := h.samples.dropWhile (fun e => e.1 + 8192 < l.index) }
  if l.gapped r || s.fw.mode != modeSurvey || l.frame < s.probe.frameBase then s1
  else
    let v := vget s.fw.survey l.leg {}
    let gain := ((r.at l.point0).map (·.gain)).getD 0
    let v1 := v.take gain (h.points l r (l.bank.waveform l.slot l.table).toArray).1
    let s2 := { s1 with fw := { s1.fw with survey := vset s1.fw.survey l.leg v1 } }
    if v1.gain = v.gain then s2 else s2.surveyGain l.leg v1.gain (s2.indexOfTime s2.now)

/-- The trace of a launch is processed, under the settings of its own frame (R8). -/
def State.processTrace (l : Launch) (r : WordRun) (s : State) : State :=
  let place := l.bank.place l.slot
  let s0 := (s.dropLaunch l).applyDue (pickLeg cFrontSet l.leg) l.frame State.applyFront
  let own := l.bank.waveform l.slot l.table
  let (h0, clears) := (s0.hall l.leg).before l place (fun sl => if sl = l.slot then own else s0.waveform l.leg sl)
  if l.survey then (s0.setHall l.leg (if clears then h0.holdChain l else h0)).surveyTrace l r
  else
    let (h, row, merged) := h0.trace l place clears r own.toArray
    let s1 := s0.setHall l.leg { h with
      chain := { h.chain with input := h.chain.input ++ [merged] } }
    { s1 with halls := { s1.halls with out0 := s1.halls.out0 ++ [row] } }

/-- TRACE_PROCESS (R138): the leg's next trace, once every word of it has arrived. -/
def execTraceProcess (leg : Fin 2) (s : State) : Res :=
  match s.nextLaunch leg.val with
  | none => .next s
  | some l =>
    let h := s.hall leg.val
    if !s.power.front then .next s
    else
      match h.run l with
      | none => .next s
      | some r => .next (s.processTrace l r)

end Sys2Proof.Machine
end

