-- ==== Sys2Proof/Machine/ModeSet.lean ====
section
/-! DEFINITION. MODE_SET and what follows it outside a plan: the checks, REST and its power-down, the optical start, waiting changes (R17, R33, R36 to R41,
R93, R234, R258, R297, R300, R336, R364 to R366, R369, R410 to R413, R441). -/

namespace Sys2Proof.Machine

/-! ### What refuses a plan -/

/-- SURVEY covers L = 81,920 whatever feasible L the command carries (R31, R37). -/
def PlanWords.surveyed (p : PlanWords) : PlanWords :=
  let long (b : LegBank) : LegBank := { b with w := vmod b.w 2 (fun w => fset w F.LEG_W2.L 81920) }
  if p.mode = modeSurvey then { p with bank := { p.bank with leg := p.bank.leg.map long } } else p

/-- Legs that a bank turns on. -/
def Bank.legsOn (b : Bank) : List Nat := [0, 1].filter (fun l => (b.legBank l).on)

/-- LANE_FAULT: a lane of a leg that the plan turns on failed its self-calibration (R93). -/
def State.laneFault (s : State) (b : Bank) : Option Err :=
  (b.legsOn.filterMap (fun leg =>
    ((List.range 6).find? (fun p => nbit (fget (s.thrLeg leg).lane F.LANE_STAT.CAL_FAIL) p)).map (fun p =>
      ({ status := .laneFault, detail := laneOf leg p, index := leg } : Err)))).head?

/-- ZONE_SPAN: the first zone beyond the new L of its leg that is enabled under the plan, which takes effect at frame f (R234). -/
def State.zoneSpanFault (s : State) (b : Bank) (f : Nat) : Option Err :=
  ((List.range 256).find? (fun z => (s.zoneFrom z f).any (fun x =>
    let l := b.legBank x.leg
    x.on && l.on && decide (l.len < x.first + x.count)))).map (fun z => { status := .zoneSpan, detail := z })

/-- The settings of a unit from frame f on, what waits for a frame included: the one in force then, and those that follow it. -/
def State.unitFrom (s : State) (u f : Nat) : List TrigConfig :=
  let x := s.unit u
  let sets := x.due.filterMap (fun e => match e.2 with | .config c => some (e.1, c) | _ => none) ++
    s.fw.stamped.filterMap (fun p =>
      match p.frame with | some g => if p.code == cTrigSet && p.item == u then some (g, TrigConfig.ofWords (p.words.drop 1) p.bulk) else none | none => none)
  let due := sortOn (·.1) sets
  let y := (due.filter (fun e => decide (e.1 ≤ f))).foldl (fun y e => (y.configure e.2).1) x
  ((due.filter (fun e => decide (f < e.1))).foldl (fun (a : List TrigConfig × TrigUnit) e =>
    let v := (a.2.configure e.2).1; (a.1 ++ [v.c], v)) ([y.c], y)).1

/-- TRIG_SPAN: the first unit enabled under the plan, which takes effect at frame f, that breaks R258 or R259 under it. -/
def State.trigSpanFault (s : State) (b : Bank) (f : Nat) : Option Err :=
  ((List.range 16).find? (fun u => (s.unitFrom u f).any (fun c => c.on && (s.trigSpanBad c b || s.holdBad c b)))).map (fun u =>
    { status := .trigSpan, detail := u })

/-- STREAM_SPAN: the first running stream whose slice the plan's L would cut (R300). -/
def State.streamSpanFault (s : State) (b : Bank) : Option Err :=
  ((List.range 8).find? (fun n =>
    let t := s.stream n
    t.running && t.slices && b.legsOn.any (fun l => t.hasLeg l && decide ((b.legBank l).len < t.first + t.count)))).map (fun n =>
      { status := .streamSpan, detail := n })

/-- RING_PLAN (R336, R413). -/
def State.ringFault (s : State) (b : Bank) : Option Err :=
  let no : Option Err := some { status := .ringPlan, detail := 0xFF }
  if !fbit s.cw.cfg F.CW_CFG.ENABLE then none
  else if !s.cw.stable then no
  else if !s.cwRing then none
  else if !fbit s.cw.stat F.CW_STAT.READY then no
  else if s.cwMaster then none
  else match s.cw.epoch with
    | none => no
    | some (_, tF) => if tF = b.tF then none else some { status := .ringPlan }

/-- NO_TABLE: a slot becomes SOURCE = 1 without a table (R369). -/
def State.noTable (s : State) (b : Bank) : Option Err :=
  (b.legsOn.filterMap (fun leg =>
    let l := b.legBank leg
    (l.slots.find? (fun sl => l.isTable sl && !(vget (vget s.probe.tables leg (Vector.replicate 8 {})) sl {}).loaded)).map (fun sl =>
      ({ status := .noTable, detail := sl, index := leg } : Err)))).head?

/-- The frame, over all plans, at which the plan of a MODE_SET is to take effect; 0 where it starts the probe. -/
def State.planFrame (s : State) (cmd : Cmd) : Nat :=
  if !s.probe.running then 0 else match s.placeAt cmd anyTrace with | .ok (f, _) => f | .error _ => 0

/-- The first reason to refuse a plan to start, in the order in which Table 20.3 lists them; `f`: the frame at which it takes effect. -/
def State.planRefused (s : State) (b : Bank) (f : Nat) : Option Err :=
  let mem : Option Err := if fbit s.cellar.cfg F.CELLAR_CFG.ENABLE then none else some { status := .memFault }
  ([s.laneFault b, mem, s.zoneSpanFault b f, s.trigSpanFault b f, s.streamSpanFault b, s.ringFault b, s.noTable b].filterMap id).head?

/-! ### Plans that change a running probe -/

/-- A plan as it waits for its frame. -/
def State.pendingPlan (s : State) (p : PlanWords) (k : Option Nat) : PendingPlan :=
  { bank := p.bank, mode := p.mode, ng := p.ng, atFrame := k, tables := s.probe.tables }

/-- The plan alters nothing that a probe table holds (R33): same mode, same banks, same tables. One that changes a field outside R33's list (Raman fields, gate
lead and lag, HEAD_DELAY) is taken as an excitation change too, for chapter 2 does not say how it is made (DESIGN CHOICE, log entry 99). -/
def State.samePlan (s : State) (p : PlanWords) : Bool :=
  p.mode == s.fw.mode && p.mode != modeSurvey && { p.bank with e := s.probe.active.e } == s.probe.active &&
    (s.pendingPlan p none).inUse s.probe.inUse == s.probe.inUse

/-- Place of the leg that an AT block names is off. -/
def State.atOff (s : State) (cmd : Cmd) : Bool := s.probe.running && !(s.legBank cmd.atLeg).on

/-- MODE_SET while the probe runs, to a measuring mode or SURVEY: it waits for its frame (R33, R36). -/
def State.modeChange (cmd : Cmd) (p : PlanWords) (s : State) : Reply :=
  match s.placeAt cmd anyTrace with
  | .error e => .refuse e
  | .ok (f, _) =>
    let k := f - s.probe.frameBase
    let flags := s.hearth.ilockLow.toNat
    if s.samePlan p then
      .done (s.modeItems s.probe.active (some k) s.probe.active.e flags) { s with probe := { s.probe with ngs := (insertNg (f, p.ng) s.probe.ngs).take 16 } }
    else
      let items := s.modeItems p.bank (some k) (s.nextE k) flags
      let s1 := { s with probe := { s.probe with shadow := p.bank, pending := some (s.pendingPlan p (some k)) } }
      if p.mode != modeSurvey then .done items s1.summarise
      else if s.fw.mode = modeSurvey then .later { s1 with fw := { s1.fw with surveyNext := some { cmd.longOp with words := items } } }.summarise
      else .later ((s1.startLong cmd none 1).keepItems items).summarise

/-! ### REST (R40) -/

/-- The rooms of the front, Loft and Hearth domains are powered down: what they hold of the acquisition is lost, their registers keep their values. -/
def State.loseRooms (s : State) : State :=
  let off (c : DriveChannel) : DriveChannel := c.zero
  let h := s.hearth
  let hall (x : Hall) : Hall :=
    { x.discard.clearRows with reset := false, replay := {}, chain := { x.discard.chain with loc := [], recent := [], m := 0, resets := [] } }
  let s1 := s.discardRows
  { s1 with
    power := { s.power with front := false, loft := false, hearth := false }
    hearth := { h with hd := h.hd.map off, hs := h.hs.map off, tec := h.tec.map TecLoop.stop, tecOn := false }
    halls := { s1.halls with leg := s1.halls.leg.map hall }
    thr := { s1.thr with
      hk := { s1.thr.hk with cfg := fset s1.thr.hk.cfg F.HK_CFG.ENABLE 0, res := s1.thr.hk.res.map (fun w => fset w F.HK_RES.VALID 0), next := 0, units := 0 }
      trim := s1.thr.trim.cut
      leg := s1.thr.leg.map (fun t => { t with cfg := fset t.cfg F.LEG_CFG.ENABLE 0, pending := none, direct := none, auto := none }) }
    loft := { s1.loft.halt with cfg := fset s1.loft.cfg F.LOFT_CFG.ENABLE 0 } }

/-- MODE_SET to REST: pumps fade, the probe stops at the effective frame (R40, R441). -/
def State.modeRest (cmd : Cmd) (s : State) : Reply :=
  if s.probe.running then
    match s.placeAt cmd anyTrace with
    | .error e => .refuse e
    | .ok (f, _) =>
      let leg := s.probe.active.leader
      let s1 := { s with hearth := s.hearth.fadeAll true }
      .done (restItems (s.traceAhead leg f)) (s1.stopAt (f - s.probe.frameBase)).summarise
  else if s.fw.optical = .surveyDone then
    let leg := s.probe.active.leader
    let eff := s.probe.nextTrace leg (s.legBank leg).lowest
    .done (restItems eff) { s with hearth := s.hearth.fadeAll true }.probeStopped
  else if s.fw.startState then
    .done (restItems allOnes64) { s with fw := { s.fw with startState := false, optical := .fadeOut, opticalUp := s.time.up } }
  else .done (restItems allOnes64) s

/-- The rooms of a plan that waits are powered (R41, R410): domains, TEC loops; self-calibration, which the start state has had (R407). -/
def State.startRooms (calibrated : Bool) (s : State) : State :=
  let s1 := s.powerFront
  let s2 := { s1 with
    power := { s1.power with loft := true, hearth := true }
    hearth := { s1.hearth with tecOn := true }
    fw := { s1.fw with flags := s1.hearth.ilockLow.toNat, opticalUp := s1.time.up, optical := if calibrated then .tecWait else .selfCal } }
  if calibrated then s2.afterTec else s2.startSelfCal

/-- What holds the power-down of REST back (R40 steps 1 to 3): fades, the probe, versions of its frames, record copies, and streams with items under way. -/
def State.restWaits (s : State) : Bool :=
  s.hearth.fading || s.probe.running || !s.trig.fired.isEmpty || s.loft.vec.next.isSome || s.trig.units.toList.any (fun x => !x.queue.isEmpty) || s.streams.str.toList.any s.streamBusy

/-- REST_POWER_DOWN (R40 step 4): the rooms lose their power; a plan that waits for it starts (R41). -/
def execRestPowerDown (s : State) : Res :=
  if s.fw.optical != .fadeOut || s.restWaits || s.shuttingDown || s.runsCalibrate then .next s
  else
    let s1 := s.loseRooms
    .next (if s1.probe.pending.isSome then s1.startRooms false else { s1 with fw := { s1.fw with optical := .idle } })

/-! ### The optical start (R41, R410) -/

/-- MODE_SET that leaves REST or the start state; a REST whose power-down is still to come reaches it first (R40). -/
def State.modeStart (cmd : Cmd) (p : PlanWords) (s : State) : Reply :=
  let s1 := { s with
    probe := { s.probe with shadow := p.bank, pending := some (s.pendingPlan p none) }
    fw := { s.fw with startState := false } }
  let s2 := s1.startLong cmd none (if p.mode = modeSurvey then 1 else 0)
  .later (if s.fw.optical = .fadeOut then s2 else s2.startRooms s.fw.startState).summarise

/-- MODE_SET after a complete SURVEY: the pumps and TECs have held, so the plan starts at the next boundary (R39). -/
def State.modeFromSurvey (cmd : Cmd) (p : PlanWords) (s : State) : Reply :=
  let s := s.endSurveyOp
  let q := s.pendingPlan p none
  let e := s.startE s.now
  let items := s.modeItems q.bank none e s.hearth.ilockLow.toNat
  if p.mode = modeSurvey then .later (((s.startLong cmd none 1).keepItems items).planBegins q e false true) else .done items (s.planBegins q e false true)

/-! ### MODE_SET -/

/-- A change of plan waits for its frame (R36). -/
def State.changeWaits (s : State) : Bool := s.probe.running && s.probe.pending.isSome

/-- The command's effect. -/
def State.modeSet (cmd : Cmd) (s : State) : Reply :=
  match decodePlan cmd.w cmd.bulk with
  | .error e => .refuse e
  | .ok p0 =>
    let p := p0.surveyed
    match p0.infeasible with
    | some e => .refuse e
    | none =>
      if s.atOff cmd then no .param
      else if s.changeWaits then no .modePending
      else if p.mode = 0 then s.modeRest cmd
      else
        match s.planRefused p.bank (s.planFrame cmd) with
        | some e => .refuse e
        | none =>
          if s.probe.running then s.modeChange cmd p
          else if s.fw.optical = .surveyDone then s.modeFromSurvey cmd p
          else s.modeStart cmd p

/-- MODE_SET. -/
def execModeSet (c : Fin 9) (s : State) : Res :=
  let a := s.planWord c.val 4
  s.command { code := cModeSet, s := true, lo := (planLength a).1, hi := (planLength a).2, bulk := planBulk a } c.val noLeg State.modeSet

/-- TEC_SETTLE_TIMEOUT (R410 step 2): 45 s after acceptance the wait ends, and FLAGS[1] says so. -/
def execTecSettleTimeout (s : State) : Res :=
  if s.fw.optical != .tecWait then .next s
  else
    let s1 := s.untilUp (s.fw.opticalUp + 45 * sec)
    .next { s1 with fw := { s1.fw with flags := s1.fw.flags ||| 2 } }.beginFadeIn

/-! ### STAMPED_CHANGE_APPLY (R8, R17, R22, R364) -/

/-- Frame, over all plans, of the next word at the isle where a change applies: the Hall's next trace, the chain's next sample, the next block, version or
launch. -/
def State.isleFrame (s : State) (p : Stamped) : Nat :=
  let leg := p.item
  let launch (l : Nat) : Nat := s.globalFrame (vget s.probe.frame l 0)
  let hall (l : Nat) : Nat := match s.nextLaunch l with | some x => x.frame | none => launch l
  let chain (l : Nat) : Nat := match (s.chain l).input with | x :: _ => x.frame | [] => hall l
  let version : Nat := s.loft.vec.next.getD s.probe.frameBase
  if p.code = cFrontSet then hall leg
  else if p.code = cChainSet then chain leg
  else if p.code = cChainReset then chain p.leg
  else if p.code = cZoneSet || p.code = cZoneParam || p.code = cZoneEnable || p.code = cTrigSet || p.code = cArm || p.code = cDisarm || p.code = cFire then version
  else if p.code = cMapSet || p.code = cPoolSet then version
  else launch leg

/-- A change whose leg is off has no word to switch it in: it is taken once its frame has been reached. -/
def State.applyIdle (p : Stamped) (s : State) : State :=
  let leg := p.item
  let h := s.hall leg
  let t := s.takeChange p
  if p.code = cFrontSet then t.applyFront p
  else if p.code = cGainSet then t.applyGainSet leg (s.indexOfTime s.now) p
  else if p.code = cChainSet then
    let c := h.chain
    t.setChain leg { c with cfg := ((wat p.words 1) &&& 0x3FFF) ||| (c.cfg &&& 0xC000), resp := w32 (fget (wat p.words 2) F.CHAIN_RESP.RESP) }
  else if p.code = cTempSet then
    let gain := t.tempGainChange leg p.words
    let u := { t with probe := t.probe.setTemp leg p.words }
    (if gain then u.requestDirect leg (u.frameAt u.now) p.words else u).setHall leg { h with raman := { h.raman with par := { h.raman.par with seconds := (wat p.words 2).toNat } } }
  else if p.code = cTempCal then t.applyTempCal (p.frame.getD 0) p
  else if p.code = cReplayStart then t.applyReplayStart leg
  else if p.code = cReplayStop then t.applyReplayStop leg
  else if p.code = cMapSet then t.applyMapSet p
  else t

/-- Codes whose first parameter names a leg. -/
def legCodes : List Nat := [cGainSet, cFrontSet, cChainSet, cMapSet, cTempSet, cTempCal, cReplayStart, cReplayStop]

/-- STAMPED_CHANGE_APPLY: the k-th waiting change, once the next word of its isle is of its frame or later. Loft and trigger changes go to the units they
name; those of a trace's own isles are switched in by that trace's row. -/
def execStampedChangeApply (k : Nat) (s : State) : Res :=
  match s.fw.stamped[k]? with
  | none => .next s
  | some p =>
    match p.frame with
    | none => .next s
    | some f =>
      if !s.probe.running || s.isleFrame p < f then .next s
      else if p.code = cZoneSet || p.code = cZoneParam || p.code = cZoneEnable then .next (s.distribute f)
      else if p.code = cTrigSet || p.code = cArm || p.code = cDisarm || p.code = cFire then .next (s.distributeTrig f)
      else if p.code = cStreamStart then .next s.streamStarts
      else if p.code = cFrontSet && (s.legBank p.item).on then .next ((s.takeChange p).applyFront p)
      else if p.code = cChainSet || p.code = cChainReset then
        let leg := if p.code = cChainSet then p.item else p.leg
        match (s.chain leg).input with
        | x :: _ => .next (s.prepareChain leg x)
        | [] => .next (if (s.legBank leg).on then s else s.applyIdle p)
      else if legCodes.contains p.code && !(s.legBank p.item).on then .next (s.applyIdle p)
      else .next s

end Sys2Proof.Machine
end

