-- ==== Sys2Proof/Machine/Net.lean ====
section
/-! DEFINITION. Ethernet, the IP layers, OMP over UDP, and the I2C module reads (R320 to R325, R328). -/

namespace Sys2Proof.Machine

def State.setEthPort (p : Nat) (x : EthPort) (s : State) : State :=
  s.withEth { s.porch.eth with port := vset s.porch.eth.port p x }

/-- A frame is discarded and counted (R320). -/
def State.dropFrame (p : Nat) (s : State) : State := let x := s.ethPort p; s.setEthPort p { x with drop := x.drop + 1 }

/-- Something leaves on Ethernet. -/
def State.ethSend (o : EthOut) (s : State) : State := s.withEth { s.porch.eth with sent := s.porch.eth.sent ++ [o] }

/-- The tag of a frame is the port's (Table 18.3): none with VLAN_EN = 0, VID with VLAN_EN = 1. -/
def EthPort.takesVid (x : EthPort) (vid : Option Nat) : Bool :=
  if fbit x.cfg F.ETH_CFG.VLAN_EN then vid == some (fget x.cfg F.ETH_CFG.VID) else vid.isNone

/-- The link-local address of a MAC address: the modified EUI-64 behind FE80::/64 (PRESUMED, log entry 38). -/
def linkLocal (mac : Nat) : Nat := 0xFE80 * 2 ^ 112 + (mac / 2 ^ 24 ^^^ 0x020000) * 2 ^ 40 + 0xFFFE * 2 ^ 24 + mac % 2 ^ 24

/-- An address of the port. -/
def EthPort.owns (x : EthPort) (v6 : Bool) (a : Nat) : Bool :=
  if v6 then (x.ip6 != 0 && a == x.ip6) || a == linkLocal (if x.mac = 0 then x.fuse else x.mac) else x.ip4 != 0 && a == x.ip4

/-- Who answers for a destination: its gateway, if it has one (R321). -/
def Destination.hop (d : Destination) : Nat := if d.gateway = 0 then d.addr else d.gateway

/-- An ARP reply or a neighbour advertisement of `sender` resolves the destinations that it answers for (R321). -/
def State.resolveFrom (p : Nat) (v6 : Bool) (sender : Nat) (s : State) : State :=
  let e := s.porch.eth
  let f (d : Destination) : Destination := if d.set && d.port == p && d.v6 == v6 && d.hop == sender then { d with resolved := true } else d
  s.withEth { e with dest := e.dest.map f }

/-! ### OMP datagrams (R323, R324) -/

/-- The session of a request, most recently used from now on; a new one evicts the least recently used of eight, and takes up the highest SEQ
that a Study reset kept (R393). -/
def State.useSession (k : Nat) (s : State) : UdpSession × State :=
  let e := s.porch.eth
  let x := match e.sessions.find? (fun x => x.session == k) with
    | some x => x
    | none => { session := k, floor := (s.larder.udpSeq.find? (fun p => p.1 == k)).map (·.2) }
  (x, s.withEth { e with sessions := (x :: e.sessions.filter (fun y => y.session != k)).take 8 })

/-- The front session replaced. -/
def State.setSession (x : UdpSession) (s : State) : State := s.withEth { s.porch.eth with sessions := x :: s.porch.eth.sessions.drop 1 }

/-- A SEQ older than the window of answered ones, or accepted before a Study reset (R324, R393). -/
def UdpSession.stale (x : UdpSession) (seq : Nat) : Bool :=
  (!x.answered.isEmpty && x.answered.all (fun a => decide (seq < a.1))) || (match x.floor with | some n => decide (seq ≤ n) | none => false)

/-- A request: a SEQ answered within the window gets its response from the cache; one still at work is not taken twice; a stale one is refused;
any other enters the receive queue. -/
def State.takeDatagram (src session seq : Nat) (msg : Msg) (bulk : List Byte) (s : State) : State :=
  let (x, s1) := s.useSession session
  match x.answered.find? (fun a => a.1 == seq) with
  | some a => s1.ethSend (.omp session seq 3 a.2)
  | none =>
    if x.waiting.contains seq then s1
    else if x.stale seq then
      s1.ethSend (.omp session seq 1 (mkSeries 1 (msgCode msg) (msgTag msg) [statusWord Status.staleSeq.num 0 0xFF]).flatten)
    else
      let s2 := s1.setSession { x with waiting := x.waiting ++ [seq], last := max x.last seq }
      let r : Request := { msg, udp := some { session, seq, source := src }, bulk }
      ({ s2 with fw := { s2.fw with inbox := vmod s2.fw.inbox 8 (fun q => q ++ [r]) } }).settleAll 8

/-- A datagram to CTL_PORT (R323): one whose header is not that of a request, or whose lengths do not fit, is discarded. -/
def State.ompDatagram (p src : Nat) (bs : List Byte) (s : State) : State :=
  let len := leAt bs 12 2
  let body := (bs.drop 16).take len
  let ws := wordsOfBytes body
  let n := msgWords ws
  let good := decide (16 ≤ bs.length) && leAt bs 0 2 == 0x4F4D && leAt bs 2 1 == 1 && leAt bs 3 1 == 0 && leAt bs 14 2 == 0 &&
    decide (4 ≤ len) && decide (len ≤ 8192) && body.length == len && decide (4 * n ≤ len) && s.fwReady
  if good then s.takeDatagram src (leAt bs 4 4) (leAt bs 8 4) (ws.take n) (body.drop (4 * n)) else s.dropFrame p

/-! ### The rows -/

/-- ETH_FRAME_RECEIVED (R320 to R325): what a running port with link receives. PTP event messages have rows of their own (R275). -/
def execEthFrameReceived (f : EthFrame) (s : State) : Res :=
  let p := f.port.val
  let x := s.ethPort p
  let answer (mine : Bool) : State := if mine then s.ethSend (.reply p) else s
  if !fbit x.cfg F.ETH_CFG.ENABLE || !fbit x.stat F.ETH_STAT.LINK then .next s
  else if !x.takesVid (f.vid.map (·.val)) then .next (s.dropFrame p)
  else
    match f.body with
    | .pause => .next (s.dropFrame p)
    | .arp true _ target => .next (answer (x.owns false target))
    | .arp false sender _ => .next (s.resolveFrom p false sender)
    | .neighbour true _ target => .next (answer (x.owns true target))
    | .neighbour false sender _ => .next (s.resolveFrom p true sender)
    | .echo v6 dst => .next (answer (x.owns v6 dst))
    | .routerAdvertisement => .next s
    | .query ptp => .next (answer (ptp && s.time.ptp.port == p))
    | .lease a => .next (if fbit x.cfg F.ETH_CFG.DHCP then s.setEthPort p { x with ip4 := a } else s.dropFrame p)
    | .udp v6 src dst dstPort data =>
      if x.owns v6 dst && dstPort.val == s.porch.eth.ctlPort then .next (s.ompDatagram p src data) else .next (s.dropFrame p)
    | .other => .next (s.dropFrame p)

/-- ADDRESS_PROBE (R321): each destination that is set and not resolved is probed by ARP or NDP on its port. -/
def execAddressProbe (s : State) : Res :=
  let e := s.porch.eth
  let due (d : Nat) : Bool :=
    let x := vget e.dest d {}
    let p := vget e.port x.port {}
    x.set && !x.resolved && fbit p.cfg F.ETH_CFG.ENABLE && fbit p.stat F.ETH_STAT.LINK
  .next (((List.range 16).filter due).foldl (fun t d => t.ethSend (.probe d)) s)

/-- ETH_LINK_CHANGE (R320, Table 18.7): PCS lock and rate of a port. -/
def execEthLinkChange (p : Fin 2) (link at25 : Bool) (s : State) : Res :=
  let x := s.ethPort p.val
  let s1 := s.setEthPort p.val { x with stat := fsetB (fsetB x.stat F.ETH_STAT.LINK link) F.ETH_STAT.AT_25G at25 }
  .next (s1.setCondition srcEthLink s1.ethLinkLost p.val)

/-- I2C_MODULE_POLL (R328): what bus `b` gave. `pages`: pages 0x50 and 0x51 of the module, none after three transfers without acknowledge;
`stuck`: SDA stays low after 9 clocks and a STOP. Buses 0 and 1 serve the modules. -/
def execI2cModulePoll (b : Fin 3) (pages : Option (List Byte × List Byte)) (stuck : Bool) (s : State) : Res :=
  let y := vget s.porch.i2c b.val {}
  let y1 : I2c := match pages, decide (b.val < 2) with
    | some q, true => { y with stuck, page50 := q.1, page51 := q.2 }
    | _, _ => { y with stuck }
  let s1 := { s with porch := { s.porch with i2c := vset s.porch.i2c b.val y1 } }
  let s2 := if b.val < 2 then
      let x := s1.ethPort b.val
      s1.setEthPort b.val { x with stat := fsetB x.stat F.ETH_STAT.MODULE (pages.isSome && !stuck) }
    else s1
  .next (s2.setCondition srcI2cBus (s2.porch.i2c.toList.any (·.stuck)) b.val)

end Sys2Proof.Machine
end

