-- ==== Sys2Proof/Machine/Registers.lean ====
section
/-! DEFINITION. REGISTER_WRITE: writes of the host map and of the rooms' registers by field type (R6, R375 to R377 and the rules that state each
room's registers). -/

namespace Sys2Proof.Machine

/-- A register that a write reaches: its field types, its block's ENABLE, the word it holds, and the state with another word in it. -/
structure Reg where
  kind : RegKind
  gate : Bool := false
  old : Word
  put : Word → State

/-- The write: an ignored one is flagged by the room's `flag`. -/
def Reg.write (r : Reg) (flag : State → State) (w : Word) : State :=
  let x := regWrite r.kind r.gate r.old w
  let s1 := r.put x.word
  (if x.ignored then flag s1 else s1).keepAltered x.keepAltered

/-- The index of an offset in a row of registers. -/
def rowIndex (off base stride count : Nat) : Option Nat :=
  if base ≤ off ∧ (off - base) % stride = 0 ∧ (off - base) / stride < count then some ((off - base) / stride) else none

/-- A register of a row. -/
def regRow (off base stride count : Nat) (f : Nat → Reg) : Option Reg := (rowIndex off base stride count).map f

/-- A single register. -/
def regAt (off at_ : Nat) (r : Reg) : Option Reg := if off = at_ then some r else none

/-- What a write reaches of a list of rows; elsewhere it changes nothing. -/
def firstReg (rs : List (Option Reg)) : Option Reg := rs.findSome? id

/-- All 32 bits RW, and all 32 bits RWE. -/
def kindRw : RegKind := { rw := 0xFFFFFFFF }
def kindRwe : RegKind := { rwe := 0xFFFFFFFF }

/-! ### Hearth (R81, Table 4.2) -/

/-- The TEC loop whose ENABLE has gone stops, and has no share in TEC_SENSOR's cause any more. -/
def TecLoop.setCfg (t : TecLoop) (w : Word) : TecLoop :=
  let u := { t with cfg := w }
  if fbit t.cfg F.TEC_CFG.ENABLE && !fbit w F.TEC_CFG.ENABLE then { u.stop with bad := false } else u

/-- A TEC setting whose HK_SEL lies beyond HK_CFG.COUNT, which firmware refuses (R74): it is not written. -/
def State.tecSelBeyond (s : State) (n : Nat) (w : Word) : Bool :=
  let t := vget s.hearth.tec n {}
  decide (fget s.thr.hk.cfg F.HK_CFG.COUNT < fget (regWrite F.TEC_CFG.kind (fbit t.cfg F.TEC_CFG.ENABLE) t.cfg w).word F.TEC_CFG.HK_SEL)

/-- Hearth registers that a write changes without further effect. Table 4.2 gives HSn_PWM_PER and HSn_PWM_ON no field type: they are taken as RWE
fields that the channel's ENABLE gates, and a value outside R66's ranges is stored as it stands (DESIGN CHOICE, log entry 96). -/
def State.hearthReg (off : Nat) (s : State) : Option Reg :=
  let h := s.hearth
  let drive (ch : Nat) (kind : RegKind) (old : DriveChannel → Word) (put : DriveChannel → Word → DriveChannel) : Reg :=
    let c := h.drive ch
    { kind, gate := fbit c.cfg F.HD_CFG.ENABLE, old := old c, put := fun w => s.withHearth (h.setDrive ch (put c w)) }
  let tec (n : Nat) (kind : RegKind) (old : TecLoop → Word) (put : TecLoop → Word → TecLoop) : Reg :=
    let t := vget h.tec n {}
    { kind, gate := fbit t.cfg F.TEC_CFG.ENABLE, old := old t, put := fun w => s.withHearth { h with tec := vset h.tec n (put t w) } }
  let chain (kind : RegKind) (old : Word) (put : ChainPort → Word → ChainPort) : Reg :=
    { kind, gate := fbit h.chain.cfg F.HCHAIN_CFG.ENABLE, old, put := fun w => s.withHearth { h with chain := put h.chain w } }
  firstReg
    [regRow off 0x008 0x10 8 (fun n => drive n F.HD_STAT.kind (·.stat) (fun c w => { c with stat := w })),
     regRow off 0x088 0x20 4 (fun n => drive (8 + n) F.HD_STAT.kind (·.stat) (fun c w => { c with stat := w })),
     regRow off 0x090 0x20 4 (fun n => drive (8 + n) { rwe := 0xFFFFF } (·.pwmPer) (fun c w => { c with pwmPer := w })),
     regRow off 0x094 0x20 4 (fun n => drive (8 + n) { rwe := 0xFFFFF } (·.pwmOn) (fun c w => { c with pwmOn := w })),
     regRow off 0x104 0x10 2 (fun n =>
       let g := vget h.gate n {}
       { kind := F.HD_STAT.kind, old := g.stat, put := fun w => s.withHearth { h with gate := vset h.gate n { g with stat := w } } }),
     regRow off 0x120 0x10 2 (fun n => tec n F.TEC_CFG.kind (·.cfg) TecLoop.setCfg),
     regRow off 0x124 0x10 2 (fun n => tec n F.TEC_TGT.kind (·.tgt) (fun t w => { t with tgt := w })),
     regRow off 0x128 0x10 2 (fun n => tec n F.TEC_STAT.kind (·.stat) (fun t w => { t with stat := w })),
     regRow off 0x12C 0x10 2 (fun n => tec n kindRwe (·.gains) (fun t w => { t with gains := w })),
     regAt off 0x140 (chain F.HCHAIN_CFG.kind h.chain.cfg (fun c w => { c with cfg := w })),
     regAt off 0x148 (chain F.HCHAIN_STAT.kind h.chain.stat (fun c w => { c with stat := w })),
     regRow off 0x180 4 16 (fun n => chain kindRw (vget h.chain.data n 0) (fun c w => { c with data := vset c.data n w })),
     regRow off 0x200 4 16 (fun n => chain kindRw (vget h.chain.safe n 0) (fun c w => { c with safe := vset c.safe n w })),
     regAt off 0x240 { kind := F.HEARTH_STAT.kind, old := h.stat, put := fun w => s.withHearth { h with stat := w } }]

/-- Plain settings of the Hearth that firmware refuses, and so does not write: a TEC's HK_SEL beyond COUNT (R74), a PWM_ON too short for an HS
channel that is judged (R72). -/
def State.hearthRefuses (off : Nat) (w : Word) (s : State) : Bool :=
  match rowIndex off 0x120 0x10 2, rowIndex off 0x094 0x20 4 with
  | some n, _ => s.tecSelBeyond n w
  | _, some n =>
    let c := s.hearth.drive (8 + n)
    !fbit c.cfg F.HD_CFG.ENABLE && pwmTooShort c.cfg (w &&& 0xFFFFF)
  | _, _ => false

/-- A write in the Hearth: CFG and SET words with their effects (R68, R69), CHAIN_CTRL.GO, and the plain ones. -/
def State.writeHearth (off : Nat) (w : Word) (s : State) : State :=
  let set (ch : Nat) : State := s.setpoint ch w
  match rowIndex off 0x000 0x10 8, rowIndex off 0x080 0x20 4, rowIndex off 0x100 0x10 2, rowIndex off 0x004 0x10 8, rowIndex off 0x084 0x20 4 with
  | some n, _, _, _, _ => s.writeDriveCfg n w
  | _, some n, _, _, _ => s.writeDriveCfg (8 + n) w
  | _, _, some n, _, _ => s.writeDriveCfg (12 + n) w
  | _, _, _, some n, _ => set n
  | _, _, _, _, some n => set (8 + n)
  | _, _, _, _, _ =>
    if off = 0x144 then (if nbit w.toNat 0 && !s.safe then s.withHearth { s.hearth with chain := s.hearth.chain.go } else s)
    else if s.hearthRefuses off w then s
    else
      match s.hearthReg off with
      | some r => r.write (fun t => t.withHearth (t.hearth.ignored true off)) w
      | none => s

/-! ### Threshold and trims (R100, R114, Tables 5.7 and 6.2) -/

/-- HK_CFG: setting ENABLE starts a sweep at entry 0. -/
def Housekeeping.setCfg (h : Housekeeping) (w : Word) : Housekeeping :=
  if !fbit h.cfg F.HK_CFG.ENABLE && fbit w F.HK_CFG.ENABLE then { h with cfg := w, next := 0, units := 0, res := h.res.map (fun r => fset r F.HK_RES.VALID 0) }
  else { h with cfg := w }

/-- TRIM_DEFER: more than 600 s is taken as 600 (R106). -/
def deferWord (w : Word) : Word := fset w F.TRIM_DEFER.SECONDS (min 600 (fget w F.TRIM_DEFER.SECONDS))

/-- Threshold registers that a write changes without further effect. -/
def State.thresholdReg (off : Nat) (s : State) : Option Reg :=
  let t := s.thr
  let legGate (leg : Nat) : Bool := fbit (s.thrLeg leg).cfg F.LEG_CFG.ENABLE
  let leg (n : Nat) (kind : RegKind) (old : ThrLeg → Word) (put : ThrLeg → Word → ThrLeg) : Reg :=
    let x := s.thrLeg n
    { kind, old := old x, put := fun w => s.setThrLeg n (put x w) }
  let hk (kind : RegKind) (old : Word) (put : Housekeeping → Word → Housekeeping) : Reg :=
    { kind, gate := fbit t.hk.cfg F.HK_CFG.ENABLE, old, put := fun w => { s with thr := { t with hk := put t.hk w } } }
  let trim (kind : RegKind) (gate : Bool) (old : Word) (put : Trim → Word → Trim) : Reg := { kind, gate, old, put := fun w => s.setTrim (put s.trim w) }
  firstReg
    [regRow off 0x000 0x40 2 (fun n => leg n F.LEG_CFG.kind (·.cfg) (fun x w => { x with cfg := w })),
     regRow off 0x008 0x40 2 (fun n => leg n kindRw (·.at_) (fun x w => { x with at_ := w })),
     regRow off 0x00C 0x40 2 (fun n => leg n F.GAIN_STAT.kind (·.stat) (fun x w => { x with stat := w })),
     regRow off 0x010 0x40 2 (fun n => leg n F.LANE_STAT.kind (·.lane) (fun x w => { x with lane := w })),
     regAt off 0x100 (hk F.HK_CFG.kind t.hk.cfg Housekeeping.setCfg),
     regAt off 0x108 (hk F.HK_OPEN.kind t.hk.open_ (fun h w => { h with open_ := w })),
     regRow off 0x180 4 24 (fun m => hk F.HK_ENT.kind (vget t.hk.ent m 0) (fun h w => { h with ent := vset h.ent m w })),
     regAt off 0x280 { kind := F.THR_STAT.kind, old := t.stat, put := fun w => { s with thr := { t with stat := w } } },
     regAt off 0x300 (trim F.TRIM_CFG.kind (fbit s.trim.cfg F.TRIM_CFG.ENABLE) s.trim.cfg (fun x w => { x with cfg := w })),
     regAt off 0x308 (trim F.TRIM_DEFER.kind false s.trim.defer (fun x w => { x with defer := deferWord w })),
     regAt off 0x30C (trim F.TRIM_STAT.kind false s.trim.stat (fun x w => { x with stat := w })),
     regRow off 0x340 4 12 (fun k => trim F.DLY.kind (legGate (laneLeg k)) (vget s.trim.dly k 0) (fun x w => { x with dly := vset x.dly k w })),
     (rowIndex (off % 256) 0 4 48).bind (fun i => regRow (off - 4 * i) 0x1000 0x100 12 (fun k =>
       let f := vget t.calf k (Vector.replicate 48 0)
       { kind := kindRwe, gate := legGate (laneLeg k), old := vget f i 0, put := fun w => { s with thr := { t with calf := vset t.calf k (vset f i w) } } }))]

/-- A write in Threshold: GAIN_REQ and TRIM_CTRL with their effects, and the plain ones. -/
def State.writeThreshold (off : Nat) (w : Word) (s : State) : State :=
  match rowIndex off 0x004 0x40 2 with
  | some n => s.writeGainReq n w
  | none =>
    if off = 0x304 then s.requestTrim w
    else
      match s.thresholdReg off with
      | some r => r.write (fun t => { t with thr := { t.thr with stat := fset t.thr.stat F.THR_STAT.WRITE_IGNORED 1, wi := w32 (off % 8192) } }) w
      | none => s

/-! ### Hall (R127, R140, R169, R190, Tables 7.7, 8.5, 9.5 and 10.9) -/

/-- CHAIN_CFGn: clearing ENABLE leaves the state at 0, setting it asks for a reset at the next frame boundary, from which the chain runs (R187, R190). -/
def Chain.setCfg (c : Chain) (w : Word) : Chain :=
  let was := fbit c.cfg F.CHAIN_CFG.ENABLE
  let on := fbit w F.CHAIN_CFG.ENABLE
  let c1 := { c with cfg := w }
  if !on then { c1.clear with due := none }
  else if !was then c1.note 4 else c1

/-- CHAIN_RESPn: a change of R asks for a reset, any other swap starts its fade at the next merged sample (R183, R185). -/
def Chain.setResp (c : Chain) (w : Word) : Chain :=
  let resp := fget w F.CHAIN_RESP.RESP
  let c1 := { c with resp := w32 resp }
  if !fbit c.cfg F.CHAIN_CFG.ENABLE then c1
  else if respDecim resp != respDecim c.now then c1.note 1
  else if resp = c.now && resp = fget c.resp F.CHAIN_RESP.RESP && c.fade.isNone then c1
  else { c1 with held := some resp, stat := if c.held.isSome then finc c.stat F.CHAIN_STAT.SWAP_COALESCED else c.stat }

/-- CHAIN_CTRLn.RESET (R187): set until a reset is applied; of a chain that is disabled, the one that enabling it brings. -/
def Chain.setCtrl (c : Chain) (w : Word) : Chain :=
  if !fbit w F.CHAIN_CTRL.RESET then c
  else
    let c1 := { c with ctrl := w }
    if fbit c.cfg F.CHAIN_CFG.ENABLE then c1.note 2 else c1

/-- RAMAN_CFGn (R162, R169): with ENABLE at 0 nothing accumulates and RUNNING reads 0; setting it starts the channel of a leg that is measured (`on`) at its
next frame boundary. -/
def Hall.setRamanCfg (h : Hall) (on : Bool) (w : Word) : Hall :=
  let r := h.raman
  if !fbit w F.RAMAN_CFG.ENABLE then
    { h with ramanAgain := false, raman := { r with cfg := w, starting := none, stat := fset r.stat F.RAMAN_STAT.RUNNING 0 } }
  else { h with ramanAgain := h.ramanAgain || (on && !fbit r.cfg F.RAMAN_CFG.ENABLE), raman := { r with cfg := w } }

/-- Hall registers; a write to the shadow set counts at once (DEDUCED, log entry 39). -/
def State.hallReg (off : Nat) (s : State) : Option Reg :=
  let leg (n : Nat) (kind : RegKind) (old : Hall → Word) (put : Hall → Word → Hall) : Reg :=
    let h := s.hall n
    { kind, old := old h, put := fun w => s.setHall n (put h w) }
  let raman (n : Nat) (kind : RegKind) (old : Raman → Word) (put : Raman → Word → Raman) : Reg :=
    let h := s.hall n
    { kind, gate := fbit h.raman.cfg F.RAMAN_CFG.ENABLE, old := old h.raman, put := fun w => s.setHall n { h with raman := put h.raman w } }
  let chain (n : Nat) (kind : RegKind) (old : Chain → Word) (put : Chain → Word → Chain) : Reg :=
    let h := s.hall n
    { kind, old := old h.chain
      put := fun w =>
        let c := put h.chain w
        (if c.fade.isNone then s.abandonFade n else s).setHall n { h with chain := c } }
  firstReg
    [regRow off 0x000 0x40 2 (fun n => leg n F.FRONT_CFG.kind (·.frontCfg) (fun h w => { h with frontCfg := w })),
     regRow off 0x004 0x40 2 (fun n => leg n F.FRONT_REL.kind (·.frontRel) (fun h w => { h with frontRel := w })),
     regRow off 0x010 4 8 (fun i => leg 0 F.FRONT_NREF.kind (fun h => vget h.nref i 0) (fun h w => { h with nref := vset h.nref i w })),
     regRow off 0x050 4 8 (fun i => leg 1 F.FRONT_NREF.kind (fun h => vget h.nref i 0) (fun h w => { h with nref := vset h.nref i w })),
     regRow off 0x200 4 80 (fun i => leg 0 kindRw (fun h => vget h.prof i 0) (fun h w => { h with prof := vset h.prof i w })),
     regRow off 0x400 4 80 (fun i => leg 1 kindRw (fun h => vget h.prof i 0) (fun h w => { h with prof := vset h.prof i w })),
     regRow off 0x030 0x40 2 (fun n => leg n F.PHASE_CFG.kind (·.phaseCfg) (fun h w => { h with phaseCfg := w })),
     regRow off 0x034 0x40 2 (fun n => leg n F.ALIGN_K.kind (·.alignK) (fun h w => { h with alignK := w })),
     regRow off 0x038 0x40 2 (fun n => leg n F.PHASE_SET.kind (·.phaseSet) (fun h w => { h with phaseSet := w })),
     regRow off 0x600 0x20 2 (fun n =>
       { kind := F.RAMAN_CFG.kind, gate := fbit (s.hall n).raman.cfg F.RAMAN_CFG.ENABLE, old := (s.hall n).raman.cfg
         put := fun w => s.setHall n ((s.hall n).setRamanCfg (s.legOn n) w) }),
     regRow off 0x604 0x20 2 (fun n => raman n F.RAMAN_SPAN.kind (·.span) (fun r w => { r with span := w })),
     regRow off 0x60C 0x20 2 (fun n => raman n F.RAMAN_STAT.kind (·.stat) (fun r w => { r with stat := w })),
     regRow off 0x800 0x20 2 (fun n => chain n F.CHAIN_CFG.kind (·.cfg) Chain.setCfg),
     regRow off 0x804 0x20 2 (fun n => chain n F.CHAIN_RESP.kind (·.resp) Chain.setResp),
     regRow off 0x808 0x20 2 (fun n => chain n F.CHAIN_CTRL.kind (·.ctrl) Chain.setCtrl)]

/-- A write in the Hall: only the Raman channel has gated fields. -/
def State.writeHall (off : Nat) (w : Word) (s : State) : State :=
  let n := (off - 0x600) / 0x20
  match s.hallReg off with
  | some r =>
    r.write (fun t =>
      let h := t.hall n
      t.setHall n { h with raman := { h.raman with stat := fset h.raman.stat F.RAMAN_STAT.WRITE_IGNORED 1, wi := w32 (off % 32) } }) w
  | none => s

/-! ### Loft, zones and triggers (R213, R251, R266, Tables 11.7, 13.8 and 14.4) -/

/-- The next frame, over all plans, of either leg: when a register change of the Loft's shadow sets takes effect. -/
def State.nextEither (s : State) : Nat := max (s.nextFrame 0) (s.nextFrame 1)

/-- A register word of a zone: at once while the zone is off; of a running zone whose ENABLE has been cleared, with that change at the boundary (R17, R233). -/
def Zone.writeWord (z : Zone) (frame k : Nat) (w : Word) : Zone :=
  if z.on && !z.asWritten.on then { z with due := z.due ++ [(frame, .word k w)] } else z.putWord k w

/-- ZONEz_CFG: a change of ENABLE takes effect at the next frame boundary (R240). -/
def Zone.setCfg (z : Zone) (frame : Nat) (w : Word) : Zone :=
  let on := fbit w F.ZONE_CFG.ENABLE
  let z1 := z.writeWord frame 0 w
  if on = z.asWritten.on then z1 else { z1 with due := z1.due ++ [(frame, .enable on)] }

/-- TRIGu_CFG: clearing ENABLE makes the unit IDLE and clears its counts. -/
def TrigUnit.setCfg (x : TrigUnit) (w : Word) : TrigUnit :=
  let y := { x with c := { x.c with cfg := w } }
  if x.c.on && !y.c.on then { y.idle with early := 0, rearms := 0 } else y

/-- TRIGu_CTRL: each bit written falls due at the next frame and clears when applied. -/
def TrigUnit.setCtrl (x : TrigUnit) (frame : Nat) (w : Word) : TrigUnit :=
  let new (f : Fld) (d : TrigDue) : List (Nat × TrigDue) := if fbit w f && !fbit x.ctrl f then [(frame, d)] else []
  let due := new F.TRIG_CTRL.ARM .arm ++ new F.TRIG_CTRL.DISARM .disarm ++ new F.TRIG_CTRL.FIRE .fire
  { x with ctrl := w, due := x.due ++ due }

/-- Word i of a unit's 64 words, beyond the list 0. -/
def setWord64 (ws : List Word) (i : Nat) (w : Word) : List Word := ((List.range 64).map (wat ws)).set i w

/-- Loft registers below 0x4000. -/
def State.loftReg (off : Nat) (s : State) : Option Reg :=
  let l := s.loft
  let on := fbit l.cfg F.LOFT_CFG.ENABLE
  let map (n : Nat) (kind : RegKind) (old : MapLeg → Word) (put : MapLeg → Word → MapLeg) : Reg :=
    let m := s.mapLeg n
    { kind, gate := on, old := old m, put := fun w => s.setMap n (put m w) }
  let pool (n : Nat) (kind : RegKind) (old : Pool → Word) (put : Pool → Word → Pool) : Reg :=
    let p := vget l.pool n {}
    { kind, gate := p.on, old := old p, put := fun w => s.withLoft { l with pool := vset l.pool n (put p w) } }
  firstReg
    [regAt off 0x000 { kind := F.LOFT_CFG.kind, gate := on, old := l.cfg, put := fun w => s.withLoft { l with cfg := w } },
     regAt off 0x004 { kind := F.LOFT_STAT.kind, old := l.stat, put := fun w => s.withLoft { l with stat := w } },
     regRow off 0x010 0x40 2 (fun n => map n F.MAP_CFG.kind (·.cfg) (fun m w => { m with cfg := w })),
     regRow off 0x018 4 7 (fun i => map 0 F.MAP_EDGE.kind (fun m => vget m.edge i 0) (fun m w => { m with edge := vset m.edge i w })),
     regRow off 0x058 4 7 (fun i => map 1 F.MAP_EDGE.kind (fun m => vget m.edge i 0) (fun m w => { m with edge := vset m.edge i w })),
     regRow off 0x100 0x10 8 (fun n => pool n F.POOL_CFG.kind (·.cfg) (fun p w => { p with cfg := w })),
     regRow off 0x104 0x10 8 (fun n => pool n kindRwe (·.quad) (fun p w => { p with quad := w })),
     regRow off 0x108 0x10 8 (fun n => pool n kindRwe (·.quadh) (fun p w => { p with quadh := w })),
     regRow off 0x10C 0x10 8 (fun n => pool n { rw := 0xFFFFFF00, rwe := 0xFF } (·.cplx) (fun p w => { p with cplx := w })),
     regRow off 0x200 4 72 (fun c =>
       let x := vget l.cell c {}
       { kind := F.CELL_STAT.kind, old := x.stat, put := fun w => s.withLoft { l with cell := vset l.cell c { x with stat := w } } })]

/-- Zone and detector registers. -/
def State.zoneReg (off : Nat) (s : State) : Option Reg :=
  let zone (z : Nat) (kind : RegKind) (old : Zone → Word) (put : Zone → Word → Zone) : Reg :=
    let x := s.zone z
    { kind, gate := x.asWritten.on, old := old x.asWritten, put := fun w => s.setZone z (put x w) }
  let word (k : Nat) (x : Zone) (w : Word) : Zone := x.writeWord s.nextEither k w
  firstReg
    [regRow off 0x4000 0x20 256 (fun z => zone z F.ZONE_CFG.kind (·.cfg) (fun x w => x.setCfg s.nextEither w)),
     regRow off 0x4004 0x20 256 (fun z => zone z F.ZONE_SPAN.kind (·.span) (word 1)),
     regRow off 0x4008 0x20 256 (fun z => zone z F.ZONE_PAGE.kind (·.page) (word 2)),
     regRow off 0x400C 0x20 256 (fun z => zone z F.ZONE_OUT.kind (·.out) (word 3)),
     regRow off 0x4014 0x20 256 (fun z => zone z F.ZONE_APPLY.kind (·.apply) (word 4)),
     regRow off 0x6000 0x8 2048 (fun k => zone (k / 8) F.DET_CFG.kind (fun x => (vget x.det (k % 8) {}).cfg) (word (5 + k % 8)))]

/-- Trigger registers. -/
def State.trigReg (off : Nat) (s : State) : Option Reg :=
  let unit (u : Nat) (kind : RegKind) (old : TrigUnit → Word) (put : TrigUnit → Word → TrigUnit) : Reg :=
    let x := s.unit u
    { kind, gate := x.c.on, old := old x, put := fun w => s.setUnit u (put x w) }
  let conf (u : Nat) (kind : RegKind) (old : TrigConfig → Word) (put : TrigConfig → Word → TrigConfig) : Reg :=
    unit u kind (fun x => old x.c) (fun x w => { x with c := put x.c w })
  let row (o : Nat) (f : Nat → Reg) : Option Reg := regRow off (0xB000 + o) 0x40 16 f
  firstReg
    [row 0x00 (fun u => unit u F.TRIG_CFG.kind (·.c.cfg) TrigUnit.setCfg),
     row 0x04 (fun u => conf u F.TRIG_PRE.kind (·.pre) (fun c w => { c with pre := w })),
     row 0x08 (fun u => conf u F.TRIG_POST.kind (·.post) (fun c w => { c with post := w })),
     row 0x0C (fun u => conf u F.TRIG_HOLD.kind (·.hold) (fun c w => { c with hold := w })),
     row 0x10 (fun u => conf u F.TRIG_FIRST.kind (·.first) (fun c w => { c with first := w })),
     row 0x14 (fun u => conf u F.TRIG_COUNT.kind (·.count) (fun c w => { c with count := w })),
     row 0x18 (fun u => conf u F.TRIG_INTERVAL.kind (·.interval) (fun c w => { c with interval := w })),
     row 0x1C (fun u => conf u F.TRIG_PERIOD.kind (·.period) (fun c w => { c with period := w })),
     row 0x20 (fun u => unit u F.TRIG_CTRL.kind (·.ctrl) (fun x w => x.setCtrl s.nextEither w)),
     row 0x24 (fun u => unit u F.TRIG_STAT.kind (·.stat) (fun x w => { x with stat := w })),
     (rowIndex (off % 512) 0 4 64).bind (fun i => regRow (off - 4 * i) 0xC000 0x200 16 (fun u =>
       conf u kindRw (fun c => wat c.value i) (fun c w => { c with value := setWord64 c.value i w }))),
     (rowIndex (off % 512) 0x100 4 64).bind (fun i => regRow (off - 0x100 - 4 * i) 0xC000 0x200 16 (fun u =>
       conf u kindRw (fun c => wat c.care i) (fun c w => { c with care := setWord64 c.care i w })))]

/-- A write in the Loft: an ignored one sets LOFT_STAT.WRITE_IGNORED and loads the offset register of its table. -/
def State.writeLoft (off : Nat) (w : Word) (s : State) : State :=
  let mark (t : State) : State := t.withLoft { t.loft with stat := fset t.loft.stat F.LOFT_STAT.WRITE_IGNORED 1 }
  if off < 0x4000 then
    match s.loftReg off with
    | some r => r.write (fun t => let u := mark t; u.withLoft { u.loft with wi := w32 (off % 4096) }) w
    | none => s
  else if off < 0xB000 then
    match s.zoneReg off with
    | some r => r.write (fun t => let u := mark t; u.withLoft { u.loft with zoneWi := w32 off }) w
    | none => s
  else
    match s.trigReg off with
    | some r => r.write (fun t => let u := mark t; { u with trig := { u.trig with wi := w32 off } }) w
    | none => s

/-! ### Time base, TIU, tachs (R270, R283, Table 15.9) -/

/-- TB_CTRL.STEP: SET goes into device time, but for a running plan (R270). -/
def State.writeTbCtrl (w : Word) (s : State) : State :=
  if !fbit w F.TB_CTRL.STEP then s
  else if s.planRuns then s.withTime { s.time with stat := fset s.time.stat F.TB_STAT.STEP_REFUSED 1 }
  else s.stepTime (s.time.setLo.toNat + 2 ^ 32 * s.time.setHi.toNat)

/-- Time base, TIU and tach registers that a write changes without further effect. -/
def State.timeReg (off : Nat) (s : State) : Option Reg :=
  let t := s.time
  let tiuOn := fbit s.tiu.cfg F.TIU_CFG.ENABLE
  firstReg
    [regAt off 0x000 { kind := F.TB_CFG.kind, gate := fbit t.cfg F.TB_CFG.ENABLE, old := t.cfg, put := fun w => s.takeTimeCfg (t.cfgWord w) t.ptp },
     regAt off 0x004 { kind := F.TB_STEER.kind, old := t.steer, put := fun w => s.withTime { t with steer := rawSteer w } },
     regAt off 0x008 { kind := F.TB_SET.kind, old := t.setLo, put := fun w => s.withTime { t with setLo := w } },
     regAt off 0x00C { kind := F.TB_SET.kind, old := t.setHi, put := fun w => s.withTime { t with setHi := w } },
     regAt off 0x014 { kind := F.TB_STAT.kind, old := t.stat, put := fun w => s.withTime { t with stat := w } },
     regAt off 0x100 { kind := F.TIU_CFG.kind, gate := tiuOn, old := s.tiu.cfg, put := fun w => s.withTiu { s.tiu with cfg := w } },
     regAt off 0x104 { kind := F.TIU_STOPSEL.kind, gate := tiuOn, old := s.tiu.stopSel, put := fun w => s.withTiu { s.tiu with stopSel := w } },
     regAt off 0x10C { kind := F.TIU_STAT.kind, old := s.tiu.stat, put := fun w => s.withTiu { s.tiu with stat := w } }]

/-- Tach registers below CFG, in the front domain (R281). -/
def State.tachReg (off : Nat) (s : State) : Option Reg :=
  let tach (k : Nat) (kind : RegKind) (old : Tach → Word) (put : Tach → Word → Tach) : Reg :=
    let x := s.tachOf k
    { kind, gate := fbit x.cfg F.TACH_CFG.ENABLE, old := old x, put := fun w => s.setTach k (put x w) }
  firstReg
    [regRow off 0x204 0x20 8 (fun k => tach k F.TACH_STALL.kind (·.stall) (fun x w => { x with stall := w, stallCopy := w })),
     regRow off 0x210 0x20 8 (fun k => tach k F.TACH_STAT.kind (·.stat) (fun x w => { x with stat := w }))]

/-- A write in the time base's block. TIU_CTRL.GO comes with its calibration codes as TIU_GO. -/
def State.writeTimeBase (off : Nat) (w : Word) (s : State) : State :=
  let flag (t : State) : State := t.tbIgnored true off
  if off < 0x200 then
    if off = 0x010 then s.writeTbCtrl w
    else match s.timeReg off with | some r => r.write flag w | none => s
  else if !s.power.front then s
  else
    match rowIndex off 0x200 0x20 8 with
    | some k => s.writeTachCfg k w
    | none => match s.tachReg off with | some r => r.write flag w | none => s

/-! ### Cellar (R299, Table 16.5) -/

/-- PANIC_ON and PANIC_OFF exist on P0 and P5 only. -/
def portKind (p : Nat) : RegKind := if p = 0 ∨ p = 5 then F.PORT_CFG.kind else { rwe := 0xFF }

/-- A PHY block's register at an offset within it. -/
def phyReg (y : Phy) (off : Nat) : Option (RegKind × Word × (Word → Phy)) :=
  match rowIndex off 0x000 4 9, rowIndex off 0x040 4 9, rowIndex off 0x080 4 72, rowIndex off 0x200 4 72 with
  | some b, _, _, _ => some (F.WLGATE_DLY.kind, vget y.wl b 0, fun w => { y with wl := vset y.wl b w })
  | _, some b, _, _ => some (F.WLGATE_DLY.kind, vget y.gate b 0, fun w => { y with gate := vset y.gate b w })
  | _, _, some i, _ => some (F.DQ_DLY.kind, vget y.rdq i 0, fun w => { y with rdq := vset y.rdq i w })
  | _, _, _, some i => some (F.DQ_DLY.kind, vget y.wdq i 0, fun w => { y with wdq := vset y.wdq i w })
  | _, _, _, _ => if off = 0x380 then some (F.VREF.kind, y.vref, fun w => { y with vref := w }) else none

/-- Words that firmware refuses, and so does not write: the Cellar enabled beside the helpers or on a descriptor outside Table 16.1, the helpers beside the
Cellar (R285, R299), and the values that Table 16.6 says are refused. A value outside another range of the table is stored as it stands (DESIGN CHOICE, log
entry 96). -/
def Cellar.refusesCfg (c : Cellar) (w : Word) : Bool := fbit w F.CELLAR_CFG.ENABLE && (fbit c.trnCfg F.TRN_CFG.ENABLE || !memDescListed c.memDesc)
def refusesDesc (w : Word) : Bool := decide (1 < fget w F.MEM_DESC.WIDTH) || fget w F.MEM_DESC.DENSITY == 3
def Cellar.refusesTrn (c : Cellar) (w : Word) : Bool :=
  (fbit w F.TRN_CFG.ENABLE && fbit c.cfg F.CELLAR_CFG.ENABLE) || (decide (fget w F.TRN_CFG.PATTERN < 2) && fget w F.TRN_CFG.SEED == 0)

/-- Cellar registers. -/
def State.cellarReg (off : Nat) (s : State) : Option Reg :=
  let c := s.cellar
  let reg (kind : RegKind) (gate : Bool) (old : Word) (put : Word → Cellar) : Reg := { kind, gate, old, put := fun w => s.withCellar (put w) }
  let allow (bad : Word → Bool) (put : Word → Cellar) (w : Word) : Cellar := if bad w then c else put w
  let on := fbit c.cfg F.CELLAR_CFG.ENABLE
  let trn := fbit c.trnCfg F.TRN_CFG.ENABLE
  firstReg
    [regAt off 0x000 (reg F.CELLAR_CFG.kind on c.cfg (allow c.refusesCfg (fun w => { c with cfg := w }))),
     regAt off 0x004 (reg F.CELLAR_STAT.kind false c.stat (fun w => { c with stat := w })),
     regAt off 0x00C (reg F.MEM_DESC.kind on c.memDesc (allow refusesDesc (fun w => { c with memDesc := w }))),
     regAt off 0x010 (reg F.REFRESH_CFG.kind on c.refresh (allow (fun w => decide (8 < fget w F.REFRESH_CFG.POSTPONE_MAX)) (fun w => { c with refresh := w }))),
     regAt off 0x014 (reg F.SCRUB_CFG.kind on c.scrub (fun w => { c with scrub := w })),
     regRow off 0x140 0x10 6 (fun p =>
       let x := vget c.port p { cfg := 0 }
       reg (portKind p) on x.cfg (fun w => { c with port := vset c.port p { x with cfg := w } })),
     regRow off 0x200 4 11 (fun r => reg F.REGION.kind on (vget c.region r 0) (fun w => { c with region := vset c.region r w })),
     regAt off 0x300 (reg F.TRN_CFG.kind trn c.trnCfg (allow c.refusesTrn (fun w => { c with trnCfg := w }))),
     regAt off 0x304 (reg F.TRN_ADDR.kind trn c.trnAddr (fun w => { c with trnAddr := w })),
     regAt off 0x308 (reg F.TRN_LEN.kind trn c.trnLen (fun w => { c with trnLen := w })),
     regAt off 0x310 (reg F.TRN_STAT.kind false c.trnStat (fun w => { c with trnStat := w })),
     (if 0x1000 ≤ off ∧ off < 0x2000 then
       let i := (off - 0x1000) / 0x400
       (phyReg (vget c.phy i {}) (off % 0x400)).map (fun y => reg y.1 on y.2.1 (fun w => { c with phy := vset c.phy i (y.2.2 w) }))
      else none)]

/-- A write in the Cellar. -/
def State.writeCellar (off : Nat) (w : Word) (s : State) : State :=
  if off = 0x30C then (if fbit w F.TRN_CTRL.GO then s.trnGo else s)
  else
    match s.cellarReg off with
    | some r =>
      r.write (fun t => t.withCellar { t.cellar with stat := fset t.cellar.stat F.CELLAR_STAT.WRITE_IGNORED 1, wi := w32 (off % 8192) }) w
    | none => s

/-! ### Compression and streams, ports, start-up (R314, R340, R422) -/

/-- A STRs_CFG word that firmware refuses, and so does not write: source 7, or no leg for a source of rows (Table 17.7). -/
def refusesStream (w : Word) : Bool :=
  fget w F.STR_CFG.SOURCE == 7 || (fget w F.STR_CFG.LEGS == 0 && [2, 3, 4, 6].contains (fget w F.STR_CFG.SOURCE))

/-- Compression and stream registers (Table 17.6). -/
def State.compReg (off : Nat) (s : State) : Option Reg :=
  let m := s.streams
  let str (n : Nat) (kind : RegKind) (old : Stream → Word) (put : Stream → Word → Stream) : Reg :=
    let x := s.stream n
    { kind, gate := fbit x.cfg F.STR_CFG.ENABLE, old := old x, put := fun w => s.setStream n (put x w) }
  let row (o : Nat) (f : Nat → Reg) : Option Reg := regRow off (0x100 + o) 0x40 8 f
  firstReg
    [regAt off 0x000 { kind := F.COMP_CFG.kind, old := m.cfg, put := fun w => { s with streams := { m with cfg := w } } },
     regAt off 0x004 { kind := F.COMP_STAT.kind, old := m.stat, put := fun w => { s with streams := { m with stat := w } } },
     row 0x00 (fun n => str n F.STR_CFG.kind (·.cfg) (fun x w => if refusesStream w then x else { x with cfg := w })),
     row 0x04 (fun n => str n F.STR_SPAN.kind (·.span) (fun x w => { x with span := w })),
     row 0x08 (fun n => str n F.STR_SEL.kind (·.sel) (fun x w => { x with sel := w })),
     row 0x0C (fun n => str n F.STR_HEAD.kind (·.headLo) (fun x w => { x with headLo := w })),
     row 0x10 (fun n => str n F.STR_HEAD.kind (·.headHi) (fun x w => { x with headHi := w })),
     row 0x14 (fun n => str n F.STR_UDP.kind (·.udp) (fun x w => { x with udp := w })),
     row 0x18 (fun n => str n F.STR_STAT.kind (·.stat) (fun x w => { x with stat := w }))]

/-- A write in the compression block. -/
def State.writeComp (off : Nat) (w : Word) (s : State) : State :=
  match s.compReg off with
  | some r =>
    r.write (fun t => { t with streams := { t.streams with stat := fset t.streams.stat F.COMP_STAT.WRITE_IGNORED 1, wi := w32 (off % 1024) } }) w
  | none => s

/-- A write in the Porch (Table 18.6): the condition of ETH_LINK follows ETHp_CFG. -/
def State.writePorch (off : Nat) (w : Word) (s : State) : State :=
  match rowIndex off 0x000 0x20 2, rowIndex off 0x004 0x20 2 with
  | some p, _ => let t := s.writeEthCfg p w; t.setCondition srcEthLink t.ethLinkLost p
  | _, some p =>
    let e := s.porch.eth
    let x := vget e.port p {}
    s.withEth { e with port := vset e.port p { x with stat := (regWrite F.ETH_STAT.kind false x.stat w).word } }
  | _, _ =>
    if off = 0x100 then
      Reg.write { kind := F.CW_CFG.kind, gate := fbit s.cw.cfg F.CW_CFG.ENABLE, old := s.cw.cfg, put := fun x => { s with cw := { s.cw with cfg := x } } }
        (fun t => { t with cw := { t.cw with stat := fset t.cw.stat F.CW_STAT.WRITE_IGNORED 1 }, porch := { t.porch with wi := w32 off } }) w
    else if off = 0x104 then { s with cw := { s.cw with stat := (regWrite F.CW_STAT.kind false s.cw.stat w).word } }
    else s

/-- A write of the start-up registers (Table 23.4). -/
def State.writeStartup (off : Nat) (w : Word) (s : State) : State :=
  match off with
  | 0x000 => { s with boot := { s.boot with bootStat := (regWrite F.BOOT_STAT.kind false s.boot.bootStat w).word } }
  | 0x004 => { s with boot := { s.boot with larderStat := (regWrite F.LARDER_STAT.kind false s.boot.larderStat w).word } }
  | 0x00C => { s with boot := { s.boot with pwrCtrl := (regWrite F.PWR_CTRL.kind false s.boot.pwrCtrl w).word } }
  | _ => s

/-- REGISTER_WRITE (R6, R374 to R377): a write of the host map by a path with these byte enables, or of a room's register by the Study. A room whose
domain is off discards it (R12). -/
def execRegisterWrite (b : RegBlock) (off : Fin 65536) (p : Path) (be : Fin 16) (w : Word) (s : State) : Res :=
  let o := off.val
  match b with
  | .hostMap => .next (s.hostWriteBytes p o be.val w)
  | .hearth => .next (if s.power.hearth then s.writeHearth o w else s)
  | .threshold => .next (if s.power.front then s.writeThreshold o w else s)
  | .hall => .next (if s.power.front then s.writeHall o w else s)
  | .loft => .next (if s.power.loft then s.writeLoft o w else s)
  | .timeBase => .next (s.writeTimeBase o w)
  | .cellar => .next (if s.power.cellar then s.writeCellar o w else s)
  | .compression => .next (if s.power.cellar then s.writeComp o w else s)
  | .porch => .next (s.writePorch o w)
  | .startup => .next (s.writeStartup o w)

end Sys2Proof.Machine
end

