-- ==== Sys2Proof/Machine/Survey.lean ====
section
/-! DEFINITION. SURVEY_WINDOW_DONE: the windows of a survey and its completion (R37 to R39). -/

namespace Sys2Proof.Machine

/-- Whole metres of `points` points: points × 10 ns × c / (2 × n_g), n_g as n_g × 10,000 (R9), rounded down as R38's rule says: its own figure of 83,637 m
for 81,920 points is rounded up (DEDUCED, log entry 53). -/
def metres (points ng : Nat) : Nat := points * 299792458 / (20000 * ng)

/-- Windows completed on the leg that is furthest behind (R38). -/
def State.surveyDone (s : State) : Nat :=
  ([0, 1].filter (fun l => (s.legBank l).on)).foldl (fun m l => min m (vget s.fw.survey l {}).windows) surveyWindows

/-- A leg's survey after a window: the window's mean power as its Rayleigh baseline, what firmware found (a loss per point of the window, the fibre's length
where its end was found, reflections), and the largest gain again to begin the next. -/
def SurveyLeg.window (v : SurveyLeg) (loss : List Nat) (ended : Option Nat) (refl : List (Nat × Nat)) (refEnergy : Nat) : SurveyLeg :=
  let n := v.windows + 1
  { v with
    windows := n, traces := 0, gain := 7, power := 0, baseline := v.baseline ++ [v.power / (1024 * surveyTraces)]
    loss := v.loss ++ (List.range 1024).map (fun i => (loss[i]?).getD 0), reflections := v.reflections ++ refl
    complete := decide (surveyWindows ≤ n), length := ended.getD v.length, refEnergy }

/-- Region 3 of the DRAM holds a leg's loss profile, a word a point, and Rayleigh baseline, a word a window, for readout (R38, Table 16.4): 32 MiB for a
leg, the baseline in its upper half (DESIGN CHOICE, log entry 53). -/
def State.storeSurvey (leg : Nat) (s : State) : State :=
  let v := vget s.fw.survey leg {}
  let words (l : List Nat) : List Byte := l.flatMap (leBytes 4)
  let a := s.cellar.regionBase 3 + leg * 2 ^ 25
  s.withCellar ((s.cellar.store a (words v.loss)).store (a + 2 ^ 24) (words v.baseline))

/-- The survey of every leg is complete: the probe stops, pumps and TECs hold, and the Larder keeps lengths and reflections (R38, R39). With a MODE_SET that
waits for its trace the probe runs on to it (R36). -/
def State.endSurvey (s : State) : State :=
  let keep (l : Nat) : Bool := (s.legBank l).on
  let v (l : Nat) : SurveyLeg := vget s.fw.survey l {}
  let len (l : Nat) : Nat := if keep l then (v l).length else vget s.larder.surveyLength l 0
  let refl (l : Nat) : List (Nat × Nat) := if keep l then (v l).reflections else vget s.larder.surveyReflections l []
  { s with
    probe := { s.probe with running := s.probe.pending.isSome }
    fw := { s.fw with optical := .surveyDone, opticalUp := s.time.up }
    larder := { s.larder with surveyLength := #v[len 0, len 1], surveyReflections := #v[refl 0, refl 1] } }

/-- SURVEY_WINDOW_DONE (R37, R38): 2,048 traces of a leg's window are averaged. The rest is what firmware found in the averages: the loss in dB per point,
whether the fibre ends in the window and its length then, positions and strengths of reflections. -/
def execSurveyWindowDone (leg : Fin 2) (loss : List Nat) (ends : Bool) (length : Nat) (places strengths : List Nat) (s : State) : Res :=
  let v := vget s.fw.survey leg.val {}
  if s.fw.mode != modeSurvey || !s.legOn leg.val || v.complete || v.traces < surveyTraces then .next s
  else
    let b := s.legBank leg.val
    let v1 := v.window loss (if ends then some length else none) (places.zip strengths) (s.refEnergy leg.val b.lowest)
    let s1 := ({ s with fw := { s.fw with
      survey := vset s.fw.survey leg.val v1, surveyDone := if v1.complete then vset s.fw.surveyDone leg.val v1 else s.fw.surveyDone } }).storeSurvey leg.val
    let s2 := if v1.complete then s1 else s1.surveyGain leg.val 7 (s1.indexOfTime s1.now)
    let s3 := s2.progress cModeSet 1 1 (metres (1024 * s2.surveyDone) (s2.probe.ngAt s2.probe.frameBase))
    .next (if s3.surveyDone = surveyWindows then s3.endSurvey else s3)

end Sys2Proof.Machine
end

