-- ==== Sys2Proof/Machine/Dispatch.lean ====
section
/-! DEFINITION. One arm per command: each calls its meaning. -/

namespace Sys2Proof.Machine

def exec (i : Instr) (s : State) : Host.Outcome State Fault Refusal :=
  match i with
  | .identify c => Sys2Proof.Machine.execIdentify c s
  | .status c => Sys2Proof.Machine.execStatus c s
  | .progress c => Sys2Proof.Machine.execProgress c s
  | .modeSet c => Sys2Proof.Machine.execModeSet c s
  | .planCheck c => Sys2Proof.Machine.execPlanCheck c s
  | .planSuggest c => Sys2Proof.Machine.execPlanSuggest c s
  | .tableLoad c => Sys2Proof.Machine.execTableLoad c s
  | .gainSet c => Sys2Proof.Machine.execGainSet c s
  | .frontSet c => Sys2Proof.Machine.execFrontSet c s
  | .chainSet c => Sys2Proof.Machine.execChainSet c s
  | .chainReset c => Sys2Proof.Machine.execChainReset c s
  | .mapSet c => Sys2Proof.Machine.execMapSet c s
  | .cellLoad c => Sys2Proof.Machine.execCellLoad c s
  | .poolSet c => Sys2Proof.Machine.execPoolSet c s
  | .zoneSet c => Sys2Proof.Machine.execZoneSet c s
  | .zoneParam c => Sys2Proof.Machine.execZoneParam c s
  | .zoneEnable c => Sys2Proof.Machine.execZoneEnable c s
  | .zoneRead c => Sys2Proof.Machine.execZoneRead c s
  | .trigSet c => Sys2Proof.Machine.execTrigSet c s
  | .arm c => Sys2Proof.Machine.execArm c s
  | .disarm c => Sys2Proof.Machine.execDisarm c s
  | .fire c => Sys2Proof.Machine.execFire c s
  | .recordList c => Sys2Proof.Machine.execRecordList c s
  | .recordDelete c => Sys2Proof.Machine.execRecordDelete c s
  | .streamSet c => Sys2Proof.Machine.execStreamSet c s
  | .streamStart c => Sys2Proof.Machine.execStreamStart c s
  | .streamStop c => Sys2Proof.Machine.execStreamStop c s
  | .tempSet c => Sys2Proof.Machine.execTempSet c s
  | .tempCal c => Sys2Proof.Machine.execTempCal c s
  | .calibrate c => Sys2Proof.Machine.execCalibrate c s
  | .retrimDefer c => Sys2Proof.Machine.execRetrimDefer c s
  | .trimSet c => Sys2Proof.Machine.execTrimSet c s
  | .surveyRead c => Sys2Proof.Machine.execSurveyRead c s
  | .timeCfg c => Sys2Proof.Machine.execTimeCfg c s
  | .timeSet c => Sys2Proof.Machine.execTimeSet c s
  | .tiuMeasure c => Sys2Proof.Machine.execTiuMeasure c s
  | .tachCfg c => Sys2Proof.Machine.execTachCfg c s
  | .tachStatus c => Sys2Proof.Machine.execTachStatus c s
  | .timeRead c => Sys2Proof.Machine.execTimeRead c s
  | .faultRead c => Sys2Proof.Machine.execFaultRead c s
  | .faultClear c => Sys2Proof.Machine.execFaultClear c s
  | .faultCfg c => Sys2Proof.Machine.execFaultCfg c s
  | .logRead c => Sys2Proof.Machine.execLogRead c s
  | .netSet c => Sys2Proof.Machine.execNetSet c s
  | .memMap c => Sys2Proof.Machine.execMemMap c s
  | .replayStart c => Sys2Proof.Machine.execReplayStart c s
  | .replayStop c => Sys2Proof.Machine.execReplayStop c s
  | .fwStage c => Sys2Proof.Machine.execFwStage c s
  | .fwActivate c => Sys2Proof.Machine.execFwActivate c s
  | .bist c => Sys2Proof.Machine.execBist c s
  | .train c => Sys2Proof.Machine.execTrain c s
  | .shutdown c => Sys2Proof.Machine.execShutdown c s
  | .secChallenge c => Sys2Proof.Machine.execSecChallenge c s
  | .secUnlock c => Sys2Proof.Machine.execSecUnlock c s
  | .secRevoke c => Sys2Proof.Machine.execSecRevoke c s
  | .secKey c => Sys2Proof.Machine.execSecKey c s
  | .bulkTimeout c => Sys2Proof.Machine.execBulkTimeout c s
  | .stampedChangeApply k => Sys2Proof.Machine.execStampedChangeApply k s
  | .launch leg slot late gateOpen gateShort => Sys2Proof.Machine.execLaunch leg slot late gateOpen gateShort s
  | .quietIntervalEnd => Sys2Proof.Machine.execQuietIntervalEnd s
  | .probeStart => Sys2Proof.Machine.execProbeStart s
  | .tecSettleTimeout => Sys2Proof.Machine.execTecSettleTimeout s
  | .restPowerDown => Sys2Proof.Machine.execRestPowerDown s
  | .surveyWindowDone leg loss ends length places strengths => Sys2Proof.Machine.execSurveyWindowDone leg loss ends length places strengths s
  | .straitWordArrival w => Sys2Proof.Machine.execStraitWordArrival w s
  | .gainChange leg direct => Sys2Proof.Machine.execGainChange leg direct s
  | .autoGainDecision leg => Sys2Proof.Machine.execAutoGainDecision leg s
  | .traceProcess leg => Sys2Proof.Machine.execTraceProcess leg s
  | .ramanChannelStart leg => Sys2Proof.Machine.execRamanChannelStart leg s
  | .ramanSpanSnapshot leg => Sys2Proof.Machine.execRamanSpanSnapshot leg s
  | .chainTrace leg => Sys2Proof.Machine.execChainTrace leg s
  | .synchronisingReset leg => Sys2Proof.Machine.execSynchronisingReset leg s
  | .replayBlock leg => Sys2Proof.Machine.execReplayBlock leg s
  | .h2dDescriptorRead ch d => Sys2Proof.Machine.execH2dDescriptorRead ch d s
  | .cellarPortWrite p5 n => Sys2Proof.Machine.execCellarPortWrite p5 n s
  | .cellarGrant p blocked drain => Sys2Proof.Machine.execCellarGrant p blocked drain s
  | .cellarRead p a k => Sys2Proof.Machine.execCellarRead p a k s
  | .correctedWriteback => Sys2Proof.Machine.execCorrectedWriteback s
  | .refreshDue rank => Sys2Proof.Machine.execRefreshDue rank s
  | .patrolScrub k => Sys2Proof.Machine.execPatrolScrub k s
  | .blockDelivery leg => Sys2Proof.Machine.execBlockDelivery leg s
  | .jobStart kind item k => Sys2Proof.Machine.execJobStart kind item k s
  | .loftScrub m k => Sys2Proof.Machine.execLoftScrub m k s
  | .nop c => Sys2Proof.Machine.execNop c s
  | .add c => Sys2Proof.Machine.execAdd c s
  | .sub c => Sys2Proof.Machine.execSub c s
  | .bfy c => Sys2Proof.Machine.execBfy c s
  | .neg c => Sys2Proof.Machine.execNeg c s
  | .abs c => Sys2Proof.Machine.execAbs c s
  | .min c => Sys2Proof.Machine.execMin c s
  | .max c => Sys2Proof.Machine.execMax c s
  | .shr c => Sys2Proof.Machine.execShr c s
  | .shl c => Sys2Proof.Machine.execShl c s
  | .bcast c => Sys2Proof.Machine.execBcast c s
  | .trn4 c => Sys2Proof.Machine.execTrn4 c s
  | .mac c => Sys2Proof.Machine.execMac c s
  | .macsq c => Sys2Proof.Machine.execMacsq c s
  | .movad c => Sys2Proof.Machine.execMovad c s
  | .movda c => Sys2Proof.Machine.execMovda c s
  | .cmac c => Sys2Proof.Machine.execCmac c s
  | .cmagsq c => Sys2Proof.Machine.execCmagsq c s
  | .crot c => Sys2Proof.Machine.execCrot c s
  | .ld c k => Sys2Proof.Machine.execLd c k s
  | .st c => Sys2Proof.Machine.execSt c s
  | .lds c => Sys2Proof.Machine.execLds c s
  | .sts c => Sys2Proof.Machine.execSts c s
  | .ldl c k => Sys2Proof.Machine.execLdl c k s
  | .stl c => Sys2Proof.Machine.execStl c s
  | .scale c => Sys2Proof.Machine.execScale c s
  | .gset c => Sys2Proof.Machine.execGset c s
  | .sli c => Sys2Proof.Machine.execSli c s
  | .salu c => Sys2Proof.Machine.execSalu c s
  | .salui c => Sys2Proof.Machine.execSalui c s
  | .sdiv c => Sys2Proof.Machine.execSdiv c s
  | .sred c => Sys2Proof.Machine.execSred c s
  | .sget c => Sys2Proof.Machine.execSget c s
  | .sput c => Sys2Proof.Machine.execSput c s
  | .loop c => Sys2Proof.Machine.execLoop c s
  | .br c => Sys2Proof.Machine.execBr c s
  | .bxadd c => Sys2Proof.Machine.execBxadd c s
  | .halt c => Sys2Proof.Machine.execHalt c s
  | .zoneRestart z => Sys2Proof.Machine.execZoneRestart z s
  | .versionCommit => Sys2Proof.Machine.execVersionCommit s
  | .triggerVersion u => Sys2Proof.Machine.execTriggerVersion u s
  | .verdictTimeout => Sys2Proof.Machine.execVerdictTimeout s
  | .copyRow => Sys2Proof.Machine.execCopyRow s
  | .streamItemRead n mem => Sys2Proof.Machine.execStreamItemRead n mem s
  | .streamFlushTimeout n mem => Sys2Proof.Machine.execStreamFlushTimeout n mem s
  | .udpBlockSend n => Sys2Proof.Machine.execUdpBlockSend n s
  | .calibrationGapStart => Sys2Proof.Machine.execCalibrationGapStart s
  | .calibrationGapEnd moves => Sys2Proof.Machine.execCalibrationGapEnd moves s
  | .trimReq w => Sys2Proof.Machine.execTrimReq w s
  | .trimDeferTick => Sys2Proof.Machine.execTrimDeferTick s
  | .hkEntryConversion codes check => Sys2Proof.Machine.execHkEntryConversion codes check s
  | .adcSelfCalibrationDone factors fails => Sys2Proof.Machine.execAdcSelfCalibrationDone factors fails s
  | .hkSelfCalibrationDone => Sys2Proof.Machine.execHkSelfCalibrationDone s
  | .calibrateDone taps => Sys2Proof.Machine.execCalibrateDone taps s
  | .gainReqArm leg w => Sys2Proof.Machine.execGainReqArm leg w s
  | .hdLoopUpdate m => Sys2Proof.Machine.execHdLoopUpdate m s
  | .hdSetpointWrite ch setpoint => Sys2Proof.Machine.execHdSetpointWrite ch setpoint s
  | .setpointStep ch setpoint => Sys2Proof.Machine.execSetpointStep ch setpoint s
  | .channelEnable ch w => Sys2Proof.Machine.execChannelEnable ch w s
  | .tecLoopUpdate t => Sys2Proof.Machine.execTecLoopUpdate t s
  | .tecLimit t => Sys2Proof.Machine.execTecLimit t s
  | .chainGo => Sys2Proof.Machine.execChainGo s
  | .chainTransferDone din => Sys2Proof.Machine.execChainTransferDone din s
  | .ilockFall => Sys2Proof.Machine.execIlockFall s
  | .tachEdge k level held stamp both => Sys2Proof.Machine.execTachEdge k level held stamp both s
  | .tachStall k => Sys2Proof.Machine.execTachStall k s
  | .tachEnable k w => Sys2Proof.Machine.execTachEnable k w s
  | .ppsEdge stamp => Sys2Proof.Machine.execPpsEdge stamp s
  | .ppsMissing => Sys2Proof.Machine.execPpsMissing s
  | .ref10mLoss => Sys2Proof.Machine.execRef10mLoss s
  | .ref10mReturn ppb => Sys2Proof.Machine.execRef10mReturn ppb s
  | .holdoverLimit => Sys2Proof.Machine.execHoldoverLimit s
  | .ptpEventMessage m => Sys2Proof.Machine.execPtpEventMessage m s
  | .ptpTimeout => Sys2Proof.Machine.execPtpTimeout s
  | .disciplineUpdate freq err elapsedMs locked => Sys2Proof.Machine.execDisciplineUpdate freq err elapsedMs locked s
  | .timeStep => Sys2Proof.Machine.execTimeStep s
  | .ppsOutPulse => Sys2Proof.Machine.execPpsOutPulse s
  | .tiuGo one two => Sys2Proof.Machine.execTiuGo one two s
  | .tiuStartEvent count code time => Sys2Proof.Machine.execTiuStartEvent count code time s
  | .tiuStopEvent j count code => Sys2Proof.Machine.execTiuStopEvent j count code s
  | .tiuRangeEnd => Sys2Proof.Machine.execTiuRangeEnd s
  | .tiuNoStart => Sys2Proof.Machine.execTiuNoStart s
  | .mbInWrite p c first ws whole => Sys2Proof.Machine.execMbInWrite p c first ws whole s
  | .mbOutRead p c first n whole => Sys2Proof.Machine.execMbOutRead p c first n whole s
  | .mbInDiscard p c => Sys2Proof.Machine.execMbInDiscard p c s
  | .firmwareTakeInbound => Sys2Proof.Machine.execFirmwareTakeInbound s
  | .firmwareOutboundComplete => Sys2Proof.Machine.execFirmwareOutboundComplete s
  | .mbStallTimeout c => Sys2Proof.Machine.execMbStallTimeout c s
  | .mbSleep => Sys2Proof.Machine.execMbSleep s
  | .mailboxWake w => Sys2Proof.Machine.execMailboxWake w s
  | .longOperationAbort => Sys2Proof.Machine.execLongOperationAbort s
  | .streamBuffersAdded n mem => Sys2Proof.Machine.execStreamBuffersAdded n mem s
  | .h2dChainExtended ch => Sys2Proof.Machine.execH2dChainExtended ch s
  | .dbD2hClear w => Sys2Proof.Machine.execDbD2hClear w s
  | .dbD2hMaskWrite w => Sys2Proof.Machine.execDbD2hMaskWrite w s
  | .hintEnableSet p w => Sys2Proof.Machine.execHintEnableSet p w s
  | .msixHoldoffEnd v => Sys2Proof.Machine.execMsixHoldoffEnd v s
  | .lockRead k reads writes => Sys2Proof.Machine.execLockRead k reads writes s
  | .lockWrite k a w => Sys2Proof.Machine.execLockWrite k a w s
  | .aliasWrite ws => Sys2Proof.Machine.execAliasWrite ws s
  | .wideSelWrite p index => Sys2Proof.Machine.execWideSelWrite p index s
  | .wideCaptureDone p => Sys2Proof.Machine.execWideCaptureDone p s
  | .wideData3Read p => Sys2Proof.Machine.execWideData3Read p s
  | .vecFrameLoRead => Sys2Proof.Machine.execVecFrameLoRead s
  | .trigFireLoRead u => Sys2Proof.Machine.execTrigFireLoRead u s
  | .strHeadLoRead n => Sys2Proof.Machine.execStrHeadLoRead n s
  | .registerWrite b off p be w => Sys2Proof.Machine.execRegisterWrite b off p be w s
  | .spiTransaction bytes cut => Sys2Proof.Machine.execSpiTransaction bytes cut s
  | .dbgUpdateDr reg => Sys2Proof.Machine.execDbgUpdateDr reg s
  | .debugDisconnect => Sys2Proof.Machine.execDebugDisconnect s
  | .perstNAssert => Sys2Proof.Machine.execPerstNAssert s
  | .flr => Sys2Proof.Machine.execFlr s
  | .d3hotEntry => Sys2Proof.Machine.execD3hotEntry s
  | .ethFrameReceived f => Sys2Proof.Machine.execEthFrameReceived f s
  | .addressProbe => Sys2Proof.Machine.execAddressProbe s
  | .i2cModulePoll b pages stuck => Sys2Proof.Machine.execI2cModulePoll b pages stuck s
  | .cwHelloSend => Sys2Proof.Machine.execCwHelloSend s
  | .cwHello h serial strap sending seen locked => Sys2Proof.Machine.execCwHello h serial strap sending seen locked s
  | .membershipStable => Sys2Proof.Machine.execMembershipStable s
  | .hopMeasurement p => Sys2Proof.Machine.execHopMeasurement p s
  | .cwDelayReq h rb => Sys2Proof.Machine.execCwDelayReq h rb s
  | .cwDelayResp h ra rb => Sys2Proof.Machine.execCwDelayResp h ra rb s
  | .cwTimeSend => Sys2Proof.Machine.execCwTimeSend s
  | .cwTime h time hops own => Sys2Proof.Machine.execCwTime h time hops own s
  | .cwEpoch h e tF => Sys2Proof.Machine.execCwEpoch h e tF s
  | .cwArm h group time => Sys2Proof.Machine.execCwArm h group time s
  | .cwVerdict h time groups => Sys2Proof.Machine.execCwVerdict h time groups s
  | .cwReset h time => Sys2Proof.Machine.execCwReset h time s
  | .cwMember h mask time => Sys2Proof.Machine.execCwMember h mask time s
  | .cwPortDown p hello => Sys2Proof.Machine.execCwPortDown p hello s
  | .ringSplit => Sys2Proof.Machine.execRingSplit s
  | .cwLinkReturn p => Sys2Proof.Machine.execCwLinkReturn p s
  | .faultOccurrence rs => Sys2Proof.Machine.execFaultOccurrence rs s
  | .journalledPlanRestart => Sys2Proof.Machine.execJournalledPlanRestart s
  | .collectorCfgCheck bad => Sys2Proof.Machine.execCollectorCfgCheck bad s
  | .watchdog => Sys2Proof.Machine.execWatchdog s
  | .railDieSample low high hot crit drive => Sys2Proof.Machine.execRailDieSample low high hot crit drive s
  | .railsGood => Sys2Proof.Machine.execRailsGood s
  | .resetNLow => Sys2Proof.Machine.execResetNLow s
  | .porRelease masterSel => Sys2Proof.Machine.execPorRelease masterSel s
  | .bootImageLoaded memDesc => Sys2Proof.Machine.execBootImageLoaded memDesc s
  | .fwReady ok => Sys2Proof.Machine.execFwReady ok s
  | .trainingDone phy fail => Sys2Proof.Machine.execTrainingDone phy fail s
  | .trnGo => Sys2Proof.Machine.execTrnGo s
  | .bistSliceDone fails => Sys2Proof.Machine.execBistSliceDone fails s
  | .shutdownDrainDone => Sys2Proof.Machine.execShutdownDrainDone s
  | .ilockNRise => Sys2Proof.Machine.execIlockNRise s
  | .samplePllLockChange locked => Sys2Proof.Machine.execSamplePllLockChange locked s
  | .tpllLockChange locked => Sys2Proof.Machine.execTpllLockChange locked s
  | .ethLinkChange p link at25 => Sys2Proof.Machine.execEthLinkChange p link at25 s
  | .pcieLinkChange up aer => Sys2Proof.Machine.execPcieLinkChange up aer s
  | .perstNRelease => Sys2Proof.Machine.execPerstNRelease s
  | .railRemoval torn => Sys2Proof.Machine.execRailRemoval torn s
  | .trnCompareDone fail0 fail1 fail2 errors => Sys2Proof.Machine.execTrnCompareDone fail0 fail1 fail2 errors s
  | .hsPwmOnWindow n m => Sys2Proof.Machine.execHsPwmOnWindow n m s
  | .flashWriteDone => Sys2Proof.Machine.execFlashWriteDone s

end Sys2Proof.Machine
end

