-- ==== Sys2Proof/Machine/Step.lean ====
section
/-! DEFINITION. One step: the command at the front of the queue; on an empty queue, one always-on cycle passes. -/

namespace Sys2Proof.Machine

/-- An always-on cycle, 40 ns in units of 0.25 ns (R8, R268). -/
def idleUnits : Nat := 160

/-- Nothing waits: the clock alone moves on (DESIGN CHOICE, log entry 40). -/
def State.idle (s : State) : State := { s with time := { s.time with up := s.time.up + idleUnits } }

/-- The command at the front of the queue runs on the state with the rest of the queue. -/
def step (s : State) : Host.Outcome State Fault Refusal :=
  match s.pending with
  | [] => .next s.idle
  | c :: rest => exec c { s with pending := rest }

/-- The command that a word spells is put at the front of the queue; a word that spells none leaves the state. -/
def State.withFetchWord (s : State) (nbits w : Nat) : State :=
  match decodeTableWord nbits w with
  | some c => { s with pending := c :: s.pending }
  | none => s

end Sys2Proof.Machine
end

