-- ==== Sys2Proof/Safety.lean ====
section
/-! DEFINITION. What a sound state is: the identification registers read as the manual hard-wires them, and the memories hold their
canonical form. Claims about every state name it as a premise, and a step keeps it. Beside it, the terms in which the claims about requests and cell
operations are stated. -/

namespace Sys2Proof.Machine

/-- The memories of the model are in the canonical form of Machine/Mem.lean (DESIGN CHOICE, log entry 2): Cellar DRAM, Landing, boot flash. -/
abbrev State.memoriesWf (s : State) : Prop :=
  Mem.wf 0 s.cellar.mem = true ∧ Mem.wf 0 s.loft.landing = true ∧ Mem.wf 0xFF s.porch.flash = true

/-- The fixed identification words (Table 21.3): part number and revision, vendor. -/
abbrev State.identified (s : State) : Prop := s.host.idDevice = 0x00018650 ∧ s.host.idVendor = 0x00001F3C

/-- A sound state. -/
abbrev State.Sound (s : State) : Prop := s.identified ∧ s.memoriesWf

/-! ### Requests (R359 to R366) -/

/-- The classes and lengths that Tables 20.3 and 20.6 give each request, with its carrier: the table as the claims read it. -/
def requestRow (s : State) : Instr → Option (Fin 9 × Spec)
  | .identify c => some (c, { code := 0x001, q := true, lo := 0, hi := 0 })
  | .status c => some (c, { code := 0x002, q := true, lo := 0, hi := 0 })
  | .progress c => some (c, { code := 0x003, q := true, lo := 0, hi := 0 })
  | .modeSet c => some (c, { code := 0x010, s := true, lo := (planLength (s.planWord c.val 4)).1, hi := (planLength (s.planWord c.val 4)).2, bulk := planBulk (s.planWord c.val 4) })
  | .planCheck c => some (c, { code := 0x011, q := true, lo := (planLength (s.planWord c.val 1)).1, hi := (planLength (s.planWord c.val 1)).2, bulk := planBulk (s.planWord c.val 1) })
  | .planSuggest c => some (c, { code := 0x012, q := true, lo := 3, hi := 3 })
  | .tableLoad c => some (c, { code := 0x013, lo := 3, hi := 3, bulk := 2 })
  | .gainSet c => some (c, { code := 0x018, s := true, lo := 3, hi := 3 })
  | .frontSet c => some (c, { code := 0x019, s := true, lo := 4, hi := 4 })
  | .chainSet c => some (c, { code := 0x020, s := true, lo := 3, hi := 3 })
  | .chainReset c => some (c, { code := 0x021, s := true, lo := 1, hi := 1 })
  | .mapSet c => some (c, { code := 0x028, s := true, lo := 9, hi := 9 })
  | .cellLoad c => some (c, { code := 0x030, lo := 1, hi := 1, bulk := 2 })
  | .poolSet c => some (c, { code := 0x031, s := true, lo := 5, hi := 5 })
  | .zoneSet c => some (c, { code := 0x038, s := true, lo := 5, hi := 15, bulk := 1 })
  | .zoneParam c => some (c, { code := 0x039, s := true, lo := 1, hi := 1, bulk := 2 })
  | .zoneEnable c => some (c, { code := 0x03A, s := true, lo := 3, hi := 3 })
  | .zoneRead c => some (c, { code := 0x03B, q := true, lo := 1, hi := 1 })
  | .trigSet c => some (c, { code := 0x040, s := true, lo := 9, hi := 9, bulk := 2 })
  | .arm c => some (c, { code := 0x041, s := true, lo := 1, hi := 1 })
  | .disarm c => some (c, { code := 0x042, s := true, lo := 1, hi := 1 })
  | .fire c => some (c, { code := 0x043, s := true, lo := if s.inRest then 3 else 1, hi := if s.inRest then 3 else 1 })
  | .recordList c => some (c, { code := 0x044, q := true, lo := 3, hi := 3 })
  | .recordDelete c => some (c, { code := 0x045, lo := 4, hi := 4 })
  | .streamSet c => some (c, { code := 0x048, lo := 7, hi := 7 })
  | .streamStart c => some (c, { code := 0x049, s := true, lo := 1, hi := 1 })
  | .streamStop c => some (c, { code := 0x04A, s := true, lo := 1, hi := 1 })
  | .tempSet c => some (c, { code := 0x050, s := true, lo := 8, hi := 8 })
  | .tempCal c => some (c, { code := 0x051, s := true, lo := 8, hi := 8, bulk := 1 })
  | .calibrate c => some (c, { code := 0x058, l := true, r := true, lo := 1, hi := 1 })
  | .retrimDefer c => some (c, { code := 0x059, lo := 1, hi := 1 })
  | .trimSet c => some (c, { code := 0x05A, lo := 1, hi := 1 })
  | .surveyRead c => some (c, { code := 0x060, q := true, lo := 4, hi := 4 })
  | .timeCfg c => some (c, { code := 0x068, lo := 8, hi := 8 })
  | .timeSet c => some (c, { code := 0x069, lo := 2, hi := 2 })
  | .tiuMeasure c => some (c, { code := 0x06A, lo := 2, hi := 2 })
  | .tachCfg c => some (c, { code := 0x06B, lo := 4, hi := 4 })
  | .tachStatus c => some (c, { code := 0x06C, q := true, lo := 1, hi := 1 })
  | .timeRead c => some (c, { code := 0x06D, q := true, lo := 0, hi := 0 })
  | .faultRead c => some (c, { code := 0x070, q := true, lo := 2, hi := 2 })
  | .faultClear c => some (c, { code := 0x071, lo := 4, hi := 4 })
  | .faultCfg c => some (c, { code := 0x072, k := true, lo := 5, hi := 5 })
  | .logRead c => some (c, { code := 0x073, q := true, lo := 2, hi := 2 })
  | .netSet c => some (c, { code := 0x078, k := true, lo := 2, hi := 12 })
  | .memMap c => some (c, { code := 0x079, k := true, r := true, lo := 4, hi := 4 })
  | .replayStart c => some (c, { code := 0x080, s := true, lo := 1, hi := 1 })
  | .replayStop c => some (c, { code := 0x081, s := true, lo := 1, hi := 1 })
  | .fwStage c => some (c, { code := 0x088, l := true, k := true, r := true, lo := 3, hi := 3, bulk := 2 })
  | .fwActivate c => some (c, { code := 0x089, l := true, k := true, r := true, lo := 1, hi := 1 })
  | .bist c => some (c, { code := 0x090, l := true, r := true, lo := 2, hi := 2 })
  | .train c => some (c, { code := 0x091, l := true, r := true, lo := 1, hi := 1 })
  | .shutdown c => some (c, { code := 0x098, l := true, lo := 0, hi := 1 })
  | .secChallenge c => some (c, { code := 0x0A0, lo := 0, hi := 0 })
  | .secUnlock c => some (c, { code := 0x0A1, lo := 0, hi := 0, bulk := 2 })
  | .secRevoke c => some (c, { code := 0x0A2, lo := 0, hi := 0 })
  | .secKey c => some (c, { code := 0x0A3, k := true, lo := 8, hi := 8 })
  | _ => none

/-- What R361 asks of a request in its steps 3 to 7, in order: each failure with its error. -/
def State.checks (s : State) (sp : Spec) (r : Request) (c : Nat) : List (Bool × Status) :=
  [(sp.k && decide (c = 8), .secureCarrier),
   (match r.udp with | some u => !s.sourceAllowed sp.code u | none => false, .notAllowed),
   (sp.k && c != 4 && c != 5 && c != 6, .secureRequired),
   (r.badLength sp c, .length),
   (s.fw.shut && !sp.q, .busy),
   (s.safe && !sp.q && !safeCodes.contains sp.code, .safeState),
   (s.longBusy sp, .busy),
   (sp.r && !s.inRest, .notRest)]

/-- The first of them that fails. -/
def State.firstRefusal (s : State) (sp : Spec) (r : Request) (c : Nat) : Option Status := ((s.checks sp r c).find? (·.1)).map (·.2)

/-- The request at the head of carrier c has passed steps 1 to 7 of R361, and its bulk payload, where it has one, is in: the payload, and the state without
the buffer that brought it. None where it does not get there. -/
def State.arrives (sp : Spec) (c : Nat) (s : State) : Option (Request × List Byte × State) :=
  match vget s.fw.inbox c [] with
  | [] => none
  | r :: _ =>
    if !s.fwReady || (headerErr r.msg).isSome || msgCode r.msg != sp.code || (r.waitUp.isNone && (s.firstRefusal sp r c).isSome) then none
    else if !msgBulk r.msg then some (r, [], s)
    else if c = 8 then (bulkOf sp.code (msgTag r.msg) r.bulk).map (fun b => (r, b, s))
    else
      match s.fw.bulk with
      | [] => none
      | bs :: more =>
        if !s.bulkTurn c (r.waitUp.getD s.time.up) then none
        else (bulkOf sp.code (msgTag r.msg) bs).map (fun b => (r, b, { s with fw := { s.fw with bulk := more } }))

/-- The same, and its AT block holds (step 8 of R361): its own checks and its effect begin in the state given. -/
def State.reach (sp : Spec) (c : Nat) (s : State) : Option (Request × List Byte × State) :=
  match s.arrives sp c with
  | none => none
  | some (r, b, t) => if sp.s && t.badAt sp.code (r.cmd sp c b) then none else some (r, b, t)

/-- The request at the head of carrier c leaves it, answered OK with these items (R360). -/
def State.answered (c : Nat) (r : Request) (index : Nat) (items : List Word) (s : State) : State :=
  ((s.popHead c).reply c r.udp (msgCode r.msg) (msgTag r.msg) 0 0 index items).settleAll c

/-- The request at the head of carrier c leaves it; its response comes later (R366). -/
def State.accepted (c : Nat) (s : State) : State := (s.popHead c).settleAll c

/-- The row runs: on every carrier and in every state in which its request gets as far as its own checks (`reach`) and `ok` holds, the command answers
a next state: OK is sent with INDEX and the items named, and the state is `effect` of the state before. -/
def Answers (row : Fin 9 → Instr) (index : Cmd → Nat) (ok : Cmd → State → Prop) (items : Cmd → State → List Word) (effect : Cmd → State → State) : Prop :=
  ∀ (c : Fin 9) (sp : Spec) (s t : State) (r : Request) (b : List Byte), requestRow s (row c) = some (c, sp) → s.reach sp c.val = some (r, b, t) →
    ok (r.cmd sp c.val b) t →
    exec (row c) s = .next ((effect (r.cmd sp c.val b) t).answered c.val r (index (r.cmd sp c.val b)) (items (r.cmd sp c.val b) t))

/-- The same for a stamped command, which takes effect at a placement (R364): `places` says which frames are one. `at_` is the frame and trace found; none
where the command is held for its plan (R365). -/
def AnswersAt (row : Fin 9 → Instr) (index : Cmd → Nat) (ok : Cmd → State → Option (Nat × Nat) → Prop) (places : Cmd → State → Nat → Bool)
    (items : Cmd → State → Option (Nat × Nat) → List Word) (effect : Cmd → State → Option (Nat × Nat) → State) : Prop :=
  ∀ (c : Fin 9) (sp : Spec) (s t : State) (r : Request) (b : List Byte) (at_ : Option (Nat × Nat)), requestRow s (row c) = some (c, sp) →
    s.reach sp c.val = some (r, b, t) → t.place (r.cmd sp c.val b) (places (r.cmd sp c.val b) t) = .ok at_ → t.waitingChanges < 64 →
    ok (r.cmd sp c.val b) t at_ →
    exec (row c) s = .next ((effect (r.cmd sp c.val b) t at_).answered c.val r (index (r.cmd sp c.val b)) (effWords at_ ++ items (r.cmd sp c.val b) t at_))

/-- The same for a long operation: it begins, and its response comes when it ends. -/
def Begins (row : Fin 9 → Instr) (ok : Cmd → State → Prop) (effect : Cmd → State → State) : Prop :=
  ∀ (c : Fin 9) (sp : Spec) (s t : State) (r : Request) (b : List Byte), requestRow s (row c) = some (c, sp) → s.reach sp c.val = some (r, b, t) →
    ok (r.cmd sp c.val b) t → exec (row c) s = .next ((effect (r.cmd sp c.val b) t).accepted c.val)

/-- The row's request is refused with this error by the row's own checks. -/
def Refuses (row : Fin 9 → Instr) (index : Cmd → Nat) (when_ : Cmd → State → Prop) (st : Status) (detail : Cmd → State → Nat := fun _ _ => 0)
    (effect : Cmd → State → State := fun _ t => t) : Prop :=
  ∀ (c : Fin 9) (sp : Spec) (s t : State) (r : Request) (b : List Byte), requestRow s (row c) = some (c, sp) → s.reach sp c.val = some (r, b, t) →
    when_ (r.cmd sp c.val b) t →
    exec (row c) s = .next ((effect (r.cmd sp c.val b) t).refuse c.val r
      { status := st, detail := detail (r.cmd sp c.val b) t, index := index (r.cmd sp c.val b) })

/-- What a TACH_CFG must hold (Table 15.7, R279). -/
def State.tachSettingOk (t : State) (cmd : Cmd) : Prop :=
  cmd.p 0 < 8 ∧ badImage (tachCfgKind (cmd.p 0)) (wat cmd.w 1) = false ∧ fget (wat cmd.w 1) F.TACH_CFG.EDGE ≠ 3 ∧ 1 ≤ cmd.p 2 ∧ cmd.p 2 ≤ 65535 ∧
    (cmd.p 0 % 2 = 1 → fbit (t.tachOf (cmd.p 0 - 1)).cfgCopy F.TACH_CFG.QUAD = true → fbit (wat cmd.w 1) F.TACH_CFG.ENABLE = false)

/-- A TACH_CFG changes a setting that only a restart takes up. -/
def State.tachChanged (t : State) (cmd : Cmd) : Bool :=
  (wat cmd.w 1 &&& (tachCfgKind (cmd.p 0)).rwe) != ((t.tachOf (cmd.p 0)).cfg &&& (tachCfgKind (cmd.p 0)).rwe) || w32 (cmd.p 2) != (t.tachOf (cmd.p 0)).stall

/-- The tach with the setting of a TACH_CFG: it starts afresh where it is switched on or changed while on. -/
def State.tachTaken (t : State) (cmd : Cmd) : State :=
  let k : Tach := { t.tachOf (cmd.p 0) with cfgCopy := wat cmd.w 1, stallCopy := w32 (cmd.p 2), distanceNm := cmd.p 3, cfg := wat cmd.w 1, stall := w32 (cmd.p 2) }
  t.setTach (cmd.p 0) (if fbit (wat cmd.w 1) F.TACH_CFG.ENABLE && (!fbit (t.tachOf (cmd.p 0)).cfg F.TACH_CFG.ENABLE || t.tachChanged cmd) then k.enable t.time.up else k)

/-- Zones bound to the tach restart (R283): it ran, it runs on with a change, and a plan is measured. -/
def State.tachRestarts (t : State) (cmd : Cmd) : Bool :=
  fbit (t.tachOf (cmd.p 0)).cfg F.TACH_CFG.ENABLE && fbit (wat cmd.w 1) F.TACH_CFG.ENABLE && t.tachChanged cmd &&
    t.loft.zone.toList.any (fun z => fbit z.cfg F.ZONE_CFG.ENABLE && fbit z.cfg F.ZONE_CFG.TACH_EN && fget z.cfg F.ZONE_CFG.TACH == cmd.p 0) &&
    t.measuring && t.probe.running

/-- What a CELL_LOAD must hold (R205, Table 11.5): its number, the image's MAGIC, ISA, CRC, sizes and fields, and no enabled pool or zone bound to it. -/
def State.imageOk (t : State) (cmd : Cmd) : Prop :=
  16 ≤ cmd.p 0 ∧ cmd.p 0 ≤ 63 ∧ imageWrong cmd.bulk = false ∧ imageTooBig cmd.bulk = false ∧ imageOdd cmd.bulk = false ∧ t.imageBound (cmd.p 0) = false

/-- The place for its code and initialisation, the image that it replaces left out. -/
def State.imagePlace (t : State) (cmd : Cmd) : Option (Loft × Nat) :=
  (t.withLoft { t.loft with images := vset t.loft.images (cmd.p 0) none }).loft.storePlace (8 * imgAt cmd.bulk 8 4 + imgAt cmd.bulk 12 4)

/-- The LOCK word of a command (R367): free to take, or none asked for. -/
def State.lockFree (t : State) (w : Word) : Prop := nbit w.toNat 5 = true → t.lockOwner (w.toNat % 32) = 0 ∨ t.lockOwner (w.toNat % 32) = 3
/-- The lock that it names. -/
def lockOf (w : Word) : Option Nat := if nbit w.toNat 5 then some (w.toNat % 32) else none
/-- The lock taken as requester 3. -/
def State.withLock (t : State) (w : Word) : State := if nbit w.toNat 5 then t.setLock (w.toNat % 32) 3 else t

/-- The plan that a MODE_SET carries; SURVEY covers its own L. -/
def Cmd.plan (cmd : Cmd) : Option PlanWords :=
  match decodePlan cmd.w cmd.bulk with | .ok p => some p.surveyed | .error _ => none

/-- The frame at which a MODE_SET takes effect: counted over all plans, and in the plan in force. -/
def State.modeAt (t : State) (cmd : Cmd) : Nat := match t.placeAt cmd anyTrace with | .ok (f, _) => f | .error _ => 0
def State.modeFrame (t : State) (cmd : Cmd) : Nat := t.modeAt cmd - t.probe.frameBase

/-- It is feasible and nothing refuses it. -/
def State.planTaken (t : State) (cmd : Cmd) (p : PlanWords) : Prop :=
  (∃ q, decodePlan cmd.w cmd.bulk = .ok q ∧ q.failed = none ∧ p = q.surveyed) ∧ t.atOff cmd = false ∧ t.changeWaits = false ∧ t.planRefused p.bank (t.planFrame cmd) = none

/-! ### Cell operations (R213 to R227) -/

/-- The operation a cell row names: its cell, the words that hold it, and what the word's reads find. -/
def cellRow : Instr → Option (Fin 72 × (Nat → Bool) × ReadCheck)
  | .nop c => some (c, fun w => hasA 0 w || hasB 0 w || hasNone w, .clean)
  | .add c => some (c, hasA 0x01, .clean)
  | .sub c => some (c, hasA 0x02, .clean)
  | .bfy c => some (c, hasA 0x03, .clean)
  | .neg c => some (c, hasA 0x04, .clean)
  | .abs c => some (c, hasA 0x05, .clean)
  | .min c => some (c, hasA 0x06, .clean)
  | .max c => some (c, hasA 0x07, .clean)
  | .shr c => some (c, hasA 0x08, .clean)
  | .shl c => some (c, hasA 0x09, .clean)
  | .bcast c => some (c, hasA 0x0A, .clean)
  | .trn4 c => some (c, hasA 0x0B, .clean)
  | .mac c => some (c, hasA 0x10, .clean)
  | .macsq c => some (c, hasA 0x11, .clean)
  | .movad c => some (c, hasA 0x12, .clean)
  | .movda c => some (c, hasA 0x13, .clean)
  | .cmac c => some (c, hasA 0x18, .clean)
  | .cmagsq c => some (c, hasA 0x19, .clean)
  | .crot c => some (c, hasA 0x1A, .clean)
  | .ld c k => some (c, hasB 0x01, k)
  | .st c => some (c, hasB 0x02, .clean)
  | .lds c => some (c, hasB 0x03, .clean)
  | .sts c => some (c, hasB 0x04, .clean)
  | .ldl c k => some (c, hasB 0x05, k)
  | .stl c => some (c, hasB 0x06, .clean)
  | .scale c => some (c, hasB 0x07, .clean)
  | .gset c => some (c, hasB 0x08, .clean)
  | .sli c => some (c, hasB 0x09, .clean)
  | .salu c => some (c, hasB 0x0A, .clean)
  | .salui c => some (c, hasB 0x0B, .clean)
  | .sdiv c => some (c, hasB 0x0C, .clean)
  | .sred c => some (c, hasB 0x0D, .clean)
  | .sget c => some (c, hasB 0x0E, .clean)
  | .sput c => some (c, hasB 0x0F, .clean)
  | .loop c => some (c, hasB 0x10, .clean)
  | .br c => some (c, hasB 0x11, .clean)
  | .bxadd c => some (c, hasB 0x12, .clean)
  | _ => none

/-- The job, the image and the word that cell c issues next, where nothing keeps it from issuing one (R202, R209). -/
def State.atWord (c : Nat) (s : State) : Option (Job × Image × Nat) :=
  match (s.cell c).job with
  | none => none
  | some j =>
    if (s.cell c).dropped || decide (j.budget ≤ (s.cell c).issued) then none
    else (s.loft.image j.image).map (fun m => (j, m, (s.cell c).word))

end Sys2Proof.Machine
end

