-- ==== Sys2Proof/Certificates/Slice0/Obligations.lean ====
section
/-! DEFINITION. The claims for the provers: what the rules of the manual say that the commands of the block do. -/

open Sys2Proof Sys2Proof.Machine

/-! ### The queue, the step, reset -/

/-- A step is the command at the front of the queue, run on the state with the rest of the queue. -/
def Obligations.StepRunsTheFrontCommand : Prop :=
  ∀ (c : Instr) (rest : List Instr) (s : State), s.pending = c :: rest → step s = exec c { s with pending := rest }

/-- A command uses up itself alone: after a step that answers a next state the queue is its old rest. With no command waiting one always-on cycle of 40 ns passes (the
model's choice, DESIGN CHOICE, log entry 40). -/
def Obligations.StepConsumesOneCommand : Prop :=
  (∀ s : State, s.pending = [] → step s = .next { s with time := { s.time with up := s.time.up + 160 } }) ∧
  (∀ s s' : State, s.Sound → step s = .next s' → s'.pending = s.pending.tail)

/-- No command is left without an answer: each gives a next state, but for an access of the Cellar beyond the DRAM fitted, which stops because it has no location
to act on (R293, Table 16.8). -/
def Obligations.EveryCommandAnswers : Prop :=
  (∀ (i : Instr) (s : State), (∃ t, exec i s = .next t) ∨
      (exec i s = .fault .noSuchDramAddress ∧
        ((∃ p5 n row, i = .cellarPortWrite p5 n ∧ s.halls.front p5 = some row ∧ s.cellar.capacity < (s.cellar.ring p5).base + (s.cellar.ring p5).size) ∨
         (∃ p a k, i = .cellarRead p a k ∧ s.cellar.capacity ≤ a)))) ∧
  ((∀ (p : Fin 6) (a : Nat) (k : ReadCheck) (s : State), fbit s.cellar.cfg F.CELLAR_CFG.ENABLE = true → s.cellar.capacity ≤ a →
      exec (.cellarRead p a k) s = .fault .noSuchDramAddress) ∧
    (∀ (p5 : Bool) (n : Nat) (s : State) (row : StoredRow), s.halls.front p5 = some row →
      let r := s.cellar.ring p5
      let p := if p5 then 5 else 0
      let fits := min (min n (row.bytes.length - r.taken)) (portBuffer p - (s.cellar.portOf p).level)
      r.dropping = false → 0 < fits → s.cellar.capacity < r.addr (r.pos + r.taken) 0 + fits → s.cellar.capacity < r.base + r.size →
      exec (.cellarPortWrite p5 n) s = .fault .noSuchDramAddress))

/-- Every step keeps the identification words as the manual hard-wires them and the memories in their canonical form. -/
def Obligations.StepKeepsSound : Prop :=
  ∀ s s' : State, s.Sound → step s = .next s' → s'.Sound

/-- The state right after reset: it is sound (identification words as hard-wired, memories in canonical form), and holds the values that the register tables give where
they are not 0: identification words, every listed fault source enabled, the queue empty, the rooms unpowered. -/
def Obligations.ResetLeavesTheStatedValues : Prop :=
  (State.reset.Sound) ∧
  (State.reset.host.idDevice = 0x00018650 ∧ State.reset.host.idVendor = 0x00001F3C ∧ State.reset.pending = [] ∧
    State.reset.power.front = false ∧ State.reset.power.loft = false ∧ State.reset.power.hearth = false ∧
    (∀ n, n < 128 → fbit (State.reset.source n).src F.FC_SRC.EN = sourceListed n) ∧
    (∀ k, k < 32 → State.reset.lockOwner k = 0) ∧ (∀ c, c < 8 → (State.reset.chan c).inq = [] ∧ (State.reset.chan c).outq = []) ∧
    State.reset.fw.stamped = [] ∧ State.reset.fw.long = none ∧ State.reset.probe.running = false)

/-- Device uptime never runs backwards (R267): only RESET_N and the loss of the rails start it afresh. -/
def Obligations.UptimeNeverRunsBack : Prop :=
  ∀ s s' : State, s.Sound → (s.pending.head? ≠ some .resetNLow) → (∀ torn, s.pending.head? ≠ some (.railRemoval torn)) → step s = .next s' →
    s.time.up ≤ s'.time.up

/-! ### Requests (R359 to R368) -/

/-- Firmware refuses a request with the first error that applies, in the order of R361: a failed check of steps 3 to 7; an AT block that does not hold. A
request whose command is not at the head of its carrier, or comes before firmware runs, leaves the state. A bulk command over PCIe waits for its buffer,
and a payload that does not match it refuses it with BULK (R362). -/
def Obligations.RequestsAreCheckedInOrder : Prop :=
  ∀ (i : Instr) (c : Fin 9) (sp : Spec) (s : State), requestRow s i = some (c, sp) →
    (vget s.fw.inbox c.val [] = [] → exec i s = .next s) ∧
    (∀ (r : Request) (rest : List Request), vget s.fw.inbox c.val [] = r :: rest →
      ((s.fwReady = false ∨ headerErr r.msg ≠ none ∨ msgCode r.msg ≠ sp.code) → exec i s = .next s) ∧
      (s.fwReady = true → headerErr r.msg = none → msgCode r.msg = sp.code → r.waitUp = none →
        ∀ e, s.firstRefusal sp r c.val = some e → exec i s = .next (s.refuse c.val r { status := e })) ∧
      (s.fwReady = true → headerErr r.msg = none → msgCode r.msg = sp.code → (r.waitUp ≠ none ∨ s.firstRefusal sp r c.val = none) → msgBulk r.msg = true →
        (c.val = 8 → bulkOf sp.code (msgTag r.msg) r.bulk = none → exec i s = .next (s.refuse c.val r { status := .bulk })) ∧
        (c.val ≠ 8 → (s.fw.bulk = [] ∨ s.bulkTurn c.val (r.waitUp.getD s.time.up) = false) →
          exec i s = .next { s with fw := { s.fw with inbox := vset s.fw.inbox c.val ({ r with waitUp := some (r.waitUp.getD s.time.up) } :: rest) } }) ∧
        (c.val ≠ 8 → ∀ bs more, s.fw.bulk = bs :: more → s.bulkTurn c.val (r.waitUp.getD s.time.up) = true → bulkOf sp.code (msgTag r.msg) bs = none →
          exec i s = .next (({ s with fw := { s.fw with bulk := more } } : State).refuse c.val r { status := .bulk })))) ∧
    (∀ (r : Request) (b : List Byte) (t : State), s.arrives sp c.val = some (r, b, t) → sp.s = true → t.badAt sp.code (r.cmd sp c.val b) = true →
      ∃ n, exec i s = .next (t.refuse c.val r { status := .param, index := n }))

/-- A refused command changes nothing (R361), and an answer changes, beside the command's effect, the carrier's stores alone. -/
def Obligations.AnswersChangeTheirCarrierAlone : Prop :=
  (∀ (c : Nat) (r : Request) (e : Err) (s : State), ∃ inbox out order eth,
      s.refuse c r e = { s with fw := { s.fw with inbox, out, order }, porch := { s.porch with eth } } ∧
        (∀ d, d ≠ c → vget inbox d [] = vget s.fw.inbox d [] ∧ vget out d [] = vget s.fw.out d [])) ∧
  (∀ (c : Nat) (r : Request) (index : Nat) (items : List Word) (s : State), ∃ inbox out order eth,
      s.answered c r index items = { s with fw := { s.fw with inbox, out, order }, porch := { s.porch with eth } } ∧
        (∀ d, d ≠ c → vget inbox d [] = vget s.fw.inbox d [] ∧ vget out d [] = vget s.fw.out d []))

/-- The response of a request (R360): word 1 holds STATUS, DETAIL and INDEX, and the messages behind the ones that wait carry the request's TAG and CODE,
KIND 1, MORE = 1 in all but the last. -/
def Obligations.ResponseLayout : Prop :=
  (∀ (c code tag st detail index : Nat) (items : List Word) (s : State), c < 8 →
    vget (s.reply c none code tag st detail index items).fw.out c [] =
      vget s.fw.out c [] ++ (mkSeries 1 code tag (statusWord st detail index :: items)).map (fun m => ⟨s.fw.order, m⟩)) ∧
  (∀ (kind code tag : Nat) (w : Word) (ws : List Word) (m : Msg), kind < 4 → code < 4096 → tag < 256 → m ∈ mkSeries kind code tag (w :: ws) →
    msgKind m = kind ∧ msgCode m = code ∧ msgTag m = tag ∧ msgMajor m = 1 ∧ msgWords m = m.length ∧ m.length ≤ 16) ∧
  (∀ (kind code tag : Nat) (w : Word) (ws : List Word), kind < 4 → code < 4096 → tag < 256 →
    (mkSeries kind code tag (w :: ws)).dropLast.all msgBulk = true ∧ ((mkSeries kind code tag (w :: ws)).getLast?.map msgBulk) = some false) ∧
  (∀ (kind code tag : Nat) (w : Word) (ws : List Word), ((mkSeries kind code tag (w :: ws)).flatMap (fun m => m.drop 1)) = w :: ws) ∧
  (∀ (st detail index : Nat), st < 65536 → detail < 256 → index < 256 →
    (statusWord st detail index).toNat = st + 65536 * detail + 2 ^ 24 * index)

/-- Commands that report (Table 20.3): each answers from the state and changes nothing else. -/
def Obligations.QueriesAnswer : Prop :=
  (Answers .identify noLeg (fun _ _ => True)
      (fun _ t => [0x8650, w32 (fget t.host.idDevice ⟨16, 8⟩), w32 (nbits t.boot.image.toNat 16 8), w32 (nbits t.boot.image.toNat 8 8),
        w32 (nbits t.boot.image.toNat 0 8), w32 (nbits t.boot.image.toNat 24 8), w32 t.host.serial, w32 (t.host.serial / 2 ^ 32), w32 t.larder.wear])
      (fun _ t => t) ∧
    Answers .status noLeg (fun _ _ => True)
      (fun _ t => [w32 t.fw.mode, w32 (t.legOn 0).toNat, w32 (t.legOn 1).toNat, w32 (t.traceNow 0), w32 (t.traceNow 0 / 2 ^ 32), w32 (t.traceNow 1),
        w32 (t.traceNow 1 / 2 ^ 32), w32 ((t.fw.long.map (·.code)).getD 0), w32 t.safe.toNat, w32 (t.fc.sources.toList.filter (·.raised)).length])
      (fun _ t => t) ∧
    Answers .progress noLeg (fun _ _ => True)
      (fun _ t => [w32 (fget t.host.progStat F.PROG_STAT.CODE), w32 (fget t.host.progStat F.PROG_STAT.STATE), t.host.progValue,
        w32 (fget t.host.progStat F.PROG_STAT.UNIT)]) (fun _ t => t) ∧
    Answers .timeRead noLeg (fun _ _ => True)
      (fun _ t => [w32 (t.now / 160 * 160), w32 (t.now / 160 * 160 / 2 ^ 32), t.timeStatWord, t.time.steer,
        w32 (wrapTo 32 (if t.srcInUse = 4 ∨ t.srcInUse = 5 then divHalfAway t.time.ptp.offset 65536 else 0))]) (fun _ t => t) ∧
    Answers .tachStatus noLeg (fun cmd _ => cmd.p 0 < 8)
      (fun cmd t => if t.power.front then
          [w32 (vget t.tach (cmd.p 0) {}).count, w32 ((vget t.tach (cmd.p 0) {}).count / 2 ^ 32), (vget t.tach (cmd.p 0) {}).period,
            w32 (wrapTo 32 (vget t.tach (cmd.p 0) {}).speed), (vget t.tach (cmd.p 0) {}).stat]
        else [0, 0, 0xFFFFFFFF, 0, 1]) (fun _ t => t) ∧
    Answers .zoneRead noLeg (fun cmd _ => cmd.p 0 < 256)
      (fun cmd t => (t.zone (cmd.p 0)).stat :: (t.zone (cmd.p 0)).det.toList.map (·.stat)) (fun _ t => t)) ∧
  (Answers .recordList noLeg (fun cmd _ => 1 ≤ cmd.p 2 ∧ cmd.p 2 ≤ 64)
      (fun cmd t => ((t.trig.store.filter (fun r => wat64 cmd.w 0 ≤ r.seq)).take (cmd.p 2)).flatMap
        (fun r => w64 r.seq ++ [w32 r.unit] ++ w64 r.fireTime ++ [w32 r.size, w32 r.flags])) (fun _ t => t) ∧
    Answers .surveyRead legFirst
      (fun cmd t => cmd.p 0 < 2 ∧ cmd.p 1 < 4 ∧ ∃ l, t.surveyItem (cmd.p 0) (cmd.p 1) = some l ∧ (((l.drop (cmd.p 2)).take (cmd.p 3)).flatten).length ≤ 3839)
      (fun cmd t => ((((t.surveyItem (cmd.p 0) (cmd.p 1)).getD []).drop (cmd.p 2)).take (cmd.p 3)).flatten.map w32) (fun _ t => t) ∧
    Answers .faultRead noLeg (fun cmd _ => cmd.p 0 ≤ 127 ∧ 1 ≤ cmd.p 1 ∧ cmd.p 1 ≤ 32 ∧ cmd.p 0 + cmd.p 1 ≤ 128)
      (fun cmd t => (List.range (cmd.p 1)).flatMap (fun i =>
        let f := t.source (cmd.p 0 + i)
        [w32 (cmd.p 0 + i), w32 (f.raised.toNat + 2 * f.cond.toNat + 4 * (fbit f.src F.FC_SRC.EN).toNat), w32 (fget f.src F.FC_SRC.SEVERITY),
          w32 (fget f.src F.FC_SRC.REACT), w32 f.history.length])) (fun _ t => t) ∧
    Answers .logRead noLeg (fun cmd _ => 1 ≤ cmd.p 1 ∧ cmd.p 1 ≤ 64)
      (fun cmd t => ((t.larder.entries.filter (fun e => cmd.p 0 ≤ e.number)).take (cmd.p 1)).flatMap LogEntry.words) (fun _ t => t) ∧
    Answers .planCheck noLeg (fun cmd _ => ∃ p, decodePlan cmd.w cmd.bulk = .ok p ∧ p.failed = none)
      (fun cmd _ => match decodePlan cmd.w cmd.bulk with | .ok p => [w32 (p.points 0), w32 (p.points 1), w32 p.load] | .error _ => []) (fun _ t => t) ∧
    Answers .planSuggest noLeg (fun cmd _ => 14400 ≤ cmd.p 2 ∧ cmd.p 2 ≤ 14900 ∧ 0 < max (cmd.p 0) (cmd.p 1) ∧
        (suggestPlan (max (cmd.p 0) (cmd.p 1)) (cmd.p 2)).isSome = true)
      (fun cmd _ => ((suggestPlan (max (cmd.p 0) (cmd.p 1)) (cmd.p 2)).getD []).map w32) (fun _ t => t))

/-- PLAN_CHECK names the first condition of R31 that fails, leg 0 before leg 1, and the leg it concerns (R32). -/
def Obligations.PlanCheckNamesTheFailedCondition : Prop :=
  Refuses .planCheck noLeg (fun cmd _ => ∃ p e, decodePlan cmd.w cmd.bulk = .ok p ∧ p.failed = some e ∧ e.2 = 0xFF) .planInfeasible
    (fun cmd _ => match decodePlan cmd.w cmd.bulk with | .ok p => (p.failed.map (·.1)).getD 0 | .error _ => 0) ∧
  (∀ (c : Fin 9) (sp : Spec) (s t : State) (r : Request) (b : List Byte) (p : PlanWords) (e : Nat × Nat),
    requestRow s (.planCheck c) = some (c, sp) → s.reach sp c.val = some (r, b, t) → decodePlan (r.cmd sp c.val b).w b = .ok p → p.failed = some e →
    exec (.planCheck c) s = .next (t.refuse c.val r { status := .planInfeasible, detail := e.1, index := e.2 })) ∧
  (∀ (p : PlanWords) (n l : Nat), p.failed = some (n, l) → p.mode ≠ 0 → 1 ≤ n ∧ n ≤ 9 ∧
    ((n = 1 ∧ l = 0xFF ∧ (p.bank.legBank 0).on = false ∧ (p.bank.legBank 1).on = false) ∨
      ∃ k, k < 2 ∧ (p.bank.legBank k).on = true ∧ p.holds n k = false ∧ l = (if n = 2 then 0xFF else k) ∧
        (∀ m, 1 ≤ m → m < n → p.holds m k = true) ∧
        (∀ j m : Nat, j < k → (p.bank.legBank j).on = true → 1 ≤ m → m ≤ 9 → p.holds m j = true))) ∧
  (∀ (p : PlanWords), p.failed = none → p.mode ≠ 0 → ∀ (m k : Nat), 1 ≤ m → m ≤ 9 → k < 2 → (p.bank.legBank k).on = true → p.holds m k = true)

/-- Commands of class S that change a leg (R22, R364, R365): the change waits for its effective trace, and the answer names it. -/
def Obligations.StampedSettings : Prop :=
  (AnswersAt .gainSet legFirst
      (fun cmd _ _ => cmd.p 0 < 2 ∧ badImage F.LEG_CFG.kind (wat cmd.w 1) = false ∧ cmd.p 2 % 2 ^ 31 < 8 ∧
        fget (wat cmd.w 1) F.LEG_CFG.GAIN_MIN ≤ fget (wat cmd.w 1) F.LEG_CFG.GAIN_MAX) (fun _ _ => anyTrace)
      (fun _ t at_ => w64 (match at_ with | some a => t.gainIndex (t.indexOfTime (t.boundaryAhead a.1)) | none => 2 ^ 64 - 1))
      (fun cmd t at_ => t.stamp cmd at_ cmd.w [] false) ∧
    AnswersAt .chainSet legFirst
      (fun cmd t at_ => cmd.p 0 < 2 ∧ badImage F.CHAIN_CFG.kind (wat cmd.w 1) = false ∧ badImage F.CHAIN_RESP.kind (wat cmd.w 2) = false ∧
        16 ≤ fget (wat cmd.w 1) F.CHAIN_CFG.FADE_LEN ∧ fget (wat cmd.w 1) F.CHAIN_CFG.FADE_LEN ≤ 4096 ∧ respLegal (cmd.p 2) = true ∧
        ∀ a, at_ = some a → t.rateAhead (cmd.p 0) a.1 = some (respRate (cmd.p 2)))
      (fun cmd t f => !t.chainSwaps (cmd.p 0) cmd.w f || t.outputBoundary (cmd.p 0) (respR (cmd.p 2)) f)
      (fun cmd t at_ => [w32 (fbit (wat cmd.w 1) F.CHAIN_CFG.ENABLE && respDecim (cmd.p 2) !=
        respDecim (match at_ with | some a => (t.chainAhead (cmd.p 0) a.1).resp | none => (t.chainLatest (cmd.p 0)).1)).toNat])
      (fun cmd t at_ => t.stamp cmd at_ cmd.w [] false) ∧
    AnswersAt .mapSet legFirst
      (fun cmd _ _ => cmd.p 0 < 2 ∧ badImage F.MAP_CFG.kind (wat cmd.w 1) = false ∧ (∀ i, i < 7 → badImage F.MAP_EDGE.kind (wat cmd.w (2 + i)) = false) ∧
        fget (wat cmd.w 1) F.MAP_CFG.EDGE8 ≤ 128 ∧ rising (mapEdges cmd.w) = true) (fun _ _ => anyTrace)
      (fun _ _ _ => []) (fun cmd t at_ => t.stamp cmd at_ cmd.w [] false) ∧
    AnswersAt .tempCal legFirst
      (fun cmd t _ => cmd.p 0 < 2 ∧ cmd.p 1 < 4 ∧ 26214400 ≤ cmd.p 2 ∧ cmd.p 2 ≤ 58982400 ∧ (sx 64 (wat64 cmd.w 3)).natAbs ≤ 2 ^ 30 ∧
        (sx 64 (wat64 cmd.w 5)).natAbs ≤ 2 ^ 45 ∧ 1 ≤ cmd.p 7 ∧ cmd.p 7 ≤ 255 ∧
        ((cmd.hasBulk = false ∧ cmd.p 1 = 3) ∨ (cmd.hasBulk = true ∧ cmd.bulk.length = 160 ∧ t.badSection cmd.bulk 0 = false ∧ t.badSection cmd.bulk 80 = false ∧
          sectionsOverlap cmd.bulk = false ∧ (t.unplanned = true ∨ (t.legBank (cmd.p 0)).on = false ∨ refsBeyond cmd.bulk (t.legBank (cmd.p 0)).len = false))))
      (fun _ _ => anyTrace) (fun _ _ _ => []) (fun cmd t at_ => t.stamp cmd at_ cmd.w cmd.bulk false) ∧
    AnswersAt .replayStart legFirst (fun cmd t _ => cmd.p 0 < 2 ∧ t.replayLatest (cmd.p 0) = false) (fun _ _ => anyTrace)
      (fun _ _ _ => []) (fun cmd t at_ => t.stamp cmd at_ cmd.w [] false) ∧
    AnswersAt .replayStop legFirst (fun cmd t _ => cmd.p 0 < 2 ∧ t.replayLatest (cmd.p 0) = true) (fun _ _ => anyTrace)
      (fun cmd t at_ => w64 (match at_ with | some a => t.traceAhead (cmd.p 0) a.1 - 1 | none => 2 ^ 64 - 1))
      (fun cmd t at_ => t.stamp cmd at_ cmd.w [] false)) ∧
  (AnswersAt .frontSet legFirst
      (fun cmd t _ => cmd.p 0 < 2 ∧ badImage F.FRONT_CFG.kind (wat cmd.w 1) = false ∧ badImage F.FRONT_REL.kind (wat cmd.w 2) = false ∧
        badImage F.PHASE_CFG.kind (wat cmd.w 3) = false ∧ fget (wat cmd.w 1) F.FRONT_CFG.RX_WIN ≤ 3 ∧ fget (wat cmd.w 1) F.FRONT_CFG.COMB_HALF ≤ 32 ∧
        fget (wat cmd.w 1) F.FRONT_CFG.FADE_MUL ≠ 0 ∧ 1 ≤ cmd.p 3 % 128 ∧ cmd.p 3 % 128 ≤ 100 ∧
        (fbit (wat cmd.w 1) F.FRONT_CFG.FADE_REF = true → (vget t.fw.surveyDone (cmd.p 0) {}).complete = true ∧ t.detail = false) ∧
        ((fget (wat cmd.w 1) F.FRONT_CFG.RX_WIN ≠ fget (t.frontLatest (cmd.p 0)) F.FRONT_CFG.RX_WIN ∨
          fget (wat cmd.w 1) F.FRONT_CFG.COMB_HALF ≠ fget (t.frontLatest (cmd.p 0)) F.FRONT_CFG.COMB_HALF) → t.probe.pending = none ∨ t.measuring = false))
      (fun _ _ => anyTrace) (fun _ _ _ => [])
      (fun cmd t at_ =>
        let u := t.stamp cmd at_ cmd.w [] false
        match at_ with
        | some a => if fget (wat cmd.w 1) F.FRONT_CFG.RX_WIN ≠ fget (t.frontLatest (cmd.p 0)) F.FRONT_CFG.RX_WIN ∨
            fget (wat cmd.w 1) F.FRONT_CFG.COMB_HALF ≠ fget (t.frontLatest (cmd.p 0)) F.FRONT_CFG.COMB_HALF then (u.excite a.1).summarise else u
        | none => u) ∧
    AnswersAt .chainReset noLeg (fun cmd _ _ => 1 ≤ cmd.p 0 ∧ cmd.p 0 ≤ 3) (fun _ _ => anyTrace)
      (fun cmd t at_ => ([0, 1] : List Nat).flatMap (fun l => w64 (match at_ with
        | some a => if nbit (cmd.p 0) l && (t.legBank l).on then t.traceAhead l a.1 else 2 ^ 64 - 1 | none => 2 ^ 64 - 1)))
      (fun cmd t at_ =>
        let legs := ([0, 1] : List Nat).filter (fun l => nbit (cmd.p 0) l && (at_.isNone || (t.legBank l).on))
        legs.foldl (fun u l => u.stampOn l cmd at_ cmd.w [] (decide (l = 1) && legs.length == 2)) t) ∧
    AnswersAt .tempSet legFirst
      (fun cmd t at_ => cmd.p 0 < 2 ∧ cmd.p 1 ≤ 1 ∧ 10 ≤ cmd.p 2 ∧ cmd.p 2 ≤ 600 ∧ cmd.p 3 ≤ 4 ∧ cmd.p 4 ≤ 80000 ∧ cmd.p 5 ≤ 1023 ∧ cmd.p 6 ≤ 7 ∧ cmd.p 7 ≤ 7 ∧
        (t.tempStarts (cmd.p 0) cmd.w = true → t.tempStartWaits (cmd.p 0) (at_.map (·.1)) = false) ∧
        ∀ a, at_ = some a → cmd.p 1 = 1 → (t.planAhead (cmd.p 0) a.1).1.on = true →
          ramanFits ((t.planAhead (cmd.p 0) a.1).1.withTemp cmd.w) (t.planAhead (cmd.p 0) a.1).2.1 (t.planAhead (cmd.p 0) a.1).2.2 = true)
      (fun _ _ => anyTrace)
      (fun cmd t at_ => match at_ with
        | none => [0xFFFFFFFF, 0xFFFFFFFF, 0xFFFFFFFF]
        | some a =>
          let q := t.planAhead (cmd.p 0) a.1
          w64 (if cmd.p 1 = 0 ∨ q.1.on = false then 2 ^ 64 - 1 else if t.tempStarts (cmd.p 0) cmd.w then t.traceAhead (cmd.p 0) a.1
            else (t.raman (cmd.p 0)).startTrace) ++
          [w32 ((windowSpans (cmd.p 2) (10 * q.2.2)).1 * (windowSpans (cmd.p 2) (10 * q.2.2)).2)])
      (fun cmd t at_ => t.stamp cmd at_ cmd.w [] false))

/-- Commands of class S of the Loft and the triggers (R364, R365): the change waits for its effective trace; FIRE in REST copies from the retained ring at once (R261). -/
def Obligations.StampedCommandsOfTheLoft : Prop :=
  (AnswersAt .poolSet noLeg
      (fun cmd t _ => cmd.p 0 < 8 ∧ badImage F.POOL_CFG.kind (wat cmd.w 1) = false ∧ (poolOfWords cmd.w).work ≤ 2 ∧ (poolOfWords cmd.w).mixed = false ∧
        cellTwice (vset t.poolsLatest (cmd.p 0) (poolOfWords cmd.w)).toList = false ∧
        t.poolMissing (vset t.poolsLatest (cmd.p 0) (poolOfWords cmd.w)).toList = false)
      (fun _ _ => anyTrace) (fun _ _ _ => []) (fun cmd t at_ => t.stamp cmd at_ cmd.w [] false) ∧
    AnswersAt .zoneParam noLeg
      (fun cmd t _ => cmd.p 0 < 256 ∧ ∃ w : ZoneWant, t.zoneLatest (cmd.p 0) = some w ∧ ZoneWant.pageBad { w with param := cmd.bulk } = false ∧
        cmd.bulk.length = w.param.length ∧ ZoneWant.stateLen { w with param := cmd.bulk } t.loft = w.stateLen t.loft)
      (fun _ _ => anyTrace) (fun _ _ _ => []) (fun cmd t at_ => t.stamp cmd at_ cmd.w cmd.bulk false) ∧
    AnswersAt .zoneEnable noLeg
      (fun cmd t at_ => cmd.p 0 ≤ cmd.p 1 ∧ cmd.p 1 ≤ 255 ∧ cmd.p 2 ≤ 1 ∧
        (cmd.p 2 = 1 → t.enableError ((List.range (cmd.p 1 + 1 - cmd.p 0)).map (cmd.p 0 + ·)) at_ = none))
      (fun _ _ => anyTrace) (fun _ _ _ => [])
      (fun cmd t at_ =>
        let u := t.stamp cmd at_ cmd.w [] false
        if cmd.p 2 = 1 && ((List.range (cmd.p 1 + 1 - cmd.p 0)).map (cmd.p 0 + ·)).any (fun z => !((t.zone z).on || t.zoneOnLatest z)) then u.packAll else u) ∧
    AnswersAt .zoneSet noLeg
      (fun cmd t at_ =>
        let n := fget (wat cmd.w 1) F.ZONE_CFG.N_DET
        let page := if cmd.hasBulk then cmd.bulk else bytesOfWords (cmd.w.drop (5 + n))
        let w : ZoneWant := { pages := 0, cfg := wat cmd.w 1, span := wat cmd.w 2, out := wat cmd.w 3, param := page }
        5 + n ≤ cmd.w.length ∧ (cmd.hasBulk = true → cmd.w.length = 5 + n) ∧ zoneRangeBad cmd = false ∧
          t.zoneError (cmd.p 0) w at_ (fbit w.cfg F.ZONE_CFG.ENABLE) = none)
      (fun _ _ => anyTrace)
      (fun cmd t at_ =>
        let n := fget (wat cmd.w 1) F.ZONE_CFG.N_DET
        let page := if cmd.hasBulk then cmd.bulk else bytesOfWords (cmd.w.drop (5 + n))
        let q := t.placePages (cmd.p 0) { pages := 0, cfg := wat cmd.w 1, span := wat cmd.w 2, out := wat cmd.w 3, param := page }
        q.1.frameWords at_ ++ [w32 (fget q.2 F.ZONE_PAGE.PARAM_AT), w32 (fget q.2 F.ZONE_PAGE.STATE_AT)])
      (fun cmd t at_ =>
        let n := fget (wat cmd.w 1) F.ZONE_CFG.N_DET
        let page := if cmd.hasBulk then cmd.bulk else bytesOfWords (cmd.w.drop (5 + n))
        let q := t.placePages (cmd.p 0) { pages := 0, cfg := wat cmd.w 1, span := wat cmd.w 2, out := wat cmd.w 3, param := page }
        q.1.stamp cmd at_ ([wat cmd.w 0, q.2] ++ (cmd.w.drop 1).take (4 + n)) page false)) ∧
  (AnswersAt .trigSet noLeg
      (fun cmd t at_ =>
        let n := TrigConfig.ofWords (cmd.w.drop 1) cmd.bulk
        let b := t.bankAhead ((at_.map (·.1)).getD 0)
        cmd.bulk.length = 512 ∧ trigRangeBad cmd = false ∧ (fbit n.cfg F.TRIG_CFG.SRC_PAT = true → n.care.all (· == 0) = false) ∧
          (at_.isSome = true → t.trigSpanBad n b = false ∧ t.holdBad n b = false) ∧ (at_ = none → t.trigSpanBad n {} = false))
      (fun _ _ => anyTrace)
      (fun cmd t at_ =>
        let n := TrigConfig.ofWords (cmd.w.drop 1) cmd.bulk
        [w32 (if n.holdMin && at_.isSome then t.holdMin n (t.bankAhead ((at_.map (·.1)).getD 0)) % 2 ^ 24 else n.holdN)])
      (fun cmd t at_ => t.stamp cmd at_ cmd.w cmd.bulk false) ∧
    AnswersAt .arm noLeg (fun cmd t _ => cmd.p 0 < 2 ^ 16 ∧ t.notMaster (cmd.p 0) = false) (fun _ _ => anyTrace)
      (fun _ t at_ => t.frameWords at_)
      (fun cmd t at_ => match at_ with
        | some a => (t.stamp cmd at_ cmd.w [] false).armTokens (cmd.p 0) (t.boundaryAhead a.1 % 2 ^ 64)
        | none => t.stamp cmd at_ cmd.w [] false) ∧
    AnswersAt .disarm noLeg (fun cmd t _ => cmd.p 0 < 2 ^ 16 ∧ t.notMaster (cmd.p 0) = false) (fun _ _ => anyTrace)
      (fun _ t at_ => t.frameWords at_) (fun cmd t at_ => t.stamp cmd at_ cmd.w [] false) ∧
    AnswersAt .fire noLeg (fun cmd t _ => cmd.p 0 < 16 ∧ t.inRest = false ∧ (t.unit (cmd.p 0)).state ≠ .idle) (fun _ _ => anyTrace)
      (fun _ t at_ => t.frameWords at_) (fun cmd t at_ => t.stamp cmd at_ cmd.w [] false)) ∧
  ((∀ (c : Fin 9) (sp : Spec) (s t u : State) (r : Request) (b : List Byte) (f : Nat), requestRow s (.fire c) = some (c, sp) →
      s.reach sp c.val = some (r, b, t) → (r.cmd sp c.val b).p 0 < 16 → t.inRest = true →
      t.fireRetained ((r.cmd sp c.val b).p 0) (wat64 (r.cmd sp c.val b).w 1) = .ok (f, u) →
      exec (.fire c) s = .next (u.answered c.val r 0xFF ([0xFFFFFFFF, 0xFFFFFFFF] ++ w64 f))) ∧
    (∀ (n time f : Nat) (s u : State), s.fireRetained n time = .ok (f, u) →
      ∃ e, (s.cellar.ring (s.unit n).c.dec).frameAtTime time = some e ∧ f = e.time ∧ e.time ≤ time ∧ time < e.time + 10 * e.tF ∧
        (s.cellar.ring (s.unit n).c.dec).epoch ≤ e.frame ∧
        u.trig.nextSeq = s.trig.nextSeq + 1 ∧ u.cellar = s.cellar ∧ u.loft = s.loft ∧ u.halls = s.halls ∧ u.probe = s.probe ∧
        ∃ rec_ : Record, u.trig.fired = s.trig.fired ++ [rec_] ∧ rec_.unit = n ∧ rec_.fireTime = e.time ∧ rec_.seq = some s.trig.nextSeq ∧
          rec_.pre ≤ (s.unit n).c.preN ∧ rec_.post ≤ (s.unit n).c.postN))

/-- The stream commands (Table 17.5, R365): a definition, a redefinition of a running stream, the start at a trace, the stop at once. -/
def Obligations.StreamCommands : Prop :=
  Answers .streamSet noLeg
    (fun cmd t => t.streamRangeBad cmd.w = false ∧ t.streamSelBad (cmd.p 0) ((t.stream (cmd.p 0)).define (cmd.w.drop 1)) t.bankNow = false) (fun _ _ => [])
    (fun cmd t =>
      let x := t.stream (cmd.p 0)
      t.setStream (cmd.p 0) (
        if x.rechained (cmd.w.drop 1) then { x with headLo := wat (cmd.w.drop 1) 3, headHi := wat (cmd.w.drop 1) 4, lastDesc := 0 }
        else if x.running then { x with redefine := some (cmd.w.drop 1), ending := some (x.ending.getD 2) }
        else x.define (cmd.w.drop 1))) ∧
  AnswersAt .streamStart noLeg
    (fun cmd t at_ => cmd.p 0 ≤ 7 ∧ (t.stream (cmd.p 0)).running = false ∧ t.startWaits (cmd.p 0) = false ∧ (t.stream (cmd.p 0)).source ≠ 0 ∧
      t.streamSelBad (cmd.p 0) (t.stream (cmd.p 0)) (at_.map (fun a => t.bankAhead a.1)) = false)
    (fun _ _ => anyTrace) (fun _ _ _ => []) (fun cmd t at_ => t.stamp cmd at_ cmd.w [] false) ∧
  AnswersAt .streamStop noLeg
    (fun cmd t _ => cmd.p 0 ≤ 7 ∧ ((t.stream (cmd.p 0)).running = true → (t.stream (cmd.p 0)).ending = none))
    (fun _ _ => anyTrace) (fun _ _ _ => []) (fun cmd t _ => t.setStream (cmd.p 0) ((t.stream (cmd.p 0)).endWith 1))

/-- Settings that act at acceptance (Table 20.3). -/
def Obligations.SettingsAtOnce : Prop :=
  (Answers .tableLoad legFirst
      (fun cmd _ => cmd.p 0 < 2 ∧ cmd.p 1 < 8 ∧ 1 ≤ cmd.p 2 ∧ cmd.p 2 ≤ 8192 ∧ cmd.bulk.length = 4 * cmd.p 2 ∧
        (tableLane cmd.bulk 0 (cmd.p 2) ++ tableLane cmd.bulk (2 * cmd.p 2) (cmd.p 2)).all tableEntryOk = true) (fun _ _ => [])
      (fun cmd t => { t with probe := { t.probe with tables := vset t.probe.tables (cmd.p 0) (vset (vget t.probe.tables (cmd.p 0) (Vector.replicate 8 {})) (cmd.p 1)
        { i := (tableLane cmd.bulk 0 (cmd.p 2)).map code14, q := (tableLane cmd.bulk (2 * cmd.p 2) (cmd.p 2)).map code14, loaded := true }) } }) ∧
    Answers .recordDelete noLeg (fun _ _ => True)
      (fun cmd t => [w32 (t.trig.store.filter (fun r => decide (wat64 cmd.w 0 ≤ r.seq) && decide (r.seq ≤ wat64 cmd.w 2))).length])
      (fun cmd t => { t with trig := { t.trig with
        store := t.trig.store.filter (fun r => !(decide (wat64 cmd.w 0 ≤ r.seq) && decide (r.seq ≤ wat64 cmd.w 2))) } }) ∧
    Answers .retrimDefer noLeg (fun cmd _ => cmd.p 0 ≤ 600)
      (fun _ t => w32 t.trim.due.isSome.toNat :: w64 (match t.trim.due with | some d => (d + 600 * sec) % 2 ^ 64 | none => 2 ^ 64 - 1))
      (fun cmd t => t.setTrim { t.trim with defer := fset t.trim.defer F.TRIM_DEFER.SECONDS (cmd.p 0) }) ∧
    Answers .trimSet noLeg
      (fun cmd t => badImage F.TRIM_CFG.kind (wat cmd.w 0) = false ∧ 8 ≤ fget (wat cmd.w 0) F.TRIM_CFG.TH ∧ fget (wat cmd.w 0) F.TRIM_CFG.TH ≤ 128 ∧
        (fbit (wat cmd.w 0) F.TRIM_CFG.ENABLE = true → t.thr.hk.coversDie = true)) (fun _ _ => [])
      (fun cmd t =>
        let r := regWrite F.TRIM_CFG.kind (fbit t.trim.cfg F.TRIM_CFG.ENABLE) t.trim.cfg (wat cmd.w 0)
        let u := t.setTrim { t.trim with cfg := r.word }
        (if r.ignored then { u with thr := { u.thr with stat := fset u.thr.stat F.THR_STAT.WRITE_IGNORED 1, wi := 0x300 } } else u).keepAltered r.keepAltered) ∧
    Answers .timeCfg noLeg (fun cmd _ => timeCfgBad cmd = false) (fun _ _ => [])
      (fun cmd t => (t.takeTimeCfg (wat cmd.w 0)
        (t.time.ptp.configure { port := cmd.p 1, profile := cmd.p 2, domain := cmd.p 3, logSync := sx 32 (cmd.p 4), logAnnounce := sx 32 (cmd.p 5), receiptTimeout := cmd.p 6, role := cmd.p 7 })).keepAltered
        (wat cmd.w 0 &&& F.TB_CFG.kind.keep != t.time.cfg &&& F.TB_CFG.kind.keep)) ∧
    Answers .timeSet noLeg (fun _ t => t.planRuns = false)
      (fun cmd t => w64 ((t.withTime { t.time with seconds := true }).stepTime (wat64 cmd.w 0)).now)
      (fun cmd t => (t.withTime { t.time with seconds := true }).stepTime (wat64 cmd.w 0)) ∧
    Begins .tiuMeasure
      (fun cmd t => badImage F.TIU_CFG.kind (wat cmd.w 0) = false ∧ fbit (wat cmd.w 0) F.TIU_CFG.ENABLE = true ∧ tiuSourceBad (wat cmd.w 0) (wat cmd.w 1) = false ∧
        t.tiu.phase = .idle ∧ t.tiu.asker = none)
      (fun cmd t => t.withTiu { t.tiu with cfg := wat cmd.w 0, stopSel := wat cmd.w 1, stat := t.tiu.stat &&& ~~~F.TIU_STAT.kind.w1c
                                           asker := some (cmd.carrier, cmd.tag), askerUdp := cmd.udp })) ∧
  (Answers .tachCfg noLeg (fun cmd t => t.tachSettingOk cmd ∧ t.power.front = false) (fun _ _ => [0xFFFFFFFF, 0xFFFFFFFF])
      (fun cmd t => t.setTach (cmd.p 0) { t.tachOf (cmd.p 0) with cfgCopy := wat cmd.w 1, stallCopy := w32 (cmd.p 2), distanceNm := cmd.p 3 }) ∧
    Answers .tachCfg noLeg (fun cmd t => t.tachSettingOk cmd ∧ t.power.front = true ∧ t.tachRestarts cmd = false) (fun _ _ => [0xFFFFFFFF, 0xFFFFFFFF])
      (fun cmd t => t.tachTaken cmd) ∧
    Answers .tachCfg noLeg (fun cmd t => t.tachSettingOk cmd ∧ t.power.front = true ∧ t.tachRestarts cmd = true)
      (fun cmd t => w64 ((t.tachTaken cmd).boundaryAhead (t.tachTaken cmd).frameAfter % 2 ^ 64))
      (fun cmd t => (t.tachTaken cmd).restartZones (t.tachTaken cmd).frameAfter (fun z => z.tach == some (cmd.p 0))))

/-- FAULT_CLEAR and FAULT_CFG (R390, R391, R397 to R399): a mask with one raised source whose cause is present is refused as a whole and names the first
such source; otherwise every raised source of the mask is cleared and the device leaves the safe state if nothing holds it there. -/
def Obligations.FaultCommands : Prop :=
  Answers .faultClear noLeg
    (fun cmd t => ∀ n ∈ maskSources cmd.w, (t.source n).raised = true → t.causePresent n = false)
    (fun cmd t => sourceMask ((maskSources cmd.w).filter (fun n => (t.source n).raised)))
    (fun cmd t =>
      let u := (((maskSources cmd.w).filter (fun n => (t.source n).raised)).foldl (fun v n => v.clearSource n) t).leaveSafe
      { u with fc := u.fc.driveFaultN }) ∧
  Refuses .faultClear noLeg
    (fun cmd t => (((maskSources cmd.w).filter (fun n => (t.source n).raised)).find? t.causePresent).isSome = true) .causePresent
    (fun cmd t => (((maskSources cmd.w).filter (fun n => (t.source n).raised)).find? t.causePresent).getD 0)
    (fun _ t => { t with fc := { t.fc with stat := finc (fset t.fc.stat F.FC_STAT.CLEAR_REFUSED 1) F.FC_STAT.CLEAR_REFUSALS } }) ∧
  Answers .faultCfg noLeg
    (fun cmd _ => cmd.p 0 ≤ 127 ∧ sourceListed (cmd.p 0) = true ∧ cmd.p 0 ≠ srcCollectorCfg ∧ cmd.p 1 ≤ 3 ∧ cmd.p 2 ≤ 63 ∧ 1 ≤ cmd.p 3 ∧ cmd.p 3 ≤ 15 ∧
      cmd.p 4 < 2 ^ 19 ∧ cmd.p 4 % 2 ^ 18 ≠ 0) (fun _ _ => [])
    (fun cmd t =>
      let src := faultCfgWord cmd (t.source (cmd.p 0)).src
      let u := t.setSource (cmd.p 0) ((t.source (cmd.p 0)).configure src)
      (State.wrote logEntryBytes { u with larder := { u.larder with
        faultCfg := (cmd.p 0, src) :: u.larder.faultCfg.filter (fun e => e.1 != cmd.p 0), old := { u.larder.old with faultCfg := u.larder.faultCfg } } }).watchWear)

/-- The secure commands (R370): nonces, the unlock with its key, its nonce and its signature, and the revocation. -/
def Obligations.SecureCommands : Prop :=
  (Answers .secChallenge noLeg (fun _ _ => True)
      (fun _ t => w64 (t.draw 64).1 ++ w64 ((t.draw 64).2.draw 64).1)
      (fun _ t =>
        let u := ((t.draw 64).2.draw 64).2
        { u with fw := { u.fw with sec := { u.fw.sec with nonce := some (w64 (t.draw 64).1 ++ w64 ((t.draw 64).2.draw 64).1), nonceUp := u.time.up } } }) ∧
    Answers .secUnlock noLeg
      (fun cmd t => cmd.bulk.length = 64 ∧ (∀ u, t.fw.sec.lockUntil = some u → u ≤ t.time.up) ∧ t.unlocks cmd.bulk = true) (fun _ _ => [])
      (fun _ t => { t with fw := { t.fw with sec := { t.fw.sec with nonce := none } }, mb := { t.mb with sec := fset t.mb.sec F.MB_SEC.UNLOCKED 1 } }) ∧
    Refuses .secUnlock noLeg (fun cmd t => cmd.bulk.length = 64 ∧ ∃ u, t.fw.sec.lockUntil = some u ∧ t.time.up < u) .authFail (fun _ _ => 0)
      (fun _ t => { t with fw := { t.fw with sec := { t.fw.sec with nonce := none } } }) ∧
    Refuses .secUnlock noLeg
      (fun cmd t => cmd.bulk.length = 64 ∧ (∀ u, t.fw.sec.lockUntil = some u → u ≤ t.time.up) ∧ t.unlocks cmd.bulk = false ∧
        ((t.fw.sec.refusals.filter (fun u => t.time.up < u + 60 * sec)).length = 2)) .authFail (fun _ _ => 0)
      (fun _ t => State.report srcSecAuth 0 { t with fw := { t.fw with sec := { t.fw.sec with nonce := none, refusals := [], lockUntil := some (t.time.up + 60 * sec) } } }) ∧
    Answers .secRevoke noLeg (fun _ _ => True) (fun _ _ => []) (fun _ t => t.revoke) ∧
    Answers .secKey noLeg (fun cmd _ => cmd.carrier = 6) (fun _ _ => [])
      (fun cmd t => { t with fw := { t.fw with sec := { t.fw.sec with key := some cmd.w } } }) ∧
    Answers .memMap noLeg
      (fun cmd t => cmd.p 0 ≠ 0 ∧ cmd.p 1 ≠ 0 ∧ cmd.p 2 ≠ 0 ∧ 128 + cmd.p 0 + cmd.p 1 + cmd.p 2 ≤ t.cellar.capacity / 2 ^ 24 ∧ cmd.p 3 ≤ 63 ∧
        ∃ q, t.takeLock (wat cmd.w 3) = .ok q)
      (fun cmd _ => [128, w32 (128 + cmd.p 0), w32 (128 + cmd.p 0 + cmd.p 1)])
      (fun cmd t => t.withCellar { t.cellar with nextMap := some (cmd.p 0, cmd.p 1, cmd.p 2) })) ∧
  (∀ (s : State) (sig : List Byte), s.unlocks sig = true ↔
      ∃ k n, s.fw.sec.key = some k ∧ s.fw.sec.nonce = some n ∧ s.time.up ≤ s.fw.sec.nonceUp + 10 * sec ∧
        Config.ed25519 k (bytesOfWords n ++ leBytes 8 s.host.serial) sig = true)

/-- NET_SET, and what the Ethernet ports and the I2C masters do (R320, R321, R325, R328). -/
def Obligations.NetSettingsAndPorts : Prop :=
  (Answers .netSet noLeg (fun cmd _ => cmd.p 0 = 0 ∧ cmd.w.length = 8 ∧ cmd.p 1 ≤ 1 ∧ ethCfgBad (wat cmd.w 2) = false) (fun _ _ => [])
      (fun cmd t =>
        let s1 := t.writeEthCfg (cmd.p 1) (wat cmd.w 2)
        let s2 := s1.withEth { s1.porch.eth with
          port := vset s1.porch.eth.port (cmd.p 1) { vget s1.porch.eth.port (cmd.p 1) {} with ip4 := cmd.p 3, ip6 := addrOf cmd.w 4 } }
        s2.setCondition srcEthLink s2.ethLinkLost (cmd.p 1)) ∧
    Answers .netSet noLeg (fun cmd _ => cmd.p 0 = 1 ∧ cmd.w.length = 12 ∧ cmd.p 1 ≤ 15 ∧ cmd.p 2 ≤ 31) (fun _ _ => [])
      (fun cmd t =>
        let x : Destination := { set := nbit (cmd.p 2) 0, port := nbits (cmd.p 2) 1 1, v6 := nbit (cmd.p 2) 2, streams := nbit (cmd.p 2) 3
                                 events := nbit (cmd.p 2) 4, srcPort := cmd.p 3 % 65536, dstPort := cmd.p 3 / 65536, addr := addrOf cmd.w 4
                                 gateway := addrOf cmd.w 8 }
        t.withEth { t.porch.eth with dest := vset t.porch.eth.dest (cmd.p 1) x }) ∧
    Answers .netSet noLeg (fun cmd _ => cmd.p 0 = 2 ∧ cmd.w.length = 7 ∧ cmd.p 1 ≤ 3 ∧ cmd.p 2 ≤ 1) (fun _ _ => [])
      (fun cmd t => t.withEth { t.porch.eth with
        allow := vset t.porch.eth.allow (cmd.p 1) (if cmd.p 2 = 1 then some (addrOf cmd.w 3) else none) }) ∧
    Answers .netSet noLeg (fun cmd _ => cmd.p 0 = 3 ∧ cmd.w.length = 2 ∧ 1024 ≤ cmd.p 1 ∧ cmd.p 1 ≤ 65535) (fun _ _ => [])
      (fun cmd t => t.withEth { t.porch.eth with ctlPort := cmd.p 1 }) ∧
    Answers .netSet noLeg (fun cmd _ => cmd.p 0 = 4 ∧ cmd.w.length = 4 ∧ cmd.p 1 ≤ 1 ∧ wat64 cmd.w 2 < 2 ^ 48 ∧
        (wat64 cmd.w 2 = 0 ∨ (nbit (wat64 cmd.w 2) 41 = true ∧ nbit (wat64 cmd.w 2) 40 = false))) (fun _ _ => [])
      (fun cmd t => t.withEth { t.porch.eth with port := vmod t.porch.eth.port (cmd.p 1) (fun x => { x with mac := wat64 cmd.w 2 }) })) ∧
  ((∀ (f : EthFrame) (s : State), let x := s.ethPort f.port.val
      fbit x.cfg F.ETH_CFG.ENABLE = true → fbit x.stat F.ETH_STAT.LINK = true →
      (x.takesVid (f.vid.map (·.val)) = false → exec (.ethFrameReceived f) s = .next (s.dropFrame f.port.val)) ∧
      (x.takesVid (f.vid.map (·.val)) = true →
        (∀ sender target, f.body = .arp true sender target → exec (.ethFrameReceived f) s = .next (if x.owns false target then s.ethSend (.reply f.port.val) else s)) ∧
        (∀ sender target, f.body = .arp false sender target → exec (.ethFrameReceived f) s = .next (s.resolveFrom f.port.val false sender)) ∧
        (∀ sender target, f.body = .neighbour true sender target → exec (.ethFrameReceived f) s = .next (if x.owns true target then s.ethSend (.reply f.port.val) else s)) ∧
        (∀ v6 dst, f.body = .echo v6 dst → exec (.ethFrameReceived f) s = .next (if x.owns v6 dst then s.ethSend (.reply f.port.val) else s)) ∧
        (∀ v6 src dst port data, f.body = .udp v6 src dst port data → x.owns v6 dst = true → port.val = s.porch.eth.ctlPort →
          exec (.ethFrameReceived f) s = .next (s.ompDatagram f.port.val src data)) ∧
        (∀ v6 src dst port data, f.body = .udp v6 src dst port data → (x.owns v6 dst = false ∨ port.val ≠ s.porch.eth.ctlPort) →
          exec (.ethFrameReceived f) s = .next (s.dropFrame f.port.val)) ∧
        (f.body = .other → exec (.ethFrameReceived f) s = .next (s.dropFrame f.port.val)))) ∧
    (∀ (f : EthFrame) (s : State), fbit (s.ethPort f.port.val).cfg F.ETH_CFG.ENABLE = false ∨ fbit (s.ethPort f.port.val).stat F.ETH_STAT.LINK = false →
      exec (.ethFrameReceived f) s = .next s) ∧
    (∀ (p : Nat) (s : State), p < 2 → ((s.dropFrame p).ethPort p).drop = (s.ethPort p).drop + 1) ∧
    (∀ s : State, ∃ ds : List Nat, exec .addressProbe s = .next { s with porch := { s.porch with eth := { s.porch.eth with
        sent := s.porch.eth.sent ++ ds.map EthOut.probe } } } ∧
      ∀ d, d ∈ ds ↔ d < 16 ∧ (vget s.porch.eth.dest d {}).set = true ∧ (vget s.porch.eth.dest d {}).resolved = false ∧
        fbit (vget s.porch.eth.port (vget s.porch.eth.dest d {}).port {}).cfg F.ETH_CFG.ENABLE = true ∧
        fbit (vget s.porch.eth.port (vget s.porch.eth.dest d {}).port {}).stat F.ETH_STAT.LINK = true) ∧
    (∀ (p : Fin 2) (link at25 : Bool) (s : State), ∃ x : EthPort, let s1 := s.setEthPort p.val x
      exec (.ethLinkChange p link at25) s = .next (s1.setCondition srcEthLink s1.ethLinkLost p.val) ∧ fbit x.stat F.ETH_STAT.LINK = link ∧
        fbit x.stat F.ETH_STAT.AT_25G = at25 ∧ x.cfg = (s.ethPort p.val).cfg ∧ x.ip4 = (s.ethPort p.val).ip4) ∧
    (∀ (b : Fin 3) (pages : Option (List Byte × List Byte)) (stuck : Bool) (s : State), ∃ u : State,
      exec (.i2cModulePoll b pages stuck) s = .next (u.setCondition srcI2cBus (u.porch.i2c.toList.any (·.stuck)) b.val) ∧
        (vget u.porch.i2c b.val {}).stuck = stuck ∧ (∀ q, pages = some q → b.val < 2 → (vget u.porch.i2c b.val {}).page50 = q.1 ∧ (vget u.porch.i2c b.val {}).page51 = q.2) ∧
        (b.val < 2 → fbit (u.ethPort b.val).stat F.ETH_STAT.MODULE = (pages.isSome && !stuck)) ∧ u.fc = s.fc ∧ u.mb = s.mb))

/-- CELL_LOAD (R205, Table 11.5): an image with the right MAGIC, ISA and CRC, within its sizes, not bound to an enabled pool or zone, is stored; the answer is its
CHECK. -/
def Obligations.ProgramImageIsLoaded : Prop :=
  Answers .cellLoad noLeg (fun cmd t => t.imageOk cmd ∧ imgAt cmd.bulk 28 4 = 0 ∧ (t.imagePlace cmd).isSome = true) (fun cmd _ => [w32 (imgAt cmd.bulk 32 4)])
    (fun cmd t => match t.imagePlace cmd with
      | some (l, a) => (t.withLoft l).storeImage (cmd.p 0) cmd.bulk 0 l a
      | none => t) ∧
  Answers .cellLoad noLeg
    (fun cmd t => t.imageOk cmd ∧ imgAt cmd.bulk 28 4 ≠ 0 ∧ ∃ l a, t.imagePlace cmd = some (l, a) ∧
      (t.withLoft l).pageTotal [] + imgAt cmd.bulk 28 4 ≤ pageArea)
    (fun cmd _ => [w32 (imgAt cmd.bulk 32 4)])
    (fun cmd t => match t.imagePlace cmd with
      | some (l, a) =>
        let w : ZoneWant := { pages := 0, cfg := fset 0 F.ZONE_CFG.PROGRAM (cmd.p 0), span := 0, out := 0, param := zeros (imgAt cmd.bulk 28 4) }
        let q := (t.withLoft l).placePages 256 w
        q.1.storeImage (cmd.p 0) cmd.bulk q.2 q.1.loft a
      | none => t) ∧
  (∀ (i : Nat) (b : List Byte) (tab : Word) (l : Loft) (a : Nat) (s : State), i < 64 → ∃ m : Image,
    vget (s.storeImage i b tab l a).loft.images i none = some m ∧ m.at_ = a ∧ m.codeWords = imgAt b 8 4 ∧ m.initBytes = imgAt b 12 4 ∧
      m.entry = imgAt b 16 4 ∧ m.budget = imgAt b 20 4 ∧ m.check = imgAt b 32 4 ∧ (m.complex = true ↔ imgAt b 6 1 = 1))

/-- Long operations begin (R366), unless the lock that they name is held by another requester (R367). -/
def Obligations.LongOperationsBegin : Prop :=
  (Begins .calibrate (fun cmd t => t.fw.optical = .idle ∧ cmd.p 0 ≤ 63 ∧ t.lockFree (wat cmd.w 0))
      (fun cmd t =>
        let u := t.withLock (wat cmd.w 0)
        (State.startLong cmd (lockOf (wat cmd.w 0)) 0 { u.powerFront with fw := { u.fw with startState := false } }).startSelfCal) ∧
    Begins .fwStage
      (fun cmd t => cmd.p 0 < 2 ∧ cmd.p 2 ≤ 63 ∧ cmd.p 1 + cmd.bulk.length ≤ slotSize ∧ 0 < cmd.bulk.length ∧ cmd.bulk.length ≤ 2 ^ 20 ∧ t.lockFree (wat cmd.w 2))
      (fun cmd t =>
        let u := t.withLock (wat cmd.w 2)
        State.startLong { cmd with w := cmd.w ++ [w32 cmd.bulk.length] } (lockOf (wat cmd.w 2)) 0
          { u with porch := { u.porch with flashWrite := some (slotBase (cmd.p 0) + cmd.p 1, cmd.bulk) } }) ∧
    Begins .bist (fun cmd t => cmd.p 1 ≤ 63 ∧ 20 ≤ cmd.p 0 ∧ t.lockFree (wat cmd.w 1))
      (fun cmd t => ((t.withLock (wat cmd.w 1)).startLong cmd (lockOf (wat cmd.w 1)) 0).startBist (cmd.p 0)) ∧
    Begins .bist (fun cmd t => cmd.p 1 ≤ 63 ∧ cmd.p 0 < 20 ∧ t.lockFree (wat cmd.w 1))
      (fun cmd t => ((t.withLock (wat cmd.w 1)).startLong cmd (lockOf (wat cmd.w 1)) 0).endLong { status := .ok } [0, 0]) ∧
    Begins .train (fun cmd t => cmd.p 0 ≤ 1 ∧ memDescListed t.cellar.memDesc = true) (fun cmd t => (t.startLong cmd none 0).startTraining (cmd.p 0 == 1)) ∧
    Begins .fwActivate (fun cmd t => cmd.p 0 < 2 ∧ t.imageSigned (cmd.p 0) = true ∧ t.larder.rollback ≤ t.imageRollback (cmd.p 0))
      (fun cmd t =>
        let u := (t.startLong cmd none 0).resetStudy
        { u with boot := { u.boot with activate := some (cmd.p 0) }, fw := { u.fw with long := (t.startLong cmd none 0).fw.long } }) ∧
    Begins .shutdown (fun cmd t => cmd.p 0 ≤ 30000 ∧ t.fw.down = none ∧ t.fw.long = none)
      (fun cmd t => t.beginShutdown { code := cmd.code, tag := cmd.tag, carrier := cmd.carrier, udp := cmd.udp, lock := none, words := cmd.w }) ∧
    Begins .shutdown (fun cmd t => cmd.p 0 ≤ 30000 ∧ t.fw.down = none ∧ ∃ op, t.fw.long = some op ∧ op.code = cModeSet)
      (fun cmd t => t.endForShutdown.beginShutdown { code := cmd.code, tag := cmd.tag, carrier := cmd.carrier, udp := cmd.udp, lock := none, words := cmd.w }) ∧
    Begins .shutdown (fun cmd t => cmd.p 0 ≤ 30000 ∧ t.fw.down = none ∧ ∃ op, t.fw.long = some op ∧ op.code ≠ cModeSet)
      (fun cmd t => { t with fw := { t.fw with
        long := t.fw.long.map (fun op => { op with abort := true })
        down := some { code := cmd.code, tag := cmd.tag, carrier := cmd.carrier, udp := cmd.udp, lock := none, words := cmd.w } } })) ∧
  (Refuses .calibrate noLeg (fun cmd t => t.fw.optical = .idle ∧ cmd.p 0 ≤ 63 ∧ ¬ t.lockFree (wat cmd.w 0)) .lockHeld (fun cmd t => t.lockOwner (cmd.p 0 % 32)) ∧
    Refuses .calibrate noLeg (fun _ t => t.fw.optical ≠ .idle) .notRest ∧
    Refuses .bist noLeg (fun cmd t => cmd.p 1 ≤ 63 ∧ ¬ t.lockFree (wat cmd.w 1)) .lockHeld (fun cmd t => t.lockOwner (cmd.p 1 % 32)) ∧
    Refuses .fwStage noLeg
      (fun cmd t => cmd.p 0 < 2 ∧ cmd.p 2 ≤ 63 ∧ cmd.p 1 + cmd.bulk.length ≤ slotSize ∧ 0 < cmd.bulk.length ∧ cmd.bulk.length ≤ 2 ^ 20 ∧ ¬ t.lockFree (wat cmd.w 2))
      .lockHeld (fun cmd t => t.lockOwner (cmd.p 2 % 32)) ∧
    Refuses .memMap noLeg
      (fun cmd t => cmd.p 0 ≠ 0 ∧ cmd.p 1 ≠ 0 ∧ cmd.p 2 ≠ 0 ∧ 128 + cmd.p 0 + cmd.p 1 + cmd.p 2 ≤ t.cellar.capacity / 2 ^ 24 ∧ cmd.p 3 ≤ 63 ∧ ¬ t.lockFree (wat cmd.w 3))
      .lockHeld (fun cmd t => t.lockOwner (cmd.p 3 % 32)))

/-- MODE_SET (R31, R33 to R41, R410): it starts a plan, changes the running one, goes to REST, or is refused with the first condition that fails. -/
def Obligations.ModeSetAnswers : Prop :=
  (Begins .modeSet
      (fun cmd t => ∃ p, t.planTaken cmd p ∧ p.mode ≠ 0 ∧ t.probe.running = false ∧ t.fw.optical = .idle ∧ t.fw.startState = false)
      (fun cmd t => match cmd.plan with
        | none => t
        | some p =>
          let u := (State.startLong cmd none (if p.mode = modeSurvey then 1 else 0) { t with
            probe := { t.probe with shadow := p.bank, pending := some (t.pendingPlan p none) }, fw := { t.fw with startState := false } }).powerFront
          ({ u with
            power := { u.power with loft := true, hearth := true }
            hearth := { u.hearth with tecOn := true }
            fw := { u.fw with flags := u.hearth.ilockLow.toNat, opticalUp := u.time.up, optical := .selfCal } }).startSelfCal.summarise) ∧
    Begins .modeSet
      (fun cmd t => ∃ p, t.planTaken cmd p ∧ p.mode ≠ 0 ∧ t.probe.running = false ∧ t.fw.optical = .idle ∧ t.fw.startState = true)
      (fun cmd t => match cmd.plan with
        | none => t
        | some p =>
          let u := (State.startLong cmd none (if p.mode = modeSurvey then 1 else 0) { t with
            probe := { t.probe with shadow := p.bank, pending := some (t.pendingPlan p none) }, fw := { t.fw with startState := false } }).powerFront
          ({ u with
            power := { u.power with loft := true, hearth := true }
            hearth := { u.hearth with tecOn := true }
            fw := { u.fw with flags := u.hearth.ilockLow.toNat, opticalUp := u.time.up, optical := .tecWait } }).afterTec.summarise) ∧
    Begins .modeSet
      (fun cmd t => ∃ p, t.planTaken cmd p ∧ p.mode ≠ 0 ∧ t.probe.running = false ∧ t.fw.optical = .fadeOut)
      (fun cmd t => match cmd.plan with
        | none => t
        | some p => (State.startLong cmd none (if p.mode = modeSurvey then 1 else 0) { t with
            probe := { t.probe with shadow := p.bank, pending := some (t.pendingPlan p none) }, fw := { t.fw with startState := false } }).summarise) ∧
    Answers .modeSet noLeg
      (fun cmd t => ∃ p f, t.planTaken cmd p ∧ p.mode ≠ 0 ∧ p.mode ≠ modeSurvey ∧ t.probe.running = true ∧ t.placeAt cmd anyTrace = .ok f ∧ t.samePlan p = false)
      (fun cmd t => match cmd.plan with
        | some p => t.modeItems p.bank (some (t.modeFrame cmd)) (t.nextE (t.modeFrame cmd)) t.hearth.ilockLow.toNat
        | none => [])
      (fun cmd t => match cmd.plan with
        | some p => State.summarise { t with probe := { t.probe with shadow := p.bank, pending := some (t.pendingPlan p (some (t.modeFrame cmd))) } }
        | none => t) ∧
    Answers .modeSet noLeg
      (fun cmd t => ∃ p f, t.planTaken cmd p ∧ p.mode ≠ 0 ∧ p.mode ≠ modeSurvey ∧ t.probe.running = true ∧ t.placeAt cmd anyTrace = .ok f ∧ t.samePlan p = true)
      (fun cmd t => t.modeItems t.probe.active (some (t.modeFrame cmd)) t.probe.active.e t.hearth.ilockLow.toNat)
      (fun cmd t => match cmd.plan with
        | some p => { t with probe := { t.probe with ngs := (insertNg (t.modeAt cmd, p.ng) t.probe.ngs).take 16 } }
        | none => t)) ∧
  (Answers .modeSet noLeg
      (fun cmd t => planMode (wat cmd.w 0) = 0 ∧ t.probe.running = false ∧ t.fw.optical ≠ .surveyDone ∧ t.fw.startState = false) (fun _ _ => restItems (2 ^ 64 - 1))
      (fun _ t => t) ∧
    Answers .modeSet noLeg
      (fun cmd t => planMode (wat cmd.w 0) = 0 ∧ t.probe.running = false ∧ t.fw.optical ≠ .surveyDone ∧ t.fw.startState = true) (fun _ _ => restItems (2 ^ 64 - 1))
      (fun _ t => { t with fw := { t.fw with startState := false, optical := .fadeOut, opticalUp := t.time.up } }) ∧
    Answers .modeSet noLeg
      (fun cmd t => planMode (wat cmd.w 0) = 0 ∧ t.probe.running = true ∧ t.probe.pending = none ∧ t.atOff cmd = false ∧ ∃ f, t.placeAt cmd anyTrace = .ok f)
      (fun cmd t => restItems (t.traceAhead t.probe.active.leader (t.modeAt cmd)))
      (fun cmd t => (State.stopAt (t.modeFrame cmd) { t with hearth := t.hearth.fadeAll true }).summarise)) ∧
  (∀ (c : Fin 9) (sp : Spec) (s t : State) (r : Request) (b : List Byte) (p : PlanWords), requestRow s (.modeSet c) = some (c, sp) →
      s.reach sp c.val = some (r, b, t) → decodePlan (r.cmd sp c.val b).w b = .ok p →
      (∀ e, p.failed = some e → exec (.modeSet c) s = .next (t.refuse c.val r { status := .planInfeasible, detail := e.1, index := e.2 })) ∧
      (p.failed = none → t.atOff (r.cmd sp c.val b) = false → t.probe.running = true → t.probe.pending.isSome = true →
        exec (.modeSet c) s = .next (t.refuse c.val r { status := .modePending })) ∧
      (p.failed = none → t.atOff (r.cmd sp c.val b) = false → t.changeWaits = false → p.mode ≠ 0 →
        ∀ e, t.planRefused p.surveyed.bank (t.planFrame (r.cmd sp c.val b)) = some e → e.index = 0xFF → exec (.modeSet c) s = .next (t.refuse c.val r e)))

/-- Parameters out of range are refused with PARAM (step 8 of R361, R362). -/
def Obligations.ParametersOutOfRangeAreRefused : Prop :=
  Refuses .zoneRead noLeg (fun cmd _ => 256 ≤ cmd.p 0) .param ∧
  Refuses .recordList noLeg (fun cmd _ => cmd.p 2 = 0 ∨ 64 < cmd.p 2) .param ∧
  Refuses .surveyRead legFirst (fun cmd _ => 2 ≤ cmd.p 0 ∨ 4 ≤ cmd.p 1) .param ∧
  Refuses .tachStatus noLeg (fun cmd _ => 8 ≤ cmd.p 0) .param ∧
  Refuses .faultRead noLeg (fun cmd _ => 127 < cmd.p 0 ∨ cmd.p 1 = 0 ∨ 32 < cmd.p 1 ∨ 128 < cmd.p 0 + cmd.p 1) .param ∧
  Refuses .logRead noLeg (fun cmd _ => cmd.p 1 = 0 ∨ 64 < cmd.p 1) .param ∧
  Refuses .planSuggest noLeg (fun cmd _ => cmd.p 2 < 14400 ∨ 14900 < cmd.p 2) .param ∧
  Refuses .tableLoad legFirst (fun cmd _ => 2 ≤ cmd.p 0 ∨ 8 ≤ cmd.p 1 ∨ cmd.p 2 = 0 ∨ 8192 < cmd.p 2) .param ∧
  Refuses .gainSet legFirst (fun cmd _ => 2 ≤ cmd.p 0 ∨ badImage F.LEG_CFG.kind (wat cmd.w 1) = true ∨ 8 ≤ cmd.p 2 % 2 ^ 31 ∨
    fget (wat cmd.w 1) F.LEG_CFG.GAIN_MAX < fget (wat cmd.w 1) F.LEG_CFG.GAIN_MIN) .param ∧
  Refuses .chainReset noLeg (fun cmd _ => cmd.p 0 = 0 ∨ 3 < cmd.p 0) .param ∧
  Refuses .mapSet legFirst (fun cmd _ => 2 ≤ cmd.p 0 ∨ 128 < fget (wat cmd.w 1) F.MAP_CFG.EDGE8 ∨ rising (mapEdges cmd.w) = false) .param ∧
  Refuses .poolSet noLeg (fun cmd _ => 8 ≤ cmd.p 0 ∨ badImage F.POOL_CFG.kind (wat cmd.w 1) = true ∨ 2 < (poolOfWords cmd.w).work) .param ∧
  Refuses .zoneParam noLeg (fun cmd _ => 256 ≤ cmd.p 0) .param ∧
  Refuses .zoneEnable noLeg (fun cmd _ => 255 < cmd.p 0 ∨ 255 < cmd.p 1 ∨ cmd.p 1 < cmd.p 0 ∨ 1 < cmd.p 2) .param ∧
  Refuses .arm noLeg (fun cmd _ => 2 ^ 16 ≤ cmd.p 0) .param ∧
  Refuses .disarm noLeg (fun cmd _ => 2 ^ 16 ≤ cmd.p 0) .param ∧
  Refuses .fire noLeg (fun cmd _ => 16 ≤ cmd.p 0) .param ∧
  Refuses .streamSet noLeg (fun cmd t => t.streamRangeBad cmd.w = true) .param ∧
  Refuses .streamStart noLeg (fun cmd t => 7 < cmd.p 0 ∨ (t.stream (cmd.p 0)).running = true ∨ t.startWaits (cmd.p 0) = true) .param ∧
  Refuses .streamStop noLeg (fun cmd _ => 7 < cmd.p 0) .param ∧
  Refuses .calibrate noLeg (fun cmd t => t.fw.optical = .idle ∧ 63 < cmd.p 0) .param ∧
  Refuses .retrimDefer noLeg (fun cmd _ => 600 < cmd.p 0) .param ∧
  Refuses .trimSet noLeg (fun cmd _ => fget (wat cmd.w 0) F.TRIM_CFG.TH < 8 ∨ 128 < fget (wat cmd.w 0) F.TRIM_CFG.TH) .param ∧
  Refuses .timeCfg noLeg (fun cmd _ => timeCfgBad cmd = true) .param ∧
  Refuses .tachCfg noLeg (fun cmd _ => 8 ≤ cmd.p 0 ∨ fget (wat cmd.w 1) F.TACH_CFG.EDGE = 3 ∨ cmd.p 2 = 0 ∨ 65535 < cmd.p 2) .param ∧
  Refuses .faultCfg noLeg (fun cmd _ => 127 < cmd.p 0 ∨ sourceListed (cmd.p 0) = false ∨ cmd.p 0 = srcCollectorCfg ∨ 3 < cmd.p 1 ∨ 63 < cmd.p 2 ∨ cmd.p 3 = 0 ∨
    15 < cmd.p 3) .param ∧
  Refuses .netSet noLeg (fun cmd _ => 4 < cmd.p 0) .param ∧
  Refuses .replayStart legFirst (fun cmd _ => 2 ≤ cmd.p 0) .param ∧
  Refuses .replayStop legFirst (fun cmd t => 2 ≤ cmd.p 0 ∨ t.replayLatest (cmd.p 0) = false) .param ∧
  Refuses .fwActivate noLeg (fun cmd _ => 2 ≤ cmd.p 0) .param ∧
  Refuses .bist noLeg (fun cmd _ => 63 < cmd.p 1) .param ∧
  Refuses .train noLeg (fun cmd _ => 1 < cmd.p 0) .param ∧
  Refuses .shutdown noLeg (fun cmd _ => 30000 < cmd.p 0) .param

/-- The errors of Table 20.3: each command is refused with the error that its row lists (R368). -/
def Obligations.CommandsRefuseWithTheirErrors : Prop :=
  Refuses .surveyRead legFirst (fun cmd t => cmd.p 0 < 2 ∧ cmd.p 1 < 4 ∧ t.surveyItem (cmd.p 0) (cmd.p 1) = none) .noSurvey ∧
  Refuses .tableLoad legFirst
    (fun cmd _ => cmd.p 0 < 2 ∧ cmd.p 1 < 8 ∧ 1 ≤ cmd.p 2 ∧ cmd.p 2 ≤ 8192 ∧ cmd.bulk.length = 4 * cmd.p 2 ∧
      (tableLane cmd.bulk 0 (cmd.p 2) ++ tableLane cmd.bulk (2 * cmd.p 2) (cmd.p 2)).all tableEntryOk = false) .tableFormat ∧
  Refuses .cellLoad noLeg (fun cmd _ => 16 ≤ cmd.p 0 ∧ cmd.p 0 ≤ 63 ∧ imageWrong cmd.bulk = true) .cellImage ∧
  Refuses .cellLoad noLeg (fun cmd _ => 16 ≤ cmd.p 0 ∧ cmd.p 0 ≤ 63 ∧ imageWrong cmd.bulk = false ∧ imageTooBig cmd.bulk = true) .cellSize ∧
  Refuses .cellLoad noLeg
    (fun cmd t => 16 ≤ cmd.p 0 ∧ cmd.p 0 ≤ 63 ∧ imageWrong cmd.bulk = false ∧ imageTooBig cmd.bulk = false ∧ imageOdd cmd.bulk = false ∧
      t.imageBound (cmd.p 0) = true) .imageInUse ∧
  Refuses .poolSet noLeg
    (fun cmd t => cmd.p 0 < 8 ∧ badImage F.POOL_CFG.kind (wat cmd.w 1) = false ∧ (poolOfWords cmd.w).work ≤ 2 ∧
      ((poolOfWords cmd.w).mixed = true ∨ cellTwice (vset t.poolsLatest (cmd.p 0) (poolOfWords cmd.w)).toList = true ∨
        t.poolMissing (vset t.poolsLatest (cmd.p 0) (poolOfWords cmd.w)).toList = true)) .loftPool ∧
  Refuses .zoneParam noLeg (fun cmd t => cmd.p 0 < 256 ∧ t.zoneLatest (cmd.p 0) = none) .zoneParam ∧
  Refuses .trigSet noLeg
    (fun cmd _ => cmd.bulk.length = 512 ∧ trigRangeBad cmd = false ∧ fbit (TrigConfig.ofWords (cmd.w.drop 1) cmd.bulk).cfg F.TRIG_CFG.SRC_PAT = true ∧
      (TrigConfig.ofWords (cmd.w.drop 1) cmd.bulk).care.all (· == 0) = true) .trigPattern ∧
  Refuses .arm noLeg (fun cmd t => cmd.p 0 < 2 ^ 16 ∧ t.notMaster (cmd.p 0) = true) .notMaster ∧
  Refuses .disarm noLeg (fun cmd t => cmd.p 0 < 2 ^ 16 ∧ t.notMaster (cmd.p 0) = true) .notMaster ∧
  Refuses .fire noLeg (fun cmd t => cmd.p 0 < 16 ∧ t.inRest = false ∧ (t.unit (cmd.p 0)).state = .idle) .notArmed ∧
  Refuses .streamSet noLeg
    (fun cmd t => t.streamRangeBad cmd.w = false ∧ t.streamSelBad (cmd.p 0) ((t.stream (cmd.p 0)).define (cmd.w.drop 1)) t.bankNow = true) .streamSel ∧
  Refuses .streamStop noLeg (fun cmd t => cmd.p 0 ≤ 7 ∧ (t.stream (cmd.p 0)).running = true ∧ (t.stream (cmd.p 0)).ending.isSome = true) .streamStopping ∧
  Refuses .timeSet noLeg (fun _ t => t.planRuns = true) .timeRunning ∧
  Refuses .replayStart legFirst (fun cmd t => cmd.p 0 < 2 ∧ t.replayLatest (cmd.p 0) = true) .busy ∧
  Refuses .fwActivate noLeg (fun cmd t => cmd.p 0 < 2 ∧ t.imageSigned (cmd.p 0) = false) .imageSignature ∧
  Refuses .fwActivate noLeg
    (fun cmd t => cmd.p 0 < 2 ∧ t.imageSigned (cmd.p 0) = true ∧ t.imageRollback (cmd.p 0) < t.larder.rollback) .rollback ∧
  Refuses .train noLeg (fun cmd t => cmd.p 0 ≤ 1 ∧ memDescListed t.cellar.memDesc = false) .memFault ∧
  Refuses .secKey noLeg (fun cmd _ => cmd.carrier ≠ 6) .secureRequired

/-! ### Firmware's visits (R347, R348, R353, R362, R363, R366) -/

/-- Firmware's visits (R347, R348, R360, R363, R371): whole messages are taken from the channels in turn, and what is ready leaves in its order. -/
def Obligations.MessagesPassThroughFirmware : Prop :=
  ((∀ s : State, s.fwReady = true → s.mbAvailable = true →
      exec .firmwareTakeInbound s = .next ((List.range 8).foldl State.visit (([9, 10, 11, 12, 13, 14, 15] : List Nat).foldl (fun t b => t.takeH2d b) s))) ∧
    (∀ s : State, s.fwReady = false ∨ s.mbAvailable = false → exec .firmwareTakeInbound s = .next s) ∧
    (∀ (c : Nat) (s : State), c < 8 → (s.chan c).inFull = true → (vget s.fw.inbox c []).length < 64 →
      ((s.visit c).chan c).inq = [] ∧ nbit (s.visit c).mb.dbH2d.toNat c = false ∧
      (∀ d, d ≠ c → (s.visit c).chan d = s.chan d ∧ vget (s.visit c).fw.inbox d [] = vget s.fw.inbox d []) ∧
      (headerErr (s.chan c).inq = none → (∀ r ∈ vget s.fw.inbox c [], headerErr r.msg = none) →
        vget (s.visit c).fw.inbox c [] = vget s.fw.inbox c [] ++ [{ msg := (s.chan c).inq }])) ∧
    (∀ (c : Nat) (s : State), (s.chan c).inFull = false ∨ 64 ≤ (vget s.fw.inbox c []).length → s.visit c = s)) ∧
  ((∀ s : State, s.fwReady = true → s.mbAvailable = true →
      exec .firmwareOutboundComplete s = .next ((List.range 16).foldl State.completeUdp ((List.range 8).foldl State.complete s))) ∧
    (∀ s : State, s.fwReady = true → s.mbAvailable = false → exec .firmwareOutboundComplete s = .next ((List.range 16).foldl State.completeUdp s)) ∧
    (∀ s : State, s.fwReady = false → exec .firmwareOutboundComplete s = .next s) ∧
    (∀ (c : Nat) (s : State), (s.chan c).outFull = true → s.complete c = s) ∧
    (∀ (c : Nat) (s t : State) (m : Msg), c < 8 → (s.chan c).outFull = false → s.nextOut c = some (m, t) →
      ((s.complete c).chan c).outq = m ∧ fget ((s.complete c).chan c).count F.MB_COUNT.OUT_MSGS = fget (finc (t.chan c).count F.MB_COUNT.OUT_MSGS) F.MB_COUNT.OUT_MSGS ∧
        nbit (s.complete c).mb.dbD2h.toNat c = true)) ∧
  (∀ (c : Nat) (s : State), c < 8 →
      (∀ (m : Msg) (n : Nat) (rest : List OutMsg), vget s.fw.out c [] = ⟨n, m⟩ :: rest →
        (∀ q o series t, eventQueueOf c = some q → s.takeEvent q = some (o, series, t) → n ≤ o) →
        s.nextOut c = some (m, { s with fw := { s.fw with out := vset s.fw.out c rest } })) ∧
      (∀ q o m more t, eventQueueOf c = some q → s.takeEvent q = some (o, m :: more, t) → vget s.fw.out c [] = [] →
        s.nextOut c = some (m, { t with fw := { t.fw with out := vmod t.fw.out c (fun l => more.map (fun x => ⟨o, x⟩) ++ l) } })))

/-- Long work ends (R297, R362, R366, R414 to R417): a bulk buffer that does not come, an operation told to end, training, self-test slices, the drain of a shutdown, a
page of the flash. -/
def Obligations.LongWorkEnds : Prop :=
  ((∀ (c : Fin 9) (s : State) (r : Request) (rest : List Request) (u : Nat), vget s.fw.inbox c.val [] = r :: rest → r.waitUp = some u →
      exec (.bulkTimeout c) s = .next ((s.untilUp (u + sec)).refuse c.val r { status := .bulk })) ∧
    (∀ (s : State) (op : LongOp), s.fwReady = true → nbit s.mb.dbH2d.toNat 8 = true → s.fw.long = some op → abortable.contains op.code = true →
      exec .longOperationAbort s = .next { s.takeH2d 8 with fw := { s.fw with long := some { op with abort := true } } }) ∧
    (∀ s : State, s.fwReady = true → nbit s.mb.dbH2d.toNat 8 = true → (∀ op, s.fw.long = some op → abortable.contains op.code = false) →
      exec .longOperationAbort s = .next (s.takeH2d 8)) ∧
    (∀ s : State, nbit s.mb.dbH2d.toNat 8 = false → exec .longOperationAbort s = .next s)) ∧
  ((∀ (phy : Vector Phy 4) (fail : Option (Fin 2 × Fin 2 × Fin 72)) (u : Nat) (full : Bool) (s : State), s.boot.training = some (u, full) → s.trainAborts = false →
      let s1 := s.untilUp (u + (if full then 450 else 25) * ms)
      (∀ d, full = false → fail = none → s.larder.dramTrain = some d → exec (.trainingDone phy fail) s = .next ((s1.trained d.phy true).answerTrain { status := .ok } [])) ∧
      (full = false → (fail ≠ none ∨ s.larder.dramTrain = none) → exec (.trainingDone phy fail) s =
        .next { s1 with boot := { s1.boot with training := some (s1.time.up, true) } }) ∧
      (full = true → fail = none → ∃ v : State, exec (.trainingDone phy fail) s = .next ((v.trained phy false).answerTrain { status := .ok } []) ∧
        v.larder.dramTrain = some { memDesc := s.cellar.memDesc, phy }) ∧
      (∀ f, full = true → fail = some f → exec (.trainingDone phy fail) s =
        .next ((({ s1 with boot := { s1.boot with training := none } }).report srcDramTrain (trainDetail f)).answerTrain { status := .memFault }
          [w32 f.1.val, w32 f.2.1.val, w32 f.2.2.val]))) ∧
    (∀ (phy : Vector Phy 4) (b : Bool) (s : State), fbit (s.trained phy b).cellar.cfg F.CELLAR_CFG.ENABLE = true ∧ fbit (s.trained phy b).cellar.stat F.CELLAR_STAT.TRAINED = true ∧
      fbit (s.trained phy b).cellar.stat F.CELLAR_STAT.FROM_STORE = b ∧ (s.trained phy b).cellar.mem = s.cellar.mem ∧ (s.trained phy b).boot.training = none) ∧
    (∀ (op : LongOp) (fails : List FailingBit) (s : State), s.fw.long = some op → s.boot.bist.running = true → op.code ≠ 0x098 →
      let s1 := (s.pass (20 * ms)).slice fails
      let b := s1.boot.bist
      let s2 := s1.progress op.code 1 0 (10000 * b.usedMs / max 1 b.budgetMs)
      (b.usedMs + 20 ≤ b.budgetMs → op.abort = false → exec (.bistSliceDone fails) s = .next s2) ∧
      ((b.budgetMs < b.usedMs + 20 ∨ op.abort = true) → exec (.bistSliceDone fails) s =
        .next (s2.endBist.afterBist.endLong { status := if op.abort then .aborted else .ok } s2.endBist.boot.bist.items))) ∧
    (∀ (fails : List FailingBit) (s : State), (s.slice fails).boot.bist.usedMs = s.boot.bist.usedMs + 20 ∧ (s.slice fails).larder.cursor = (s.larder.cursor + 1) % 96) ∧
    (∀ (op : LongOp) (s : State), s.fw.long = some op → op.code = 0x098 → s.fw.optical = .draining →
      exec .shutdownDrainDone s = .next ((if !s.trig.fired.isEmpty || s.streams.str.toList.any (fun t => fbit t.stat F.STR_STAT.RUNNING)
        then s.untilUp (s.fw.opticalUp + 5 * sec) else s).drained op)) ∧
    (∀ s : State, s.fw.optical ≠ .draining → exec .shutdownDrainDone s = .next s) ∧
    (∀ (a : Nat) (bs : List Byte) (op : LongOp) (s : State), s.porch.flashWrite = some (a, bs) → s.fw.long = some op → op.code = 0x088 → op.abort = false →
      let page := bs.take (pageRoom a)
      let rest := bs.drop (pageRoom a)
      let s1 := { s with porch := { s.porch with
        flash := Mem.writeN 0xFF s.porch.flash a page, flashWrite := if rest.isEmpty then none else some (a + page.length, rest) } }
      (rest = [] → exec .flashWriteDone s = .next (s1.chunkStaged op)) ∧
      (rest ≠ [] → exec .flashWriteDone s =
        .next (s1.progress 0x088 1 0 (10000 * ((wat op.words 3).toNat - rest.length) / max 1 (wat op.words 3).toNat)))) ∧
    (∀ s : State, s.porch.flashWrite = none → exec .flashWriteDone s = .next s))

/-! ### Plans and traces -/

/-- Launches and the windows of a survey (R37, R38, R43, R60). -/
def Obligations.LaunchesAndSurveyWindows : Prop :=
  ((∀ (leg : Fin 2) (slot : Fin 8) (late gateOpen gateShort : Bool) (s : State) (k j : Nat), s.upcoming leg.val = some (k, j, slot.val) →
      s.power.front = true → s.launchTurn leg.val k j = true →
      let s0 := if j = 0 then s.replaySwitch leg.val (s.globalFrame k) else s
      s0.replaying leg.val = false →
      let t := s0.launchTime leg.val k j
      let n := s0.indexOfTime t
      let s1 := (s0.untilTime t).setpointsDue
      let s2 := if j = 0 then s1.frameChanges leg.val k n else s1
      let s3 := (s2.playout leg.val k j slot.val (s0.stampOf n) late).numberTrace leg.val k j slot.val n (s0.stampOf n) (s2.frameTime k % 2 ^ 64) late false
        (s2.tach.map (fun th => th.snapshot (s0.stampOf n)))
      exec (.launch leg slot late gateOpen gateShort) s =
        .next (if late then s3.report srcLaunchLate leg.val else s3.judgeGate leg.val gateOpen gateShort).stopIfReached) ∧
    (∀ (leg : Fin 2) (slot : Fin 8) (k j n stamp boundary : Nat) (late replay : Bool) (tach : Vector Nat 8) (s : State),
      let t := s.numberTrace leg.val k j slot.val n stamp boundary late replay tach
      vget (vget t.probe.trace leg.val (Vector.replicate 8 0)) slot.val 0 = vget (vget s.probe.trace leg.val (Vector.replicate 8 0)) slot.val 0 + 1 ∧
      (j + 1 < (s.legBank leg.val).count → vget t.probe.frame leg.val 0 = k ∧ vget t.probe.next leg.val 0 = j + 1) ∧
      ((s.legBank leg.val).count ≤ j + 1 → vget t.probe.frame leg.val 0 = k + 1 ∧ vget t.probe.next leg.val 0 = 0) ∧
      vget t.probe.trace (1 - leg.val) (Vector.replicate 8 0) = vget s.probe.trace (1 - leg.val) (Vector.replicate 8 0) ∧
      t.thr = s.thr ∧ t.cellar = s.cellar ∧ t.loft = s.loft ∧ t.trig = s.trig ∧ t.fw = s.fw ∧ t.hearth = s.hearth)) ∧
  ((∀ (leg : Fin 2) (loss : List Nat) (ends : Bool) (length : Nat) (places strengths : List Nat) (s : State), s.fw.mode = modeSurvey → s.legOn leg.val = true →
      (vget s.fw.survey leg.val {}).complete = false → surveyTraces ≤ (vget s.fw.survey leg.val {}).traces →
      let v := (vget s.fw.survey leg.val {}).window loss (if ends then some length else none) (places.zip strengths)
        (s.refEnergy leg.val (s.legBank leg.val).lowest)
      let s1 := State.storeSurvey leg.val { s with fw := { s.fw with
        survey := vset s.fw.survey leg.val v, surveyDone := if v.complete then vset s.fw.surveyDone leg.val v else s.fw.surveyDone } }
      let s2 := if v.complete then s1 else s1.surveyGain leg.val 7 (s1.indexOfTime s1.now)
      let s3 := s2.progress cModeSet 1 1 (metres (1024 * s2.surveyDone) (s2.probe.ngAt s2.probe.frameBase))
      exec (.surveyWindowDone leg loss ends length places strengths) s = .next (if s3.surveyDone = surveyWindows then s3.endSurvey else s3)) ∧
    (∀ (v : SurveyLeg) (pts : List HallPoint), v.complete = false → v.traces < surveyTraces →
      let own := (pts.drop (1024 * v.windows)).take 1024
      (∀ p ∈ own, nbit p.marks reGainStep = false) →
      ((∃ p ∈ own, nbit p.marks reOverload = true) → 0 < v.gain → (v.take v.gain pts).gain = v.gain - 1 ∧ (v.take v.gain pts).traces = 0) ∧
      ((∀ p ∈ own, nbit p.marks reOverload = false) → (v.take v.gain pts).gain = v.gain ∧ (v.take v.gain pts).traces = v.traces + 1)))

/-- The rows at which plans begin and end, and what is in force from then on (R33 to R36, R40 to R42, R60 to R62, R394, R410). -/
def Obligations.PlansBeginAndEnd : Prop :=
  ((∀ (s : State) (q : PendingPlan) (k : Nat), s.probe.pending = some q → q.atFrame = some k → s.probe.running = true → q.mode ≠ 0 → s.legsReached k = true →
      exec .quietIntervalEnd s = .next ((s.untilTime (s.nextE k)).planBegins q (s.nextE k) false false)) ∧
    (∀ (s : State) (q : PendingPlan), s.probe.pending = some q → s.fw.optical = .fadeIn → s.hearth.fading = false → s.safe = false → q.mode ≠ modeSurvey →
      exec .probeStart s = .next (((s.untilTime (s.startE s.now)).planBegins q (s.startE s.now) true true).finishLong { status := .ok }
        (s.modeItems q.bank none (s.startE s.now) s.fw.flags))) ∧
    (∀ (s : State) (q : PendingPlan), s.probe.pending = some q → s.fw.optical = .fadeIn → s.hearth.fading = false → s.safe = false → q.mode = modeSurvey →
      exec .probeStart s = .next (((s.untilTime (s.startE s.now)).planBegins q (s.startE s.now) true true).keepItems
        (s.modeItems q.bank none (s.startE s.now) s.fw.flags))) ∧
    (∀ (s : State) (q : PendingPlan), s.fw.journal = some q → s.boot.restartPlan = true → s.boot.phase = .ready → s.safe = false → s.power.front = true →
      let e := s.startE (s.now + 8 * q.bank.tUnits)
      exec .journalledPlanRestart s = .next ((State.untilTime e { s with
        boot := { s.boot with restartPlan := false }
        fw := { s.fw with stamped := s.fw.stamped ++ s.fw.journalStamped, journalStamped := [] } }).planBegins q e false true)) ∧
    (∀ s : State, s.fw.optical = .tecWait →
      let u := s.untilUp (s.fw.opticalUp + 45 * sec)
      exec .tecSettleTimeout s = .next (State.beginFadeIn { u with fw := { u.fw with flags := u.fw.flags ||| 2 } })) ∧
    (∀ s : State, s.fw.optical = .fadeOut → s.restWaits = false → s.shuttingDown = false → s.runsCalibrate = false →
      (s.probe.pending = none → exec .restPowerDown s = .next { s.loseRooms with fw := { s.loseRooms.fw with optical := .idle } }) ∧
      (s.probe.pending.isSome = true → exec .restPowerDown s = .next (s.loseRooms.startRooms false))) ∧
    (∀ s : State, (s.hearth.fading = true ∨ s.probe.running = true ∨ s.trig.fired ≠ [] ∨ ∃ t ∈ s.streams.str.toList, s.streamBusy t = true) →
      exec .restPowerDown s = .next s) ∧
    (∀ s : State, s.loseRooms.power.front = false ∧ s.loseRooms.power.loft = false ∧ s.loseRooms.power.hearth = false ∧ s.loseRooms.power.cellar = s.power.cellar ∧
      s.loseRooms.hearth.tecOn = false ∧ s.loseRooms.cellar.mem = s.cellar.mem ∧ s.loseRooms.cellar.full.rows = s.cellar.full.rows ∧
      s.loseRooms.cellar.dec.rows = s.cellar.dec.rows ∧ s.loseRooms.larder = s.larder ∧ s.loseRooms.mb = s.mb)) ∧
  (∀ (q : PendingPlan) (p : Probe) (e base : Nat) (fresh : Bool) (mode : Nat), let u := p.begin_ q e base fresh mode
      u.active = { q.bank with e } ∧ u.shadow = p.active ∧ u.running = true ∧
        u.pending = none ∧ u.trace = p.trace ∧ u.frameBase = base ∧
        (∀ leg, leg < 2 → vget u.frame leg 0 = 0 ∧ vget u.next leg 0 = 0) ∧
        (∀ leg slot, leg < 2 → slot < 8 → (q.bank.legBank leg).isTable slot = true →
          vget (vget u.inUse leg (Vector.replicate 8 {})) slot {} = vget (vget q.tables leg (Vector.replicate 8 {})) slot {}))

/-- STAMPED_CHANGE_APPLY (R8, R17, R22): a change whose frame the next word of its isle has reached is switched in, and nothing happens before. -/
def Obligations.StampedChangesApply : Prop :=
  (∀ (k : Nat) (s : State) (p : Stamped) (f : Nat), s.fw.stamped[k]? = some p → p.frame = some f → s.isleFrame p < f →
    exec (.stampedChangeApply k) s = .next s) ∧
  (∀ (k : Nat) (s : State) (p : Stamped) (f : Nat), s.fw.stamped[k]? = some p → p.frame = some f → s.probe.running = true → f ≤ s.isleFrame p →
    (p.code ∈ [cZoneSet, cZoneParam, cZoneEnable] → exec (.stampedChangeApply k) s = .next (s.distribute f)) ∧
    (p.code ∈ [cTrigSet, cArm, cDisarm, cFire] → exec (.stampedChangeApply k) s = .next (s.distributeTrig f)) ∧
    (p.code = cStreamStart → exec (.stampedChangeApply k) s = .next s.streamStarts) ∧
    (p.code = cFrontSet → (s.legBank p.item).on = true → exec (.stampedChangeApply k) s = .next ((s.takeChange p).applyFront p)) ∧
    (p.code = cChainSet → ∀ x rest, (s.chain p.item).input = x :: rest → exec (.stampedChangeApply k) s = .next (s.prepareChain p.item x)) ∧
    (p.code = cChainReset → ∀ x rest, (s.chain p.leg).input = x :: rest → exec (.stampedChangeApply k) s = .next (s.prepareChain p.leg x)) ∧
    (p.code ∈ [cGainSet, cMapSet, cTempSet, cTempCal, cReplayStart, cReplayStop] → (s.legBank p.item).on = false →
      exec (.stampedChangeApply k) s = .next (s.applyIdle p)))

/-- Traces are demodulated once their words are there, filtered by the chain, and taken up by the temperature channel (R138, R154, R162, R173, R186). -/
def Obligations.TracesAreProcessed : Prop :=
  ((∀ (leg : Fin 2) (s : State) (l : Launch) (r : WordRun), s.nextLaunch leg.val = some l → s.power.front = true → (s.hall leg.val).run l = some r →
      exec (.traceProcess leg) s = .next (s.processTrace l r)) ∧
    (∀ (leg : Fin 2) (s : State) (l : Launch), s.nextLaunch leg.val = some l → (s.hall leg.val).run l = none → exec (.traceProcess leg) s = .next s) ∧
    (∀ (s : State) (l : Launch) (r : WordRun), l.survey = false →
      let s0 := (s.dropLaunch l).applyDue (pickLeg cFrontSet l.leg) l.frame State.applyFront
      let own := l.bank.waveform l.slot l.table
      let h := (s0.hall l.leg).before l (l.bank.place l.slot) (fun sl => if sl = l.slot then own else s0.waveform l.leg sl)
      let q := h.1.trace l (l.bank.place l.slot) h.2 r own.toArray
      (s.processTrace l r).halls.out0 = s0.halls.out0 ++ [q.2.1] ∧ (l.leg < 2 → ((s.processTrace l r).chain l.leg).input = q.1.chain.input ++ [q.2.2]))) ∧
  ((∀ (leg : Fin 2) (s : State) (x : Merged) (rest : List Merged), (s.chain leg.val).input = x :: rest → x.place = 0 →
      exec (.synchronisingReset leg) s = .next (s.prepareChain leg.val x)) ∧
    (∀ (leg : Fin 2) (s : State) (x : Merged) (rest : List Merged), (s.chain leg.val).input = x :: rest → x.place ≠ 0 →
      exec (.synchronisingReset leg) s = .next s) ∧
    (∀ (leg : Fin 2) (s : State) (x : Merged) (rest : List Merged), (s.chain leg.val).input = x :: rest → s.power.front = true →
      s.chainTurn leg.val x = true → exec (.chainTrace leg) s = .next (s.chainTrace leg.val x)) ∧
    (∀ (leg : Fin 2) (s : State) (x : RamanRun), (s.raman leg.val).starting = some x →
      let u := s.finishSpans leg.val x.frame 4
      let r := (u.raman leg.val).restart x
      exec (.ramanChannelStart leg) s = .next (u.setRaman leg.val { r with
        starting := none, span := w32 (windowSpans r.par.seconds (10 * x.tF)).2
        cfg := fset (fset r.cfg F.RAMAN_CFG.ENABLE 1) F.RAMAN_CFG.SPANS (windowSpans r.par.seconds (10 * x.tF)).1 })) ∧
    (∀ (leg : Fin 2) (s : State), (s.raman leg.val).starting = none → exec (.ramanChannelStart leg) s = .next s) ∧
    (∀ (leg : Fin 2) (s : State), fbit (s.raman leg.val).stat F.RAMAN_STAT.RUNNING = true → fbit (s.raman leg.val).cfg F.RAMAN_CFG.ENABLE = true →
      s.frameArrived leg.val (s.raman leg.val).snapFrame = true → exec (.ramanSpanSnapshot leg) s = .next (s.snapshot leg.val)) ∧
    (∀ (leg : Fin 2) (s : State), fbit (s.raman leg.val).cfg F.RAMAN_CFG.ENABLE = false → exec (.ramanSpanSnapshot leg) s = .next s) ∧
    (∀ (leg : Nat) (s : State), leg < 2 → (s.raman leg).snapNext % 4 ≠ 3 →
      ((s.snapshot leg).raman leg).snapNext = (s.raman leg).snapNext + 1 ∧ ((s.snapshot leg).raman leg).window.spans = (s.raman leg).window.spans ∧
        vget ((s.snapshot leg).raman leg).prev ((s.raman leg).snapNext % 4) [] = vget (s.raman leg).acc ((s.raman leg).snapNext % 4) []))

/-! ### Converters, straits, trims -/

/-- STRAIT_WORD_ARRIVAL (R14 to R16, R200): a word is placed at the index that its tag gives; a tag out of step raises STRAIT_TAG, a bad word D2D_LINK. -/
def Obligations.WordsArePlacedByTag : Prop :=
  ((∀ (leg : Fin 2) (tag : Fin 65536) (xi xq yi yq : Fin 16384) (bad : Bool) (s : State) (m : Nat), s.lanesLive leg.val = true →
      (s.hall leg.val).nextIndex = some m → tag.val = m % 65536 →
      exec (.straitWordArrival (.coherent leg tag xi xq yi yq bad)) s =
        .next ((if bad then s.report srcD2dLink 0 else s).placeCoherent leg.val m (code14 xi.val) (code14 xq.val) (code14 yi.val) (code14 yq.val) bad)) ∧
    (∀ (leg : Fin 2) (tag : Fin 65536) (xi xq yi yq : Fin 16384) (bad : Bool) (s : State) (m : Nat), s.lanesLive leg.val = true →
      (s.hall leg.val).nextIndex = some m → tag.val ≠ m % 65536 →
      exec (.straitWordArrival (.coherent leg tag xi xq yi yq bad)) s =
        .next (((if bad then s.report srcD2dLink 0 else s).placeCoherent leg.val (extendTag m tag.val) (code14 xi.val) (code14 xq.val) (code14 yi.val)
          (code14 yq.val) bad).straitTag 0 leg.val)) ∧
    (∀ (leg : Fin 2) (tag : Fin 65536) (xi xq yi yq : Fin 16384) (bad : Bool) (s : State), s.lanesLive leg.val = true → (s.hall leg.val).nextIndex = none →
      exec (.straitWordArrival (.coherent leg tag xi xq yi yq bad)) s =
        .next ((if bad then s.report srcD2dLink 0 else s).placeCoherent leg.val (extendBelow (s.indexOfTime s.now) tag.val) (code14 xi.val) (code14 xq.val)
          (code14 yi.val) (code14 yq.val) bad)) ∧
    (∀ (leg : Fin 2) (tag : Fin 65536) (xi xq yi yq : Fin 16384) (bad : Bool) (s : State), s.lanesLive leg.val = false →
      exec (.straitWordArrival (.coherent leg tag xi xq yi yq bad)) s = .next s) ∧
    (∀ (leg n : Nat) (xi xq yi yq : Int) (bad : Bool) (s : State), leg < 2 →
      ((s.placeCoherent leg n xi xq yi yq bad).hall leg).nextIndex = some (n + 1) ∧
      (s.placeCoherent leg n xi xq yi yq bad).hall (1 - leg) = s.hall (1 - leg) ∧ (s.placeCoherent leg n xi xq yi yq bad).cellar = s.cellar) ∧
    (∀ (m tag : Nat), tag < 65536 → m ≤ extendTag m tag ∧ extendTag m tag < m + 65536 ∧ extendTag m tag % 65536 = tag)) ∧
  ((∀ (leg : Fin 2) (tag : Fin 65536) (st as_ : Fin 16384) (bad : Bool) (s : State), s.lanesLive leg.val = false →
      exec (.straitWordArrival (.direct leg tag st as_ bad)) s = .next s) ∧
    (∀ (leg : Fin 2) (tag : Fin 65536) (st as_ : Fin 16384) (bad : Bool) (s : State), s.lanesLive leg.val = true →
      let last := (s.raman leg.val).lastIndex
      let n := match last with | some m => extendTag (m + 4) tag.val | none => extendBelow (s.indexOfTime s.now) tag.val
      let s1 := if bad then s.report srcD2dLink 0 else s
      let e1 := endCode (code14 st.val)
      let e2 := endCode (code14 as_.val)
      let t := s1.thrLeg leg.val
      let s2 := s1.setThrLeg leg.val { t with lane := t.lane ||| w32 (16 * e1.toNat + 32 * e2.toNat) }
      let s3 := s2.placeDirect leg.val n (code14 st.val) (code14 as_.val) ((bad || s1.gapMarked n).toNat + 2 * (t.dirMarked n).toNat) (e1 || e2)
        ((s2.thrLeg leg.val).codesAt n).2
      exec (.straitWordArrival (.direct leg tag st as_ bad)) s = .next (if last.isSome = true ∧ last ≠ some (n - 4) then s3.straitTag 0 leg.val else s3)) ∧
    (∀ (kind : Traced) (leg : Fin 2) (slot : Fin 8) (tag : Fin 65536) (index : Nat) (s : State),
      let n := extendNear (s.probe.nextTrace leg.val slot.val) tag.val
      let key := (kind, leg.val, slot.val)
      let s1 := { s with halls := { s.halls with tags := (key, n, index) :: s.halls.tags.filter (fun e => e.1 != key) } }
      let s2 := if kind = .chainRow ∧ s.power.loft = true then s1.stageDecimated leg.val slot.val n else s1
      (s.halls.tags.find? (fun e => e.1 == key) = none → exec (.straitWordArrival (.traced kind leg slot tag index)) s = .next s2) ∧
      (∀ e m j, s.halls.tags.find? (fun e => e.1 == key) = some (e, m, j) →
        ((lone kind = true ∨ inSequence m j n index = true) → exec (.straitWordArrival (.traced kind leg slot tag index)) s = .next s2) ∧
        (lone kind = false → inSequence m j n index = false →
          exec (.straitWordArrival (.traced kind leg slot tag index)) s = .next (s2.straitTag (straitOf kind) leg.val)))) ∧
    (∀ cur tag : Nat, tag < 65536 → extendNear cur tag % 65536 = tag ∧
      (65536 ≤ extendTag cur tag → extendNear cur tag < cur + 32768 ∧ cur ≤ extendNear cur tag + 32768)))

/-- Gain changes (R86 to R90): a request takes effect at its sample index, which is moved past a calibration gap, on the coherent lanes and on the
direct ones alike; ranging decides at the end of a window. -/
def Obligations.GainChangesAtItsIndex : Prop :=
  (∀ (leg : Fin 2) (w : Word) (s : State), s.power.front = true → exec (.gainReqArm leg w) s = .next (s.writeGainReq leg.val w)) ∧
  (∀ (leg : Fin 2) (s : State) (r : GainRequest), (s.thrLeg leg.val).pending = some r → s.gainIndex r.index = r.index →
    exec (.gainChange leg false) s = .next ((s.untilTime (s.timeOfIndex r.index)).setThrLeg leg.val ((s.thrLeg leg.val).takeGain r r.index))) ∧
  (∀ (leg : Fin 2) (s : State) (r : GainRequest), (s.thrLeg leg.val).pending = some r → s.gainIndex r.index ≠ r.index →
    exec (.gainChange leg false) s = .next (s.setThrLeg leg.val { s.thrLeg leg.val with pending := some { r with index := s.gainIndex r.index } })) ∧
  (∀ (leg : Fin 2) (s : State) (r : GainRequest), (s.thrLeg leg.val).direct = some r →
    let t := s.thrLeg leg.val
    (s.gainIndex r.index ≠ r.index →
      exec (.gainChange leg true) s = .next (s.setThrLeg leg.val { t with direct := some { r with index := s.gainIndex r.index } })) ∧
    (∀ st as_ : Nat, s.gainIndex r.index = r.index → r.coh = none → r.dir = some (st, as_) →
      exec (.gainChange leg true) s = .next ((s.untilTime (s.timeOfIndex r.index)).setThrLeg leg.val
        { (if st ≠ t.st ∨ as_ ≠ t.as_ then t.setCodes r.index t.coh st as_ else t) with direct := none }))) ∧
  (∀ (leg : Fin 2) (s : State), s.legOn leg.val = true → 64 ≤ s.windowFrames leg.val →
    let t := s.thrLeg leg.val
    let n := s.indexOfTime (s.boundaryAhead (s.globalFrame (s.framesLaunched leg.val)))
    let ranging := fbit t.cfg F.LEG_CFG.AUTO && s.measuring && !s.replaying leg.val && !s.calibrating && !s.gainWaiting leg.val
    exec (.autoGainDecision leg) s = .next (match (if ranging then t.decide else none) with
      | none => s.setThrLeg leg.val (t.newWindow n)
      | some up => s.setThrLeg leg.val { t.newWindow n with
          pending := some { index := n, coh := some (if up then t.coh + 1 else t.coh - 1), auto := true } }))

/-- Retrims (R101 to R111): due, deferred, the calibration gap and its end. -/
def Obligations.RetrimsRunInTheirGap : Prop :=
  ((∀ (w : Word) (s : State), fbit w F.TRIM_CTRL.REQ = true → s.power.front = true →
        exec (.trimReq w) s = .next ((s.setTrim { s.trim with req := true }).retrimDue s.now)) ∧
    (∀ (w : Word) (s : State), fbit w F.TRIM_CTRL.REQ = false → exec (.trimReq w) s = .next s) ∧
    (∀ t : Trim, fbit t.ctrlWord F.TRIM_CTRL.REQ = t.req) ∧
    (∀ s : State, s.trim.seconds = 0 → exec .trimDeferTick s = .next s) ∧
    (∀ s : State, s.trim.seconds ≠ 0 →
      exec .trimDeferTick s = .next (s.setTrim { s.trim with defer := fset s.trim.defer F.TRIM_DEFER.SECONDS (s.trim.seconds - 1) })) ∧
    (∀ (s : State) (t : Nat), s.gapBoundary s.now = some t → s.gapMayStart t = true →
      let s1 := s.untilTime t
      let s2 := s1.setTrim { s1.trim with due := none, req := false, gap := some { first := s1.indexOfTime t, time := t } }
      exec .calibrationGapStart s =
        .next (if 24 ≤ (s1.trim.starts.filter (fun u => s1.time.up < u + 86400 * sec)).length then s2.report srcRetrimRate 0 else s2)) ∧
    (∀ s : State, (∀ t, s.gapBoundary s.now = some t → s.gapMayStart t = false) → exec .calibrationGapStart s = .next s) ∧
    (∀ (s : State) (p : PendingPlan) (e : Nat), s.probe.running = true → s.probe.pending = some p → p.atFrame = some e → p.mode ≠ 0 →
      s.frameAhead s.now = s.globalFrame e → s.gapBoundary s.now = some (s.nextE e))) ∧
  (∀ (moves : List (List (Fin 3) × List (Fin 3))) (s : State) (g : Gap), s.trim.gap = some g →
      ∃ (u : State) (out : List Nat), exec (.calibrationGapEnd moves) s = .next (out.foldl (fun v k => v.report srcTrimRange k) u).watchWear ∧
        u.trim.gap = none ∧ u.trim.lastGap = some g.first ∧ u.time.up = max s.time.up (g.time + 10 * gapSamples - s.time.epoch) ∧ u.trim.ref = s.thr.hk.dieCodes ∧
        (∀ k, k < 12 →
          let tap := moveWithin 0 255 (((moves[k]?).getD ([], [])).1.take 16) (fget (vget s.trim.dly k 0) F.DLY.TAP : Int)
          let off := moveOffsets (vget s.thr.calf k (Vector.replicate 48 0)) (((moves[k]?).getD ([], [])).2)
          vget u.trim.dly k 0 = w32 tap.1.toNat ∧ vget u.thr.calf k (Vector.replicate 48 0) = off.1 ∧ (k ∈ out ↔ tap.2 = true ∨ off.2 = true)) ∧
        u.thr.leg = s.thr.leg ∧ u.halls = s.halls ∧ u.cellar = s.cellar ∧ u.loft = s.loft ∧ u.probe = s.probe)

/-- The self-calibrations at power-up and the housekeeping sweep (R92 to R95, R104, R112). -/
def Obligations.SelfCalibrationAndSweep : Prop :=
  ((∀ (factors : List (List Word)) (fails : List (Fin 12)) (s : State) (u : Nat), s.thr.calUp = some u → fbit s.thr.stat F.THR_STAT.ADC_CAL_DONE = false →
      let s1 := s.untilUp (u + 4 * ms)
      let leg (t : ThrLeg) (n : Nat) : ThrLeg := { t with lane := fset t.lane F.LANE_STAT.CAL_FAIL (calFailBits fails n) }
      let calf : Vector (Vector Word 48) 12 :=
        ⟨((List.range 12).map (fun k => fillVec (vget s1.thr.calf k (Vector.replicate 48 0)) ((factors[k]?).getD []) 48)).toArray, by simp⟩
      let s2 := { s1 with thr := { s1.thr with calf, leg := #v[leg (s1.thrLeg 0) 0, leg (s1.thrLeg 1) 1], stat := fset s1.thr.stat F.THR_STAT.ADC_CAL_DONE 1 } }
      let s3 := fails.foldl (fun t k => t.report srcAdcCal k.val) s2
      exec (.adcSelfCalibrationDone factors fails) s = .next (s3.abortCalibrate.getD (if s3.runsCalibrate then s3.progress 0x058 1 0 20 else s3))) ∧
    (∀ (s : State) (u : Nat), s.thr.calUp = some u → fbit s.thr.stat F.THR_STAT.ADC_CAL_DONE = true → fbit s.thr.stat F.THR_STAT.HK_CAL_DONE = false →
      let s1 := s.untilUp (u + (if s.runsCalibrate then 1936 else 16) * ms)
      let s2 := { s1 with thr := { s1.thr with
        stat := fset s1.thr.stat F.THR_STAT.HK_CAL_DONE 1, calUp := if s1.runsCalibrate then s1.thr.calUp else none
        hk := { s1.thr.hk with cfg := fset s1.thr.hk.cfg F.HK_CFG.ENABLE 1, next := 0, units := 0 } } }
      exec .hkSelfCalibrationDone s = .next (s2.abortCalibrate.getD (if s2.runsCalibrate then s2.progress 0x058 1 0 9900 else s2.afterSelfCal))) ∧
    (∀ (taps : List (Fin 256)) (s : State), s.runsCalibrate = true → fbit s.thr.stat F.THR_STAT.HK_CAL_DONE = true → s.abortCalibrate = none →
      let dly := fillVec s.trim.dly (taps.map (fun t => w32 t.val)) 12
      let ends := (List.range 12).filter (fun k => decide (fget (vget dly k 0) F.DLY.TAP ≤ 16) || decide (239 ≤ fget (vget dly k 0) F.DLY.TAP))
      let s1 := { s with thr := { s.thr with trim := { s.trim with dly, ref := s.thr.hk.dieCodes }, calUp := none } }
      let s2 := State.wrote calEntryBytes { s1 with
        larder := { s1.larder with calBase := s1.calRecord s1.now, old := { s1.larder.old with calBase := s1.larder.calBase } }
        power := { s1.power with front := false } }
      let s3 := if ends.isEmpty then s2 else s2.setTrim { s2.trim with stat := fset s2.trim.stat F.TRIM_STAT.RANGE 1 }
      exec (.calibrateDone taps) s = .next ((ends.foldl (fun t k => t.report srcTrimRange k) s3).endLong ⟨.ok, 0, 0xFF⟩
        ((List.range 12).flatMap (fun k => [vget dly k 0, w32 (ends.contains k).toNat]))))) ∧
  (∀ (codes : List (Fin 4096)) (check : Fin 4096) (s : State), s.power.front = true → fbit s.thr.hk.cfg F.HK_CFG.ENABLE = true → s.thr.hk.next < 24 →
      codes.length = 2 ^ fget (vget s.thr.hk.ent s.thr.hk.next 0) F.HK_ENT.AVG →
      let m := s.thr.hk.next
      let ent := vget s.thr.hk.ent m 0
      let opened := fget ent F.HK_ENT.PULL != 0 && wireOpen (fget ent F.HK_ENT.PULL) check.val
      let code := if opened then (if fget ent F.HK_ENT.PULL = 1 then 0xFFF else 0) else hkResult (fget ent F.HK_ENT.AVG) codes
      let last := decide (fget s.thr.hk.cfg F.HK_CFG.COUNT ≤ m)
      let res := fset (fsetB (fset (vget s.thr.hk.res m 0) F.HK_RES.RESULT code) F.HK_RES.OPEN
        (if fget ent F.HK_ENT.PULL = 0 then fbit (vget s.thr.hk.res m 0) F.HK_RES.OPEN else opened)) F.HK_RES.SWEEP s.thr.hk.count
      ∃ h : Housekeeping, h.next = (if last then 0 else m + 1) ∧ h.count = (if last then (s.thr.hk.count + 1) % 65536 else s.thr.hk.count) ∧
        h.ent = s.thr.hk.ent ∧ h.cfg = s.thr.hk.cfg ∧
        (∀ i, i < 24 → vget h.res i 0 =
          (let w := if i = m then res else vget s.thr.hk.res i 0; if last && decide (i ≤ m) then fset w F.HK_RES.VALID 1 else w)) ∧
        (let s1 := ({ s with thr := { s.thr with hk := h } }).setCondition srcHkOpen (h.res.toList.any (fun w => fbit w F.HK_RES.OPEN)) m
         let s2 := (s1.stampHk m res.toNat).monitor ent code
         exec (.hkEntryConversion codes check) s =
           .next (if last && s2.trim.refsOwed then s2.setTrim { s2.trim with ref := h.dieCodes, refsOwed := false } else s2)))

/-! ### The Hearth -/

/-- The currents of the Hearth (R65 to R72): fades to their setpoints, at once or stamped with a frame while a plan runs, and the open and short
detection that cuts an output. That a setting which firmware refuses is not written is the model's choice (log entry 96). -/
def Obligations.CurrentsFadeAndAreJudged : Prop :=
  ((∀ (ch : Fin 12) (v : BitVec 16) (s : State), s.power.hearth = true → s.setpointsWait = false → ∃ c : DriveChannel,
      exec (.hdSetpointWrite ch v) s = .next { s with hearth := s.hearth.setDrive ch.val c } ∧ fget c.set F.HD_SET.SETPOINT = v.toNat ∧
        c.cfg = (s.hearth.drive ch.val).cfg ∧ (fget c.cfg F.HD_CFG.FADE_MS ≠ 0 → c.out = (s.hearth.drive ch.val).out) ∧
        ((s.hearth.drive ch.val).drives = false → c.stat = (s.hearth.drive ch.val).stat)) ∧
    (∀ (ch : Fin 12) (v : BitVec 16) (s : State), s.power.hearth = true → s.setpointsWait = true →
      exec (.hdSetpointWrite ch v) s =
        .next { s with hearth := { s.hearth with waits := s.hearth.waits ++ [⟨s.setpointFrame, ch.val, v.setWidth 32⟩] } } ∧
      exec (.setpointStep ch v) s =
        .next { s with hearth := { s.hearth with waits := s.hearth.waits ++ [⟨s.setpointFrame, ch.val, v.setWidth 32 ||| 0x80000000⟩] } }) ∧
    (∀ s : State, s.setpointsDue.hearth.waits = s.hearth.waits.filter (fun x => decide (s.now < s.boundaryAhead x.frame)) ∧
      (∀ x, s.hearth.waits.filter (fun y => decide (s.boundaryAhead y.frame ≤ s.now)) = [x] → x.ch < 12 →
        s.setpointsDue.hearth.drive x.ch = (s.hearth.drive x.ch).writeSet x.word ∧
        ∀ ch, ch < 12 → ch ≠ x.ch → s.setpointsDue.hearth.drive ch = s.hearth.drive ch)) ∧
    (∀ (ch : Fin 12) (v : BitVec 16) (s : State), s.power.hearth = true → s.setpointsWait = false → ∃ c : DriveChannel,
      exec (.setpointStep ch v) s = .next { s with hearth := s.hearth.setDrive ch.val c } ∧ fget c.set F.HD_SET.SETPOINT = v.toNat ∧
        c.cfg = (s.hearth.drive ch.val).cfg ∧
        ((s.hearth.drive ch.val).drives = true → c.out = v.toNat ∧ c.fade = none ∧ c.stepHold = 100 ∧ fbit c.stat F.HD_STAT.FADING = false) ∧
        ((s.hearth.drive ch.val).drives = false → c.stat = (s.hearth.drive ch.val).stat)) ∧
    (∀ (ch : Fin 14) (w : Word) (s : State), s.power.hearth = true → exec (.channelEnable ch w) s = .next (s.writeDriveCfg ch.val w)) ∧
    (∀ (ch : Nat) (w : Word) (s : State), ch < 12 → (s.hearth.drive ch).refuses (ch < 8) w = true → s.writeDriveCfg ch w = s) ∧
    (∀ (c : DriveChannel) (w : Word), c.drives = true → nbit w.toNat 31 = false → fget c.cfg F.HD_CFG.FADE_MS ≠ 0 →
      (c.writeSet w).fade = some ⟨c.out, fget w F.HD_SET.SETPOINT, 0, fget c.cfg F.HD_CFG.FADE_MS * 1000⟩ ∧ fbit (c.writeSet w).stat F.HD_STAT.FADING = true) ∧
    (∀ (old c : DriveChannel), fbit old.cfg F.HD_CFG.ENABLE = false → fbit c.cfg F.HD_CFG.ENABLE = true → fget c.cfg F.HD_CFG.FADE_MS ≠ 0 →
      (old.enableEdge c false).out = 0 ∧ (old.enableEdge c false).fade = some ⟨0, fget c.set F.HD_SET.SETPOINT, 0, fget c.cfg F.HD_CFG.FADE_MS * 1000⟩ ∧
        (old.enableEdge c true).out = 0 ∧ (old.enableEdge c true).fade = none ∧ (old.enableEdge c true).drives = false) ∧
    (∀ (old c : DriveChannel) (hold : Bool), fbit old.cfg F.HD_CFG.ENABLE = true → fbit c.cfg F.HD_CFG.ENABLE = false →
      (old.enableEdge c hold).out = 0 ∧ (old.enableEdge c hold).fade = none ∧ (old.enableEdge c hold).set = c.set ∧
        fbit (old.enableEdge c hold).stat F.HD_STAT.CUT = hold) ∧
    (∀ (m : List Sensed) (s : State), s.power.hearth = true → ∃ (h : Hearth) (rs : List (Nat × Nat)),
      exec (.hdLoopUpdate m) s = .next (({ s with hearth := h }).reportAll rs).afterFade ∧
        (∀ ch, ch < 12 → h.drive ch = (s.setpointsDue.hearth.updateDrive ch m[ch]?).1.drive ch) ∧
        h.gate = s.hearth.gate ∧ h.tec = s.hearth.tec ∧ h.chain = s.hearth.chain ∧ h.stat = s.hearth.stat) ∧
    (∀ (f : Fade) (t : Nat), f.from_ < 65536 → f.to_ < 65536 → 0 < f.total → t ≤ f.total →
      2 * ((f.total * f.out false t : Nat) - (f.total * f.from_ + ((f.to_ : Int) - f.from_) * t) : Int).natAbs ≤ f.total ∧
      2 * ((f.total ^ 3 * f.out true t : Nat) - (f.total ^ 3 * f.from_ + ((f.to_ : Int) - f.from_) * (3 * t ^ 2 * f.total - 2 * t ^ 3)) : Int).natAbs ≤ f.total ^ 3) ∧
    (∀ (c : DriveChannel) (f : Fade), c.fade = some f → f.to_ < 65536 → f.total ≤ f.elapsed + 1 → c.fadeStep.out = f.to_ ∧ c.fadeStep.fade = none)) ∧
  ((∀ (c : DriveChannel) (q : Nat), (q ≤ c.openRun ∨ q ≤ c.shortRun) →
      (c.judge q).1.out = 0 ∧ (c.judge q).1.fade = none ∧ fbit (c.judge q).1.stat F.HD_STAT.CUT = true ∧ (c.judge q).1.cfg = c.cfg ∧ (c.judge q).1.set = c.set ∧
        (q ≤ c.openRun → fbit (c.judge q).1.stat F.HD_STAT.OPEN = true ∧ (c.judge q).2.1 = true) ∧
        (q ≤ c.shortRun → fbit (c.judge q).1.stat F.HD_STAT.SHORT = true ∧ (c.judge q).2.2 = true)) ∧
    (∀ (c : DriveChannel) (q : Nat), c.openRun < q → c.shortRun < q → c.judge q = (c, false, false)) ∧
    (∀ (n : Fin 4) (m : Sensed) (s : State), let c := s.hearth.hs[n]
      s.power.hearth = true → c.drives = true → fbit c.cfg F.HD_CFG.PWM = true → fbit c.cfg F.HD_CFG.DET_EN = true → 16 ≤ c.pwmOn.toNat →
      let q := (c.count (decide (2 * m.current < c.out)) (decide (fget c.cfg F.HD_CFG.SHORT_TH < m.node))).judge 4
      exec (.hsPwmOnWindow n m) s = .next (({ s with hearth := { s.hearth with hs := vset s.hearth.hs n q.1 } }).reportAll
        (openShortReports srcHsOpen srcHsShort n.val q.2.1 q.2.2))) ∧
    (∀ (n : Fin 4) (m : Sensed) (s : State), fbit (s.hearth.hs[n]).cfg F.HD_CFG.PWM = false ∨ (s.hearth.hs[n]).pwmOn.toNat < 16 →
      exec (.hsPwmOnWindow n m) s = .next s))

/-- The interlock (R78, R79) cuts the gates and the channels with KILL = 1; the chain port (R75 to R77) latches what it has verified. -/
def Obligations.InterlockAndChainPort : Prop :=
  ((∀ s : State, ∃ flags, exec .ilockFall s =
        .next (({ s with hearth := s.hearth.interlock, fw := { s.fw with flags } }).setCondition srcIlock true 0) ∧
        (s.fw.optical = .idle → flags = s.fw.flags) ∧ (s.fw.optical = .fadeIn → nbit flags 0 = true)) ∧
    (∀ h : Hearth, (∀ ch, ch < 12 → fbit (h.drive ch).cfg F.HD_CFG.KILL = true →
        (h.interlock.drive ch).out = 0 ∧ (h.interlock.drive ch).fade = none ∧ (h.interlock.drive ch).drives = false ∧ (h.interlock.drive ch).set = (h.drive ch).set) ∧
      (∀ ch, ch < 12 → fbit (h.drive ch).cfg F.HD_CFG.KILL = false → h.interlock.drive ch = h.drive ch) ∧
      (∀ g, g < 2 → (vget h.interlock.gate g {}).drives = false) ∧ fbit h.interlock.stat F.HEARTH_STAT.ILOCK_LATCHED = true ∧ h.interlock.ilockLow = true ∧
      h.interlock.tec = h.tec ∧ h.interlock.chain = h.chain) ∧
    (∀ s : State, ∃ h : Hearth, exec .ilockNRise s = .next (({ s with hearth := h }).setCondition srcIlock false 0) ∧ h.ilockLow = false ∧ h.hd = s.hearth.hd ∧
      h.hs = s.hearth.hs ∧ h.gate = s.hearth.gate ∧ fbit h.stat F.HEARTH_STAT.ILOCK_LATCHED = fbit s.hearth.stat F.HEARTH_STAT.ILOCK_LATCHED)) ∧
  ((∀ s : State, s.power.hearth = true → s.safe = true → exec .chainGo s = .next s) ∧
    (∀ s : State, s.power.hearth = true → s.safe = false → exec .chainGo s = .next { s with hearth := { s.hearth with chain := s.hearth.chain.go } }) ∧
    (∀ c : ChainPort, fbit c.cfg F.HCHAIN_CFG.ENABLE = true →
      (fbit c.stat F.HCHAIN_STAT.BUSY = false → c.go.shift = c.data ∧ fbit c.go.stat F.HCHAIN_STAT.BUSY = true ∧ c.go.latched = c.latched) ∧
      (fbit c.stat F.HCHAIN_STAT.BUSY = true → c.go.shift = c.shift ∧ fbit c.go.stat F.HCHAIN_STAT.PENDING = true ∧
        fget c.go.stat F.HCHAIN_STAT.COALESCED = (fget c.stat F.HCHAIN_STAT.COALESCED + (fbit c.stat F.HCHAIN_STAT.PENDING).toNat) % 256)) ∧
    (∀ (din : List Word) (s : State), s.power.hearth = true → fbit s.hearth.chain.stat F.HCHAIN_STAT.BUSY = true →
      let c := s.hearth.chain
      let good := fbit c.cfg F.HCHAIN_CFG.VERIFY = false ∨ ∀ i, i < c.length → wat din i = vget c.data i 0
      ∃ d : ChainPort,
        (good → exec (.chainTransferDone din) s = .next { s with hearth := { s.hearth with chain := d } } ∧
          (s.safe = false → ∀ i, i < c.length → vget d.latched i 0 = vget c.shift i 0) ∧ (s.safe = true → d.latched = c.latched)) ∧
        (¬ good → exec (.chainTransferDone din) s = .next (({ s with hearth := { s.hearth with chain := d } }).report srcChainVerify 0) ∧ d.latched = c.latched ∧
          fbit d.stat F.HCHAIN_STAT.MISMATCH = true) ∧
        (∀ i, i < c.length → vget d.ret i 0 = wat din i) ∧ d.data = c.data ∧
        (fbit c.stat F.HCHAIN_STAT.PENDING = false → fbit d.stat F.HCHAIN_STAT.BUSY = false) ∧
        (fbit c.stat F.HCHAIN_STAT.PENDING = true → fbit d.stat F.HCHAIN_STAT.BUSY = true ∧ fbit d.stat F.HCHAIN_STAT.PENDING = false ∧ d.shift = c.data)))

/-- The TEC loops (R73, R74). -/
def Obligations.TecLoopRegulates : Prop :=
  (∀ (t : Fin 2) (s : State), let l := s.hearth.tec[t]
    let sel := fget l.cfg F.TEC_CFG.HK_SEL
    let r := vget s.thr.hk.res sel 0
    let sw := fget r F.HK_RES.SWEEP
    let l1 : TecLoop := { l with sweep := sw, staleMs := if sw = l.sweep then l.staleMs + 1 else 0 }
    s.power.hearth = true → fbit l.cfg F.TEC_CFG.ENABLE = true → s.safe = false → s.hearth.tecOn = true →
    (s.tecSensorBad sel l1.staleMs = true → ∃ l2 : TecLoop,
      exec (.tecLoopUpdate t) s = .next (({ s with hearth := { s.hearth with tec := vset s.hearth.tec t l2 } }).setCondition srcTecSensor true t.val) ∧
        l2.duty = 0 ∧ l2.acc = 0 ∧ fbit l2.stat F.TEC_STAT.SENSOR = true ∧ l2.cfg = l.cfg ∧ l2.tgt = l.tgt) ∧
    (s.tecSensorBad sel l1.staleMs = false → l.faulted = false → (vget s.hearth.tec (1 - t.val) {}).bad = false →
      exec (.tecLoopUpdate t) s = .next ((({ s with hearth := { s.hearth with
        tec := vset s.hearth.tec t { l1.update (fget r F.HK_RES.RESULT) with faulted := false, bad := false } } }).setCondition srcTecSensor false t.val).afterTec))) ∧
  (∀ (l : TecLoop) (code : Nat), let e0 : Int := (fget l.tgt F.TEC_TGT.TARGET : Int) - code
    let e := if fbit l.cfg F.TEC_CFG.SIGN then -e0 else e0
    (l.update code).acc = max (-1048576) (min 1048575 (l.acc + e)) ∧
    ((l.update code).duty.natAbs ≤ fget l.cfg F.TEC_CFG.DUTY_MAX) ∧
    (let x := nbits l.gains.toNat 0 16 * e + nbits l.gains.toNat 16 16 * (l.update code).acc
     x.natAbs < 256 * fget l.cfg F.TEC_CFG.DUTY_MAX → 256 * (l.update code).duty ≤ x ∧ x < 256 * (l.update code).duty + 256) ∧
    (fget l.tgt F.TEC_TGT.BAND < e.natAbs → fbit (l.update code).stat F.TEC_STAT.SETTLED = false) ∧
    (e.natAbs ≤ fget l.tgt F.TEC_TGT.BAND → 1999 ≤ l.settledMs → fbit (l.update code).stat F.TEC_STAT.SETTLED = true)) ∧
  (∀ (t : Fin 2) (s : State), let l := s.hearth.tec[t]
    s.power.hearth = true → fbit l.cfg F.TEC_CFG.ENABLE = true → l.duty.natAbs = fget l.cfg F.TEC_CFG.DUTY_MAX →
    exec (.tecLimit t) s = .next (({ s with hearth := { s.hearth with
      tec := vset s.hearth.tec t { l with stat := fset l.stat F.TEC_STAT.LIMIT 1 } } }).report srcTecLimit t.val))

/-! ### Tach inputs, the time base, the TIU -/

/-- The tach inputs (R278 to R280) count their edges; the TIU (R277) measures from a start to its stops. -/
def Obligations.TachAndTiuMeasure : Prop :=
  ((∀ (k : Fin 8) (level both : Bool) (held stamp : Nat) (s : State), s.power.front = true →
      held ≤ fget (s.tachOf ((s.quadOf k.val).getD k.val)).cfg F.TACH_CFG.FILT →
      exec (.tachEdge k level held stamp both) s =
        .next ((s.untilTime (stamp / 5 * 5)).setTach k.val { s.tachOf k.val with stat := finc (s.tachOf k.val).stat F.TACH_STAT.REJECTED })) ∧
    (∀ (k : Fin 8) (level both : Bool) (held stamp : Nat) (s : State), s.power.front = true → s.quadOf k.val = none → (s.tachOf k.val).level ≠ level →
      fget (s.tachOf k.val).cfg F.TACH_CFG.FILT < held →
      let u := (s.untilTime (stamp / 5 * 5)).setTach k.val { s.tachOf k.val with level }
      let edge := fget (s.tachOf k.val).cfg F.TACH_CFG.EDGE
      exec (.tachEdge k level held stamp both) s =
        .next (if fbit (s.tachOf k.val).cfg F.TACH_CFG.ENABLE = true ∧ (edge = 2 ∨ (edge = 0 ∧ level = true) ∨ (edge = 1 ∧ level = false))
          then u.tachCount k.val (stamp / 5 * 5) true else u)) ∧
    (∀ (k : Fin 8) (level : Bool) (held stamp e : Nat) (s : State), s.power.front = true → s.quadOf k.val = some e → (s.tachOf k.val).level ≠ level →
      fget (s.tachOf e).cfg F.TACH_CFG.FILT < held → fbit (s.tachOf e).cfg F.TACH_CFG.ENABLE = true →
      let o := if k.val = e then e + 1 else e
      let u := (s.untilTime (stamp / 5 * 5)).setTach k.val { s.tachOf k.val with level }
      exec (.tachEdge k level held stamp false) s = .next (u.tachCount e (stamp / 5 * 5)
        ((if k.val = e then level != (s.tachOf o).level else level == (s.tachOf o).level) == Config.quadUpWhenALeads)) ∧
      ∃ a : Tach, exec (.tachEdge k level held stamp true) s =
        .next (((u.setTach o { u.tachOf o with level := !(s.tachOf o).level }).setTach e a).report srcTachQuad e) ∧
          fbit a.stat F.TACH_STAT.QUAD_ERR = true ∧ a.trail = (s.tachOf e).trail) ∧
    (∀ (th : Tach) (t now keep : Nat) (up : Bool), keep < t →
      (th.countEdge t up now keep).count = (if up then (th.count + 1) % 2 ^ 48 else (th.count + 2 ^ 48 - 1) % 2 ^ 48) ∧
      fbit (th.countEdge t up now keep).stat F.TACH_STAT.STOPPED = false ∧ fbit (th.countEdge t up now keep).stat F.TACH_STAT.DIR = !up) ∧
    (∀ (th : Tach) (e1 e0 c c0 t : Nat) (rest : List (Nat × Bool × Nat)), th.trail = (e1, true, c) :: (e0, true, c0) :: rest → e0 < e1 → e1 ≤ t → c < 2 ^ 48 →
      th.snapshot t / 65536 = c ∧ th.snapshot t % 65536 = min 65535 (65536 * (t - e1) / (e1 - e0))) ∧
    (∀ (k : Fin 8) (s : State), s.power.front = true → fbit (s.tachOf k.val).cfg F.TACH_CFG.ENABLE = true → ∃ t : Tach,
      exec (.tachStall k) s = .next ((s.untilUp ((s.tachOf k.val).sinceUp + fget (s.tachOf k.val).stall F.TACH_STALL.STALL_MS * ms)).setTach k.val t) ∧
        fbit t.stat F.TACH_STAT.STOPPED = true ∧ t.trail = (s.tachOf k.val).trail ∧ t.cfg = (s.tachOf k.val).cfg) ∧
    (∀ (k : Fin 8) (w : Word) (s : State), s.power.front = true → exec (.tachEnable k w) s = .next (s.writeTachCfg k.val w)) ∧
    (∀ (th : Tach) (now : Nat), (th.enable now).count = 0 ∧ fbit (th.enable now).stat F.TACH_STAT.STOPPED = true ∧ (th.enable now).period = 0xFFFFFFFF)) ∧
  ((∀ (one two : List Int) (s : State), fbit s.tiu.cfg F.TIU_CFG.ENABLE = true → s.tiu.phase = .idle →
      ∃ t : Tiu, fget t.cal F.TIU_CAL.K1 = wrapTo 16 (tiuMean one) ∧ fget t.cal F.TIU_CAL.K2 = wrapTo 16 (tiuMean two) ∧ t.cfg = s.tiu.cfg ∧
        ((tiuMean two - tiuMean one < 1000 ∨ 1600 < tiuMean two - tiuMean one) → fbit t.stat F.TIU_STAT.CAL_FAIL = true ∧ t.phase = .idle ∧ t.res = s.tiu.res ∧
          exec (.tiuGo one two) s = .next ((({ s.pass (20 * us) with tiu := t }).report srcTiuCal 0).tiuAnswer ⟨.ok, 0, 0xFF⟩)) ∧
        (1000 ≤ tiuMean two - tiuMean one → tiuMean two - tiuMean one ≤ 1600 → t.phase = .armed ∧ fget t.stat F.TIU_STAT.SEEN = 0 ∧
          t.res = Vector.replicate 8 0xFFFFFFFF ∧ exec (.tiuGo one two) s = .next { s.pass (20 * us) with tiu := t })) ∧
    (∀ (one two : List Int) (s : State), fbit s.tiu.cfg F.TIU_CFG.ENABLE = false ∨ s.tiu.phase ≠ .idle → exec (.tiuGo one two) s = .next s) ∧
    (∀ (count : Nat) (code : Int) (time : Nat) (s : State), s.tiu.phase = .armed → s.tiuSourceLive (fget s.tiu.cfg F.TIU_CFG.START) = true →
      exec (.tiuStartEvent count code time) s = .next { s.untilTime time with tiu := { s.tiu with
        phase := .running, startCount := count, startCode := code, startTime := time, startUp := (s.untilTime time).time.up } }) ∧
    (∀ (j : Fin 8) (count : Nat) (code : Int) (s : State), s.tiu.phase = .running → j.val < s.tiu.stops → nbit (fget s.tiu.stat F.TIU_STAT.SEEN) j.val = false →
      s.tiuSourceLive (nbits s.tiu.stopSel.toNat (4 * j.val) 4) = true →
      let r : Int := ((count : Int) - s.tiu.startCount) * 2560 + s.tiu.tau s.tiu.startCode - s.tiu.tau code
      let none := r = 0 ∧ nbits s.tiu.stopSel.toNat (4 * j.val) 4 = fget s.tiu.cfg F.TIU_CFG.START
      (0 ≤ r → r < 2 ^ 32 → ¬ none → ∃ t : Tiu, vget t.res j.val 0 = w32 r.toNat ∧ nbit (fget t.stat F.TIU_STAT.SEEN) j.val = true ∧
        (∀ i, i ≠ j.val → vget t.res i 0 = vget s.tiu.res i 0 ∧ nbit (fget t.stat F.TIU_STAT.SEEN) i = nbit (fget s.tiu.stat F.TIU_STAT.SEEN) i) ∧
        exec (.tiuStopEvent j count code) s = .next (if t.allSeen then ({ s with tiu := t }).tiuDone else { s with tiu := t })) ∧
      ((r < 0 ∨ 2 ^ 32 ≤ r ∨ none) → exec (.tiuStopEvent j count code) s = .next s)) ∧
    (∀ s : State, s.tiu.phase = .running → exec .tiuRangeEnd s = .next (s.untilUp (s.tiu.startUp + 4 * 4194304)).tiuDone) ∧
    (∀ s : State, s.tiu.phase = .armed → ∃ t : Tiu, t.phase = .idle ∧ fbit t.stat F.TIU_STAT.NO_START = true ∧ t.res = s.tiu.res ∧
      exec .tiuNoStart s = .next (({ s.untilUp (s.tiu.goUp + 20 * us + sec) with tiu := t }).tiuAnswer ⟨.noStart, 0, 0xFF⟩)) ∧
    (∀ s : State, ∃ t : Tiu, t.phase = .idle ∧ fbit t.stat F.TIU_STAT.DONE = true ∧ t.res = s.tiu.res ∧ s.tiuDone = ({ s with tiu := t }).tiuAnswer ⟨.ok, 0, 0xFF⟩))

/-- The time base (R269 to R272): references come and go, corrections stay within their limits, and device time is stepped only while no plan runs. The PTP
port (R271, R274, R275): a message counts only on its port and in its domain; an unsupported one is discarded and counted; a stamp is the start of the frame,
to 1.25 ns, corrected by the fixed latency; a source becomes the master at its second Announce; Sync exchanges give the offset. That two Announces qualify a
source and that a delay request follows each exchange at once are presumed (log entry 95). -/
def Obligations.TimeFollowsItsReferences : Prop :=
  let Takes (m : PtpMessage) (s : State) : Prop := m.port.val = s.time.ptp.port ∧ fbit (s.ethPort m.port.val).cfg F.ETH_CFG.ENABLE = true ∧
    fbit (s.ethPort m.port.val).stat F.ETH_STAT.LINK = true
  ((∀ (stamp : Nat) (s : State), let u := s.untilTime stamp
      let edges := (stamp :: u.time.ppsEdges).take 3
      let v := { u with time := { u.time with ppsEdges := edges } }
      (u.usesPps = true → fbit u.time.timeStat F.TIME_STAT.LOCKED = true → 4000 < (secondError stamp).natAbs → edgesAgree edges = false →
        exec (.ppsEdge stamp) s = .next { v with time := { v.time with stat := finc v.time.stat F.TB_STAT.PPS_REJECT } }) ∧
      ((u.usesPps = false ∨ fbit u.time.timeStat F.TIME_STAT.LOCKED = false ∨ (secondError stamp).natAbs ≤ 4000 ∨ edgesAgree edges = true) →
        exec (.ppsEdge stamp) s = .next (v.timeStatus (fun w =>
          let x := { w with time := { w.time with ppsLast := stamp } }
          let back := x.setTimeStat F.TIME_STAT.PPS_PRESENT true
          let y := if fbit x.time.timeStat F.TIME_STAT.PPS_PRESENT = true ∨ edgesAgree edges = false then x
            else if back.freqInput = 2 then back.leaveHoldover else back
          if y.usesPps && fbit y.time.timeStat F.TIME_STAT.PPS_PRESENT && y.time.seconds then y.phaseGiven (secondError stamp) else y)))) ∧
    (∀ t : Nat, (secondError t).natAbs ≤ sec / 2 ∧ ((t : Int) - secondError t) % (sec : Int) = 0) ∧
    (∀ s : State, fbit s.time.timeStat F.TIME_STAT.PPS_PRESENT = true →
      exec .ppsMissing s = .next ((s.untilTime (s.time.ppsLast + 4400000000)).timeStatus (fun u =>
        let v := { u with time := { u.time with ppsEdges := [], timeStat := fsetB u.time.timeStat F.TIME_STAT.PPS_PRESENT false } }
        if v.freqInput = 2 then v.enterHoldover else v))) ∧
    (∀ s : State, exec .ref10mLoss s = .next (s.timeStatus (fun u =>
        let v := u.setTimeStat F.TIME_STAT.REF_PRESENT false
        if v.freqInput = 1 then v.enterHoldover else v))) ∧
    (∀ (ppb : Int) (s : State), ppb.natAbs ≤ 20000 → exec (.ref10mReturn ppb) s = .next (s.timeStatus (fun u =>
        let v := u.setTimeStat F.TIME_STAT.REF_PRESENT true
        if v.freqInput = 1 then v.leaveHoldover else v))) ∧
    (∀ (ppb : Int) (s : State), 20000 < ppb.natAbs → exec (.ref10mReturn ppb) s = .next s) ∧
    (∀ s : State, s.time.holdUp = none → ∃ t : TimeBase, s.enterHoldover = ({ s with time := t }).setCondition srcTimeHoldover true 0 ∧
      t.holdUp = some s.time.up ∧ fbit t.timeStat F.TIME_STAT.LOCKED = false ∧ t.up = s.time.up ∧ t.epoch = s.time.epoch ∧
      (fbit s.time.cfg F.TB_CFG.ENABLE = true → t.steer = w32 (wrapTo 32 t.freqEst)) ∧ (fbit s.time.cfg F.TB_CFG.ENABLE = false → t.steer = s.time.steer) ∧
      (s.time.freqLog = [] → t.freqEst = s.time.freqEst) ∧ (s.time.freqLog ≠ [] → t.freqEst = meanOf (s.time.freqLog.map (·.2)))) ∧
    (∀ (old : Nat) (s : State), s.srcInUse = old →
      s.judgeSource old = if s.freqPresent then s.leaveHoldover else s.enterHoldover) ∧
    (∀ (u : Nat) (s : State), s.time.holdUp = some u →
      exec .holdoverLimit s = .next ((s.untilUp (u + (fget s.time.cfg F.TB_CFG.HOLD_MAX + 1) * sec)).setCondition srcTimeHoldoverLimit true 0)) ∧
    (∀ (locked : Bool) (s : State),
      exec (.tpllLockChange locked) s = .next (({ s with time := { s.time with tpllLocked := locked } }).setCondition srcTcxoLoss (!locked) 0) ∧
      exec (.samplePllLockChange locked) s = .next (({ s with time := { s.time with samplePllLocked := locked } }).setCondition srcSamplePll (!locked) 0))) ∧
  ((∀ (freq err : Int) (elapsed : Nat) (locked : Bool) (s : State), let p := s.pass (elapsed * ms)
      fbit s.time.cfg F.TB_CFG.ENABLE = true → s.srcInUse ≠ 0 → s.srcInUse ≠ 7 → s.time.holdUp = none →
      s.time.freqEst.natAbs ≤ ppm50.natAbs → ∃ (t : TimeBase) (z : Int),
        exec (.disciplineUpdate freq err elapsed locked) s = .next (p.timeStatus (fun _ => { p with time := t })) ∧
        t.freqEst.natAbs ≤ ppm50.natAbs ∧ (t.freqEst - s.time.freqEst).natAbs ≤ (ppm1 * (p.time.up - s.time.loopUp : Nat) / 4000000000).natAbs ∧
        t.steer = w32 (wrapTo 32 z) ∧ z.natAbs ≤ ppm50.natAbs ∧ (z - t.freqEst).natAbs ≤ ppm10.natAbs ∧
        t.loopUp = p.time.up ∧ t.up = p.time.up ∧ t.epoch = s.time.epoch) ∧
    (∀ s : State, s.planRuns = true → exec .timeStep s = .next { s with time := { s.time with stat := fset s.time.stat F.TB_STAT.STEP_REFUSED 1 } }) ∧
    (∀ s : State, s.planRuns = false → ∃ epoch, exec .timeStep s = .next { s with time := { s.time with epoch } } ∧
      (s.time.up + epoch) % 2 ^ 64 = s.time.setLo.toNat + 2 ^ 32 * s.time.setHi.toNat) ∧
    (∀ s : State, s.now + sec < 2 ^ 64 → ∃ (u : State) (r : Nat), exec .ppsOutPulse s = .next u ∧ u.time.ppsRise = some r ∧ r % sec = 0 ∧ s.now ≤ r ∧ r < s.now + sec ∧
      u.now = r ∧ u.time.epoch = s.time.epoch ∧ u.fw = s.fw ∧ u.thr = s.thr ∧ u.loft = s.loft ∧ u.cellar = s.cellar ∧ u.fc = s.fc)) ∧
  ((∀ (m : PtpMessage) (s : State), ¬ Takes m s → exec (.ptpEventMessage m) s = .next s) ∧
    (∀ (m : PtpMessage) (s : State), Takes m s → s.time.ptp.unsupported m = true →
      exec (.ptpEventMessage m) s = .next ((s.untilTime m.sfd).withPtp { s.time.ptp with discarded := s.time.ptp.discarded + 1 })) ∧
    (∀ (m : PtpMessage) (s : State), Takes m s → s.time.ptp.unsupported m = false → m.domain.val ≠ s.time.ptp.domain →
      exec (.ptpEventMessage m) s = .next (s.untilTime m.sfd)) ∧
    (∀ (m : PtpMessage) (s : State), Takes m s → s.time.ptp.unsupported m = false → m.domain.val = s.time.ptp.domain →
      let u := s.untilTime m.sfd
      let p := s.time.ptp
      let at_ := u.ptpStamp false m.sfd
      (∀ (c : PtpClock) (utc : Int), m.body = .announce c utc → ∃ q : PtpPort, exec (.ptpEventMessage m) s = .next (u.withPtp q) ∧
        (m.source, u.time.up) ∈ q.heard ∧ q.discarded = p.discarded ∧
        (p.heard = [] → p.master = none → q.master = none) ∧
        (∀ x ∈ p.heard, x.1 = m.source → u.time.up ≤ x.2 + 4 * ptpInterval p.logAnnounce → p.master = none → c.steps < 255 → p.role = 0 →
          q.master = some (m.source, c) ∧ q.leads = false ∧ q.syncRun = 0 ∧ q.utcOffset = utc) ∧
        (∀ (k : Nat) (c0 : PtpClock), p.master = some (k, c0) → k ≠ m.source → clockBefore c c0 = false → q.master = p.master ∧ q.syncRun = p.syncRun)) ∧
      (∀ (k origin : Nat) (c : PtpClock), m.body = .sync false origin → p.master = some (k, c) → k = m.source →
        exec (.ptpEventMessage m) s = .next (State.ptpExchange (at_ - (origin * 65536 + m.correction))
          (u.withPtp { p with syncUp := u.time.up, begun := some (m.seq.val, at_ - m.correction) }))) ∧
      (∀ (twoStep : Bool) (origin : Nat), m.body = .sync twoStep origin → (∀ k c, p.master = some (k, c) → k ≠ m.source) →
        exec (.ptpEventMessage m) s = .next u) ∧
      (∀ (origin k : Nat) (c : PtpClock) (b : Int), m.body = .followUp origin → p.master = some (k, c) → k = m.source → p.begun = some (m.seq.val, b) →
        exec (.ptpEventMessage m) s = .next (u.ptpExchange (b - (origin * 65536 + m.correction)))) ∧
      (m.body = .managementGet → exec (.ptpEventMessage m) s = .next (u.ptpAnswer m.seq.val [.got m.source]))) ∧
    (∀ (ahead d : Int) (s : State), s.time.ptp.delay = some d →
      let p := { s.time.ptp with ahead := some ahead, begun := none, syncRun := s.time.ptp.syncRun + 1, offset := ahead - d }
      s.ptpExchange ahead = ((s.withPtp p).timeStatus (fun u =>
        let back := u.setTimeStat F.TIME_STAT.PTP_PRESENT true
        let v := if p.syncRun < 16 ∨ fbit u.time.timeStat F.TIME_STAT.PTP_PRESENT = true then u
          else if back.freqInput = 3 then back.leaveHoldover else back
        if fbit v.time.timeStat F.TIME_STAT.PTP_PRESENT = true ∧ v.usesPtp = true
          then State.phaseGiven (divHalfAway (ahead - d) 16384) { v with time := { v.time with seconds := true } } else v)).ptpAsk) ∧
    (∀ (send : Bool) (t : Nat) (s : State), let x := s.ethPort s.time.ptp.port
      let fast := fbit x.stat F.ETH_STAT.AT_25G
      s.ptpStamp send t = ptpTime (t / 5 * 5) + (if send then 1 else -1) * 16384 * Config.ptpLatency fast (fast && fbit x.cfg F.ETH_CFG.FEC) send) ∧
    (∀ (s : State), let p := s.time.ptp
      let sync := p.syncUp + 4 * ptpInterval p.logSync
      let announce := p.announceUp + p.receiptTimeout * ptpInterval p.logAnnounce
      let first := p.syncRun ≠ 0 ∧ sync < announce
      let q := if first then { p with syncRun := 0 } else { p.forget with master := none, leads := decide (p.role = 1) }
      let t := if first then sync else announce
      exec .ptpTimeout s = .next ((s.untilUp t).timeStatus (fun u =>
        let v := (u.withPtp q).setTimeStat F.TIME_STAT.PTP_PRESENT false
        if v.freqInput = 3 then v.enterHoldover else v))))

/-! ### Mailboxes, doorbells, locks -/

/-- The mailbox block (R343 to R349): words enter and leave its queues in order; carriers that are not allowed move none; stalls, sleep and waking. -/
def Obligations.MailboxQueues : Prop :=
  ((∀ (p : Path) (c : Fin 8) (first : Fin 16) (n m : Fin 17) (ws : List Word) (whole : Bool) (s : State), s.mbAvailable = false →
      exec (.mbInWrite p c first ws whole) s = .next (s.domainError p) ∧ exec (.mbOutRead p c n m whole) s = .next ((s.returned p [0]).domainError p) ∧
      exec (.mbInDiscard p c) s = .next (s.domainError p)) ∧
    (∀ (p : Path) (c : Fin 8) (first : Fin 16) (n m : Fin 17) (ws : List Word) (whole : Bool) (s : State), s.mbAvailable = true → s.carrierAllowed p c.val = false →
      let denied (t : State) : State := if c.val = 4 ∨ c.val = 5 then t.countDenied else t
      exec (.mbInWrite p c first ws whole) s = .next (denied s) ∧ exec (.mbOutRead p c n m whole) s = .next (denied (s.returned p [0])) ∧
      exec (.mbInDiscard p c) s = .next (denied s)) ∧
    (∀ (p : Path) (c : Fin 8) (first : Fin 16) (n m : Fin 17) (ws : List Word) (s : State), s.mbAvailable = true → s.carrierAllowed p c.val = true →
      exec (.mbInWrite p c first ws true) s = .next ((ws.take (16 - first.val)).foldl (fun t w => t.pushWord c.val w) s) ∧
      (∃ x : Mailbox, exec (.mbInWrite p c first ws false) s = .next (s.setChan c.val x) ∧ fbit x.stat F.MB_STAT.SIZE_ERR = true ∧ x.inq = (s.chan c.val).inq ∧
        x.outq = (s.chan c.val).outq) ∧
      (∃ x : Mailbox, exec (.mbOutRead p c n m false) s = .next ((s.returned p [0]).setChan c.val x) ∧ fbit x.stat F.MB_STAT.SIZE_ERR = true ∧
        x.outq = (s.chan c.val).outq) ∧
      (∃ u : State, exec (.mbOutRead p c n m true) s = .next (u.returned p
          (((s.chan c.val).outq ++ List.replicate 16 0).take (min m.val (16 - n.val)))) ∧
        (u.chan c.val).outq = (s.chan c.val).outq.drop (min m.val (16 - n.val)) ∧ (u.chan c.val).inq = (s.chan c.val).inq ∧
        ((s.chan c.val).outq.length < min m.val (16 - n.val) → fbit (u.chan c.val).stat F.MB_STAT.OUT_UNDER = true) ∧
        (∀ d, d ≠ c.val → u.chan d = s.chan d) ∧ u.fw = s.fw ∧ u.mb.dbD2h = s.mb.dbD2h) ∧
      exec (.mbInDiscard p c) s = .next (if (s.chan c.val).inFull then s else s.setChan c.val { s.chan c.val with inq := [] })) ∧
    (∀ (c : Nat) (w : Word) (s : State), c < 8 →
      ((s.chan c).inFull = true → ((s.pushWord c w).chan c).inq = (s.chan c).inq ∧ fbit ((s.pushWord c w).chan c).stat F.MB_STAT.IN_OVF = true ∧
        (s.pushWord c w).mb.dbH2d = s.mb.dbH2d) ∧
      ((s.chan c).inFull = false → ((s.pushWord c w).chan c).inq = (s.chan c).inq ++ [w] ∧
        (((s.pushWord c w).chan c).inFull = true → nbit (s.pushWord c w).mb.dbH2d.toNat c = true ∧
          ((s.pushWord c w).chan c).count = finc (s.chan c).count F.MB_COUNT.IN_MSGS) ∧
        (((s.pushWord c w).chan c).inFull = false → (s.pushWord c w).mb.dbH2d = s.mb.dbH2d)) ∧
      ((s.pushWord c w).chan c).outq = (s.chan c).outq ∧ ∀ d, d ≠ c → (s.pushWord c w).chan d = s.chan d) ∧
    (∀ m : Mailbox, m.inFull = true ↔ ∃ h rest, m.inq = h :: rest ∧ nbits h.toNat 0 4 + 1 ≤ m.inq.length)) ∧
  ((∀ (c : Fin 8) (u : Nat) (s : State), (s.chan c.val).stallUp = some u → ∃ x : Mailbox,
      exec (.mbStallTimeout c) s = .next (((((s.untilUp (u + s.stallMs * ms)).setChan c.val x).ring 10).ringH2d 15).report srcMailboxStall c.val) ∧
        fbit x.stat F.MB_STAT.STALL = true ∧ fget x.stat F.MB_STAT.STALLS = fget (finc (s.chan c.val).stat F.MB_STAT.STALLS) F.MB_STAT.STALLS ∧
        x.inq = (s.chan c.val).inq ∧ x.outq = (s.chan c.val).outq) ∧
    (∀ s : State, s.mbAvailable = true → s.inRest = true → s.mb.quiet = true → s.boot.phase = .ready → ∃ avail,
      exec .mbSleep s = .next { s with mb := { s.mb with avail } } ∧ fget avail F.MB_AVAIL.STATE = 2) ∧
    (∀ s : State, s.mbAvailable = false ∨ s.inRest = false ∨ s.mb.quiet = false → exec .mbSleep s = .next s) ∧
    (∀ (w : Word) (s : State), ∃ avail, exec (.mailboxWake w) s = .next { s with mb := { s.mb with dbH2d := s.mb.dbH2d ||| (w &&& 0x07FFFFFF), avail } } ∧
      (w &&& 0x07FFFFFF ≠ 0 → fget s.mb.avail F.MB_AVAIL.STATE = 2 → fget avail F.MB_AVAIL.STATE = 0) ∧
      ((w &&& 0x07FFFFFF = 0 ∨ fget s.mb.avail F.MB_AVAIL.STATE ≠ 2) → avail = s.mb.avail)))

/-- Doorbells and MSI-X messages (R351, R384): ones clear a doorbell; each bit that becomes pending and unmasked is one cause of its vector's message; a message
within the holdoff is owed until that ends; a masked vector collects it in its pending bit. -/
def Obligations.DoorbellsSendTheirMessages : Prop :=
  (∀ (w : Word) (s : State), exec (.dbD2hClear w) s = .next { s with mb := { s.mb with dbD2h := s.mb.dbD2h &&& ~~~w } }) ∧
  (∀ (w : Word) (s : State), ∃ vs : List Nat,
    exec (.dbD2hMaskWrite w) s = .next (vs.foldl (fun t v => t.msixCause v) { s with mb := { s.mb with dbMask := w } }) ∧ vs.Nodup ∧
      ∀ v, v ∈ vs ↔ v < 32 ∧ nbit s.mb.dbD2h.toNat v = true ∧ nbit s.mb.dbMask.toNat v = true ∧ nbit w.toNat v = false) ∧
  (∀ (b : Nat) (s : State), b < 32 →
    ((nbit s.mb.dbD2h.toNat b = true ∨ nbit s.mb.dbMask.toNat b = true) → s.ring b = { s with mb := { s.mb with dbD2h := s.mb.dbD2h ||| (1#32 <<< b) } }) ∧
    (nbit s.mb.dbD2h.toNat b = false → nbit s.mb.dbMask.toNat b = false →
      s.ring b = ({ s with mb := { s.mb with dbD2h := s.mb.dbD2h ||| (1#32 <<< b) } }).msixCause b)) ∧
  (∀ (v : Nat) (s : State), v < 32 →
    (fbit s.host.hintCfg F.HINT_CFG.ENABLE = false → s.msixCause v = s) ∧
    (fbit s.host.hintCfg F.HINT_CFG.ENABLE = true → s.msix.lastUp.find? (fun p => p.1 == v) = none → s.msixCause v = s.msixSend v) ∧
    (fbit s.host.hintCfg F.HINT_CFG.ENABLE = true → ∀ p, s.msix.lastUp.find? (fun p => p.1 == v) = some p → p.2 + s.holdoff ≤ s.time.up →
      s.msixCause v = s.msixSend v) ∧
    (fbit s.host.hintCfg F.HINT_CFG.ENABLE = true → ∀ p, s.msix.lastUp.find? (fun p => p.1 == v) = some p → s.time.up < p.2 + s.holdoff →
      ∃ owed, s.msixCause v = { s with msix := { s.msix with owed } } ∧ v ∈ owed ∧ (∀ x, x ∈ owed ↔ x ∈ s.msix.owed ∨ x = v)) ∧
    (nbit s.msix.tableMask.toNat v = true → s.msixSend v = { s with msix := { s.msix with pba := s.msix.pba ||| (1#32 <<< v) } }) ∧
    (nbit s.msix.tableMask.toNat v = false → (s.msixSend v).msix.sent = s.msix.sent ++ [v] ∧ (s.msixSend v).msix.pba = s.msix.pba ∧ (s.msixSend v).mb = s.mb ∧
      (s.msixSend v).host.hintSent = s.host.hintSent + 1)) ∧
  (∀ (v : Fin 32) (s : State), s.msix.owed.contains v.val = true →
    let last := ((s.msix.lastUp.find? (fun p => p.1 == v.val)).map (·.2)).getD 0
    let u := { s.untilUp (last + s.holdoff) with msix := { s.msix with owed := s.msix.owed.filter (· != v.val) } }
    exec (.msixHoldoffEnd v) s = .next (if nbit u.hintPend.toNat v.val && fbit s.host.hintCfg F.HINT_CFG.ENABLE then u.msixSend v.val else u)) ∧
  (∀ (p : Path) (w : Word) (s : State), fbit s.host.hintCfg F.HINT_CFG.ENABLE = false → ∃ (hintCfg idStat : Word),
    fbit hintCfg F.HINT_CFG.ENABLE = fbit w F.HINT_CFG.ENABLE ∧ fget hintCfg F.HINT_CFG.HOLDOFF_US = fget w F.HINT_CFG.HOLDOFF_US ∧
    let t := { s with host := { s.host with hintCfg, idStat } }
    exec (.hintEnableSet p w) s = .next (if fbit w F.HINT_CFG.ENABLE then t.msixAll s.hintPend else t))

/-- The locks (R354 to R356): a read of a free lock takes it, a read of an owned one gives its owner, the owner frees it by writing its own number, and no
other access changes the owner: a lock has one owner at a time. Of reads in one cycle the lowest requester number wins. -/
def Obligations.LocksExclude : Prop :=
  (∀ (k : Fin 32) (a : LockAccess) (s : State), s.lockRefused a = false → ∃ u : State, exec (.lockRead k [a] []) s = .next u ∧
    u.host = { s.host with readBack := vset s.host.readBack (pathReq a.path) [w32 (s.lockOwner k.val)] } ∧
    (s.lockOwner k.val = 0 → u.lockOwner k.val = lockReq a) ∧ (s.lockOwner k.val ≠ 0 → u.mb.locks = s.mb.locks) ∧
    (∀ j, j ≠ k.val → u.lockOwner j = s.lockOwner j)) ∧
  (∀ (k : Fin 32) (a : LockAccess) (s : State), s.lockRefused a = true →
    exec (.lockRead k [a] []) s = .next (s.countDenied.returned a.path [0xFF]) ∧ ∀ w, exec (.lockWrite k a w) s = .next s.countDenied) ∧
  (∀ (k : Fin 32) (a : LockAccess) (w : Word) (s : State), s.lockRefused a = false → s.lockOwner k.val ≠ 0 → nbits w.toNat 0 3 = s.lockOwner k.val →
    lockReq a = s.lockOwner k.val → ∃ u : State, exec (.lockWrite k a w) s = .next u ∧ u.lockOwner k.val = 0 ∧ u.mb.lockStat = s.mb.lockStat ∧
      ∀ j, j ≠ k.val → u.lockOwner j = s.lockOwner j) ∧
  (∀ (k : Fin 32) (a : LockAccess) (w : Word) (s : State), s.lockRefused a = false →
    (s.lockOwner k.val = 0 ∨ nbits w.toNat 0 3 ≠ s.lockOwner k.val ∨ lockReq a ≠ s.lockOwner k.val) → ∃ lockStat,
      exec (.lockWrite k a w) s = .next { s with mb := { s.mb with lockStat } } ∧ fbit lockStat F.LOCK_STAT.BAD_RELEASE = true ∧
        fget lockStat F.LOCK_STAT.LOCK = k.val ∧ fget lockStat F.LOCK_STAT.REQ = lockReq a ∧
        fget lockStat F.LOCK_STAT.BAD_COUNT = (fget s.mb.lockStat F.LOCK_STAT.BAD_COUNT + 1) % 2 ^ F.LOCK_STAT.BAD_COUNT.len) ∧
  (∀ (k : Fin 32) (reads : List LockAccess) (writes : List (LockAccess × Word)) (s u : State), exec (.lockRead k reads writes) s = .next u →
    (s.lockOwner k.val ≠ 0 → (∀ x ∈ writes, lockReq x.1 ≠ s.lockOwner k.val) → u.lockOwner k.val = s.lockOwner k.val) ∧
    (s.lockOwner k.val = 0 → writes = [] → ∀ a ∈ reads, s.lockRefused a = false → (∀ b ∈ reads, s.lockRefused b = false → lockReq a ≤ lockReq b) →
      u.lockOwner k.val = lockReq a) ∧
    (∀ j, j ≠ k.val → u.lockOwner j = s.lockOwner j))

/-- Values wider than a word are read whole (R251, R266, R314, R380): by the snapshot mailbox, or by latches that the low word's read takes. -/
def Obligations.SnapshotsAreWhole : Prop :=
  ((∀ (p : Path) (i : Nat) (ws : List Word) (s : State), wideCopy p = some i → fbit (vget s.host.wide i {}).stat F.WIDE_STAT.BUSY = true →
      let index := fget (vget s.host.wide i {}).sel F.WIDE_SEL.INDEX
      s.wideValue index = some (some ws) → ∃ m : WideMailbox, exec (.wideCaptureDone p) s = .next (s.setWide i m) ∧ fbit m.stat F.WIDE_STAT.VALID = true ∧
        fbit m.stat F.WIDE_STAT.BUSY = false ∧ fget m.stat F.WIDE_STAT.ERR = 0 ∧ fget m.stat F.WIDE_STAT.INDEX = index ∧ ∀ j, j < 4 → vget m.data j 0 = wat ws j) ∧
    (∀ (p : Path) (s : State), wideCopy p = none ∨ (∃ i, wideCopy p = some i ∧ fbit (vget s.host.wide i {}).stat F.WIDE_STAT.BUSY = false) →
      exec (.wideCaptureDone p) s = .next s) ∧
    (∀ (p : Path) (i : Nat) (s : State), wideCopy p = some i → ∃ m : WideMailbox,
      exec (.wideData3Read p) s = .next ((s.setWide i m).returned p [vget (vget s.host.wide i {}).data 3 0]) ∧ fbit m.stat F.WIDE_STAT.VALID = false ∧
        m.data = (vget s.host.wide i {}).data ∧ m.sel = (vget s.host.wide i {}).sel) ∧
    (∀ (i : Nat) (m : WideMailbox) (s : State), i < 3 → vget (s.setWide i m).host.wide i {} = m ∧
      (∀ j, j ≠ i → vget (s.setWide i m).host.wide j {} = vget s.host.wide j {}) ∧ (s.setWide i m).mb = s.mb)) ∧
  ((∀ s : State, s.power.loft = true → ∃ v : VectorUnit, exec .vecFrameLoRead s =
        .next (({ s with loft := { s.loft with vec := v } }).returned .study [w32 s.loft.vec.frameTime]) ∧
      v.latchBits = s.loft.vec.bits ∧ v.latchHi = w32 (s.loft.vec.frameTime / 2 ^ 32) ∧ v.latched = true ∧ v.bits = s.loft.vec.bits ∧ v.frameTime = s.loft.vec.frameTime) ∧
    (∀ (u : Fin 16) (s : State), s.power.loft = true → let x := vget s.trig.units u.val {}
      exec (.trigFireLoRead u) s = .next (({ s with trig := { s.trig with units := vset s.trig.units u.val { x with fireLatch := x.fireHi } } }).returned .study [x.fireLo])) ∧
    (∀ (n : Fin 8) (s : State), s.power.cellar = true → let x := vget s.streams.str n.val {}
      exec (.strHeadLoRead n) s = .next (({ s with streams := { s.streams with str := vset s.streams.str n.val { x with headLatch := x.headHi } } }).returned .study [x.headLo])) ∧
    (∀ s : State, s.power.loft = false → exec .vecFrameLoRead s = .next (s.returned .study [0])) ∧
    (∀ (p : Path) (ws : List Word) (s : State), vget (s.returned p ws).host.readBack (pathReq p) [] = ws ∧
      ∀ q, pathReq q ≠ pathReq p → vget (s.returned p ws).host.readBack (pathReq q) [] = vget s.host.readBack (pathReq q) []))

/-- A WIDE_SEL write (R381): it starts a capture anew whatever was in progress; an index that is not listed, or whose domain is off, completes at once with ERR 1 or 2
and DATA at 0; FLR and PERST_N clear the copy of PCIe. -/
def Obligations.WideSelectStartsOrAnswers : Prop :=
  (∀ (p : Path) (i : Nat) (index : Fin 256) (s : State), wideCopy p = some i → ∃ m : WideMailbox, exec (.wideSelWrite p index) s = .next (s.setWide i m) ∧
    fget m.sel F.WIDE_SEL.INDEX = index.val ∧
    (∀ err, ((s.wideValue index.val = none ∧ err = 1) ∨ (s.wideValue index.val = some none ∧ err = 2)) → fbit m.stat F.WIDE_STAT.BUSY = false ∧
      fbit m.stat F.WIDE_STAT.VALID = true ∧ fget m.stat F.WIDE_STAT.ERR = err ∧ fget m.stat F.WIDE_STAT.INDEX = index.val ∧ ∀ j, j < 4 → vget m.data j 0 = 0) ∧
    (∀ ws, s.wideValue index.val = some (some ws) → fbit m.stat F.WIDE_STAT.BUSY = true ∧ fbit m.stat F.WIDE_STAT.VALID = false ∧ m.data = (vget s.host.wide i {}).data)) ∧
  (∀ (p : Path) (index : Fin 256) (s : State), wideCopy p = none → exec (.wideSelWrite p index) s = .next s) ∧
  (∀ (index : Nat) (s : State), s.wideValue index = none ↔ ¬ (index ≤ 0x04 ∨ (0x10 ≤ index ∧ index ≤ 0x37))) ∧
  (∀ (index : Nat) (s : State), s.wideValue index = some none ↔ 0x20 ≤ index ∧ index ≤ 0x2F ∧ s.power.front = false) ∧
  (∀ s u : State, (exec .flr s = .next u ∨ exec .perstNAssert s = .next u) → vget u.host.wide 0 {} = ({} : WideMailbox))

/-- The alias words (R378): bit b of the control-page word at offset o has its alias at 0x8000 + 32 o + 4 b; a read gives that bit, a write acts by bit 0 of what is
written alone. -/
def Obligations.AliasWordsNameOneBit : Prop :=
  ∀ (a : AliasAccess) (w : Word) (s : State), let word := 0x8000 + 32 * (4 * a.word.val) + 4 * a.bit.val
    s.hostWrite a.path word w = s.aliasWrite { a with v := nbit w.toNat 0 } ∧
    s.hostRead a.path word = s.returned a.path [w32 (nbit (s.controlWord (4 * a.word.val)).toNat a.bit.val).toNat]

/-- Register writes act by the type of each bit (R6, R375, R377), alias writes on one bit (R379). A room that is off takes no write (R12). -/
def Obligations.RegistersByTypeAndAlias : Prop :=
  ((∀ (k : RegKind) (en : Bool) (old w : Word) (b : Nat), b < 32 → nbit k.w1c.toNat b = false → nbit k.w1s.toNat b = false →
      nbit (regWrite k en old w).word.toNat b =
        (if nbit k.rw.toNat b ∨ nbit k.keep.toNat b ∨ (nbit k.rwe.toNat b ∧ en = false) then nbit w.toNat b else nbit old.toNat b)) ∧
    (∀ (k : RegKind) (en : Bool) (old w : Word) (b : Nat), b < 32 → nbit k.w1c.toNat b = true → nbit k.w1s.toNat b = false → nbit k.rw.toNat b = false →
      nbit k.rwe.toNat b = false → nbit k.keep.toNat b = false → nbit (regWrite k en old w).word.toNat b = (nbit old.toNat b && !nbit w.toNat b)) ∧
    (∀ (k : RegKind) (en : Bool) (old w : Word) (b : Nat), b < 32 → nbit k.w1s.toNat b = true → nbit k.w1c.toNat b = false → nbit k.rw.toNat b = false →
      nbit k.rwe.toNat b = false → nbit k.keep.toNat b = false → nbit (regWrite k en old w).word.toNat b = (nbit old.toNat b || nbit w.toNat b)) ∧
    (∀ (k : RegKind) (en : Bool) (old w : Word), (regWrite k en old w).ignored = true ↔
      en = true ∧ ∃ b, b < 32 ∧ nbit k.rwe.toNat b = true ∧ nbit w.toNat b ≠ nbit old.toNat b) ∧
    (∀ (k : RegKind) (en : Bool) (old w : Word), (regWrite k en old w).keepAltered = true ↔
      ∃ b, b < 32 ∧ nbit k.keep.toNat b = true ∧ nbit w.toNat b ≠ nbit old.toNat b) ∧
    (∀ (off : Fin 65536) (p : Path) (be : Fin 16) (w : Word) (s : State),
      exec (.registerWrite .hostMap off p be w) s = .next (s.hostWriteBytes p off.val be.val w) ∧
      exec (.registerWrite .hearth off p be w) s = .next (if s.power.hearth then s.writeHearth off.val w else s) ∧
      exec (.registerWrite .threshold off p be w) s = .next (if s.power.front then s.writeThreshold off.val w else s) ∧
      exec (.registerWrite .hall off p be w) s = .next (if s.power.front then s.writeHall off.val w else s) ∧
      exec (.registerWrite .loft off p be w) s = .next (if s.power.loft then s.writeLoft off.val w else s) ∧
      exec (.registerWrite .timeBase off p be w) s = .next (s.writeTimeBase off.val w) ∧
      exec (.registerWrite .cellar off p be w) s = .next (if s.power.cellar then s.writeCellar off.val w else s) ∧
      exec (.registerWrite .compression off p be w) s = .next (if s.power.cellar then s.writeComp off.val w else s) ∧
      exec (.registerWrite .porch off p be w) s = .next (s.writePorch off.val w) ∧
      exec (.registerWrite .startup off p be w) s = .next (s.writeStartup off.val w)) ∧
    (∀ (off : Fin 65536) (p : Path) (be : Fin 16) (w : Word) (s : State), be.val ≠ 15 → ¬ (0x400 ≤ off.val / 4 * 4 ∧ off.val / 4 * 4 < 0x800) →
      ∃ t : State, exec (.registerWrite .hostMap off p be w) s = .next t ∧ fbit t.host.wiStat F.WI_STAT.PARTIAL = true ∧ t.host.wiData = w ∧
        fget t.host.wiCapt F.WI_CAPT.OFFSET = off.val / 4 * 4 ∧ fget t.host.wiCapt F.WI_CAPT.REQ = pathReq p ∧ t.mb = s.mb ∧ t.time = s.time ∧ t.fc = s.fc)) ∧
  ((∀ (a : AliasAccess) (s : State), exec (.aliasWrite [a]) s = .next (s.aliasWrite a)) ∧
    (∀ (a b : AliasAccess) (s : State), a.path = .pcie → b.path = .spi → exec (.aliasWrite [a, b]) s = .next ((s.aliasWrite b).aliasWrite a) ∧
      exec (.aliasWrite [b, a]) s = .next ((s.aliasWrite b).aliasWrite a)) ∧
    (∀ (a : AliasAccess) (s : State), a.word.val = 3 → ∀ b, b ≠ a.bit.val → b ≠ F.ID_STAT.KEEP_ALTERED.lo →
      nbit (s.aliasWrite a).host.idStat.toNat b = nbit s.host.idStat.toNat b) ∧
    (∀ (a : AliasAccess) (s : State), a.word.val ≠ 3 → a.word.val ≠ 0x80 → s.aliasWrite a = s))

/-! ### Registers and the ports of the Porch -/

/-- The management SPI and the debug port (R326, R327, R342): a whole write stores its words in order; a read gives its words; what a transaction cannot report is owed to
the next one; GO runs one access. -/
def Obligations.SpiAndDebugAccess : Prop :=
  (∀ (bytes : List Byte) (s : State), 4 ≤ bytes.length → leAt bytes 0 1 = 2 →
    let n := leAt bytes 3 1
    let off := leAt bytes 1 2 / 4 * 4
    1 ≤ n → n ≤ 16 → off + 4 * n ≤ 0x10000 → bytes.length = 5 + 4 * n → ∃ t : State,
      exec (.spiTransaction bytes false) s = .next t ∧
      (let u := State.spiWrite ((wordsOfBytes (bytes.drop 4)).take n) off { s with porch := { s.porch with spi := { s.porch.spi with status := 0 } } }
       t = { u with porch := { u.porch with spi := { status := 0xA0 ||| s.porch.spi.owed ||| u.porch.spi.status % 2, owed := 0 } } })) ∧
  (∀ (bytes : List Byte) (s : State), 4 ≤ bytes.length → leAt bytes 0 1 = 1 →
    let n := leAt bytes 3 1
    let off := leAt bytes 1 2 / 4 * 4
    1 ≤ n → n ≤ 16 → off + 4 * n ≤ 0x10000 → bytes.length = 6 + 4 * n →
      let r := State.spiRead n off { s with porch := { s.porch with spi := { s.porch.spi with status := 0 } } }
      exec (.spiTransaction bytes false) s = .next ((r.2.returned .spi r.1).withSpi { status := 0xA0 ||| s.porch.spi.owed ||| r.2.porch.spi.status % 2, owed := 0 }) ∧
        r.1.length = n) ∧
  (∀ (bytes : List Byte) (cut : Bool) (s : State), 4 ≤ bytes.length → leAt bytes 0 1 ≠ 1 → leAt bytes 0 1 ≠ 2 →
    exec (.spiTransaction bytes cut) s = .next { s with porch := { s.porch with spi := { s.porch.spi with owed := s.porch.spi.owed ||| 4 } } }) ∧
  (∀ (bytes : List Byte) (s : State), 4 ≤ bytes.length → (leAt bytes 0 1 = 1 ∨ leAt bytes 0 1 = 2) →
    (leAt bytes 3 1 = 0 ∨ 16 < leAt bytes 3 1 ∨ 0x10000 < leAt bytes 1 2 / 4 * 4 + 4 * leAt bytes 3 1) → ∃ spi : Spi,
      exec (.spiTransaction bytes false) s = .next { s with porch := { s.porch with spi } }) ∧
  (∀ (w : Word) (ws : List Word) (off : Nat) (s : State), State.spiWrite (w :: ws) off s = State.spiWrite ws (off + 4) (s.hostWrite .spi off w)) ∧
  (∀ (reg : BitVec 52) (s : State), nbit reg.toNat 49 = true → ∃ d : Dbg,
    let off := nbits reg.toNat 32 16 / 4 * 4
    let w := w32 (nbits reg.toNat 0 32)
    let s1 := { s with porch := { s.porch with dbg := d } }
    d.captured = s.porch.dbg.capture ∧ d.connected = true ∧ d.errDomain = false ∧
      exec (.dbgUpdateDr reg) s = .next (if nbit reg.toNat 48 then (s1.hostWrite .debug off w).withDbg { (s1.hostWrite .debug off w).porch.dbg with
          data := w, offset := off, write := true, done := true }
        else (s1.hostRead .debug off).withDbg { (s1.hostRead .debug off).porch.dbg with
          data := (s1.hostRead .debug off).lastRead .debug, offset := off, write := false, done := true })) ∧
  (∀ (reg : BitVec 52) (s : State), nbit reg.toNat 49 = false → exec (.dbgUpdateDr reg) s = .next { s with porch := { s.porch with
    dbg := { s.porch.dbg with captured := s.porch.dbg.capture, done := false, connected := true } } }) ∧
  (∀ s : State, ∃ u : State, exec .debugDisconnect s = .next u ∧ u.porch = { s.porch with dbg := { s.porch.dbg with connected := false } } ∧
    (∀ k, k < 32 → u.lockOwner k = if s.lockOwner k = 5 then 0 else s.lockOwner k) ∧ u.mb.chan = s.mb.chan ∧ u.fw = s.fw)

/-- PCIe (R316, R318, R319): PERST_N, FLR and D3hot stop the host's channels, streams, queues and locks; a channel takes the buffer of a descriptor that it owns. -/
def Obligations.PcieResetsAndDescriptors : Prop :=
  (∀ s : State, exec .perstNAssert s = .next (s.hostStop.clearWidePcie.withPcie { s.porch.pcie with perst := true, configReady := false, d3hot := false }) ∧
    exec .flr s = .next (s.hostStop.clearWidePcie.withPcie { s.porch.pcie with d3hot := false }) ∧
    exec .d3hotEntry s = .next (s.hostStop.withPcie { s.porch.pcie with d3hot := true }) ∧
    exec .perstNRelease s = .next (s.withPcie { s.porch.pcie with perst := false, configReady := true })) ∧
  (∀ s : State, (∀ c, c < 6 → (s.hostStop.chan c).inq = [] ∧ (s.hostStop.chan c).outq = []) ∧ (∀ c, 6 ≤ c → s.hostStop.chan c = s.chan c) ∧
    (∀ k, k < 32 → s.hostStop.lockOwner k = if s.lockOwner k = 1 ∨ s.lockOwner k = 2 then 0 else s.lockOwner k) ∧ s.hostStop.unlocked = false ∧
    (∀ ch, ch < 3 → vget s.hostStop.porch.h2d ch {} = ({} : H2dChannel)) ∧ s.hostStop.cellar = s.cellar ∧ s.hostStop.probe = s.probe ∧ s.hostStop.porch.eth = s.porch.eth) ∧
  (∀ (ch : Fin 3) (d : H2dDescriptor) (s : State), s.porch.pcie.alive = true → (vget s.porch.h2d ch.val {}).waiting = false →
    ((vget s.porch.h2d ch.val {}).next = 0 ∨ (vget s.porch.h2d ch.val {}).next = d.addr) → (vget s.porch.h2d ch.val {}).back = none →
    (d.own = true → exec (.h2dDescriptorRead ch d) s = .next (State.fillReplay ch.val { s with porch := { s.porch with
        h2d := vset s.porch.h2d ch.val { waiting := d.next == 0, next := d.next, count := (vget s.porch.h2d ch.val {}).count + 1, rest := d.data
                                         back := some { addr := d.addr, used := d.data.length, status := 1, data := [] } } } })) ∧
    (d.own = false → ∃ c : H2dChannel, exec (.h2dDescriptorRead ch d) s = .next { s with porch := { s.porch with h2d := vset s.porch.h2d ch.val c } } ∧
      c.waiting = true ∧ c.next = d.addr)) ∧
  (∀ (ch : Fin 3) (d : H2dDescriptor) (s : State), s.porch.pcie.alive = false ∨
      ((vget s.porch.h2d ch.val {}).waiting = true ∧ (vget s.porch.h2d ch.val {}).back = none) →
    exec (.h2dDescriptorRead ch d) s = .next s) ∧
  (∀ (ch : Fin 3) (d : H2dDescriptor) (b : DescDone) (s : State), s.porch.pcie.alive = true → (vget s.porch.h2d ch.val {}).back = some b →
    let n := if ch.val < 2 then 131072 - (s.hall ch.val).replay.held else (vget s.porch.h2d ch.val {}).rest.length
    ∃ u : State, exec (.h2dDescriptorRead ch d) s = .next (u.takeBuffer ch.val ((vget s.porch.h2d ch.val {}).rest.take n)) ∧ u.halls = s.halls ∧
      (vget u.porch.h2d ch.val {}).rest = (vget s.porch.h2d ch.val {}).rest.drop n ∧
      ((vget s.porch.h2d ch.val {}).rest.length ≤ n → (vget u.porch.h2d ch.val {}).back = none ∧ u.porch.done = s.porch.done ++ [b]) ∧
      (n < (vget s.porch.h2d ch.val {}).rest.length → (vget u.porch.h2d ch.val {}).back = some b ∧ u.porch.done = s.porch.done)) ∧
  (∀ (ch : Nat) (data : List Byte) (s : State), ch < 2 → let r := ((s.takeBuffer ch data).hall ch).replay
    r.blocks.flatten ++ r.part = (s.hall ch).replay.blocks.flatten ++ (s.hall ch).replay.part ++ data) ∧
  (∀ (ch : Fin 3) (s : State), nbit s.mb.dbH2d.toNat (24 + ch.val) = true → ∃ u : State, exec (.h2dChainExtended ch) s = .next u ∧
    (vget u.porch.h2d ch.val {}).waiting = false ∧ (vget u.porch.h2d ch.val {}).next = (vget s.porch.h2d ch.val {}).next ∧
    nbit u.mb.dbH2d.toNat (24 + ch.val) = false ∧ (∀ b, b ≠ 24 + ch.val → nbit u.mb.dbH2d.toNat b = nbit s.mb.dbH2d.toNat b)) ∧
  (∀ (data : List Byte) (s : State), s.takeBuffer 2 data = { s with fw := { s.fw with bulk := s.fw.bulk ++ [data] } }) ∧
  (∀ (up aer : Bool) (s : State), let s1 := { s with porch := { s.porch with pcie := { s.porch.pcie with link := up } } }
    exec (.pcieLinkChange up aer) s = .next (if (s.porch.pcie.link = true ∧ up = false) ∨ aer = true then s1.report srcPcieLink 0 else s1))

/-! ### Triggers, streams, replay -/

/-- Triggers fire on their versions (R255 to R261, Table 14.1), and the copier takes their records in order (R28, R254, R262, R263). -/
def Obligations.TriggersFireAndRecordsAreCopied : Prop :=
  ((∀ (u : Fin 16) (v : Version) (rest : List Version) (s : State), (s.unit u.val).queue = v :: rest →
      let y := (s.unit u.val).advance v.frame
      let missing := y.c.on && y.c.ring && (s.awaits v.time).any (fun d => (s.verdictOf d v.time).isNone)
      let waits := y.c.on && y.waitsAt v.frame && !s.copied y
      (missing = true → exec (.triggerVersion u) s = .next s) ∧
      (missing = false → waits = true → ∃ stat, exec (.triggerVersion u) s = .next (s.setUnit u.val { s.unit u.val with stat }) ∧
        (fbit (s.unit u.val).stat F.TRIG_STAT.WAITING = false → fbit stat F.TRIG_STAT.WAITING = true) ∧
        (fbit (s.unit u.val).stat F.TRIG_STAT.WAITING = true → stat = (s.unit u.val).stat)) ∧
      (missing = false → waits = false → exec (.triggerVersion u) s = .next (s.takeVersion u.val v rest))) ∧
    (∀ (u : Fin 16) (s : State), (s.unit u.val).queue = [] → (s.unit u.val).due = [] → exec (.triggerVersion u) s = .next s) ∧
    (∀ (u : Nat) (v : Version) (held other missing : Bool) (s : State), u < 16 →
      let x := (s.unit u).turn v.frame
      let own := x.sources v.frame v.vector x.prevMatch
      let t := s.judgeVersion u v held other missing
      ((own = 0 ∧ held = false) → (t.unit u).early = x.early ∧ (t.unit u).rearms = x.rearms ∧ t.trig.fired = s.trig.fired ∧ (t.unit u).state = x.state) ∧
      ((own ≠ 0 ∨ held = true) →
        (x.state = .idle → t.trig.fired = s.trig.fired ∧ (t.unit u).early = x.early ∧ (t.unit u).rearms = x.rearms) ∧
        (x.state = .filling → t.trig.fired = s.trig.fired ∧ (t.unit u).early = min 65535 (x.early + 1) ∧ (t.unit u).state = .filling) ∧
        (x.state = .rearm → t.trig.fired = s.trig.fired ∧ (t.unit u).rearms = min 65535 (x.rearms + 1) ∧ (t.unit u).state = .rearm) ∧
        (x.state = .armed → (t.unit u).state = .rearm ∧ (t.unit u).fireFrame = v.frame ∧ (t.unit u).early = 0 ∧ (t.unit u).rearms = 0 ∧
          t.trig.nextKey = s.trig.nextKey + 1 ∧ (t.unit u).fireLo = w32 v.time ∧ (t.unit u).fireHi = w32 (v.time / 2 ^ 32) ∧
          ∃ r ∈ t.trig.fired, r.key = s.trig.nextKey ∧ r.unit = u ∧ r.fireFrame = v.frame ∧ r.cause = own + 8 * other.toNat ∧ r.early = x.early ∧ r.rearms = x.rearms ∧
            r.vector = v.vector)) ∧
      (∀ w, w ≠ u → t.unit w = s.unit w) ∧ t.cellar = s.cellar ∧ t.loft = s.loft) ∧
    (∀ (x : TrigUnit) (f : Nat),
      (x.state = .filling → x.armFrame + x.c.preN ≤ f → (x.turn f).state = .armed) ∧
      (x.state = .rearm → x.fireFrame + x.c.postN + x.c.holdN ≤ f → (x.turn f).state = if fbit x.c.cfg F.TRIG_CFG.AUTO then .armed else .idle) ∧
      (x.state = .armed ∨ x.state = .idle → x.turn f = x)) ∧
    (∀ (c : TrigConfig) (v : List Word), c.pattern v = true ↔ ∀ i, i < 64 → (wat v i ^^^ wat c.value i) &&& wat c.care i = 0) ∧
    (∀ s : State, s.missingTime = none → exec .verdictTimeout s = .next s) ∧
    (∀ (t : Nat) (s : State), s.missingTime = some t → exec .verdictTimeout s =
      .next ((((s.untilTime (t + 10 * ms)).awaits t).filter (fun d => ((s.untilTime (t + 10 * ms)).verdictOf d t).isNone)).foldl (fun (a : State) d =>
        (({ a with trig := { a.trig with verdicts := a.trig.verdicts ++ [({ time := t, device := d, groups := 0, missing := true } : Verdict)] } }).report srcCausewayVerdict 0).emitAt (some t)
          evVerdictMissing (w64 t ++ w64 d)) (s.untilTime (t + 10 * ms))))) ∧
  ((∀ (r : Record) (rest : List Record) (s : State), s.trig.fired = r :: rest → s.power.cellar = true → (s.cellar.portOf 2).queue = [] → r.seq ≠ none → r.room ≠ 0 →
      let n := 512 + r.nextBytes (s.cellar.nextRow r).isSome
      let grown := s.trig.grow (s.cellar.regionBase 8) (s.cellar.regionSize 8) r n
      (n ≤ r.room → grown = some r) ∧ (grown = none → exec .copyRow s = .next { s with trig := { s.trig with storeWait := true } }) ∧
      (∀ r2, grown = some r2 → r2 = { r with room := max r.room n } ∧
        (∀ x, s.cellar.nextRow r = some x → x.boundary + sec / 2 + 10 * x.tF ≤ s.now → exec .copyRow s = .next (s.copySlice r2 x rest)) ∧
        (∀ x, s.cellar.nextRow r = some x → s.now < x.boundary + sec / 2 + 10 * x.tF → exec .copyRow s = .next s) ∧
        (s.cellar.nextRow r = none → s.rowsDue r2 = true → exec .copyRow s = .next s) ∧
        (s.cellar.nextRow r = none → s.rowsDue r2 = false → exec .copyRow s = .next (s.finishRecord r2 rest)))) ∧
    (∀ s : State, (s.cellar.portOf 2).queue ≠ [] → exec .copyRow s = .next s) ∧
    (∀ (r : Record) (rest : List Record) (s : State), s.trig.fired = r :: rest → r.seq = none → s.mayTake r = false → exec .copyRow s = .next s) ∧
    (∀ (r : Record) (rest : List Record) (n a : Nat) (s : State), r.seq = none → r.room = 0 → n = r.need →
      s.trig.findRoom (s.cellar.regionBase 8) (s.cellar.regionSize 8) n = some a →
      (s.takeRecord r rest).2 = some { r with seq := some s.trig.nextSeq, base := a, room := n } ∧ (s.takeRecord r rest).1.trig.nextSeq = s.trig.nextSeq + 1) ∧
    (∀ (r : Record) (rest : List Record) (s : State), ∃ (u : State) (st : Stored) (payload : List Word), s.finishRecord r rest = u.emitAt (some st.fireTime) evRecordDone payload ∧
      u.trig.fired = rest ∧ u.trig.store = s.trig.store ++ [st] ∧ st.seq = r.seq.getD 0 ∧ st.base = r.base ∧ st.unit = r.unit ∧ st.fireTime = r.fireTime ∧ st.flags = r.flags ∧
      u.trig.units = s.trig.units ∧ u.loft = s.loft) ∧
    (∀ (f : Nat) (s : State), s.loft.vec.next = some f → s.power.loft = true → s.probe.running = true →
      let s2 := (List.range 256).foldl (fun t z => t.advanceZone z f) ((s.distribute f).distributeTrig f)
      (s2.delivered f = false → exec .versionCommit s = .next s) ∧
      (s2.delivered f = true → s2.queueFull = true → (s.loft.vec.held = true ∨ s.now < s.boundaryTime f) → exec .versionCommit s = .next s) ∧
      (s2.delivered f = true → s2.queueFull = true → s.loft.vec.held = false → s.boundaryTime f ≤ s.now → exec .versionCommit s =
        .next { s with loft := { s.loft with vec := { s.loft.vec with held := true, stat := finc s.loft.vec.stat F.VEC_STAT.WAITS } } }) ∧
      (s2.delivered f = true → s2.queueFull = false → exec .versionCommit s = .next ((s2.untilTime (s.boundaryTime f)).commitVersion f))) ∧
    (∀ (f : Nat) (s : State), s.loft.vec.next = some f → s.power.loft = true → s.probe.running = false → s.probe.frontier ≤ f →
      exec .versionCommit s = .next { s with loft := { s.loft with vec := { s.loft.vec with next := none, held := false } } }) ∧
    (∀ s : State, s.loft.vec.next = none → exec .versionCommit s = .next s))

/-- Streams deliver their items into the buffers of their chain (R301, R302, R309 to R312), and a leg in replay takes its blocks in order (R97 to R99). -/
def Obligations.StreamsAndReplay : Prop :=
  ((∀ (n : Fin 8) (mem : List D2hDescriptor) (s : State),
      let s0 := s.streamStarts
      let s1 := (s0.setStream n.val (s0.pushStart n.val (s0.stream n.val))).serveAll n.val mem false
      let live := (s0.stream n.val).running && fbit s0.streams.cfg F.COMP_CFG.ENABLE && fbit (s0.stream n.val).cfg F.STR_CFG.ENABLE
      (live = false → exec (.streamItemRead n mem) s = .next s0) ∧
      (live = true → ((s1.stream n.val).running = false ∨ (s1.stream n.val).endMade = true) → exec (.streamItemRead n mem) s = .next s1) ∧
      (live = true → (s1.stream n.val).running = true → (s1.stream n.val).endMade = false →
        (∀ c, (s1.stream n.val).ending = some c → exec (.streamItemRead n mem) s = .next ((s1.pushEnd n.val c).serveAll n.val mem false)) ∧
        ((s1.stream n.val).ending = none → (fbit (s1.stream n.val).stat F.STR_STAT.AWAIT_BUFFER = true ∨ (s1.stream n.val).ready ≠ [] ∨
          (s1.cellar.portOf 3).queue ≠ []) → exec (.streamItemRead n mem) s = .next s1) ∧
        ((s1.stream n.val).ending = none → fbit (s1.stream n.val).stat F.STR_STAT.AWAIT_BUFFER = false → (s1.stream n.val).ready = [] →
          (s1.cellar.portOf 3).queue = [] →
          exec (.streamItemRead n mem) s = .next ((s1.readItem n.val).serveAll n.val mem false)))) ∧
    (∀ (n : Fin 8) (mem : List D2hDescriptor) (d : D2hDescriptor) (s : State), (s.stream n.val).cur = some d → (s.stream n.val).data ≠ [] → s.porch.pcie.alive = true →
      exec (.streamFlushTimeout n mem) s = .next (((s.untilUp ((s.stream n.val).firstUp +
        max 1 (min 1000 (fget (s.stream n.val).cfg F.STR_CFG.FLUSH_MS)) * ms)).closeBuffer n.val).serveAll n.val mem false)) ∧
    (∀ (n : Fin 8) (mem : List D2hDescriptor) (s : State), ((s.stream n.val).cur = none ∨ (s.stream n.val).data = []) → exec (.streamFlushTimeout n mem) s = .next s) ∧
    (∀ (n : Fin 8) (mem : List D2hDescriptor) (s : State),
      (nbit s.mb.dbH2d.toNat (16 + n.val) = true → exec (.streamBuffersAdded n mem) s = .next ((s.takeH2d (16 + n.val)).serveAll n.val mem true)) ∧
      (nbit s.mb.dbH2d.toNat (16 + n.val) = false → exec (.streamBuffersAdded n mem) s = .next s)) ∧
    (∀ (n : Nat) (d : D2hDescriptor) (s : State), n < 8 → (s.stream n).cur = some d → ∃ u : State, (s.closeBuffer n = if d.int then u.ring (16 + n) else u) ∧
      u.porch.done = s.porch.done ++ [⟨d.addr, (s.stream n).data.length, 1 + (s.stream n).inside, (s.stream n).data⟩] ∧ (u.stream n).cur = none ∧ (u.stream n).data = [] ∧
      (u.stream n).stat = finc (s.stream n).stat F.STR_STAT.BUFFERS ∧ ∀ m, m ≠ n → u.stream m = s.stream m) ∧
    (∀ (n : Nat) (mem : List D2hDescriptor) (fresh : Bool) (fuel : Nat) (s : State), n < 8 →
      (∀ d, (s.stream n).cur = some d → (s.stream n).data.length ≤ d.bufLen) →
      ∀ d, ((s.serve n mem fresh fuel).stream n).cur = some d → ((s.serve n mem fresh fuel).stream n).data.length ≤ d.bufLen) ∧
    (∀ (n : Fin 8) (b : Block) (more : List Block) (s : State), (s.stream n.val).staged = b :: more →
      s.destReady (fget (s.stream n.val).udp F.STR_UDP.DEST) = true → (vget s.porch.eth.dest (fget (s.stream n.val).udp F.STR_UDP.DEST) {}).streams = true →
      let parts := fragments (max 1 ((s.stream n.val).dgram - 16)) (b.bytes.length + 1) b.bytes
      parts.flatten = b.bytes ∧ (∀ x ∈ parts, x.length ≤ max 1 ((s.stream n.val).dgram - 16)) ∧
      ∃ u : State, u.porch.eth.sent = s.porch.eth.sent ++ parts.zipIdx.map (fun x => EthOut.block (fget (s.stream n.val).udp F.STR_UDP.DEST) n.val (leAt b.bytes 8 8) x.2 parts.length x.1) ∧
        (u.stream n.val).staged = more ∧ (u.stream n.val).blocks = (s.stream n.val).blocks + 1 ∧
        exec (.udpBlockSend n) s = .next ((if b.type = 3 then u.streamEnded n.val else u).serveAll n.val [] false)) ∧
    (∀ (n : Fin 8) (s : State), (s.stream n.val).staged = [] → exec (.udpBlockSend n) s = .next s)) ∧
  ((∀ (leg : Fin 2) (s : State), (s.hall leg.val).replay.blocks = [] → exec (.replayBlock leg) s = .next s) ∧
    (∀ (leg : Fin 2) (bs : List Byte) (rest : List (List Byte)) (s : State), let r := (s.hall leg.val).replay
      r.blocks = bs :: rest → s.power.front = true → r.on = true → s.upcoming leg.val ≠ none →
      let s0 := State.fillReplay leg.val (s.setHall leg.val { s.hall leg.val with replay := { r with blocks := rest } })
      (blockHeader leg.val bs = none → exec (.replayBlock leg) s = .next (s0.replayError leg.val (leAt bs 8 8))) ∧
      (∀ h n, blockHeader leg.val bs = some h → r.next = some n → n ≠ h.first → exec (.replayBlock leg) s = .next (s0.replayError leg.val h.first)) ∧
      (∀ h, blockHeader leg.val bs = some h → (sideRecords h bs).all SideRecord.admitted = false → exec (.replayBlock leg) s = .next (s0.replayError leg.val h.first)) ∧
      (∀ h, blockHeader leg.val bs = some h → (r.next = none ∨ r.next = some h.first) → (sideRecords h bs).all SideRecord.admitted = true →
        launchesPlaced (s.legBank leg.val) s.probe.active.tF h { k := vget s.probe.frame leg.val 0, j := vget s.probe.next leg.val 0, origin := r.origin } (sideRecords h bs) = true →
        let u := s0.setHall leg.val { s0.hall leg.val with replay := { (s0.hall leg.val).replay with next := some (h.first + h.cycles) } }
        exec (.replayBlock leg) s = .next ((((((sideRecords h bs).filter (fun x => x.ty == 2)).foldl (fun t x => t.replayLaunch leg.val x)
            (u.replaySides leg.val (sideRecords h bs))).replayHk leg.val (sideRecords h bs)).replayGroups leg.val (h.cycles / 4) h.first
              (bs.drop (64 + 16 * h.sides))).stopIfReached.replayClose leg.val))) ∧
    (∀ (leg : Nat) (first : Nat) (s : State), leg < 2 → ∃ u : State, s.replayError leg first = u.report srcReplayFormat leg ∧ (u.hall leg).replay.on = false ∧
      (u.hall leg).replay.blocks = [] ∧ (u.hall leg).replay.errorIndex = some first ∧ u.hall (1 - leg) = s.hall (1 - leg) ∧ u.cellar = s.cellar))

/-! ### The Cellar -/

/-- The DRAM holds what was written to it (R294): bytes written are read back, and no others change. -/
def Obligations.DramHoldsWhatWasWritten : Prop :=
  (∀ (c : Cellar) (a : Nat) (bs : List Byte), Mem.wf 0 c.mem = true →
    (c.store a bs).readBytes a bs.length = bs ∧ Mem.wf 0 (c.store a bs).mem = true ∧
    (∀ b n, b + n ≤ a ∨ a + bs.length ≤ b → (c.store a bs).readBytes b n = c.readBytes b n) ∧
    (∀ w, 16 * w + 16 ≤ a + bs.length → a ≤ 16 * w → w ∉ (c.store a bs).bad)) ∧
  (∀ c d : Cellar, Mem.wf 0 c.mem = true → Mem.wf 0 d.mem = true → (∀ a, c.readBytes a 1 = d.readBytes a 1) → c.mem = d.mem)

/-- The Cellar (R252, R287 to R293, R295): rows reach the ports and are granted, codewords are corrected and scrubbed, refreshes are issued. -/
def Obligations.CellarMovesAndCorrects : Prop :=
  ((∀ (p5 : Bool) (n : Nat) (row : StoredRow) (s : State), s.halls.front p5 = some row → 0 < n → (s.cellar.ring p5).base + (s.cellar.ring p5).size ≤ s.cellar.capacity →
      let r := s.cellar.ring p5
      let p := if p5 then 5 else 0
      r.dropping = false → r.taken + n < row.bytes.length → (s.cellar.portOf p).level + n ≤ portBuffer p → ∃ c : Cellar,
        exec (.cellarPortWrite p5 n) s = .next (s.withCellar c) ∧ (c.ring p5).taken = r.taken + n ∧ (c.ring p5).dropping = false ∧
        c.mem = ((if r.taken = 0 then s.cellar.openFrame p5 row s.probe.frameBase else s.cellar).storeRing p5 (r.pos + r.taken) ((row.bytes.drop r.taken).take n)).mem) ∧
    (∀ (p5 : Bool) (n : Nat) (row : StoredRow) (s : State), s.halls.front p5 = some row → 0 < n → (s.cellar.ring p5).base + (s.cellar.ring p5).size ≤ s.cellar.capacity →
      let r := s.cellar.ring p5
      let p := if p5 then 5 else 0
      r.dropping = false → r.taken + n < row.bytes.length → portBuffer p < (s.cellar.portOf p).level + n → ∃ c : Cellar,
        exec (.cellarPortWrite p5 n) s = .next (s.withCellar c) ∧ (c.ring p5).dropping = true ∧ (c.ring p5).taken = r.taken + n) ∧
    (∀ (p5 : Bool) (n : Nat) (row : StoredRow) (s : State), s.halls.front p5 = some row → (s.cellar.ring p5).base + (s.cellar.ring p5).size ≤ s.cellar.capacity →
      (s.cellar.ring p5).taken < row.bytes.length → row.bytes.length ≤ (s.cellar.ring p5).taken + n → ∃ c : Cellar,
        let e := c.endRow p5 row row.bytes.length
        let u := { s.withCellar e.1 with halls := s.halls.drop1 p5 }
        exec (.cellarPortWrite p5 n) s = .next ((List.replicate e.2 (if p5 then 5 else 0)).foldl (fun t q => t.report srcHistoryOverrun q) u)) ∧
    (∀ (p5 : Bool) (n : Nat) (s : State), s.halls.front p5 = none ∨ n = 0 → exec (.cellarPortWrite p5 n) s = .next s) ∧
    (∀ (c : Cellar) (p5 : Bool) (row : StoredRow) (len : Nat), (c.ring p5).dropping = true →
      0 < (c.endRow p5 row len).2 ∧ fbit (c.endRow p5 row len).1.stat F.CELLAR_STAT.OVERRUN = true) ∧
    (∀ (c : Cellar) (p5 : Bool) (row : StoredRow) (len : Nat), (c.ring p5).dropping = false →
      ((c.endRow p5 row len).1.ring p5).pos = (c.ring p5).pos + len ∧ ((c.endRow p5 row len).1.ring p5).taken = 0) ∧
    (∀ (p : Fin 6) (blocked : Bool) (drain : Nat) (r : PortRequest) (rest : List PortRequest) (s : State), (s.cellar.portOf p.val).queue = r :: rest →
      s.cellar.mayGrant p.val blocked = true → ∃ (c : Cellar) (up : Nat), exec (.cellarGrant p blocked drain) s = .next { s with cellar := c, time := { s.time with up } } ∧
        s.time.up ≤ up ∧ c.mem = s.cellar.mem ∧ (c.portOf p.val).queue = (if 64 < r.bytes then { r with addr := r.addr + 64, bytes := r.bytes - 64 } :: rest else rest)) ∧
    (∀ (p : Fin 6) (blocked : Bool) (drain : Nat) (s : State), s.cellar.mayGrant p.val blocked = false → exec (.cellarGrant p blocked drain) s = .next s) ∧
    (∀ (c : Cellar) (p : Nat) (blocked : Bool), c.panic = true → (c.portOf p).panic = false → c.mayGrant p blocked = true → (p = 1 ∨ p = 4) ∧ blocked = true)) ∧
  ((∀ (p : Fin 6) (a : Nat) (k : ReadCheck) (s : State), fbit s.cellar.cfg F.CELLAR_CFG.ENABLE = true → a < s.cellar.capacity →
      let give (d : Option (List Byte)) (t : State) : State := if p.val = 4 then t.withCellar { t.cellar with studyRead := d } else t
      (s.cellar.check a k = .clean → exec (.cellarRead p a k) s = .next (give (some (s.cellar.readBytes (a / 16 * 16) 16)) s)) ∧
      (∀ j, s.cellar.check a k = .symbol j → exec (.cellarRead p a k) s = .next (give (some (s.cellar.readBytes (a / 16 * 16) 16)) (s.corrected a j.val))) ∧
      (∀ y, s.cellar.check a k = .beyond y → exec (.cellarRead p a k) s = .next (give none (s.uncorrectable p.val a y.val)))) ∧
    (∀ (a j : Nat) (s : State), ∃ c : Cellar, (s.corrected a j = s.withCellar c ∨ ∃ d, s.corrected a j = (s.withCellar c).report srcDramCorrRate d) ∧
      a / 16 ∈ c.owedBack ∧ c.mem = s.cellar.mem ∧
      fget (vget c.ecc (addrChannel a) 0) F.ECC_STAT.CORRECTED = fget (fincSat (vget s.cellar.ecc (addrChannel a) 0) F.ECC_STAT.CORRECTED) F.ECC_STAT.CORRECTED) ∧
    (∀ (p a y : Nat) (s : State), ∃ c : Cellar, s.uncorrectable p a y = (s.withCellar c).report srcDramUncorr (addrChannel a) ∧ a / 16 ∈ c.bad ∧
      fbit c.stat F.CELLAR_STAT.UNCORR = true ∧ vget c.eccLast 0 0 = w32 a ∧ vget c.eccLast 1 0 = w32 (a / 2 ^ 32) ∧ c.mem = s.cellar.mem ∧
      fget (vget c.ecc (addrChannel a) 0) F.ECC_STAT.UNCORRECTED = fget (fincSat (vget s.cellar.ecc (addrChannel a) 0) F.ECC_STAT.UNCORRECTED) F.ECC_STAT.UNCORRECTED) ∧
    (∀ s : State, exec .correctedWriteback s = .next { s with cellar := { s.cellar with owedBack := s.cellar.owedBack.drop 1 } }) ∧
    (∀ (k : ReadCheck) (s : State), fbit s.cellar.cfg F.CELLAR_CFG.ENABLE = true → fbit s.cellar.cfg F.CELLAR_CFG.SCRUB_EN = true → s.cellar.panic = false →
      let a := 16 * s.cellar.scrubNext
      let s1 := s.withCellar (s.cellar.advanceScrub s.time.up)
      (s.cellar.check a k = .clean → exec (.patrolScrub k) s = .next s1) ∧
      (∀ j, s.cellar.check a k = .symbol j → exec (.patrolScrub k) s = .next (s1.corrected a j.val)) ∧
      (∀ y, s.cellar.check a k = .beyond y → exec (.patrolScrub k) s =
        .next ((s1.uncorrectable 6 a y.val).withCellar ((s1.uncorrectable 6 a y.val).cellar.invertSymbols s.cellar.scrubNext)))) ∧
    (∀ (k : ReadCheck) (s : State), fbit s.cellar.cfg F.CELLAR_CFG.SCRUB_EN = false ∨ s.cellar.panic = true → exec (.patrolScrub k) s = .next s) ∧
    (∀ (c : Cellar) (up : Nat), (c.scrubNext + 1 < c.codewords → (c.advanceScrub up).scrubNext = c.scrubNext + 1) ∧
      (c.codewords ≤ c.scrubNext + 1 → (c.advanceScrub up).scrubNext = 0 ∧ (c.advanceScrub up).scrubUp = up) ∧ (c.advanceScrub up).mem = c.mem) ∧
    (∀ (rank : Fin 4) (s : State), fbit s.cellar.cfg F.CELLAR_CFG.ENABLE = true → rank.val % 2 ≤ fget s.cellar.memDesc F.MEM_DESC.RANKS → ∃ c : Cellar,
      exec (.refreshDue rank) s = .next (s.withCellar c) ∧ c.mem = s.cellar.mem ∧
        (s.cellar.panic = true → vget s.cellar.owed rank.val 0 < s.cellar.postponeMax →
          vget c.owed rank.val 0 = vget s.cellar.owed rank.val 0 + 1 ∧ c.issued = s.cellar.issued ∧ c.refresh = s.cellar.refresh) ∧
        ((s.cellar.panic = false ∨ s.cellar.postponeMax ≤ vget s.cellar.owed rank.val 0) →
          vget c.issued rank.val 0 = vget s.cellar.issued rank.val 0 + 1 ∧ c.owed = s.cellar.owed) ∧
        (s.cellar.panic = true → s.cellar.postponeMax ≤ vget s.cellar.owed rank.val 0 → c.refresh = finc s.cellar.refresh F.REFRESH_CFG.FORCED)) ∧
    (∀ s : State, s.power.cellar = true → fbit s.cellar.trnCfg F.TRN_CFG.ENABLE = true → fbit s.cellar.trnStat F.TRN_STAT.BUSY = false → ∃ c : Cellar,
      exec .trnGo s = .next (s.withCellar c) ∧ fbit c.trnStat F.TRN_STAT.BUSY = true ∧ c.mem = s.cellar.mem) ∧
    (∀ s : State, s.power.cellar = false ∨ fbit s.cellar.trnCfg F.TRN_CFG.ENABLE = false ∨ fbit s.cellar.trnStat F.TRN_STAT.BUSY = true → exec .trnGo s = .next s) ∧
    (∀ (f0 f1 errors : Word) (f2 : Byte) (s : State), fbit s.cellar.trnStat F.TRN_STAT.BUSY = true → ∃ u : State, exec (.trnCompareDone f0 f1 f2 errors) s = .next u ∧
      fbit u.cellar.trnStat F.TRN_STAT.BUSY = false ∧ fbit u.cellar.trnStat F.TRN_STAT.DONE = true ∧ u.cellar.trnFail = #v[f0, f1, f2.setWidth 32] ∧
      u.cellar.trnErrors = errors ∧ u.loft = s.loft ∧ u.fc = s.fc ∧ u.mb = s.mb))

/-! ### The Loft and its cells -/

/-- A cell issues its next word (R202, R209, R215, R216, R227): the row of each operation that the word holds issues it; a trap, or the last word of the budget, ends the job;
a job that was dropped is abandoned; HALT completes it. -/
def Obligations.CellsIssueTheirWords : Prop :=
  (∀ (i : Instr) (c : Fin 72) (here : Nat → Bool) (k : ReadCheck) (j : Job) (m : Image) (w : Nat) (s : State), cellRow i = some (c, here, k) →
    s.atWord c.val = some (j, m, w) → here w = true → beyondRepair k = false →
    let s1 := s.readEcc c.val w k
    (hasB 0x05 w = false → s1 = s.loftEcc k c.val) ∧
    (∀ y land, (s.cell c.val).issue (s.windows c.val j m) m.complex w = .cell y land →
      exec i s = .next (((match land with | some e => s1.withLoft (s1.loft.write e.1 e.2) | none => s1).setCell c.val
        (if hasB 0x05 w then { y with job := some (j.copied ((s.cell c.val).landAt w)) } else y)).releaseSlot c.val)) ∧
    (∀ cause, (s.cell c.val).issue (s.windows c.val j m) m.complex w = .trap cause →
      exec i s = .next ((if cause = 4 then s1.readEcc c.val w (.beyond 0) else s1).endJob c.val (some cause))) ∧
    (∀ y, (s.cell c.val).issue (s.windows c.val j m) m.complex w = .halted y → exec i s = .next (s1.haltUser c.val y j m))) ∧
  (∀ (i : Instr) (c : Fin 72) (here : Nat → Bool) (k : ReadCheck) (j : Job) (m : Image) (w : Nat) (s : State), cellRow i = some (c, here, k) →
    s.atWord c.val = some (j, m, w) →
    (here w = false → exec i s = .next s) ∧
    (here w = true → beyondRepair k = true → exec i s = .next ((s.readEcc c.val w k).endJob c.val (some 4)))) ∧
  (∀ (i : Instr) (c : Fin 72) (here : Nat → Bool) (k : ReadCheck) (s : State), cellRow i = some (c, here, k) →
    ((s.cell c.val).job = none → exec i s = .next s) ∧
    ((s.cell c.val).job ≠ none → (s.cell c.val).dropped = true → exec i s = .next (s.dropJob c.val)) ∧
    (∀ j, (s.cell c.val).job = some j → (s.cell c.val).dropped = false → j.budget ≤ (s.cell c.val).issued → exec i s = .next (s.endJob c.val (some 5)))) ∧
  (∀ (c : Fin 72) (j : Job) (s : State), (s.cell c.val).job = some j → isLibrary j.image = true → (s.cell c.val).dropped = false →
    exec (.halt c) s = .next (s.endJob c.val (if j.budget ≤ (s.cell c.val).issued then some 5 else none))) ∧
  (∀ (i : Instr) (c : Fin 72) (here : Nat → Bool) (k : ReadCheck) (j : Job) (s : State), cellRow i = some (c, here, k) → (s.cell c.val).job = some j →
    isLibrary j.image = true → (s.cell c.val).dropped = false → (s.cell c.val).issued < j.budget →
    let s1 := s.loftEcc k c.val
    (beyondRepair k = true → exec i s = .next (s1.endJob c.val (some 4))) ∧
    (beyondRepair k = false → exec i s = .next ((s1.setCell c.val { s1.cell c.val with
      issued := (s.cell c.val).issued + 1
      job := some (if libraryCopies j.image ≤ (s.cell c.val).issued + 1 then { j with toCopy := [] } else j) }).releaseSlot c.val))) ∧
  (∀ (c i : Nat) (j : Job) (s : State), c < 72 → (s.cell c).job = some j → j.slot = some i →
    (j.toCopy ≠ [] → s.releaseSlot c = s) ∧
    (j.toCopy = [] → let u := s.releaseSlot c
      u.loft.slots = s.loft.slots.filter (· != i) ∧ (u.cell c).job = some { j with slot := none } ∧
      u.loft.jobs = s.loft.jobs ∧ u.loft.landing = s.loft.landing)) ∧
  (∀ (c : Fin 72) (j : Job) (m : Image) (w : Nat) (y : Cell) (s : State), s.atWord c.val = some (j, m, w) → isLibrary j.image = false → hasB 0x13 w = true →
    (s.cell c.val).issue (s.windows c.val j m) m.complex w = .halted y → exec (.halt c) s = .next (s.haltUser c.val y j m)) ∧
  (∀ (c k : Nat) (j : Job) (s : State), c < 72 → k < 8 → (s.cell c).job = some j → ∃ u : State, s.endJob c (some k) = (u.jobResult c j (some k)).report srcCellTrap (c + 256 * j.image) ∧
    (u.cell c).job = none ∧ fbit (u.cell c).stat F.CELL_STAT.TRAPPED = true ∧ fget (u.cell c).stat F.CELL_STAT.CAUSE = k ∧ (∀ d, d ≠ c → u.cell d = s.cell d) ∧
    u.loft.landing = s.loft.landing ∧ u.fw = s.fw) ∧
  (∀ (c : Nat) (j : Job) (s : State), c < 72 → (s.cell c).job = some j → ∃ u : State, s.endJob c none = u.jobResult c j none ∧ (u.cell c).job = none ∧
    (u.cell c).stat = finc (s.cell c).stat F.CELL_STAT.JOBS ∧ ∀ d, d ≠ c → u.cell d = s.cell d)

/-- The operations of slot A (R217 to R219, Table 12.4), each in a word whose slot B is NOP: the lanes that it writes and nothing else but the program counter, the loops and
the count of words; saturation and rounding. -/
def Obligations.SlotAComputes : Prop :=
  (∀ (x y : Cell) (w : Windows) (complex : Bool) (sa : Nat) (land : Option (Nat × List Byte)), sa < 2 ^ 32 → x.issue w complex (sa * 2 ^ 32) = .cell y land →
      let p (i : Nat) : Int := lane (x.dReg (aDA sa)) i
      let q (i : Nat) : Int := lane (x.dReg (aDB sa)) i
      let a (i : Nat) : Int := lane (x.aReg (aAX sa)) i
      let D (i : Nat) : Int := lane (y.dReg (aDD sa)) i
      let A (i : Nat) : Int := lane (y.aReg (aAX sa)) i
      let acc (i : Nat) : Int := if aClr sa then 0 else a i
      land = none ∧ y.sc = x.sc ∧ y.g = x.g ∧ y.mem = x.mem ∧ y.bexp = x.bexp ∧ y.peak = x.peak ∧ y.job = x.job ∧ y.issued = x.issued + 1 ∧
      (aOp sa = 0x00 → y.d = x.d ∧ y.a = x.a) ∧
      (aOp sa = 0x01 → ∀ i, i < 4 → D i = sat18 (rha (aSH sa) (p i + q i))) ∧ (aOp sa = 0x02 → ∀ i, i < 4 → D i = sat18 (rha (aSH sa) (p i - q i))) ∧
      (aOp sa = 0x03 → aDD sa % 2 = 0 ∧ ∀ i, i < 4 → D i = sat18 (rha (aSH sa) (p i + q i)) ∧ lane (y.dReg (aDD sa + 1)) i = sat18 (rha (aSH sa) (p i - q i))) ∧
      (aOp sa = 0x04 → ∀ i, i < 4 → D i = sat18 (-(p i))) ∧ (aOp sa = 0x05 → ∀ i, i < 4 → D i = sat18 ((p i).natAbs : Int)) ∧
      (aOp sa = 0x06 → ∀ i, i < 4 → D i = min (p i) (q i)) ∧ (aOp sa = 0x07 → ∀ i, i < 4 → D i = max (p i) (q i)) ∧
      (aOp sa = 0x08 → ∀ i, i < 4 → D i = rha (aSH sa) (p i)) ∧ (aOp sa = 0x09 → ∀ i, i < 4 → D i = sat18 (p i * 2 ^ aSH sa)) ∧
      (aOp sa = 0x0A → ∀ i, i < 4 → D i = x.shared sa) ∧
      (aOp sa = 0x0B → aDD sa % 4 = 0 ∧ ∀ i j, i < 4 → j < 4 → lane (y.dReg (aDD sa + i)) j = lane (x.dReg (aDA sa + j)) i) ∧
      (aOp sa = 0x10 → ∀ i, i < 4 → A i = sat48 (acc i + (if aSub sa then -(p i * x.shared sa) else p i * x.shared sa))) ∧
      (aOp sa = 0x11 → ∀ i, i < 4 → A i = sat48 (acc i + p i * p i)) ∧ (aOp sa = 0x12 → ∀ i, i < 4 → D i = sat18 (rha (aSH sa) (a i))) ∧
      (aOp sa = 0x13 → ∀ i, i < 4 → A i = sat48 (p i * 2 ^ aSH sa)) ∧
      (aOp sa = 0x18 → let qi := q (2 * pairB sa)
        let qq := if aConj sa then -(q (2 * pairB sa + 1)) else q (2 * pairB sa + 1)
        let re := p (2 * pairA sa) * qi - p (2 * pairA sa + 1) * qq
        let im := p (2 * pairA sa) * qq + p (2 * pairA sa + 1) * qi
        complex = true ∧ A (2 * pairX sa) = sat48 (acc (2 * pairX sa) + (if aSub sa then -re else re)) ∧
          A (2 * pairX sa + 1) = sat48 (acc (2 * pairX sa + 1) + (if aSub sa then -im else im)) ∧ ∀ i, i < 4 → i / 2 ≠ pairX sa → A i = a i) ∧
      (aOp sa = 0x19 → complex = true ∧ A (2 * pairX sa) = sat48 (acc (2 * pairX sa) + (p (2 * pairA sa) * p (2 * pairA sa) + p (2 * pairA sa + 1) * p (2 * pairA sa + 1))) ∧
        ∀ i, i < 4 → i / 2 ≠ pairX sa → A i = a i) ∧
      (aOp sa = 0x1A → complex = true ∧ ∀ i, i < 2 → D (2 * i) = sat18 (rotate (aSH sa) (p (2 * i)) (p (2 * i + 1))).1 ∧
        D (2 * i + 1) = sat18 (rotate (aSH sa) (p (2 * i)) (p (2 * i + 1))).2) ∧
      (aOp sa ∈ ([0x01, 0x02, 0x04, 0x05, 0x06, 0x07, 0x08, 0x09, 0x0A, 0x12, 0x1A] : List Nat) → y.a = x.a ∧ ∀ r, r ≠ aDD sa → y.dReg r = x.dReg r) ∧
      (aOp sa ∈ ([0x10, 0x11, 0x13, 0x18, 0x19] : List Nat) → y.d = x.d ∧ ∀ r, r ≠ aAX sa → y.aReg r = x.aReg r) ∧
      (aOp sa = 0x03 → y.a = x.a ∧ ∀ r, r ≠ aDD sa → r ≠ aDD sa + 1 → y.dReg r = x.dReg r)) ∧
  ((∀ z : Int, (-131072 ≤ z ∧ z ≤ 131071 → sat18 z = z) ∧ (z < -131072 → sat18 z = -131072) ∧ (131071 < z → sat18 z = 131071)) ∧
    (∀ z : Int, (-(2 ^ 47) ≤ z ∧ z ≤ 2 ^ 47 - 1 → sat48 z = z) ∧ (z < -(2 ^ 47) → sat48 z = -(2 ^ 47)) ∧ (2 ^ 47 - 1 < z → sat48 z = 2 ^ 47 - 1)) ∧
    (∀ (n : Nat) (z : Int), 2 * (2 ^ n * rha n z - z).natAbs ≤ 2 ^ n ∧ rha n (-z) = -(rha n z) ∧ (0 ≤ z → (2 * z + 2 ^ n) / 2 ^ (n + 1) = rha n z)))

/-- The operations of slot B (R220 to R226, Tables 12.5 and 12.6), each in a word whose slot A is NOP. -/
def Obligations.SlotBComputes : Prop :=
  ∀ (x y : Cell) (w : Windows) (complex : Bool) (sb : Nat) (land : Option (Nat × List Byte)), sb < 2 ^ 32 → Mem.wf 0 x.mem = true →
    x.issue w complex sb = .cell y land →
    let g := x.gen (bGK sb)
    let at_ := g.addr
    let sr := x.sReg (bSR sb)
    y.a = x.a ∧ y.job = x.job ∧ y.issued = x.issued + 1 ∧ (bOp sb ≠ 0x01 → y.d = x.d) ∧ (bOp sb ≠ 0x06 → land = none) ∧
    (bOp sb ∉ ([0x02, 0x04, 0x05, 0x07] : List Nat) → y.mem = x.mem) ∧
    (bOp sb ∈ ([0x00, 0x01, 0x02, 0x04, 0x07, 0x08, 0x0F, 0x10, 0x11, 0x12] : List Nat) → y.sc = x.sc) ∧
    (bOp sb ∈ ([0x01, 0x02, 0x03, 0x04, 0x05, 0x06] : List Nat) → y.gen (bGK sb) = g.advance ∧ ∀ k, k ≠ bGK sb → y.gen k = x.gen k) ∧
    (bOp sb = 0x01 → (∀ i, i < 4 → lane (y.dReg (bDR sb)) i = x.half (at_ + i)) ∧ ∀ r, r ≠ bDR sb → y.dReg r = x.dReg r) ∧
    (bOp sb = 0x02 → (∀ i, i < 4 → y.half (at_ + i) = sat16 (rha (bSSH sb) (lane (x.dReg (bDR sb)) i))) ∧
      ∀ a, a < 0x8000 → (∀ i, i < 4 → a ≠ (at_ + i) % 0x8000) → y.half a = x.half a) ∧
    (bOp sb = 0x03 → y.sReg (bSR sb) = if bWide sb then w32 (x.halfBits at_ + 65536 * x.halfBits (at_ + 1)) else w32 (wrapTo 32 (x.half at_))) ∧
    (bOp sb = 0x04 → y.halfBits at_ = sr.toNat % 65536 ∧ (bWide sb = true → y.halfBits (at_ + 1) = sr.toNat / 65536)) ∧
    (bOp sb = 0x05 → ∃ bs, w.read sr.toNat = some bs ∧ ∀ i, i < 8 → y.halfBits (at_ + i) = leAt bs (2 * i) 2) ∧
    (bOp sb = 0x06 → w.writable sr.toNat = true ∧ land = some (sr.toNat, (x.halves at_ 8).flatMap (leBytes 2))) ∧
    (bOp sb ∈ ([0x05, 0x06] : List Nat) → y.sReg (bSR sb) = if bInc sb then sr + 16 else sr) ∧
    (bOp sb = 0x09 → y.sReg (bSR sb) = if nbit sb 19 then w32 (bImm sb * 65536 + sr.toNat % 65536) else w32 (wrapTo 32 (sx 16 (bImm sb)))) ∧
    (bOp sb = 0x0A → some (y.sReg (bSR sb)) = scalarFn (nbits sb 13 4) (x.sReg (bSA sb)) (x.sReg (bSB sb))) ∧
    (bOp sb = 0x0B → some (y.sReg (bSR sb)) = scalarFn (nbits sb 16 4) (x.sReg (bSA sb)) (w32 (wrapTo 32 (sx 16 (bImm sb))))) ∧
    (bOp sb = 0x0C → bSR sb % 2 = 0 ∧ let e := divStep sr.toNat (x.sReg (bSR sb + 1)).toNat (x.sReg (bSA sb)).toNat
      y.sReg (bSR sb) = w32 e.1 ∧ y.sReg (bSR sb + 1) = w32 e.2) ∧
    (bOp sb = 0x0F → y.bexp = sx 8 (x.sReg (bSA sb)).toNat) ∧ (bOp sb = 0x12 → y.bexp = max (-128) (min 127 (x.bexp + sx 8 sb))) ∧
    (bOp sb = 0x07 → scaleShift x.peak = 0 → y.mem = x.mem ∧ y.bexp = x.bexp ∧ y.peak = 0) ∧
    (bOp sb = 0x07 → scaleShift x.peak ≠ 0 → y.bexp = max (-128) (min 127 (x.bexp + scaleShift x.peak)) ∧ y.peak = 0) ∧
    (bOp sb ∈ ([0x03, 0x09, 0x0A, 0x0B, 0x0D, 0x0E] : List Nat) → ∀ r, r ≠ bSR sb → y.sReg r = x.sReg r) ∧
    (bOp sb = 0x11 → (nbits sb 23 3 = 0 ∨ (nbits sb 23 3 = 1 ∧ x.sReg (bSA sb) = 0) ∨ (nbits sb 23 3 = 2 ∧ x.sReg (bSA sb) ≠ 0) ∨
      (nbits sb 23 3 = 3 ∧ (x.sReg (bSA sb)).toInt < 0) ∨ (nbits sb 23 3 = 4 ∧ 0 ≤ (x.sReg (bSA sb)).toInt)) → y.pc = nbits sb 0 11)

/-- SDIV (R224): a step shifts r:q left and subtracts the divisor where it fits; 32 steps from r < v leave quotient and remainder of the 64-bit r:q; a divisor of 0 sets
every quotient bit and does not trap. -/
def Obligations.DivisionStepsDivide : Prop :=
  (∀ (x : Cell) (w : Windows) (sb : Nat), bOp sb = 0x0C → ∃ b : BOut, slotB w x sb = some b ∧ b.eccTrap = false ∧ b.windowTrap = false ∧ b.jumpTrap = false ∧
    (b.ok = true → bSR sb % 2 = 0) ∧
    (bSR sb % 2 = 0 → (b.cell.sReg (bSR sb)).toNat = (divStep (x.sReg (bSR sb)).toNat (x.sReg (bSR sb + 1)).toNat (x.sReg (bSA sb)).toNat).1 ∧
      (b.cell.sReg (bSR sb + 1)).toNat = (divStep (x.sReg (bSR sb)).toNat (x.sReg (bSR sb + 1)).toNat (x.sReg (bSA sb)).toNat).2)) ∧
  (∀ r q v : Nat, r < 2 ^ 32 → q < 2 ^ 32 → v < 2 ^ 32 → let t := 2 * (r * 2 ^ 32 + q)
    (v ≤ t / 2 ^ 32 → (divStep r q v).1 * 2 ^ 32 + (divStep r q v).2 = (t - v * 2 ^ 32 + 1) % 2 ^ 64) ∧
    (t / 2 ^ 32 < v → (divStep r q v).1 * 2 ^ 32 + (divStep r q v).2 = t % 2 ^ 64) ∧ (divStep r q v).1 < 2 ^ 32 ∧ (divStep r q v).2 < 2 ^ 32) ∧
  (∀ r q v : Nat, r < v → q < 2 ^ 32 → v < 2 ^ 32 →
    (List.range 32).foldl (fun (e : Nat × Nat) _ => divStep e.1 e.2 v) (r, q) = ((r * 2 ^ 32 + q) % v, (r * 2 ^ 32 + q) / v)) ∧
  (∀ r q : Nat, r < 2 ^ 32 → q < 2 ^ 32 → ((List.range 32).foldl (fun (e : Nat × Nat) _ => divStep e.1 e.2 0) (r, q)).2 = 2 ^ 32 - 1)

/-- The Landing, the jobs' rows and the scrubber (R193, R202 to R206, R209, R240): bytes written to the Landing are read back; a started job takes the lowest free cell
of its pool. -/
def Obligations.LoftJobsAndMemories : Prop :=
  (∀ (l : Loft) (a : Nat) (bs : List Byte), Mem.wf 0 l.landing = true → (l.write a bs).read a bs.length = bs ∧
    (∀ b n, b + n ≤ a ∨ a + bs.length ≤ b → (l.write a bs).read b n = l.read b n) ∧ Mem.wf 0 (l.write a bs).landing = true ∧ (l.write a bs).cell = l.cell ∧
    (l.write a bs).zone = l.zone) ∧
  (∀ (item : Fin 8192) (k : ReadCheck) (s : State), s.power.loft = true → fbit s.loft.cfg F.LOFT_CFG.ENABLE = true →
    exec (.jobStart 0 item k) s = .next (s.startMap (item.val / 4096) (item.val % 4096) k) ∧ exec (.jobStart 1 item k) s = .next (s.startZone (item.val % 256) k) ∧
    exec (.jobStart 2 item k) s = .next (s.startDecode (item.val % 2) k)) ∧
  (∀ (kind : Fin 3) (item : Fin 8192) (k : ReadCheck) (s : State), s.power.loft = false ∨ fbit s.loft.cfg F.LOFT_CFG.ENABLE = false →
    exec (.jobStart kind item k) s = .next s) ∧
  (∀ (leg group i : Nat) (k : ReadCheck) (j : Job) (p : Pool) (s : State), s.loft.jobs.find? (fun j => j.leg == leg && j.item == group) = some j →
    s.loft.poolFor .map none j.frame = some (i, p) → s.loft.streamIdle j = true →
    (j.bound s.loft p).image = p.program ∧ (j.bound s.loft p).budget = s.loft.budget p p.program ∧ (j.bound s.loft p).input = j.input ∧
    s.startMap leg group k = s.startJob (j.bound s.loft p) p k
      (fun t => t.withLoft { t.loft with jobs := t.loft.jobs.erase j })) ∧
  (∀ (j : Job) (p : Pool) (k : ReadCheck) (taken : State → State) (s : State),
    ((∀ c ∈ p.cells, (s.cell c).job.isNone = false) → s.startJob j p k taken = s) ∧
    (∀ c, p.cells.find? (fun c => (s.cell c).job.isNone) = some c → beyondRepair k = false → s.startJob j p k taken = ((taken s).loftEcc k 0xFF).setUpCell c j)) ∧
  (∀ (z : Fin 256) (s : State), (s.loft.vec.next = none → exec (.zoneRestart z) s = .next s) ∧
    (∀ f, s.loft.vec.next = some f → exec (.zoneRestart z) s = .next ((s.distribute f).advanceZone z.val f))) ∧
  (∀ (m : LoftMemory) (k : ReadCheck) (s : State), s.power.loft = false ∨ fbit s.loft.cfg F.LOFT_CFG.SCRUB_EN = false → exec (.loftScrub m k) s = .next s) ∧
  (∀ (s : State), s.power.loft = true → fbit s.loft.cfg F.LOFT_CFG.SCRUB_EN = true →
    (∀ m, exec (.loftScrub m .clean) s = .next s) ∧
    (∀ m y, exec (.loftScrub m (.symbol y)) s = .next { s with loft := { s.loft with ecc := finc s.loft.ecc F.LOFT_ECC.CORRECTED } }) ∧
    (∀ cw k, beyondRepair k = true → let s1 := s.loftEcc k (0x80 + min 0x7F (cw.val / 1280))
      exec (.loftScrub (.landing cw) k) s = .next { s1 with loft := { s1.loft with bad := s1.loft.bad ++ [cw.val] } }) ∧
    (∀ c cw k, beyondRepair k = true → exec (.loftScrub (.data c cw) k) s =
      .next ((s.loftEcc k c.val).setCell c.val { (s.loftEcc k c.val).cell c.val with bad := ((s.loftEcc k c.val).cell c.val).bad ++ [cw.val] })) ∧
    (∀ c k, beyondRepair k = true → exec (.loftScrub (.program c) k) s =
      .next (((s.loftEcc k c.val).setCell c.val { (s.loftEcc k c.val).cell c.val with image := none }).endJob c.val (some 4)))) ∧
  (∀ (leg : Fin 2) (s : State), (s.mapLeg leg.val).base = none → exec (.blockDelivery leg) s = .next s) ∧
  (∀ (leg : Fin 2) (base tF : Nat) (detail : Bool) (bank : LegBank) (s : State), (s.mapLeg leg.val).base = some (base, bank, detail, tF) →
    let v := s.applyDue (pickLeg cMapSet leg.val) (if fbit (s.mapLeg leg.val).cfg F.MAP_CFG.ON then
      (if (s.mapLeg leg.val).group = 0 then sampleFrame base bank.count (256 * (s.mapLeg leg.val).block) else 0) else s.globalFrame (s.frameAt s.now)) State.applyMapSet
    let m := v.mapLeg leg.val
    let found := v.cellar.blockRows leg.val base m.block bank
    let rows := found.filterMap id
    v.power.loft = true → fbit v.loft.cfg F.LOFT_CFG.ENABLE = true → fbit m.cfg F.MAP_CFG.ON = true → bank.on = true → found.all Option.isSome = true →
    ∀ last, rows.getLast? = some last → last.boundary + sec / 2 + 10 * tF ≤ v.now →
    (rows.any (fun r => r.p + v.cellar.full.size < v.cellar.full.pos + v.cellar.full.taken + v.guardBytes) = true → ∃ u : State,
      exec (.blockDelivery leg) s = .next (u.report srcLoftLag leg.val) ∧ fbit u.loft.stat F.LOFT_STAT.LAG = true ∧ u.loft.jobs = v.loft.jobs) ∧
    (rows.any (fun r => r.p + v.cellar.full.size < v.cellar.full.pos + v.cellar.full.taken + v.guardBytes) = false →
      rows.any (fun r => v.cellar.ringSpoiled false (r.p + 64 + 64 * m.group) 64 || v.cellar.ringSpoiled false (r.p + 64 + 2 * bank.len + 8 * m.group) 8) = false →
      ∀ i, (List.range 48).find? (fun i => !v.loft.slots.contains i) = some i → ∃ (u : State) (j : Job),
        exec (.blockDelivery leg) s = .next (u.withLoft { u.loft with slots := u.loft.slots ++ [i], jobs := u.loft.jobs ++ [j] }) ∧
        j.leg = leg.val ∧ j.item = m.group ∧ j.block = m.block ∧ j.slot = some i ∧ j.inBase = landSlot i))

/-! ### The Causeway -/

/-- Frames of the Causeway (R331): a frame that fails its check is counted and dropped; a flooded one is taken once, passed on by the other port with one hop less, and
never taken by its own sender or with no hop left. -/
def Obligations.FloodedFramesAreTakenOnce : Prop :=
  (∀ (h : CwHeader) (s : State), s.cw.runs h.port.val = true → h.good = false → ∃ err, s.cwArrive h = ({ s with cw := { s.cw with err } }, false) ∧
    fget (vget err h.port.val 0) F.CW_ERR.CHECK_ERR = fget (finc (vget s.cw.err h.port.val 0) F.CW_ERR.CHECK_ERR) F.CW_ERR.CHECK_ERR) ∧
  (∀ (h : CwHeader) (type : Nat) (own : Bool) (payload : List Byte) (s : State), (s.cwFlood h type own payload).2 = true →
    h.good = true ∧ s.cw.runs h.port.val = true ∧ 0 < h.hops.val ∧ own = false ∧ (h.src.val, type, h.seq.val) ∉ s.cw.taken ∧
    (s.cwFlood h type own payload).1 = { s with cw := { s.cw with
      taken := ((h.src.val, type, h.seq.val) :: s.cw.taken).take 256
      sent := if s.cw.runs (1 - h.port.val) then s.cw.sent ++ [{ port := 1 - h.port.val, type := type, srcId := h.src.val, hops := h.hops.val - 1, seq := h.seq.val, payload := cwPayload payload }]
        else s.cw.sent } } ∧
    ∀ own2 payload2, ((s.cwFlood h type own payload).1.cwFlood h type own2 payload2).2 = false) ∧
  (∀ (h : CwHeader) (type : Nat) (own : Bool) (payload : List Byte) (s : State), h.good = true → (own = true ∨ h.hops.val = 0 ∨ (h.src.val, type, h.seq.val) ∈ s.cw.taken) →
    s.cwFlood h type own payload = (s, false)) ∧
  (∀ (h : CwHeader) (e : Fin (2 ^ 64)) (tF : BitVec 32) (s : State), let a := s.cwFlood h cwEpoch (s.cwOwn h) (leBytes 8 e.val ++ leBytes 4 tF.toNat)
    exec (.cwEpoch h e tF) s = .next (if a.2 then { a.1 with cw := { a.1.cw with epoch := some (e.val, tF.toNat) } } else a.1)) ∧
  (∀ (h : CwHeader) (group : Fin 4) (time : Fin (2 ^ 64)) (s : State), let a := s.cwFlood h cwArm (s.cwOwn h) (leBytes 1 group.val ++ leBytes 8 time.val)
    exec (.cwArm h group time) s = .next (if a.2 then a.1.armGroup group.val time.val else a.1)) ∧
  (∀ (h : CwHeader) (time : Fin (2 ^ 64)) (groups : Fin 16) (s : State), let a := s.cwFlood h cwVerdict (s.cwOwn h) (leBytes 8 time.val ++ leBytes 1 groups.val)
    (a.2 = false → exec (.cwVerdict h time groups) s = .next a.1) ∧
    (a.2 = true → ∀ d, a.1.cw.ring[h.src.val]? = some d →
      (a.1.verdictOf d time.val = none → exec (.cwVerdict h time groups) s = .next { a.1 with trig := { a.1.trig with
        verdicts := a.1.trig.verdicts ++ [({ time := time.val, device := d, groups := groups.val } : Verdict)] } }) ∧
      (∀ v, a.1.verdictOf d time.val = some v → exec (.cwVerdict h time groups) s = .next a.1))) ∧
  (∀ (h : CwHeader) (time : Fin (2 ^ 64)) (s : State), let a := s.cwFlood h cwReset (s.cwOwn h) (leBytes 8 time.val)
    (a.2 = false → exec (.cwReset h time) s = .next a.1) ∧
    (a.2 = true → ∃ u : State, exec (.cwReset h time) s = .next u ∧ ∀ leg, leg < 2 → (u.chain leg).resets = (a.1.chain leg).resets ++ [time.val] ∧
      (u.chain leg).input = (a.1.chain leg).input)) ∧
  (∀ (h : CwHeader) (mask : Fin 256) (time : Fin (2 ^ 64)) (s : State), let a := s.cwFlood h cwMember (s.cwOwn h) (leBytes 1 mask.val ++ leBytes 8 time.val)
    exec (.cwMember h mask time) s = .next (if a.2 then a.1.cwTakeSet time.val mask.val (a.1.cw.ofMask mask.val) else a.1)) ∧
  (∀ (time mask : Nat) (ns : List Nat) (s : State), ∃ u : State, s.cwTakeSet time mask ns = u.emitAt (some time) evMember ([w32 mask] ++ w64 time) ∧ u.cw = s.cw.await time ns) ∧
  (∀ (c : Causeway) (p type : Nat) (payload : List Byte), c.runs p = true → (c.send [p] type payload).sent = c.sent ++
    [{ port := p, type := type, srcId := c.id, hops := 7, seq := vget c.seq type 0, payload := cwPayload payload }])

/-- Membership, master, links and time of the ring (R332 to R335, R337 to R339). -/
def Obligations.RingFollowsItsMembers : Prop :=
  ((∀ s : State, s.cwLive = true → ∃ out : List CwFrame, exec .cwHelloSend s = .next { s with cw := { s.cw with
        sent := s.cw.sent ++ out, seq := vset s.cw.seq cwHello ((vget s.cw.seq cwHello 0 + 1) % 65536) } } ∧
      out.map (·.port) = [0, 1].filter s.cw.runs ∧ ∀ f ∈ out, f.type = cwHello ∧ f.hops = 7 ∧ f.srcId = s.cw.id ∧ f.payload.take 8 = leBytes 8 s.host.serial) ∧
    (∀ s : State, s.cwLive = false → exec .cwHelloSend s = .next s) ∧
    (∀ (h : CwHeader) (serial : Fin (2 ^ 64)) (strap : Bool) (sending : Fin 2) (seen : Fin 256) (locked : Bool) (s : State), s.cw.runs h.port.val = true → h.good = true →
      ∃ (u : State) (pay : List Byte), u.cw.members = s.cw.members ∧ vget u.cw.helloUp h.port.val 0 = s.time.up ∧
        (let a := u.cwFlood h cwHello (s.cwOwn h || serial.val == s.host.serial) pay
         exec (.cwHello h serial strap sending seen locked) s = .next (if a.2 then
          a.1.cwSee { serial := serial.val, strap, locked, port := h.port.val, hops := 7 - min 7 h.hops.val, lastUp := s.time.up } else a.1))) ∧
    (∀ (m : Member) (s : State), m.serial ∉ s.cw.members.map (·.serial) → (s.cwRing && s.planRuns) = false → ∃ c : Causeway,
      s.cwSee m = (s.changeRing (fun u => { u with cw := c })).cwReady ∧ c.members = s.cw.members ++ [m] ∧ c.stable = false ∧ c.heldUp = s.time.up) ∧
    (∀ (f : State → State) (s : State),
      ((f s).srcInUse = s.srcInUse → s.changeRing f = s.timeStatus f) ∧
      ((f s).srcInUse ≠ s.srcInUse → s.changeRing f = s.timeStatus (fun u => (f u).judgeSource u.srcInUse))) ∧
    (∀ s : State, s.cwLive = true → (s.cw.stable = false ∨ s.cw.rejoin = true) → 8 < s.cwSerials.length → ∃ c : Causeway,
      exec .membershipStable s = .next (((s.untilUp (s.cw.heldUp + 100 * ms)).changeRing (fun u => { u with cw := c })).setCondition srcRingSize true 0) ∧ c.ring = [] ∧ c.stable = true ∧
        fbit c.stat F.CW_STAT.MASTER = false ∧ fbit c.stat F.CW_STAT.READY = false) ∧
    (∀ s : State, s.cwLive = true → s.cw.stable = false → s.cw.rejoin = false → s.cwSerials.length ≤ 8 → ∃ c : Causeway,
      exec .membershipStable s = .next ((s.untilUp (s.cw.heldUp + 100 * ms)).changeRing (fun u =>
          (State.setCondition srcRingSize false 0 { u with cw := c }).cwTakeMaster s.cwSerials)) ∧
        c.ring = s.cwSerials ∧ c.stable = true ∧ fget c.stat F.CW_STAT.MEMBERS = s.cwSerials.length) ∧
    (∀ (s : State) (ring : List Nat), ring.Pairwise (· < ·) → ring ≠ [] → s.cwElect ring ∈ ring ∧
      ((∃ n ∈ ring, s.cwStrap n = true) → s.cwStrap (s.cwElect ring) = true ∧ ∀ n ∈ ring, s.cwStrap n = true → s.cwElect ring ≤ n) ∧
      ((∀ n ∈ ring, s.cwStrap n = false) → ∀ n ∈ ring, s.cwElect ring ≤ n)) ∧
    (∀ s : State, s.cwSerials.Pairwise (· < ·) ∧ ∀ n, n ∈ s.cwSerials ↔ n = s.host.serial ∨ n ∈ s.cw.members.map (·.serial)) ∧
    (∀ (p : Fin 2) (hello : Bool) (s : State), s.cw.runs p.val = true → fbit (vget s.cw.err p.val 0) F.CW_ERR.UP = true → ∃ (c : Causeway) (u : State),
      exec (.cwPortDown p hello) s = .next (({ u with cw := c }).cwLinkCause p.val) ∧ fbit (vget c.err p.val 0) F.CW_ERR.UP = false ∧ vget c.fallen p.val false = true ∧
        vget c.timeHops p.val none = none ∧ c.ring = s.cw.ring ∧ c.members = s.cw.members ∧ (u = s ∨ u = s.untilUp (vget s.cw.helloUp p.val 0 + 5 * ms))) ∧
    (∀ (p : Nat) (s : State), ∃ stat, s.cwLinkCause p = ({ s with cw := { s.cw with stat } }).setCondition srcCausewayLink
        (vget s.cw.fallen 0 false || vget s.cw.fallen 1 false) p ∧ fbit stat F.CW_STAT.LINE = (vget s.cw.fallen 0 false || vget s.cw.fallen 1 false)) ∧
    (∀ (p : Fin 2) (s : State), s.cw.runs p.val = true → vget s.cw.fallen p.val false = true → ∃ c : Causeway,
      exec (.cwLinkReturn p) s = .next (({ s with cw := c }).cwLinkCause (1 - p.val)) ∧ fbit (vget c.err p.val 0) F.CW_ERR.UP = true ∧ vget c.fallen p.val true = false ∧
        vget c.exchanges p.val [0] = [] ∧ c.heldUp = s.time.up ∧ (s.cw.ring ≠ [] → c.rejoin = true)) ∧
    (∀ (m0 : Member) (more : List Member) (s : State), s.cwRing = true → fbit s.cw.stat F.CW_STAT.LINE = true →
      s.cw.members.filter (fun m => (s.cw.segment.getD s.cw.ring).contains m.serial) = m0 :: more →
      let u := s.untilUp (more.foldl (fun a m => min a m.lastUp) m0.lastUp + sec)
      let ns := (s.cw.segment.getD s.cw.ring).filter (fun n => n == s.host.serial ||
        (m0 :: more).any (fun m => m.serial == n && decide (u.time.up < m.lastUp + sec)))
      let t := u.changeRing (fun v => ({ v with cw := { v.cw with segment := some ns } }).cwTakeMaster ns)
      exec .ringSplit s = .next (if t.cwMaster then t.cwSendMember ns else t)) ∧
    (∀ s : State, s.cwRing = false ∨ fbit s.cw.stat F.CW_STAT.LINE = false → exec .ringSplit s = .next s)) ∧
  ((∀ (p : Fin 2) (s : State), s.cwRing = true → fbit (vget s.cw.err p.val 0) F.CW_ERR.UP = true →
      ((vget s.cw.exchanges p.val []).length < 64 → exec (.hopMeasurement p) s = .next (s.cwSend [p.val] cwDelayReq [])) ∧
      (64 ≤ (vget s.cw.exchanges p.val []).length → exec (.hopMeasurement p) s =
        .next { s with cw := { s.cw with hop := vset s.cw.hop p.val (w32 (wrapTo 32 (hopDelay (vget s.cw.exchanges p.val [])))) } })) ∧
    (∀ (p : Fin 2) (s : State), s.cwRing = false ∨ fbit (vget s.cw.err p.val 0) F.CW_ERR.UP = false → exec (.hopMeasurement p) s = .next s) ∧
    (∀ (h : CwHeader) (rb : BitVec 32) (s : State), s.cw.runs h.port.val = true → h.good = true →
      exec (.cwDelayReq h rb) s = .next (s.cwSend [h.port.val] cwDelayResp (leBytes 4 rb.toNat))) ∧
    (∀ (h : CwHeader) (ra : Nat) (rb : BitVec 32) (s : State), s.cw.runs h.port.val = true → h.good = true →
      ((vget s.cw.exchanges h.port.val []).length < 64 → ∃ exchanges, exec (.cwDelayResp h ra rb) s = .next { s with cw := { s.cw with exchanges } } ∧
        vget exchanges h.port.val [] = vget s.cw.exchanges h.port.val [] ++ [(ra : Int) - rb.toNat]) ∧
      (64 ≤ (vget s.cw.exchanges h.port.val []).length → exec (.cwDelayResp h ra rb) s = .next s)) ∧
    (∀ d : Int, hopDelay (List.replicate 64 (2 * d)) = d) ∧
    (∀ s : State, s.cwLive = true → s.cwRing = true → s.cwMaster = true → exec .cwTimeSend s = .next (s.cwSend [0, 1] cwTime (leBytes 8 s.now ++ leBytes 1 0))) ∧
    (∀ s : State, s.cwLive = false ∨ s.cwRing = false ∨ s.cwMaster = false → exec .cwTimeSend s = .next s) ∧
    (∀ (h : CwHeader) (time : Fin (2 ^ 64)) (hops : Fin 256) (own : Fin (2 ^ 72)) (s : State), s.cw.runs h.port.val = true → h.good = true → s.cwRing = true →
      s.cwMaster = false →
      let u := { s with cw := { s.cw with timeHops := vset s.cw.timeHops h.port.val (some hops.val) } }
      let d := vget s.cw.hop h.port.val 0
      ((u.cw.neighbour ≠ some h.port.val ∨ d = 0xFFFFFFFF) → exec (.cwTime h time hops own) s = .next u) ∧
      (u.cw.neighbour = some h.port.val → d ≠ 0xFFFFFFFF →
        let v := ({ u with cw := { u.cw with timePort := some (h.port.val, hops.val) } }).cwPhase (timeError own.val time.val d)
        exec (.cwTime h time hops own) s = .next (v.cwSend [1 - h.port.val] cwTime (leBytes 8 v.now ++ leBytes 1 (hops.val + 1))))) ∧
    (∀ (h : CwHeader) (time : Fin (2 ^ 64)) (hops : Fin 256) (own : Fin (2 ^ 72)) (s : State), s.cw.runs h.port.val = true → h.good = true →
      (s.cwRing = false ∨ s.cwMaster = true) → exec (.cwTime h time hops own) s = .next s) ∧
    (∀ (err : Int) (s : State), ∃ (u : State) (b : Bool), s.cwPhase err = (u.setCondition srcTimeOffset b 0).cwReady ∧ u.cw.phaseError = err ∧
      u.cw.lockRun = (if err.natAbs ≤ 1024 then s.cw.lockRun + 1 else 0) ∧ (fbit u.cw.stat F.CW_STAT.LOCKED = true ↔ 200 ≤ u.cw.lockRun) ∧ u.time.up = s.time.up))

/-! ### The fault collector, start-up, self-test -/

/-- The fault collector (R387 to R391, R395, R398): occurrences are counted, and raise their source within its window; the reports of a cycle are recorded together. -/
def Obligations.CollectorRaisesItsSources : Prop :=
  ((∀ (f : FaultSource) (t detail : Nat) (always : Bool), let e := f.occur t detail always
      fget e.1.cnt F.FC_CNT.OCCUR = fget (finc f.cnt F.FC_CNT.OCCUR) F.FC_CNT.OCCUR ∧ e.1.detail = detail % 256 ∧ e.1.src = f.src ∧ e.1.cond = f.cond ∧
      (f.raised = true → e.2 = false ∧ e.1.raised = true ∧ e.1.applied = f.applied ∧ fget e.1.cnt F.FC_CNT.TRANSIENT = fget f.cnt F.FC_CNT.TRANSIENT) ∧
      (f.raised = false → fbit f.src F.FC_SRC.EN = false → always = false → e.2 = false ∧ e.1.raised = false) ∧
      (f.raised = false → (fbit f.src F.FC_SRC.EN = true ∨ always = true) → always = false →
        (e.2 = true ↔ ∃ old, (t :: f.history)[f.k - 1]? = some old ∧ t - old < f.windowMs)) ∧
      (f.raised = false → always = true → e.2 = true) ∧
      (e.2 = true → e.1.raised = true ∧ e.1.applied = fget f.src F.FC_SRC.REACT) ∧
      (f.raised = false → e.2 = false → e.1.raised = false ∧ fbit e.1.cnt F.FC_CNT.SEEN = true ∧
        fget e.1.cnt F.FC_CNT.TRANSIENT = fget (finc f.cnt F.FC_CNT.TRANSIENT) F.FC_CNT.TRANSIENT)) ∧
    (∀ (n : Nat) (cond : Bool) (detail : Nat) (s : State), n < 128 → ∃ u : State, (u.source n).cond = cond ∧ (∀ m, m ≠ n → u.source m = s.source m) ∧ u.time = s.time ∧
      u.fw = s.fw ∧ s.setCondition n cond detail = (if cond = true ∧ (s.source n).cond = false ∧ s.fc.watching = true then u.report n detail else u)) ∧
    (∀ c : Collector, fbit c.driveFaultN.stat F.FC_STAT.FAULT_N =
      (!c.watching || c.sources.toList.any (fun f => f.raised && nbit f.applied 4) || fbit c.stat F.FC_STAT.SAFE)) ∧
    (∀ (n detail : Nat) (s : State), sourceListed n = false → s.countOccurrence n detail = (s, false)) ∧
    (∀ s : State, s.react [] = s)) ∧
  ((∀ (rs : List FaultReport) (s : State), exec (.faultOccurrence rs) s = .next ((rs.foldl (fun (t : State) r => t.noteReport r) s).reportAll
      ((rs.filter s.isOccurrence).map (fun r => (r.source.val, r.detail.val))))) ∧
    (∀ (low high hot crit drive : Option (Fin 256)) (s : State), let rs := [sampled 0x0A drive, sampled 0x70 low, sampled 0x71 high, sampled 0x72 hot, sampled 0x73 crit]
      exec (.railDieSample low high hot crit drive) s = .next ((rs.foldl (fun (t : State) r => t.noteReport r) s).reportAll
        ((rs.filter s.isOccurrence).map (fun r => (r.source.val, r.detail.val))))) ∧
    (∀ (r : FaultReport) (s : State), levelSources.contains r.source.val = true →
      (s.isOccurrence r = true ↔ r.holds = true ∧ (s.source r.source.val).cond = false ∧ s.fc.watching = true) ∧
      ((s.noteReport r).source r.source.val).cond = r.holds ∧ (∀ m, m ≠ r.source.val → (s.noteReport r).source m = s.source m)) ∧
    (∀ s : State, s.fc.watching = true → ∃ stat, exec (.collectorCfgCheck true) s = .next (({ s with fc := { s.fc with corrupt := true, stat } }).report srcCollectorCfg 0) ∧
      fbit stat F.FC_STAT.CFG_ERR = true) ∧
    (∀ s : State, exec (.collectorCfgCheck false) s = .next s) ∧
    (∀ s : State, (s.boot.phase = .firmware ∨ s.boot.phase = .ready) → ∃ u : State, exec .watchdog s = .next (u.report srcWatchdog 0) ∧
      u.time.up = max s.time.up (s.boot.watchdogUp + 100 * ms) ∧ u.boot.watchdogUp = u.time.up ∧ u.fc = s.fc) ∧
    (∀ s : State, s.boot.phase ≠ .firmware → s.boot.phase ≠ .ready → exec .watchdog s = .next s))

/-- Power and start-up (R403 to R409, Sequence 23.1): from the rails to FW_READY; a reset keeps the Larder and the flash. -/
def Obligations.StartUpFollowsItsSequence : Prop :=
  (∀ s : State, exec .railsGood s = .next (if s.boot.phase == .off then { s with boot := { s.boot with railsGood := true } } else s)) ∧
  (∀ s : State, ∃ u : State, exec .resetNLow s = .next u ∧ u.boot.phase = .off ∧ u.time.up = 0 ∧ u.pending = s.pending ∧ u.porch.flash = s.porch.flash ∧
    u.larder.faultLog = s.larder.faultLog ∧ u.larder.rollback = s.larder.rollback ∧ u.larder.calBase = s.larder.calBase ∧ u.power.front = false ∧ u.power.study = false ∧
    u.fc.watching = false ∧ u.mb.dbMask = 0xFFFFFFFF ∧ u.hearth.ilockLow = s.hearth.ilockLow ∧
    ∀ torn : Bool, exec (.railRemoval torn) s = .next { u with larder := { u.larder with torn := u.larder.torn || torn } }) ∧
  (∀ (masterSel : Bool) (s : State), s.boot.phase = .off → s.boot.railsGood = true → ∃ u : State, exec (.porRelease masterSel) s = .next u.startWatching ∧
    u.boot.phase = .rom ∧ u.power.study = true ∧ u.power.cellar = true ∧ u.power.masterSel = masterSel ∧ u.time.up = max s.time.up (10 * ms) ∧ u.larder.torn = false ∧
    fbit u.boot.larderStat F.LARDER_STAT.MOUNTED = true ∧ (s.larder.torn = true → fbit u.boot.larderStat F.LARDER_STAT.TORN = true) ∧ u.fc = s.fc) ∧
  (∀ (masterSel : Bool) (s : State), s.boot.phase ≠ .off ∨ s.boot.railsGood = false → exec (.porRelease masterSel) s = .next s) ∧
  (∀ (memDesc : Word) (s : State), s.boot.phase = .rom → let p := s.preferred
    let at_ (n : Nat) : State := s.untilUp (s.boot.bootUp + n * 55 * ms)
    (s.imageGood p = true → exec (.bootImageLoaded memDesc) s = .next ((at_ 1).startFirmware p memDesc)) ∧
    (s.imageGood p = false → s.imageGood (1 - p) = true → ∃ u : State, exec (.bootImageLoaded memDesc) s = .next (u.report srcFwRollback p) ∧
      fbit u.boot.bootStat F.BOOT_STAT.FALLBACK = true ∧ u.fc = ((at_ 2).startFirmware (1 - p) memDesc).fc) ∧
    (s.imageGood p = false → s.imageGood (1 - p) = false → ∃ u : State, exec (.bootImageLoaded memDesc) s = .next (u.report srcFwRollback 0xFF) ∧ u.boot.phase = .hold ∧
      fbit u.boot.bootStat F.BOOT_STAT.ROM_HOLD = true ∧ u.power = s.power)) ∧
  (∀ (memDesc : Word) (s : State), s.boot.phase ≠ .rom → exec (.bootImageLoaded memDesc) s = .next s) ∧
  (∀ (ok : Bool) (s : State), s.boot.phase = .firmware → s.thr.calUp = none → s.boot.training = none →
    (s.boot.activate = none → exec (.fwReady ok) s = .next s.ready) ∧
    (∀ slot, s.boot.activate = some slot → exec (.fwReady true) s =
      .next ((({ s with boot := { s.boot with image := s.imageVersion slot, imageRollback := s.imageRollback slot } }).ready).activated slot)) ∧
    (∀ slot, s.boot.activate = some slot → exec (.fwReady false) s =
      .next (({ s.ready with boot := { s.ready.boot with activate := none } }).finishLong { status := .rollback } []))) ∧
  (∀ (ok : Bool) (s : State), s.boot.phase ≠ .firmware ∨ s.thr.calUp ≠ none ∨ s.boot.training ≠ none → exec (.fwReady ok) s = .next s) ∧
  (∀ s : State, s.ready.larder.rollback = max s.larder.rollback s.boot.imageRollback)
end

