-- ==== Sys2Proof/Laws/Bits.lean ====
section
/-! SUPPORT. Fields and bits of a word: reading back what was set, and fields that a write leaves alone. -/

namespace Sys2Proof.Machine

variable {w : Word} {f g : Fld} {v n i : Nat} {b : Bool}

theorem fget_lt : fget w f < 2 ^ f.len := Nat.mod_lt _ (by positivity)

/-- A word as the part above a field, the field, and the part below. -/
theorem word_split (w : Word) (f : Fld) :
    w.toNat = (w.toNat / 2 ^ f.lo / 2 ^ f.len * 2 ^ f.len + fget w f) * 2 ^ f.lo + w.toNat % 2 ^ f.lo := by
  rw [fget, mul_comm _ (2 ^ f.len), Nat.div_add_mod, mul_comm, Nat.div_add_mod]

theorem fset_raw (w : Word) (f : Fld) (v : Nat) : w.toNat - fget w f * 2 ^ f.lo + (v % 2 ^ f.len) * 2 ^ f.lo =
    (w.toNat / 2 ^ f.lo / 2 ^ f.len * 2 ^ f.len + v % 2 ^ f.len) * 2 ^ f.lo + w.toNat % 2 ^ f.lo := by
  have h := word_split w f
  generalize w.toNat / 2 ^ f.lo / 2 ^ f.len * 2 ^ f.len = a at h ⊢
  generalize w.toNat % 2 ^ f.lo = c at h ⊢
  rw [h, add_mul, add_mul]
  omega

/-- What a set word is as a number. -/
theorem fset_toNat (h : f.lo + f.len ≤ 32) : (fset w f v).toNat =
    (w.toNat / 2 ^ f.lo / 2 ^ f.len * 2 ^ f.len + v % 2 ^ f.len) * 2 ^ f.lo + w.toNat % 2 ^ f.lo := by
  rw [fset, BitVec.toNat_ofNat, fset_raw, Nat.mod_eq_of_lt]
  have hw := w.isLt
  have h1 : w.toNat / 2 ^ f.lo / 2 ^ f.len < 2 ^ (32 - f.lo - f.len) := by
    rw [Nat.div_div_eq_div_mul, ← pow_add, Nat.div_lt_iff_lt_mul (by positivity), ← pow_add]
    have : 32 - f.lo - f.len + (f.lo + f.len) = 32 := by omega
    rw [this]; exact hw
  have h2 : v % 2 ^ f.len < 2 ^ f.len := Nat.mod_lt _ (by positivity)
  have h3 : w.toNat % 2 ^ f.lo < 2 ^ f.lo := Nat.mod_lt _ (by positivity)
  calc (w.toNat / 2 ^ f.lo / 2 ^ f.len * 2 ^ f.len + v % 2 ^ f.len) * 2 ^ f.lo + w.toNat % 2 ^ f.lo
      < (w.toNat / 2 ^ f.lo / 2 ^ f.len * 2 ^ f.len + v % 2 ^ f.len) * 2 ^ f.lo + 2 ^ f.lo := by omega
    _ = (w.toNat / 2 ^ f.lo / 2 ^ f.len * 2 ^ f.len + v % 2 ^ f.len + 1) * 2 ^ f.lo := by ring
    _ ≤ (w.toNat / 2 ^ f.lo / 2 ^ f.len * 2 ^ f.len + 2 ^ f.len) * 2 ^ f.lo := Nat.mul_le_mul_right _ (by rw [Nat.add_assoc]; exact Nat.add_le_add_left (Nat.succ_le_of_lt h2) _)
    _ = (w.toNat / 2 ^ f.lo / 2 ^ f.len + 1) * (2 ^ f.len * 2 ^ f.lo) := by ring
    _ ≤ 2 ^ (32 - f.lo - f.len) * (2 ^ f.len * 2 ^ f.lo) := Nat.mul_le_mul_right _ (Nat.succ_le_of_lt h1)
    _ = 2 ^ 32 := by rw [← pow_add, ← pow_add]; congr 1; omega

/-- A field reads what it was set to, modulo its range. -/
@[simp] theorem fget_fset (h : f.lo + f.len ≤ 32) : fget (fset w f v) f = v % 2 ^ f.len := by
  rw [fget, fset_toNat h]
  have h3 : w.toNat % 2 ^ f.lo < 2 ^ f.lo := Nat.mod_lt _ (by positivity)
  rw [mul_comm _ (2 ^ f.lo), Nat.mul_add_div (by positivity), Nat.div_eq_of_lt h3, Nat.add_zero, mul_comm _ (2 ^ f.len), Nat.mul_add_mod, Nat.mod_mod]

theorem fget_fset_above (h : f.lo + f.len ≤ 32) (hg : f.lo + f.len ≤ g.lo) : fget (fset w f v) g = fget w g := by
  obtain ⟨k, hk⟩ := Nat.exists_eq_add_of_le hg
  have key : (fset w f v).toNat / 2 ^ (f.lo + f.len) = w.toNat / 2 ^ (f.lo + f.len) := by
    rw [fset_toNat h, pow_add, ← Nat.div_div_eq_div_mul, mul_comm _ (2 ^ f.lo), Nat.mul_add_div (by positivity),
      Nat.div_eq_of_lt (Nat.mod_lt _ (by positivity)), Nat.add_zero, mul_comm _ (2 ^ f.len), Nat.mul_add_div (by positivity),
      Nat.div_eq_of_lt (Nat.mod_lt v (by positivity)), Nat.add_zero, Nat.div_div_eq_div_mul]
  rw [fget, fget, hk, pow_add, ← Nat.div_div_eq_div_mul, key, Nat.div_div_eq_div_mul]

theorem fget_fset_below (h : f.lo + f.len ≤ 32) (hg : g.lo + g.len ≤ f.lo) : fget (fset w f v) g = fget w g := by
  have low : ∀ x : Nat, x / 2 ^ g.lo % 2 ^ g.len = x % 2 ^ f.lo / 2 ^ g.lo % 2 ^ g.len := by
    intro x
    obtain ⟨k, hk⟩ := Nat.exists_eq_add_of_le hg
    rw [hk, show g.lo + g.len + k = g.lo + (g.len + k) by ring, pow_add 2 g.lo, Nat.mod_mul_right_div_self, pow_add, Nat.mod_mul_right_mod]
  rw [fget, fget, low, low w.toNat, fset_toNat h]
  congr 2
  rw [mul_comm, Nat.mul_add_mod, Nat.mod_mod]

/-- Fields that do not overlap do not meet. -/
theorem fget_fset_ne (h : f.lo + f.len ≤ 32) (hg : f.lo + f.len ≤ g.lo ∨ g.lo + g.len ≤ f.lo) : fget (fset w f v) g = fget w g :=
  hg.elim (fget_fset_above h) (fget_fset_below h)

theorem fbit_fset (h : f.lo + f.len ≤ 32) : fbit (fset w f v) f = (v % 2 ^ f.len != 0) := by rw [fbit, fget_fset h]

theorem fbit_fset_ne (h : f.lo + f.len ≤ 32) (hg : f.lo + f.len ≤ g.lo ∨ g.lo + g.len ≤ f.lo) : fbit (fset w f v) g = fbit w g := by
  rw [fbit, fget_fset_ne h hg, fbit]

theorem fbit_fsetB (h : f.lo + f.len ≤ 32) (h1 : f.len = 1) : fbit (fsetB w f b) f = b := by
  rw [fsetB, fbit_fset h, h1]; cases b <;> rfl

theorem fbit_fsetB_ne (h : f.lo + f.len ≤ 32) (hg : f.lo + f.len ≤ g.lo ∨ g.lo + g.len ≤ f.lo) : fbit (fsetB w f b) g = fbit w g := fbit_fset_ne h hg

theorem fget_fsetB_ne (h : f.lo + f.len ≤ 32) (hg : f.lo + f.len ≤ g.lo ∨ g.lo + g.len ≤ f.lo) : fget (fsetB w f b) g = fget w g := fget_fset_ne h hg

theorem fget_finc (h : f.lo + f.len ≤ 32) : fget (finc w f) f = (fget w f + 1) % 2 ^ f.len := fget_fset h

theorem fget_finc_ne (h : f.lo + f.len ≤ 32) (hg : f.lo + f.len ≤ g.lo ∨ g.lo + g.len ≤ f.lo) : fget (finc w f) g = fget w g := fget_fset_ne h hg

theorem fbit_finc_ne (h : f.lo + f.len ≤ 32) (hg : f.lo + f.len ≤ g.lo ∨ g.lo + g.len ≤ f.lo) : fbit (finc w f) g = fbit w g := fbit_fset_ne h hg

/-- A bit by its number is the bit of the vector. -/
theorem nbit_toNat (w : Word) (i : Nat) : nbit w.toNat i = w.getLsbD i := by
  simp [nbit, BitVec.getLsbD, Nat.testBit_eq_decide_div_mod_eq, Bool.beq_eq_decide_eq]

end Sys2Proof.Machine
end

