-- ==== Sys2Proof/Laws/Mem.lean ====
section
/-! SUPPORT. The laws of the sparse memories: every operation keeps the canonical form, a read after a write to the same address gives the value
written, and a write leaves every other address alone. -/

namespace Sys2Proof.Machine

variable {α : Type} [DecidableEq α] {d : α}

theorem Mem.wfFrom_write {lo : Option Nat} {m : Sparse α} {a : Nat} {v : α} (h : Mem.wfFrom d lo m = true) (hl : ∀ l, lo = some l → l < a) :
    Mem.wfFrom d lo (Mem.write d m a v) = true := by
  induction m generalizing lo with
  | nil =>
    by_cases hv : v = d
    · simp [Mem.write, hv, Mem.wfFrom]
    · cases lo <;> simp_all [Mem.write, Mem.wfFrom]
  | cons e rest ih =>
    obtain ⟨b, u⟩ := e
    simp only [Mem.wfFrom, Bool.and_eq_true, decide_eq_true_eq] at h
    unfold Mem.write
    split
    · rename_i hab
      split
      · simp only [Mem.wfFrom, Bool.and_eq_true, decide_eq_true_eq]; exact h
      · rename_i hv
        cases lo <;> simp_all [Mem.wfFrom]
    · split
      · rename_i hab1 hab; subst hab
        split
        · cases rest with
          | nil => rfl
          | cons e2 r2 =>
            obtain ⟨c, w⟩ := e2
            have h2 := h.2
            simp only [Mem.wfFrom, Bool.and_eq_true, decide_eq_true_eq] at h2 ⊢
            refine ⟨⟨?_, h2.1.2⟩, h2.2⟩
            cases lo with
            | none => rfl
            | some l => have := hl l rfl; simp; omega
        · simp_all [Mem.wfFrom]
      · simp only [Mem.wfFrom, Bool.and_eq_true, decide_eq_true_eq]
        refine ⟨h.1, ih h.2 ?_⟩
        intro l hb
        have : l = b := by simpa using hb.symm
        omega

/-- A write keeps the canonical form. -/
theorem Mem.wf_write {m : Sparse α} {a : Nat} {v : α} (h : Mem.wf d m = true) : Mem.wf d (Mem.write d m a v) = true :=
  Mem.wfFrom_write h (by simp)

/-- Writing a list of values keeps the canonical form. -/
theorem Mem.wf_writeN {m : Sparse α} {a : Nat} {vs : List α} (h : Mem.wf d m = true) : Mem.wf d (Mem.writeN d m a vs) = true := by
  induction vs generalizing m a with
  | nil => exact h
  | cons v rest ih => exact ih (Mem.wf_write h)

theorem Mem.wfFrom_filter {lo : Option Nat} {m : Sparse α} {p : Nat × α → Bool} (h : Mem.wfFrom d lo m = true) : Mem.wfFrom d lo (m.filter p) = true := by
  induction m generalizing lo with
  | nil => rfl
  | cons e rest ih =>
    obtain ⟨b, v⟩ := e
    have h' := h
    simp only [Mem.wfFrom, Bool.and_eq_true, decide_eq_true_eq] at h
    simp only [List.filter]
    split
    · simp only [Mem.wfFrom, Bool.and_eq_true, decide_eq_true_eq]; exact ⟨h.1, ih h.2⟩
    · have hk := ih h.2
      cases hm : rest.filter p with
      | nil => rfl
      | cons e2 r2 =>
        rw [hm] at hk
        obtain ⟨c, w⟩ := e2
        simp only [Mem.wfFrom, Bool.and_eq_true, decide_eq_true_eq] at hk ⊢
        refine ⟨⟨?_, hk.1.2⟩, hk.2⟩
        cases lo with
        | none => rfl
        | some l =>
          have h1 : l < b := by simpa using h.1.1
          have h2 : b < c := by simpa using hk.1.1
          simp; omega

/-- Clearing a range keeps the canonical form. -/
theorem Mem.wf_clearRange {m : Sparse α} {a n : Nat} (h : Mem.wf d m = true) : Mem.wf d (Mem.clearRange m a n) = true :=
  Mem.wfFrom_filter h

/-- A read of an address below every listed one gives what an unlisted address reads as. -/
theorem Mem.read_below {m : Sparse α} {lo a : Nat} (h : Mem.wfFrom d (some lo) m = true) (ha : a ≤ lo) : Mem.read d m a = d := by
  cases m with
  | nil => rfl
  | cons e rest =>
    obtain ⟨b, v⟩ := e
    simp only [Mem.wfFrom, Bool.and_eq_true, decide_eq_true_eq] at h
    have h1 : lo < b := by simpa using h.1.1
    unfold Mem.read
    rw [if_neg (by omega), if_pos (by omega)]

omit [DecidableEq α] in
theorem Mem.read_cons {m : Sparse α} {b c : Nat} {v : α} :
    Mem.read d ((b, v) :: m) c = if c = b then v else if c < b then d else Mem.read d m c := rfl

theorem Mem.read_write_from {lo : Option Nat} {m : Sparse α} {a c : Nat} {v : α} (h : Mem.wfFrom d lo m = true) :
    Mem.read d (Mem.write d m a v) c = if c = a then v else Mem.read d m c := by
  induction m generalizing lo with
  | nil =>
    by_cases hv : v = d <;> by_cases hc : c = a <;> simp [Mem.write, Mem.read, hv, hc]
  | cons e rest ih =>
    obtain ⟨b, u⟩ := e
    simp only [Mem.wfFrom, Bool.and_eq_true, decide_eq_true_eq] at h
    have below : ∀ k, k ≤ b → Mem.read d rest k = d := fun k hk => Mem.read_below h.2 hk
    have hr := ih h.2
    unfold Mem.write
    by_cases hab : a < b
    · by_cases hv : v = d
      · by_cases hc : c = a
        · subst hc; simp [hab, hv, Mem.read_cons, Nat.ne_of_lt hab]
        · simp [hab, hv, hc]
      · by_cases hc : c = a
        · subst hc; simp [hab, hv, Mem.read_cons]
        · by_cases hca : c < a
          · simp [hab, hv, Mem.read_cons, hc, hca, Nat.ne_of_lt (Nat.lt_trans hca hab), Nat.lt_trans hca hab]
          · simp [hab, hv, Mem.read_cons, hc, hca]
    · by_cases hab2 : a = b
      · subst hab2
        by_cases hv : v = d
        · by_cases hc : c = a
          · subst hc; simp [hv, below c (Nat.le_refl _)]
          · by_cases hca : c < a
            · simp [hv, Mem.read_cons, hc, hca, below c (Nat.le_of_lt hca)]
            · simp [hv, Mem.read_cons, hc, hca]
        · by_cases hc : c = a <;> simp [hv, Mem.read_cons, hc]
      · by_cases hc : c = a
        · subst hc; simp [hab, hab2, Mem.read_cons, hr]
        · simp [hab, hab2, hc, Mem.read_cons, hr]

/-- A read after a write: the value written at its address, the old value everywhere else. -/
theorem Mem.read_write {m : Sparse α} {a c : Nat} {v : α} (h : Mem.wf d m = true) :
    Mem.read d (Mem.write d m a v) c = if c = a then v else Mem.read d m c := Mem.read_write_from h

/-- A read after writing a list: the values written inside its span, the old values outside. -/
theorem Mem.read_writeN {m : Sparse α} {a c : Nat} {vs : List α} (h : Mem.wf d m = true) :
    Mem.read d (Mem.writeN d m a vs) c = if a ≤ c ∧ c < a + vs.length then (vs[c - a]?).getD d else Mem.read d m c := by
  induction vs generalizing m a with
  | nil =>
    have : ¬(a ≤ c ∧ c < a + ([] : List α).length) := by simp
    rw [if_neg this]; rfl
  | cons v rest ih =>
    show Mem.read d (Mem.writeN d (Mem.write d m a v) (a + 1) rest) c = _
    rw [ih (Mem.wf_write h), Mem.read_write h]
    by_cases h1 : c = a
    · subst h1
      rw [if_neg (by omega), if_pos rfl, if_pos ⟨Nat.le_refl _, by simp⟩]; simp
    · by_cases h2 : a ≤ c ∧ c < a + (v :: rest).length
      · have h3 : a + 1 ≤ c ∧ c < a + 1 + rest.length := by simp at h2; omega
        rw [if_pos h2, if_pos h3]
        obtain ⟨k, rfl⟩ : ∃ k, c = a + 1 + k := ⟨c - (a + 1), by omega⟩
        have e1 : a + 1 + k - (a + 1) = k := by omega
        have e2 : a + 1 + k - a = k + 1 := by omega
        rw [e1, e2]; simp
      · have h3 : ¬(a + 1 ≤ c ∧ c < a + 1 + rest.length) := by simp at h2; omega
        rw [if_neg h2, if_neg h3, if_neg h1]

/-- Equal memories are equal data: two canonical lists that read the same everywhere are the same list. -/
theorem Mem.ext_of_read {m k : Sparse α} {lo : Option Nat} (hm : Mem.wfFrom d lo m = true) (hk : Mem.wfFrom d lo k = true)
    (h : ∀ a, Mem.read d m a = Mem.read d k a) : m = k := by
  induction m generalizing k lo with
  | nil =>
    cases k with
    | nil => rfl
    | cons e r =>
      obtain ⟨b, v⟩ := e
      have := h b
      simp [Mem.wfFrom] at hk
      simp [Mem.read] at this
      exact absurd this.symm hk.1.2
  | cons e r ih =>
    obtain ⟨b, v⟩ := e
    cases k with
    | nil =>
      have := h b
      simp [Mem.wfFrom] at hm
      simp [Mem.read] at this
      exact absurd this hm.1.2
    | cons e2 r2 =>
      obtain ⟨c, w⟩ := e2
      simp only [Mem.wfFrom, Bool.and_eq_true, decide_eq_true_eq] at hm hk
      rcases Nat.lt_trichotomy b c with hbc | hbc | hbc
      · have := h b
        simp [Mem.read, hbc, Nat.ne_of_lt hbc] at this
        exact absurd this hm.1.2
      · subst hbc
        have hv := h b
        simp [Mem.read] at hv
        subst hv
        congr 1
        refine ih hm.2 hk.2 (fun a => ?_)
        by_cases ha : a ≤ b
        · rw [Mem.read_below hm.2 ha, Mem.read_below hk.2 ha]
        · have := h a
          simpa [Mem.read, Nat.ne_of_gt (Nat.lt_of_not_le ha), Nat.not_lt.2 (Nat.le_of_lt (Nat.lt_of_not_le ha))] using this
      · have := h c
        simp [Mem.read, hbc, Nat.ne_of_lt hbc] at this
        exact absurd this.symm hk.1.2

end Sys2Proof.Machine
end

