-- ==== Sys2Proof/Laws/CellarMem.lean ====
section
/-! SUPPORT. What the operations of the Cellar and of the Loft memory do to the bytes: most leave all of DRAM as it is; the ones that store keep the
canonical form. -/

namespace Sys2Proof.Machine

variable {c : Cellar} {l : Loft}

@[simp] theorem Cellar.takeMap_mem : c.takeMap.mem = c.mem := by
  unfold Cellar.takeMap; split <;> rfl
@[simp] theorem Cellar.restartRings_mem {n : Nat} : (c.restartRings n).mem = c.mem := rfl
@[simp] theorem Cellar.countGrant_mem {n : Nat} : (c.countGrant n).mem = c.mem := by
  unfold Cellar.countGrant; dsimp only; split
  · rfl
  · dsimp only; split <;> rfl
@[simp] theorem Cellar.advanceScrub_mem {n : Nat} : (c.advanceScrub n).mem = c.mem := by
  unfold Cellar.advanceScrub; extract_lets late; split <;> rfl
@[simp] theorem Cellar.payRefresh_mem : c.payRefresh.mem = c.mem := rfl
@[simp] theorem Cellar.judgePanic_mem {n : Nat} : (c.judgePanic n).mem = c.mem := by
  unfold Cellar.judgePanic; split
  · rfl
  · extract_lets q lv on off q1 c1 c2; split <;> rfl
@[simp] theorem Cellar.request_mem {n : Nat} {r : PortRequest} : (c.request n r).mem = c.mem := by
  unfold Cellar.request; rw [Cellar.judgePanic_mem]
@[simp] theorem Cellar.enterBank_mem {r : BankRequest} : (c.enterBank r).mem = c.mem := rfl
@[simp] theorem Cellar.bumpCorrected_mem {a b : Nat} : (c.bumpCorrected a b).mem = c.mem := rfl
@[simp] theorem Cellar.setRing_mem {p5 : Bool} {r : Ring} : (c.setRing p5 r).mem = c.mem := by
  unfold Cellar.setRing; split <;> rfl

@[simp] theorem Cellar.drainBanks_mem {n : Nat} : (Cellar.drainBanks n c).mem = c.mem := by
  induction n generalizing c with
  | zero => rfl
  | succ n ih =>
    unfold Cellar.drainBanks
    split
    · rfl
    · exact ih

@[simp] theorem Cellar.defaultMap_mem : c.defaultMap.mem = c.mem := by
  unfold Cellar.defaultMap; dsimp only; rw [Cellar.takeMap_mem]
@[simp] theorem Cellar.describe_mem {w : Word} : (c.describe w).mem = c.mem := by
  unfold Cellar.describe; dsimp only; split
  · rw [Cellar.defaultMap_mem]
  · rfl
theorem Cellar.foldRequest_mem {α : Type} {l : List α} {p : Nat} {f : α → PortRequest} : (l.foldl (fun c x => c.request p (f x)) c).mem = c.mem := by
  induction l generalizing c with
  | nil => rfl
  | cons x l ih => rw [List.foldl_cons, ih, Cellar.request_mem]

theorem Cellar.store_wf {a : Nat} {bs : List Byte} (h : Mem.wf 0 c.mem = true) : Mem.wf 0 (c.store a bs).mem = true := Mem.wf_writeN h
theorem Cellar.invertSymbols_wf {a : Nat} (h : Mem.wf 0 c.mem = true) : Mem.wf 0 (c.invertSymbols a).mem = true := Mem.wf_writeN h
theorem Cellar.storeRing_wf {p5 : Bool} {p : Nat} {bs : List Byte} (h : Mem.wf 0 c.mem = true) : Mem.wf 0 (c.storeRing p5 p bs).mem = true := by
  unfold Cellar.storeRing; exact Cellar.store_wf (Cellar.store_wf h)
theorem Cellar.openFrame_wf {p5 : Bool} {row : StoredRow} {b : Nat} (h : Mem.wf 0 c.mem = true) : Mem.wf 0 (c.openFrame p5 row b).mem = true := by
  unfold Cellar.openFrame; extract_lets r r1 e c1
  repeat' split
  all_goals first
    | (rw [Cellar.setRing_mem]; exact h)
    | (apply Cellar.store_wf; rw [Cellar.setRing_mem]; exact h)
theorem Cellar.countOverruns_mem {p n : Nat} : (c.countOverruns p n).mem = c.mem := by unfold Cellar.countOverruns; split <;> rfl
theorem Cellar.markOverrun_wf {p5 : Bool} {p f : Nat} {bs : List Byte} (h : Mem.wf 0 c.mem = true) : Mem.wf 0 (c.markOverrun p5 p f bs).1.mem = true := by
  unfold Cellar.markOverrun; dsimp only
  split
  · exact Cellar.storeRing_wf h
  · split
    · apply Cellar.store_wf; rw [Cellar.setRing_mem]; exact h
    · exact h
theorem Cellar.endRow_wf {p5 : Bool} {row : StoredRow} {n : Nat} (h : Mem.wf 0 c.mem = true) : Mem.wf 0 (c.endRow p5 row n).1.mem = true := by
  unfold Cellar.endRow; dsimp only
  rw [Cellar.countOverruns_mem]
  split
  · exact Cellar.markOverrun_wf (by rw [Cellar.setRing_mem]; exact h)
  · rw [Cellar.setRing_mem]; exact h
theorem Cellar.foldMark_wf {p5 : Bool} {rs : List RingRow} {n : Nat} (h : Mem.wf 0 c.mem = true) :
    Mem.wf 0 (rs.foldl (fun (d, n) x => let (e, m) := d.markOverrun p5 x.p x.frame (d.readRing p5 x.p 64); (e, n + m)) (c, n)).1.mem = true := by
  induction rs generalizing c n with
  | nil => exact h
  | cons r rs ih => exact ih (Cellar.markOverrun_wf h)
theorem Cellar.loseRows_wf {p5 : Bool} (h : Mem.wf 0 c.mem = true) : Mem.wf 0 (c.loseRows p5).1.mem = true := by
  unfold Cellar.loseRows; dsimp only
  apply Cellar.foldMark_wf; rw [Cellar.setRing_mem]; exact h
theorem Cellar.blockReset_wf (h : Mem.wf 0 c.mem = true) : Mem.wf 0 c.blockReset.1.mem = true := by
  unfold Cellar.blockReset; dsimp only
  rw [Cellar.countOverruns_mem, Cellar.countOverruns_mem]
  exact Cellar.loseRows_wf (Cellar.loseRows_wf h)

theorem Loft.write_wf {a : Nat} {bs : List Byte} (h : Mem.wf 0 l.landing = true) : Mem.wf 0 (l.write a bs).landing = true := Mem.wf_writeN h
theorem Loft.clearPage_wf {z : Zone} (h : Mem.wf 0 l.landing = true) : Mem.wf 0 (l.clearPage z).landing = true := by
  unfold Loft.clearPage
  dsimp only
  split
  · exact Mem.wf_clearRange h
  · exact h
@[simp] theorem Loft.halt_landing : l.halt.landing = l.landing := rfl
theorem Loft.foldFst_wf {α : Type} {es : List α} {f : Loft × Nat → α → Loft × Nat} {x : Loft × Nat} (h : Mem.wf 0 x.1.landing = true)
    (hf : ∀ y e, Mem.wf 0 y.1.landing = true → Mem.wf 0 (f y e).1.landing = true) : Mem.wf 0 (es.foldl f x).1.landing = true := by
  induction es generalizing x with
  | nil => exact h
  | cons e es ih => exact ih (hf _ _ h)
theorem Loft.packStore_wf (h : Mem.wf 0 l.landing = true) : Mem.wf 0 l.packStore.1.landing = true := by
  unfold Loft.packStore
  apply Loft.foldFst_wf
  · exact Mem.wf_clearRange h
  · intro y e hy; exact Loft.write_wf hy
theorem Loft.storePlace_wf {n : Nat} {x : Loft × Nat} (h : Mem.wf 0 l.landing = true) (hx : l.storePlace n = some x) : Mem.wf 0 x.1.landing = true := by
  unfold Loft.storePlace at hx
  split at hx
  · cases hx; exact h
  · dsimp only at hx
    split at hx
    · cases hx; exact Loft.packStore_wf h
    · cases hx

end Sys2Proof.Machine
end

