-- ==== Sys2Proof/Laws/Keeps.lean ====
section
/-! SUPPORT. `Keeps u0 q0 s`: s is sound, its uptime is at least u0 and its queue is q0. Every operation of the machine keeps it; the lemmas of the files
Laws/Keeps… say so, one per operation, and a claim about every step cites them instead of unfolding the operations. -/

namespace Sys2Proof.Machine

def Keeps (u0 : Nat) (q0 : List Instr) (s : State) : Prop := s.Sound ∧ u0 ≤ s.time.up ∧ s.pending = q0

/-- A reply keeps it in every state that it carries. -/
def ReplyKeeps (u0 : Nat) (q0 : List Instr) : Reply → Prop
  | .refuse _ => True
  | .refuseWith _ t => Keeps u0 q0 t
  | .done _ t => Keeps u0 q0 t
  | .later t => Keeps u0 q0 t

/-- An outcome keeps it in its next state. -/
def ResKeeps (u0 : Nat) (q0 : List Instr) : Res → Prop
  | .next t => Keeps u0 q0 t
  | .fault _ => True
  | .refused _ => True

variable {u0 : Nat} {q0 : List Instr} {s : State}

theorem ReplyKeeps.refuse {e : Err} : ReplyKeeps u0 q0 (.refuse e) := trivial
theorem ReplyKeeps.no {st : Status} {a b : Nat} : ReplyKeeps u0 q0 (no st a b) := trivial
theorem ReplyKeeps.refuseWith {e : Err} {t : State} (h : Keeps u0 q0 t) : ReplyKeeps u0 q0 (.refuseWith e t) := h
theorem ReplyKeeps.done {ws : List Word} {t : State} (h : Keeps u0 q0 t) : ReplyKeeps u0 q0 (.done ws t) := h
theorem ReplyKeeps.later {t : State} (h : Keeps u0 q0 t) : ReplyKeeps u0 q0 (.later t) := h
theorem ResKeeps.next {t : State} (h : Keeps u0 q0 t) : ResKeeps u0 q0 (.next t) := h
theorem ResKeeps.fault {f : Fault} : ResKeeps u0 q0 (.fault f) := trivial

theorem Keeps.ite {c : Prop} [Decidable c] {a b : State} (ha : Keeps u0 q0 a) (hb : Keeps u0 q0 b) : Keeps u0 q0 (if c then a else b) := by
  split <;> assumption

theorem ReplyKeeps.ite {c : Prop} [Decidable c] {a b : Reply} (ha : ReplyKeeps u0 q0 a) (hb : ReplyKeeps u0 q0 b) : ReplyKeeps u0 q0 (if c then a else b) := by
  split <;> assumption

theorem ResKeeps.ite {c : Prop} [Decidable c] {a b : Res} (ha : ResKeeps u0 q0 a) (hb : ResKeeps u0 q0 b) : ResKeeps u0 q0 (if c then a else b) := by
  split <;> assumption

theorem Keeps.foldl {α : Type} {l : List α} {f : State → α → State} (h : Keeps u0 q0 s) (hf : ∀ t a, Keeps u0 q0 t → Keeps u0 q0 (f t a)) :
    Keeps u0 q0 (l.foldl f s) := by
  induction l generalizing s with
  | nil => exact h
  | cons a l ih => exact ih (hf _ _ h)

/-- A fold that carries something beside the state. -/
theorem Keeps.foldlFst {α β : Type} {l : List α} {f : State × β → α → State × β} {x : State × β} (h : Keeps u0 q0 x.1)
    (hf : ∀ t a, Keeps u0 q0 t.1 → Keeps u0 q0 (f t a).1) : Keeps u0 q0 (l.foldl f x).1 := by
  induction l generalizing x with
  | nil => exact h
  | cons a l ih => exact ih (hf _ _ h)

/-- A state made from another one whose uptime, queue, identification words and memories it takes over. -/
theorem Keeps.mk {t : State} {pending : List Instr} {free : Nat} {time : TimeBase} {tiu : Tiu} {tach : Vector Tach 8} {power : Power} {boot : Startup}
    {larder : Larder} {fc : Collector} {host : HostMap} {mb : MailboxBlock} {msix : Msix} {porch : Porch} {streams : Streams} {cw : Causeway} {fw : Firmware}
    {probe : Probe} {hearth : Hearth} {thr : Threshold} {cellar : Cellar} {trig : Triggers} {halls : Halls} {loft : Loft} (ep : pending = t.pending)
    (eu : time.up = t.time.up) (ed : host.idDevice = t.host.idDevice) (ev : host.idVendor = t.host.idVendor) (em : cellar.mem = t.cellar.mem)
    (el : loft.landing = t.loft.landing) (ef : porch.flash = t.porch.flash) (h : Keeps u0 q0 t) :
    Keeps u0 q0 (State.mk pending free time tiu tach power boot larder fc host mb msix porch streams cw fw probe hearth thr cellar trig halls loft) := by
  obtain ⟨⟨⟨h1, h2⟩, h3, h4, h5⟩, h6, h7⟩ := h
  exact ⟨⟨⟨ed.trans h1, ev.trans h2⟩, em ▸ h3, el ▸ h4, ef ▸ h5⟩, eu ▸ h6, ep.trans h7⟩

theorem Keeps.time {t : TimeBase} (h : Keeps u0 q0 s) (hu : u0 ≤ t.up) : Keeps u0 q0 { s with time := t } := ⟨h.1, hu, h.2.2⟩
theorem Keeps.host {x : HostMap} (h : Keeps u0 q0 s) (h1 : x.idDevice = s.host.idDevice) (h2 : x.idVendor = s.host.idVendor) :
    Keeps u0 q0 { s with host := x } := ⟨⟨⟨h1.trans h.1.1.1, h2.trans h.1.1.2⟩, h.1.2⟩, h.2⟩
theorem Keeps.cellar {x : Cellar} (h : Keeps u0 q0 s) (h1 : Mem.wf 0 x.mem = true) : Keeps u0 q0 { s with cellar := x } :=
  ⟨⟨h.1.1, h1, h.1.2.2⟩, h.2⟩
theorem Keeps.loft {x : Loft} (h : Keeps u0 q0 s) (h1 : Mem.wf 0 x.landing = true) : Keeps u0 q0 { s with loft := x } :=
  ⟨⟨h.1.1, h.1.2.1, h1, h.1.2.2.2⟩, h.2⟩
theorem Keeps.porch {x : Porch} (h : Keeps u0 q0 s) (h1 : Mem.wf 0xFF x.flash = true) : Keeps u0 q0 { s with porch := x } :=
  ⟨⟨h.1.1, h.1.2.1, h.1.2.2.1, h1⟩, h.2⟩
theorem Keeps.mem (h : Keeps u0 q0 s) : Mem.wf 0 s.cellar.mem = true := h.1.2.1
theorem Keeps.landing (h : Keeps u0 q0 s) : Mem.wf 0 s.loft.landing = true := h.1.2.2.1
theorem Keeps.flash (h : Keeps u0 q0 s) : Mem.wf 0xFF s.porch.flash = true := h.1.2.2.2
theorem Keeps.up (h : Keeps u0 q0 s) : u0 ≤ s.time.up := h.2.1
/-- Sound with a larger bound is sound with a smaller one. -/
theorem Keeps.le {u1 : Nat} (hu : u0 ≤ u1) (h : Keeps u1 q0 s) : Keeps u0 q0 s := ⟨h.1, Nat.le_trans hu h.2.1, h.2.2⟩

/-! A result taken out of a pair, an option or an answer. -/

theorem Keeps.of_fst {β : Type} {x : State × β} {a : State} {b : β} (h1 : x = (a, b)) (h2 : Keeps u0 q0 x.1) : Keeps u0 q0 a := by
  subst h1; exact h2
theorem Keeps.of_snd {β : Type} {x : β × State} {a : State} {b : β} (h1 : x = (b, a)) (h2 : Keeps u0 q0 x.2) : Keeps u0 q0 a := by
  subst h1; exact h2
theorem Keeps.of_some {x : Option State} {a : State} (h1 : x = some a) (h2 : ∀ t, x = some t → Keeps u0 q0 t) : Keeps u0 q0 a := h2 a h1
theorem Keeps.of_some2 {β : Type} {x : Option (β × State)} {a : State} {b : β} (h1 : x = some (b, a)) (h2 : ∀ t, x = some t → Keeps u0 q0 t.2) :
    Keeps u0 q0 a := h2 _ h1
theorem Keeps.of_some3 {β γ : Type} {x : Option (β × γ × State)} {a : State} {b : β} {c : γ} (h1 : x = some (b, c, a))
    (h2 : ∀ t, x = some t → Keeps u0 q0 t.2.2) : Keeps u0 q0 a := h2 _ h1
theorem Keeps.of_ok1 {β : Type} {x : Except Err (State × β)} {a : State} {b : β} (h1 : x = .ok (a, b)) (h2 : ∀ t, x = .ok t → Keeps u0 q0 t.1) :
    Keeps u0 q0 a := h2 _ h1
theorem Keeps.of_ok2 {β : Type} {x : Except Err (β × State)} {a : State} {b : β} (h1 : x = .ok (b, a)) (h2 : ∀ t, x = .ok t → Keeps u0 q0 t.2) :
    Keeps u0 q0 a := h2 _ h1

/-! A register that a write reaches keeps it whatever word it takes. -/

def OKeeps (u0 : Nat) (q0 : List Instr) (o : Option Reg) : Prop := ∀ r, o = some r → ∀ w, Keeps u0 q0 (r.put w)

theorem OKeeps.nil : OKeeps u0 q0 (firstReg []) := by intro r h; cases h
theorem OKeeps.cons {o : Option Reg} {rs : List (Option Reg)} (h1 : OKeeps u0 q0 o) (h2 : OKeeps u0 q0 (firstReg rs)) : OKeeps u0 q0 (firstReg (o :: rs)) := by
  intro r h
  cases o with
  | none => exact h2 r h
  | some x => exact h1 r h
theorem OKeeps.row {off base stride count : Nat} {f : Nat → Reg} (h : ∀ n w, Keeps u0 q0 ((f n).put w)) : OKeeps u0 q0 (regRow off base stride count f) := by
  intro r hr
  unfold regRow at hr
  cases hx : rowIndex off base stride count with
  | none => rw [hx] at hr; cases hr
  | some n => rw [hx] at hr; cases hr; exact h n
theorem OKeeps.at {off at_ : Nat} {x : Reg} (h : ∀ w, Keeps u0 q0 (x.put w)) : OKeeps u0 q0 (regAt off at_ x) := by
  intro r hr
  unfold regAt at hr
  split at hr
  · cases hr; exact h
  · cases hr
theorem OKeeps.map {α : Type} {o : Option α} {f : α → Reg} (h : ∀ y w, Keeps u0 q0 ((f y).put w)) : OKeeps u0 q0 (o.map f) := by
  intro r hr
  cases o with
  | none => cases hr
  | some x => cases hr; exact h x
theorem OKeeps.bind {α : Type} {o : Option α} {f : α → Option Reg} (h : ∀ y, OKeeps u0 q0 (f y)) : OKeeps u0 q0 (o.bind f) := by
  intro r hr
  cases o with
  | none => cases hr
  | some x => exact h x r hr
theorem OKeeps.none : OKeeps u0 q0 none := by intro r h; cases h
theorem OKeeps.ite {c : Prop} [Decidable c] {a b : Option Reg} (ha : OKeeps u0 q0 a) (hb : OKeeps u0 q0 b) : OKeeps u0 q0 (if c then a else b) := by
  split <;> assumption
theorem OKeeps.put {o : Option Reg} {r : Reg} (h1 : o = some r) (h2 : OKeeps u0 q0 o) : ∀ w, Keeps u0 q0 (r.put w) := h2 r h1

end Sys2Proof.Machine
end

