-- ==== Sys2Proof/Laws/KeepsBase.lean ====
section
/-! SUPPORT. One lemma per operation of the shared operations, the collector and its reactions: it keeps what `Keeps` says. -/

namespace Sys2Proof.Machine

variable {u0 : Nat} {q0 : List Instr} {s : State}

theorem State.emitOn_keeps (h : Keeps u0 q0 s) (stamp : Option Nat) (q : Nat) (code : Nat) (payload : List Word) : Keeps u0 q0 (State.emitOn stamp q code payload s) := by
  unfold State.emitOn
  try dsimp only
  with_reducible repeat' first
    | exact h | fail_if_no_progress (refine Keeps.mk rfl rfl rfl rfl rfl rfl rfl ?_) | apply Keeps.ite

theorem State.emitAt_keeps (h : Keeps u0 q0 s) (stamp : Option Nat) (code : Nat) (payload : List Word) : Keeps u0 q0 (State.emitAt stamp code payload s) := by
  unfold State.emitAt
  try dsimp only
  with_reducible repeat' first
    | exact h | apply State.emitOn_keeps | fail_if_no_progress (refine Keeps.mk rfl rfl rfl rfl rfl rfl rfl ?_) | apply Keeps.foldl | intro _ _ h

theorem State.msixSend_keeps (h : Keeps u0 q0 s) (v : Nat) : Keeps u0 q0 (State.msixSend v s) := by
  unfold State.msixSend
  try dsimp only
  with_reducible repeat' first
    | exact h | fail_if_no_progress (refine Keeps.mk rfl rfl rfl rfl rfl rfl rfl ?_) | apply Keeps.ite

theorem State.msixCause_keeps (h : Keeps u0 q0 s) (v : Nat) : Keeps u0 q0 (State.msixCause v s) := by
  unfold State.msixCause
  try dsimp only
  with_reducible repeat' first
    | exact h | apply State.msixSend_keeps | fail_if_no_progress (refine Keeps.mk rfl rfl rfl rfl rfl rfl rfl ?_) | apply Keeps.ite | intro _ _ h
    | intro _ h | assumption | dsimp only | split

theorem State.msixAll_keeps (h : Keeps u0 q0 s) (mask : Word) : Keeps u0 q0 (State.msixAll mask s) := by
  unfold State.msixAll
  try dsimp only
  with_reducible repeat' first
    | exact h | apply State.msixCause_keeps | apply Keeps.foldl | intro _ _ h

theorem State.setDoorbells_keeps (h : Keeps u0 q0 s) (db : Word) (mask : Word) : Keeps u0 q0 (State.setDoorbells db mask s) := by
  unfold State.setDoorbells
  try dsimp only
  with_reducible repeat' first
    | exact h | apply State.msixAll_keeps | fail_if_no_progress (refine Keeps.mk rfl rfl rfl rfl rfl rfl rfl ?_)

theorem State.ring_keeps (h : Keeps u0 q0 s) (b : Nat) : Keeps u0 q0 (State.ring b s) := by
  unfold State.ring
  try dsimp only
  with_reducible repeat' first
    | exact h | apply State.setDoorbells_keeps

theorem State.updateSummary_keeps (h : Keeps u0 q0 s) (f : HostMap → HostMap) (h1 : ∀ x, (f x).idDevice = x.idDevice) (h2 : ∀ x, (f x).idVendor = x.idVendor) : Keeps u0 q0 (State.updateSummary f s) := by
  exact Keeps.host h (h1 _) (h2 _)

theorem State.progress_keeps (h : Keeps u0 q0 s) (code : Nat) (state : Nat) (unit : Nat) (value : Nat) : Keeps u0 q0 (State.progress code state unit value s) := by
  unfold State.progress
  try dsimp only
  with_reducible repeat' first
    | exact h | apply State.ring_keeps | apply State.updateSummary_keeps | fail_if_no_progress (refine Keeps.mk rfl rfl rfl rfl rfl rfl rfl ?_)
    | exact fun _ => rfl | apply Keeps.ite

theorem State.emit_keeps (h : Keeps u0 q0 s) (code : Nat) (payload : List Word) : Keeps u0 q0 (State.emit code payload s) := by
  unfold State.emit
  try dsimp only
  with_reducible repeat' first
    | exact h | apply State.emitAt_keeps

theorem State.logEvent_keeps (h : Keeps u0 q0 s) (code : Nat) (detail : Nat) (arg : Nat) : Keeps u0 q0 (State.logEvent code detail arg s) := by
  unfold State.logEvent
  try dsimp only
  with_reducible repeat' first
    | exact h | fail_if_no_progress (refine Keeps.mk rfl rfl rfl rfl rfl rfl rfl ?_) | apply Keeps.ite

theorem State.logFault_keeps (h : Keeps u0 q0 s) (kind : Nat) (source : Nat) (detail : Nat) (severity : Nat) (reactions : Nat) : Keeps u0 q0 (State.logFault kind source detail severity reactions s) := by
  unfold State.logFault
  try dsimp only
  with_reducible repeat' first
    | exact h | fail_if_no_progress (refine Keeps.mk rfl rfl rfl rfl rfl rfl rfl ?_) | apply Keeps.ite

theorem State.wrote_keeps (h : Keeps u0 q0 s) (n : Nat) : Keeps u0 q0 (State.wrote n s) := by
  unfold State.wrote
  try dsimp only
  with_reducible repeat' first
    | exact h | fail_if_no_progress (refine Keeps.mk rfl rfl rfl rfl rfl rfl rfl ?_)

theorem State.untilUp_keeps (h : Keeps u0 q0 s) (u : Nat) : Keeps u0 q0 (State.untilUp u s) := by
  exact Keeps.time h (Nat.le_trans h.up (Nat.le_max_left _ _))

theorem State.pass_keeps (h : Keeps u0 q0 s) (n : Nat) : Keeps u0 q0 (State.pass n s) := by
  unfold State.pass
  try dsimp only
  with_reducible repeat' first
    | exact h | apply State.untilUp_keeps

theorem State.draw_keeps (h : Keeps u0 q0 s) (n : Nat) : Keeps u0 q0 (State.draw n s).2 := by
  unfold State.draw
  try dsimp only
  with_reducible repeat' first
    | exact h | fail_if_no_progress (refine Keeps.mk rfl rfl rfl rfl rfl rfl rfl ?_)

theorem State.ringH2d_keeps (h : Keeps u0 q0 s) (b : Nat) : Keeps u0 q0 (State.ringH2d b s) := by
  unfold State.ringH2d
  try dsimp only
  with_reducible repeat' first
    | exact h | fail_if_no_progress (refine Keeps.mk rfl rfl rfl rfl rfl rfl rfl ?_)

theorem State.untilTime_keeps (h : Keeps u0 q0 s) (t : Nat) : Keeps u0 q0 (State.untilTime t s) := by
  unfold State.untilTime
  try dsimp only
  with_reducible repeat' first
    | exact h | apply State.untilUp_keeps

theorem State.takeH2d_keeps (h : Keeps u0 q0 s) (b : Nat) : Keeps u0 q0 (State.takeH2d b s) := by
  unfold State.takeH2d
  try dsimp only
  with_reducible repeat' first
    | exact h | fail_if_no_progress (refine Keeps.mk rfl rfl rfl rfl rfl rfl rfl ?_)

theorem State.reply_keeps (h : Keeps u0 q0 s) (c : Nat) (udp : Option UdpTag) (code : Nat) (tag : Nat) (status : Nat) (detail : Nat) (index : Nat) (items : List Word) : Keeps u0 q0 (State.reply c udp code tag status detail index items s) := by
  unfold State.reply
  try dsimp only
  with_reducible repeat' first
    | exact h | fail_if_no_progress (refine Keeps.mk rfl rfl rfl rfl rfl rfl rfl ?_) | apply Keeps.ite | intro _ _ h | intro _ h | assumption
    | dsimp only | split

theorem State.freeLock_keeps (h : Keeps u0 q0 s) (k : Nat) : Keeps u0 q0 (State.freeLock k s) := by
  unfold State.freeLock
  try dsimp only
  with_reducible repeat' first
    | exact h | fail_if_no_progress (refine Keeps.mk rfl rfl rfl rfl rfl rfl rfl ?_)

theorem State.finishLong_keeps (h : Keeps u0 q0 s) (e : Err) (items : List Word) : Keeps u0 q0 (State.finishLong e items s) := by
  unfold State.finishLong
  try dsimp only
  with_reducible repeat' first
    | exact h | apply State.reply_keeps | apply State.freeLock_keeps | apply State.progress_keeps
    | fail_if_no_progress (refine Keeps.mk rfl rfl rfl rfl rfl rfl rfl ?_) | apply Keeps.ite | intro _ _ h | intro _ h | assumption | dsimp only
    | split

theorem State.dropChange_keeps (h : Keeps u0 q0 s) (p : Stamped) (e : Status) : Keeps u0 q0 (State.dropChange p e s) := by
  unfold State.dropChange
  try dsimp only
  with_reducible repeat' first
    | exact h | apply State.emit_keeps | apply Keeps.ite

theorem State.dropAllChanges_keeps (h : Keeps u0 q0 s) : Keeps u0 q0 (State.dropAllChanges s) := by
  unfold State.dropAllChanges
  try dsimp only
  with_reducible repeat' first
    | exact h | apply State.dropChange_keeps | fail_if_no_progress (refine Keeps.mk rfl rfl rfl rfl rfl rfl rfl ?_) | apply Keeps.foldl | intro _ _ h

theorem State.freeLocksOf_keeps (h : Keeps u0 q0 s) (who : List Nat) : Keeps u0 q0 (State.freeLocksOf who s) := by
  unfold State.freeLocksOf
  try dsimp only
  with_reducible repeat' first
    | exact h | fail_if_no_progress (refine Keeps.mk rfl rfl rfl rfl rfl rfl rfl ?_)

theorem State.summarise_keeps (h : Keeps u0 q0 s) : Keeps u0 q0 (State.summarise s) := by
  unfold State.summarise
  try dsimp only
  with_reducible repeat' first
    | exact h | apply State.updateSummary_keeps | fail_if_no_progress (refine Keeps.mk rfl rfl rfl rfl rfl rfl rfl ?_) | exact fun _ => rfl
    | apply Keeps.ite

theorem State.journalChange_keeps (h : Keeps u0 q0 s) (p : Stamped) : Keeps u0 q0 (State.journalChange p s) := by
  unfold State.journalChange
  try dsimp only
  with_reducible repeat' first
    | exact h | fail_if_no_progress (refine Keeps.mk rfl rfl rfl rfl rfl rfl rfl ?_) | apply Keeps.ite

theorem State.takeChange_keeps (h : Keeps u0 q0 s) (p : Stamped) : Keeps u0 q0 (State.takeChange p s) := by
  unfold State.takeChange
  try dsimp only
  with_reducible repeat' first
    | exact h | apply State.journalChange_keeps | apply State.emitAt_keeps | apply State.summarise_keeps
    | fail_if_no_progress (refine Keeps.mk rfl rfl rfl rfl rfl rfl rfl ?_) | apply Keeps.ite

theorem State.applyDue_keeps (h : Keeps u0 q0 s) (pick : Stamped → Bool) (frame : Nat) (f : Stamped → State → State) (hf : ∀ p t, Keeps u0 q0 t → Keeps u0 q0 (f p t)) : Keeps u0 q0 (State.applyDue pick frame f s) := by
  unfold State.applyDue
  exact Keeps.foldl h (fun t p ht => hf _ _ (State.takeChange_keeps ht p))

theorem State.withCellar_keeps (h : Keeps u0 q0 s) (c : Cellar) (hm : Mem.wf 0 c.mem = true) : Keeps u0 q0 (State.withCellar c s) := by
  exact Keeps.cellar h hm

theorem State.abandonFade_keeps (h : Keeps u0 q0 s) (leg : Nat) : Keeps u0 q0 (State.abandonFade leg s) := by
  unfold State.abandonFade
  try dsimp only
  with_reducible repeat' first
    | exact h | apply State.emitAt_keeps | apply Keeps.ite | intro _ _ h | intro _ h | assumption | dsimp only | split

theorem State.cutGap_keeps (h : Keeps u0 q0 s) : Keeps u0 q0 (State.cutGap s) := by
  unfold State.cutGap
  try dsimp only
  with_reducible repeat' first
    | exact h | fail_if_no_progress (refine Keeps.mk rfl rfl rfl rfl rfl rfl rfl ?_)

theorem State.endSurveyNext_keeps (h : Keeps u0 q0 s) (e : Status) : Keeps u0 q0 (State.endSurveyNext e s) := by
  unfold State.endSurveyNext
  try dsimp only
  with_reducible repeat' first
    | exact h | apply State.finishLong_keeps | fail_if_no_progress (refine Keeps.mk rfl rfl rfl rfl rfl rfl rfl ?_) | assumption | dsimp only | split

theorem State.endModeSet_keeps (h : Keeps u0 q0 s) (e : Status) : Keeps u0 q0 (State.endModeSet e s) := by
  unfold State.endModeSet
  try dsimp only
  with_reducible repeat' first
    | exact h | apply State.endSurveyNext_keeps | apply State.finishLong_keeps | fail_if_no_progress (refine Keeps.mk rfl rfl rfl rfl rfl rfl rfl ?_)
    | apply Keeps.ite | assumption | dsimp only | split

theorem State.discardRows_keeps (h : Keeps u0 q0 s) : Keeps u0 q0 (State.discardRows s) := by
  unfold State.discardRows
  try dsimp only
  with_reducible repeat' first
    | exact h | apply State.abandonFade_keeps | fail_if_no_progress (refine Keeps.mk rfl rfl rfl rfl rfl rfl rfl ?_)

theorem State.enterSafe_keeps (h : Keeps u0 q0 s) (src : Nat) : Keeps u0 q0 (State.enterSafe src s) := by
  unfold State.enterSafe
  try dsimp only
  with_reducible repeat' first
    | exact h | apply State.endModeSet_keeps | apply State.discardRows_keeps | apply State.cutGap_keeps | apply State.summarise_keeps
    | apply State.dropAllChanges_keeps | fail_if_no_progress (refine Keeps.mk rfl rfl rfl rfl rfl rfl rfl ?_) | apply Keeps.ite

theorem State.resetCellar_keeps (h : Keeps u0 q0 s) : Keeps u0 q0 (State.resetCellar s) := by
  unfold State.resetCellar
  generalize hb : s.cellar.blockReset = b
  have hm : Mem.wf 0 b.1.mem = true := by rw [← hb]; exact Cellar.blockReset_wf h.mem
  exact Keeps.mk (t := { s with cellar := b.1 }) rfl rfl rfl rfl rfl rfl rfl (Keeps.cellar h hm)

theorem State.holdMailboxes_keeps (h : Keeps u0 q0 s) (who : List Nat) : Keeps u0 q0 (State.holdMailboxes who s) := by
  unfold State.holdMailboxes
  try dsimp only
  with_reducible repeat' first
    | exact h | apply State.freeLocksOf_keeps | fail_if_no_progress (refine Keeps.mk rfl rfl rfl rfl rfl rfl rfl ?_)

theorem State.journalSessions_keeps (h : Keeps u0 q0 s) : Keeps u0 q0 (State.journalSessions s) := by
  unfold State.journalSessions
  try dsimp only
  with_reducible repeat' first
    | exact h | fail_if_no_progress (refine Keeps.mk rfl rfl rfl rfl rfl rfl rfl ?_)

theorem State.resetStudy_keeps (h : Keeps u0 q0 s) : Keeps u0 q0 (State.resetStudy s) := by
  unfold State.resetStudy
  try dsimp only
  with_reducible repeat' first
    | exact h | apply State.holdMailboxes_keeps | apply State.dropChange_keeps | apply State.journalSessions_keeps | apply State.summarise_keeps
    | fail_if_no_progress (refine Keeps.mk rfl rfl rfl rfl rfl rfl rfl ?_) | apply Keeps.foldl | apply Keeps.ite | intro _ _ h

theorem State.restartLegs_keeps (h : Keeps u0 q0 s) (frame : Nat) (pick : Nat → Bool) : Keeps u0 q0 (State.restartLegs frame pick s) := by
  unfold State.restartLegs
  try dsimp only
  with_reducible repeat' first
    | exact h | fail_if_no_progress (refine Keeps.mk rfl rfl rfl rfl rfl rfl rfl ?_)

theorem State.resetLoft_keeps (h : Keeps u0 q0 s) : Keeps u0 q0 (State.resetLoft s) := by
  unfold State.resetLoft
  try dsimp only
  with_reducible repeat' first
    | exact h | apply State.restartLegs_keeps | fail_if_no_progress (refine Keeps.mk rfl rfl rfl rfl rfl rfl rfl ?_)

theorem State.resetHall_keeps (h : Keeps u0 q0 s) (leg : Nat) : Keeps u0 q0 (State.resetHall leg s) := by
  unfold State.resetHall
  try dsimp only
  with_reducible repeat' first
    | exact h | apply State.restartLegs_keeps | apply State.abandonFade_keeps | fail_if_no_progress (refine Keeps.mk rfl rfl rfl rfl rfl rfl rfl ?_)

theorem State.blockReset_keeps (h : Keeps u0 q0 s) (src : Nat) (detail : Nat) : Keeps u0 q0 (State.blockReset src detail s) := by
  unfold State.blockReset
  try dsimp only
  with_reducible repeat' first
    | exact h | apply State.resetCellar_keeps | apply State.resetStudy_keeps | apply State.resetLoft_keeps | apply State.resetHall_keeps | intro _ _ h
    | intro _ h | assumption | dsimp only | split

theorem State.chipReset_keeps (h : Keeps u0 q0 s) : Keeps u0 q0 (State.chipReset s) := by
  unfold State.chipReset
  dsimp only
  apply State.summarise_keeps
  apply Keeps.foldl
  · exact ⟨⟨⟨rfl, rfl⟩, rfl, rfl, h.flash⟩, h.up, h.2.2⟩
  · intro t p ht
    exact State.dropChange_keeps ht _ _

theorem State.leaveSafe_keeps (h : Keeps u0 q0 s) : Keeps u0 q0 (State.leaveSafe s) := by
  unfold State.leaveSafe
  try dsimp only
  with_reducible repeat' first
    | exact h | fail_if_no_progress (refine Keeps.mk rfl rfl rfl rfl rfl rfl rfl ?_) | apply Keeps.ite

theorem State.setSource_keeps (h : Keeps u0 q0 s) (n : Nat) (f : FaultSource) : Keeps u0 q0 (State.setSource n f s) := by
  unfold State.setSource
  try dsimp only
  with_reducible repeat' first
    | exact h | fail_if_no_progress (refine Keeps.mk rfl rfl rfl rfl rfl rfl rfl ?_)

theorem State.react_keeps (h : Keeps u0 q0 s) (raised : List (Nat × Nat)) : Keeps u0 q0 (State.react raised s) := by
  unfold State.react
  try dsimp only
  with_reducible repeat' first
    | exact h | apply State.ring_keeps | apply State.enterSafe_keeps | apply State.blockReset_keeps | apply State.chipReset_keeps
    | fail_if_no_progress (refine Keeps.mk rfl rfl rfl rfl rfl rfl rfl ?_) | apply Keeps.foldl | apply Keeps.ite | intro _ _ h | intro _ h
    | assumption | dsimp only | split

theorem State.faultEvent_keeps (h : Keeps u0 q0 s) (n : Nat) (f : FaultSource) (raised : Bool) : Keeps u0 q0 (State.faultEvent n f raised s) := by
  unfold State.faultEvent
  try dsimp only
  with_reducible repeat' first
    | exact h | apply State.emit_keeps | apply Keeps.ite

theorem State.logTransient_keeps (h : Keeps u0 q0 s) (n : Nat) (detail : Nat) : Keeps u0 q0 (State.logTransient n detail s) := by
  unfold State.logTransient
  try dsimp only
  with_reducible repeat' first
    | exact h | apply State.setSource_keeps | apply State.logFault_keeps | apply Keeps.ite

theorem State.countOccurrence_keeps (h : Keeps u0 q0 s) (n : Nat) (detail : Nat) : Keeps u0 q0 (State.countOccurrence n detail s).1 := by
  unfold State.countOccurrence
  try dsimp only
  with_reducible repeat' first
    | exact h | apply State.setSource_keeps | apply State.faultEvent_keeps | apply State.logFault_keeps | apply State.logTransient_keeps
    | fail_if_no_progress (refine Keeps.mk rfl rfl rfl rfl rfl rfl rfl ?_) | apply Keeps.ite | intro _ _ h | intro _ h | assumption | dsimp only
    | split

theorem State.reportOnce_keeps (h : Keeps u0 q0 s) (rs : List (Nat × Nat)) : Keeps u0 q0 (State.reportOnce rs s) := by
  unfold State.reportOnce
  try dsimp only
  with_reducible repeat' first
    | exact h | apply State.react_keeps | apply State.countOccurrence_keeps | apply Keeps.foldlFst | apply Keeps.foldl
    | apply Keeps.ite | intro _ _ h

theorem State.reportAll_keeps (h : Keeps u0 q0 s) (rs : List (Nat × Nat)) : Keeps u0 q0 (State.reportAll rs s) := by
  unfold State.reportAll
  try dsimp only
  with_reducible repeat' first
    | exact h | apply State.setSource_keeps | apply State.reportOnce_keeps | fail_if_no_progress (refine Keeps.mk rfl rfl rfl rfl rfl rfl rfl ?_)
    | apply Keeps.ite

theorem State.report_keeps (h : Keeps u0 q0 s) (n : Nat) (detail : Nat) : Keeps u0 q0 (State.report n detail s) := by
  unfold State.report
  try dsimp only
  with_reducible repeat' first
    | exact h | apply State.reportAll_keeps

theorem State.watchWear_keeps (h : Keeps u0 q0 s) : Keeps u0 q0 (State.watchWear s) := by
  unfold State.watchWear
  try dsimp only
  with_reducible repeat' first
    | exact h | apply State.reportAll_keeps

theorem State.setCondition_keeps (h : Keeps u0 q0 s) (n : Nat) (cond : Bool) (detail : Nat) : Keeps u0 q0 (State.setCondition n cond detail s) := by
  unfold State.setCondition
  try dsimp only
  with_reducible repeat' first
    | exact h | apply State.setSource_keeps | apply State.report_keeps | fail_if_no_progress (refine Keeps.mk rfl rfl rfl rfl rfl rfl rfl ?_)
    | apply Keeps.ite

theorem State.startWatching_keeps (h : Keeps u0 q0 s) : Keeps u0 q0 (State.startWatching s) := by
  unfold State.startWatching
  try dsimp only
  with_reducible repeat' first
    | exact h | apply State.reportAll_keeps | fail_if_no_progress (refine Keeps.mk rfl rfl rfl rfl rfl rfl rfl ?_) | apply Keeps.ite

theorem State.setHall_keeps (h : Keeps u0 q0 s) (leg : Nat) (hX1 : Hall) : Keeps u0 q0 (State.setHall leg hX1 s) := by
  unfold State.setHall
  try dsimp only
  with_reducible repeat' first
    | exact h | fail_if_no_progress (refine Keeps.mk rfl rfl rfl rfl rfl rfl rfl ?_)

theorem State.applyFront_keeps (h : Keeps u0 q0 s) (p : Stamped) : Keeps u0 q0 (State.applyFront p s) := by
  unfold State.applyFront
  try dsimp only
  with_reducible repeat' first
    | exact h | apply State.setHall_keeps | fail_if_no_progress (refine Keeps.mk rfl rfl rfl rfl rfl rfl rfl ?_) | apply Keeps.ite

theorem State.hallWithPlan_keeps (h : Keeps u0 q0 s) (leg : Nat) : Keeps u0 q0 (State.hallWithPlan leg s) := by
  unfold State.hallWithPlan
  try dsimp only
  with_reducible repeat' first
    | exact h | apply State.applyDue_keeps | apply State.applyFront_keeps | apply State.setHall_keeps | apply Keeps.ite | intro _ _ h

end Sys2Proof.Machine
end

