-- ==== Sys2Proof/Laws/KeepsLoft.lean ====
section
/-! SUPPORT. One lemma per operation of the Cellar, the Loft, its cells and the delivery of rows: it keeps what `Keeps` says. -/

namespace Sys2Proof.Machine

variable {u0 : Nat} {q0 : List Instr} {s : State}

theorem State.corrected_keeps (h : Keeps u0 q0 s) (a : Nat) (symbol : Nat) : Keeps u0 q0 (State.corrected a symbol s) := by
  unfold State.corrected
  try dsimp only
  with_reducible repeat' first
    | exact h | apply State.withCellar_keeps | apply State.report_keeps | fail_if_no_progress (refine Keeps.mk rfl rfl rfl rfl rfl rfl rfl ?_)
    | apply Keeps.mem (u0 := u0) (q0 := q0) | simp only [Cellar.bumpCorrected_mem] | apply Keeps.ite

theorem State.uncorrectable_keeps (h : Keeps u0 q0 s) (p : Nat) (a : Nat) (syndrome : Nat) : Keeps u0 q0 (State.uncorrectable p a syndrome s) := by
  unfold State.uncorrectable
  try dsimp only
  with_reducible repeat' first
    | exact h | apply State.withCellar_keeps | apply State.report_keeps | fail_if_no_progress (refine Keeps.mk rfl rfl rfl rfl rfl rfl rfl ?_)
    | apply Keeps.mem (u0 := u0) (q0 := q0)

theorem State.trnGo_keeps (h : Keeps u0 q0 s) : Keeps u0 q0 (State.trnGo s) := by
  unfold State.trnGo
  try dsimp only
  with_reducible repeat' first
    | exact h | apply State.withCellar_keeps | fail_if_no_progress (refine Keeps.mk rfl rfl rfl rfl rfl rfl rfl ?_)
    | apply Keeps.mem (u0 := u0) (q0 := q0) | apply Keeps.ite

theorem State.writePattern_keeps (h : Keeps u0 q0 s) : Keeps u0 q0 (State.writePattern s) := by
  unfold State.writePattern
  try dsimp only
  with_reducible repeat' first
    | exact h | apply State.withCellar_keeps | fail_if_no_progress (refine Keeps.mk rfl rfl rfl rfl rfl rfl rfl ?_) | apply Keeps.foldl
    | apply Keeps.mem (u0 := u0) (q0 := q0) | apply Cellar.store_wf | apply Loft.write_wf | intro _ _ h

theorem execRefreshDue_keeps (h : Keeps u0 q0 s) (rank : Fin 4) : ResKeeps u0 q0 (execRefreshDue rank s) := by
  unfold execRefreshDue
  try dsimp only
  with_reducible repeat' first
    | exact h | apply State.withCellar_keeps | fail_if_no_progress (refine Keeps.mk rfl rfl rfl rfl rfl rfl rfl ?_)
    | apply Keeps.mem (u0 := u0) (q0 := q0) | apply ResKeeps.next | apply ResKeeps.ite

theorem execCellarGrant_keeps (h : Keeps u0 q0 s) (p : Fin 6) (blocked : Bool) (drain : Nat) : ResKeeps u0 q0 (execCellarGrant p blocked drain s) := by
  unfold execCellarGrant
  dsimp only
  split
  · exact ResKeeps.next h
  · split
    · exact ResKeeps.next h
    · apply ResKeeps.next
      apply State.withCellar_keeps (State.untilUp_keeps h _)
      rw [Cellar.drainBanks_mem]
      dsimp only
      rw [Cellar.judgePanic_mem, Cellar.enterBank_mem, Cellar.countGrant_mem]
      exact h.mem

theorem execCellarRead_keeps (h : Keeps u0 q0 s) (p : Fin 6) (a : Nat) (k : ReadCheck) : ResKeeps u0 q0 (execCellarRead p a k s) := by
  unfold execCellarRead
  extract_lets c data give
  have hg : ∀ d t, Keeps u0 q0 t → Keeps u0 q0 (give d t) := by
    intro d t ht
    dsimp only [give]
    split
    · exact State.withCellar_keeps ht _ ht.mem
    · exact ht
  split
  · exact ResKeeps.next h
  · split
    · exact ResKeeps.fault
    · split
      · exact ResKeeps.next (hg _ _ h)
      · exact ResKeeps.next (hg _ _ (State.corrected_keeps h _ _))
      · exact ResKeeps.next (hg _ _ (State.uncorrectable_keeps h _ _ _))

theorem execTrnCompareDone_keeps (h : Keeps u0 q0 s) (fail0 : Word) (fail1 : Word) (fail2 : Byte) (errors : Word) : ResKeeps u0 q0 (execTrnCompareDone fail0 fail1 fail2 errors s) := by
  unfold execTrnCompareDone
  try dsimp only
  with_reducible repeat' first
    | exact h | apply State.withCellar_keeps | apply State.writePattern_keeps | fail_if_no_progress (refine Keeps.mk rfl rfl rfl rfl rfl rfl rfl ?_)
    | apply Keeps.mem (u0 := u0) (q0 := q0) | apply Loft.write_wf | apply ResKeeps.next | apply ResKeeps.ite

theorem execTrnGo_keeps (h : Keeps u0 q0 s) : ResKeeps u0 q0 (execTrnGo s) := by
  unfold execTrnGo
  try dsimp only
  with_reducible repeat' first
    | exact h | apply State.trnGo_keeps | apply ResKeeps.next | apply ResKeeps.ite | apply Keeps.ite

theorem execPatrolScrub_keeps (h : Keeps u0 q0 s) (k : ReadCheck) : ResKeeps u0 q0 (execPatrolScrub k s) := by
  unfold execPatrolScrub
  try dsimp only
  with_reducible repeat' first
    | exact h | apply State.withCellar_keeps | apply State.corrected_keeps | apply State.uncorrectable_keeps | apply Keeps.mem (u0 := u0) (q0 := q0)
    | apply Cellar.invertSymbols_wf | simp only [Cellar.advanceScrub_mem] | apply ResKeeps.next | apply ResKeeps.ite | apply Keeps.ite | intro _ _ h
    | intro _ h | assumption | dsimp only | split

theorem execCorrectedWriteback_keeps (h : Keeps u0 q0 s) : ResKeeps u0 q0 (execCorrectedWriteback s) := by
  unfold execCorrectedWriteback
  try dsimp only
  with_reducible repeat' first
    | exact h | apply State.withCellar_keeps | fail_if_no_progress (refine Keeps.mk rfl rfl rfl rfl rfl rfl rfl ?_)
    | apply Keeps.mem (u0 := u0) (q0 := q0) | apply ResKeeps.next

/-- A port write stores into the ring, or drops what does not fit. -/
theorem Cellar.portWrite_wf {c c1 : Cellar} {p5 : Bool} {p at_ fits : Nat} {bs : List Byte} {r : PortRequest} (h : Mem.wf 0 c1.mem = true)
    (hc : c = if fits = 0 then c1 else (c1.storeRing p5 at_ bs).request p r) : Mem.wf 0 c.mem = true := by
  subst hc
  split
  · exact h
  · rw [Cellar.request_mem]; exact Cellar.storeRing_wf h

theorem execCellarPortWrite_keeps (h : Keeps u0 q0 s) (p5 : Bool) (n : Nat) : ResKeeps u0 q0 (execCellarPortWrite p5 n s) := by
  unfold execCellarPortWrite
  split
  · exact ResKeeps.next h
  · rename_i row _
    extract_lets bs c r m p free fits at_ room c1 c2 r2 c3 s1
    generalize (if fits ≤ room then r.addr at_ 0 + fits else r.base + r.size) = lim
    split
    · exact ResKeeps.next h
    · split
      · exact ResKeeps.fault
      · have h1 : Mem.wf 0 c1.mem = true := by
          dsimp only [c1]
          split
          · exact Cellar.openFrame_wf h.mem
          · exact h.mem
        have h2 : Mem.wf 0 c2.mem = true := Cellar.portWrite_wf h1 rfl
        have h3 : Mem.wf 0 c3.mem = true := by
          have e : c3.mem = c2.mem := Cellar.setRing_mem
          rw [e]; exact h2
        split
        · exact ResKeeps.next (State.withCellar_keeps h _ h3)
        · have h4 : Mem.wf 0 (c3.endRow p5 row bs.length).1.mem = true := Cellar.endRow_wf h3
          generalize c3.endRow p5 row bs.length = y at h4 ⊢
          obtain ⟨c4, overs⟩ := y
          dsimp only at h4 ⊢
          have h5 : Keeps u0 q0 { s.withCellar c4 with halls := s.halls.drop1 p5 } :=
            Keeps.mk (t := s.withCellar c4) rfl rfl rfl rfl rfl rfl rfl (State.withCellar_keeps h c4 h4)
          exact ResKeeps.next (Keeps.foldl h5 (fun _ _ h => State.report_keeps h _ _))

theorem State.withLoft_keeps (h : Keeps u0 q0 s) (l : Loft) (hm : Mem.wf 0 l.landing = true) : Keeps u0 q0 (State.withLoft l s) := by
  exact Keeps.loft h hm

theorem State.setZone_keeps (h : Keeps u0 q0 s) (z : Nat) (x : Zone) : Keeps u0 q0 (State.setZone z x s) := by
  unfold State.setZone
  try dsimp only
  with_reducible repeat' first
    | exact h | apply State.withLoft_keeps | fail_if_no_progress (refine Keeps.mk rfl rfl rfl rfl rfl rfl rfl ?_)
    | apply Keeps.landing (u0 := u0) (q0 := q0)

theorem State.putPage_keeps (h : Keeps u0 q0 s) (z : Nat) : Keeps u0 q0 (State.putPage z s) := by
  unfold State.putPage
  try dsimp only
  with_reducible repeat' first
    | exact h | apply State.withLoft_keeps | apply Keeps.landing (u0 := u0) (q0 := q0) | apply Loft.write_wf | apply Keeps.ite

theorem State.advanceZone_keeps (h : Keeps u0 q0 s) (z : Nat) (frame : Nat) : Keeps u0 q0 (State.advanceZone z frame s) := by
  unfold State.advanceZone
  try dsimp only
  with_reducible repeat' first
    | exact h | apply State.setZone_keeps | apply State.withLoft_keeps | apply State.putPage_keeps
    | fail_if_no_progress (refine Keeps.mk rfl rfl rfl rfl rfl rfl rfl ?_) | apply Keeps.foldl | apply Keeps.landing (u0 := u0) (q0 := q0)
    | apply Loft.clearPage_wf | apply Keeps.ite

theorem State.appendStore_keeps (h : Keeps u0 q0 s) (region : Nat) (store : RowStore) (row : StoreRow) (bs : List Byte) : Keeps u0 q0 (State.appendStore region store row bs s).1 := by
  unfold State.appendStore
  try dsimp only
  with_reducible repeat' first
    | exact h | apply State.withCellar_keeps | fail_if_no_progress (refine Keeps.mk rfl rfl rfl rfl rfl rfl rfl ?_)
    | apply Keeps.mem (u0 := u0) (q0 := q0) | apply Cellar.store_wf

theorem State.distribute_keeps (h : Keeps u0 q0 s) (frame : Nat) : Keeps u0 q0 (State.distribute frame s) := by
  unfold State.distribute
  try dsimp only
  with_reducible repeat' first
    | exact h | apply State.setZone_keeps | apply State.applyDue_keeps | fail_if_no_progress (refine Keeps.mk rfl rfl rfl rfl rfl rfl rfl ?_)
    | apply Keeps.foldl | apply Keeps.ite | intro _ _ h

theorem State.evaluate_keeps (h : Keeps u0 q0 s) (z : Nat) (r : ZoneRow) (a : ZoneAnswer) : Keeps u0 q0 (State.evaluate z r a s) := by
  unfold State.evaluate
  try dsimp only
  with_reducible repeat' first
    | exact h | apply State.setZone_keeps | apply State.appendStore_keeps | apply State.withLoft_keeps
    | fail_if_no_progress (refine Keeps.mk rfl rfl rfl rfl rfl rfl rfl ?_) | apply Keeps.foldl | apply Keeps.landing (u0 := u0) (q0 := q0)
    | apply Keeps.ite

theorem State.stage_keeps (h : Keeps u0 q0 s) (r : ZoneRow) : Keeps u0 q0 (State.stage r s) := by
  unfold State.stage
  try dsimp only
  with_reducible repeat' first
    | exact h | apply State.report_keeps | apply State.withLoft_keeps | fail_if_no_progress (refine Keeps.mk rfl rfl rfl rfl rfl rfl rfl ?_)
    | apply Keeps.foldl | apply Keeps.landing (u0 := u0) (q0 := q0) | apply Keeps.ite

theorem State.stageTemperature_keeps (h : Keeps u0 q0 s) (leg : Nat) (w : RamanWindow) (bytes : List Byte) : Keeps u0 q0 (State.stageTemperature leg w bytes s) := by
  unfold State.stageTemperature
  try dsimp only
  with_reducible repeat' first
    | exact h | apply State.stage_keeps

theorem State.restartZones_keeps (h : Keeps u0 q0 s) (frame : Nat) (pick : Zone → Bool) : Keeps u0 q0 (State.restartZones frame pick s) := by
  unfold State.restartZones
  try dsimp only
  with_reducible repeat' first
    | exact h | apply State.withLoft_keeps | fail_if_no_progress (refine Keeps.mk rfl rfl rfl rfl rfl rfl rfl ?_)
    | apply Keeps.landing (u0 := u0) (q0 := q0)

theorem State.stageDecimated_keeps (h : Keeps u0 q0 s) (leg : Nat) (slot : Nat) (trace : Nat) : Keeps u0 q0 (State.stageDecimated leg slot trace s) := by
  unfold State.stageDecimated
  try dsimp only
  with_reducible repeat' first
    | exact h | apply State.stage_keeps | fail_if_no_progress (refine Keeps.mk rfl rfl rfl rfl rfl rfl rfl ?_) | intro _ _ h | intro _ h | assumption
    | dsimp only | split

theorem State.libraryAnswer_keeps (h : Keeps u0 q0 s) (z : Nat) (r : ZoneRow) : Keeps u0 q0 (State.libraryAnswer z r s).2 := by
  unfold State.libraryAnswer
  try dsimp only
  with_reducible repeat' first
    | exact h | apply State.setZone_keeps | fail_if_no_progress (refine Keeps.mk rfl rfl rfl rfl rfl rfl rfl ?_) | apply Keeps.ite | intro _ _ h
    | intro _ h | assumption | dsimp only | split

theorem State.orderRow_keeps (h : Keeps u0 q0 s) (z : Nat) (r : ZoneRow) (first : Bool) : Keeps u0 q0 (State.orderRow z r first s) := by
  unfold State.orderRow
  try dsimp only
  with_reducible repeat' first
    | exact h | apply State.withLoft_keeps | apply Keeps.landing (u0 := u0) (q0 := q0) | apply Loft.write_wf

theorem State.setTrim_keeps (h : Keeps u0 q0 s) (t : Trim) : Keeps u0 q0 (State.setTrim t s) := by
  unfold State.setTrim
  try dsimp only
  with_reducible repeat' first
    | exact h | fail_if_no_progress (refine Keeps.mk rfl rfl rfl rfl rfl rfl rfl ?_)

theorem State.setThrLeg_keeps (h : Keeps u0 q0 s) (leg : Nat) (t : ThrLeg) : Keeps u0 q0 (State.setThrLeg leg t s) := by
  unfold State.setThrLeg
  try dsimp only
  with_reducible repeat' first
    | exact h | fail_if_no_progress (refine Keeps.mk rfl rfl rfl rfl rfl rfl rfl ?_)

theorem State.retrimDue_keeps (h : Keeps u0 q0 s) (t : Nat) : Keeps u0 q0 (State.retrimDue t s) := by
  unfold State.retrimDue
  try dsimp only
  with_reducible repeat' first
    | exact h | apply State.setTrim_keeps | fail_if_no_progress (refine Keeps.mk rfl rfl rfl rfl rfl rfl rfl ?_) | apply Keeps.ite

theorem State.surveyGain_keeps (h : Keeps u0 q0 s) (leg : Nat) (g : Nat) (n : Nat) : Keeps u0 q0 (State.surveyGain leg g n s) := by
  unfold State.surveyGain
  try dsimp only
  with_reducible repeat' first
    | exact h | apply State.setThrLeg_keeps | fail_if_no_progress (refine Keeps.mk rfl rfl rfl rfl rfl rfl rfl ?_) | apply Keeps.ite

theorem State.setRaman_keeps (h : Keeps u0 q0 s) (leg : Nat) (r : Raman) : Keeps u0 q0 (State.setRaman leg r s) := by
  unfold State.setRaman
  try dsimp only
  with_reducible repeat' first
    | exact h | apply State.setHall_keeps

theorem State.ramanRef_keeps (h : Keeps u0 q0 s) (leg : Nat) (failed : Option Nat) : Keeps u0 q0 (State.ramanRef leg failed s) := by
  unfold State.ramanRef
  try dsimp only
  with_reducible repeat' first
    | exact h | apply State.setCondition_keeps | apply State.setRaman_keeps | fail_if_no_progress (refine Keeps.mk rfl rfl rfl rfl rfl rfl rfl ?_)
    | intro _ _ h | intro _ h | assumption | dsimp only | split

theorem State.temperatureRow_keeps (h : Keeps u0 q0 s) (leg : Nat) (w : RamanWindow) (late : Bool) (library : Bool) : Keeps u0 q0 (State.temperatureRow leg w late library s) := by
  unfold State.temperatureRow
  try dsimp only
  with_reducible repeat' first
    | exact h | apply State.withCellar_keeps | apply State.ramanRef_keeps | apply State.setRaman_keeps | apply State.stageTemperature_keeps
    | apply State.withLoft_keeps | fail_if_no_progress (refine Keeps.mk rfl rfl rfl rfl rfl rfl rfl ?_) | apply Keeps.landing (u0 := u0) (q0 := q0)
    | apply Keeps.mem (u0 := u0) (q0 := q0) | apply Cellar.store_wf

theorem State.windowDone_keeps (h : Keeps u0 q0 s) (leg : Nat) : Keeps u0 q0 (State.windowDone leg s) := by
  unfold State.windowDone
  try dsimp only
  with_reducible repeat' first
    | exact h | apply State.report_keeps | apply State.setRaman_keeps | apply State.temperatureRow_keeps
    | fail_if_no_progress (refine Keeps.mk rfl rfl rfl rfl rfl rfl rfl ?_) | apply Keeps.foldl | apply Keeps.ite | intro _ _ h

theorem State.snapshot_keeps (h : Keeps u0 q0 s) (leg : Nat) : Keeps u0 q0 (State.snapshot leg s) := by
  unfold State.snapshot
  try dsimp only
  with_reducible repeat' first
    | exact h | apply State.setRaman_keeps | apply State.windowDone_keeps | fail_if_no_progress (refine Keeps.mk rfl rfl rfl rfl rfl rfl rfl ?_)
    | apply Keeps.ite

theorem State.finishSpans_keeps (h : Keeps u0 q0 s) (leg frame n : Nat) : Keeps u0 q0 (State.finishSpans leg frame n s) := by
  induction n generalizing s with
  | zero => exact h
  | succ n ih =>
    unfold State.finishSpans
    split
    · exact ih (State.snapshot_keeps h _)
    · exact h

theorem State.placeCoherent_keeps (h : Keeps u0 q0 s) (leg : Nat) (n : Nat) (xi : Int) (xq : Int) (yi : Int) (yq : Int) (bad : Bool) : Keeps u0 q0 (State.placeCoherent leg n xi xq yi yq bad s) := by
  unfold State.placeCoherent
  try dsimp only
  with_reducible repeat' first
    | exact h | apply State.setThrLeg_keeps | apply State.setHall_keeps

theorem State.startRaman_keeps (h : Keeps u0 q0 s) (leg : Nat) : Keeps u0 q0 (State.startRaman leg s) := by
  unfold State.startRaman
  try dsimp only
  with_reducible repeat' first
    | exact h | apply State.setRaman_keeps | apply State.finishSpans_keeps | fail_if_no_progress (refine Keeps.mk rfl rfl rfl rfl rfl rfl rfl ?_)
    | intro _ _ h | intro _ h | assumption | dsimp only | split

theorem State.placeDirect_keeps (h : Keeps u0 q0 s) (leg : Nat) (n : Nat) (st : Int) (as_ : Int) (markers : Nat) (ovr : Bool) (gains : Nat × Nat) : Keeps u0 q0 (State.placeDirect leg n st as_ markers ovr gains s) := by
  unfold State.placeDirect
  try dsimp only
  with_reducible repeat' first
    | exact h | apply State.startRaman_keeps | apply State.report_keeps | apply State.setRaman_keeps
    | fail_if_no_progress (refine Keeps.mk rfl rfl rfl rfl rfl rfl rfl ?_) | apply Keeps.ite | intro _ _ h | intro _ h | assumption | dsimp only
    | split

theorem State.straitTag_keeps (h : Keeps u0 q0 s) (strait : Nat) (leg : Nat) : Keeps u0 q0 (State.straitTag strait leg s) := by
  unfold State.straitTag
  try dsimp only
  with_reducible repeat' first
    | exact h | apply State.report_keeps

theorem execRamanSpanSnapshot_keeps (h : Keeps u0 q0 s) (leg : Fin 2) : ResKeeps u0 q0 (execRamanSpanSnapshot leg s) := by
  unfold execRamanSpanSnapshot
  try dsimp only
  with_reducible repeat' first
    | exact h | apply State.snapshot_keeps | apply ResKeeps.next | apply ResKeeps.ite

theorem execRamanChannelStart_keeps (h : Keeps u0 q0 s) (leg : Fin 2) : ResKeeps u0 q0 (execRamanChannelStart leg s) := by
  unfold execRamanChannelStart
  try dsimp only
  with_reducible repeat' first
    | exact h | apply State.startRaman_keeps | apply ResKeeps.next

theorem execStraitWordArrival_keeps (h : Keeps u0 q0 s) (w : StraitWord) : ResKeeps u0 q0 (execStraitWordArrival w s) := by
  unfold execStraitWordArrival
  try dsimp only
  with_reducible repeat' first
    | exact h | apply State.stageDecimated_keeps | apply State.placeDirect_keeps | apply State.setThrLeg_keeps | apply State.placeCoherent_keeps
    | apply State.report_keeps | apply State.straitTag_keeps | fail_if_no_progress (refine Keeps.mk rfl rfl rfl rfl rfl rfl rfl ?_)
    | apply ResKeeps.next | apply ResKeeps.ite | apply Keeps.ite | intro _ _ h | intro _ h | assumption | dsimp only | split

theorem State.setMap_keeps (h : Keeps u0 q0 s) (leg : Nat) (m : MapLeg) : Keeps u0 q0 (State.setMap leg m s) := by
  unfold State.setMap
  try dsimp only
  with_reducible repeat' first
    | exact h | apply State.withLoft_keeps | fail_if_no_progress (refine Keeps.mk rfl rfl rfl rfl rfl rfl rfl ?_)
    | apply Keeps.landing (u0 := u0) (q0 := q0)

theorem State.applyPoolSet_keeps (h : Keeps u0 q0 s) (p : Stamped) : Keeps u0 q0 (State.applyPoolSet p s) := by
  unfold State.applyPoolSet
  try dsimp only
  with_reducible repeat' first
    | exact h | apply State.withLoft_keeps | fail_if_no_progress (refine Keeps.mk rfl rfl rfl rfl rfl rfl rfl ?_)
    | apply Keeps.landing (u0 := u0) (q0 := q0)

theorem State.setCell_keeps (h : Keeps u0 q0 s) (c : Nat) (x : Cell) : Keeps u0 q0 (State.setCell c x s) := by
  unfold State.setCell
  try dsimp only
  with_reducible repeat' first
    | exact h | apply State.withLoft_keeps | fail_if_no_progress (refine Keeps.mk rfl rfl rfl rfl rfl rfl rfl ?_)
    | apply Keeps.landing (u0 := u0) (q0 := q0)

theorem State.zoneJobDone_keeps (h : Keeps u0 q0 s) (j : Job) (user : Option (List Byte)) (abandoned : Bool) : Keeps u0 q0 (State.zoneJobDone j user abandoned s) := by
  unfold State.zoneJobDone
  try dsimp only
  with_reducible repeat' first
    | exact h | apply State.setZone_keeps | apply State.libraryAnswer_keeps | apply State.evaluate_keeps | apply State.orderRow_keeps
    | fail_if_no_progress (refine Keeps.mk rfl rfl rfl rfl rfl rfl rfl ?_) | apply Keeps.ite | intro _ _ h
    | intro _ h | assumption | dsimp only | split

theorem State.writeMapRows_keeps (h : Keeps u0 q0 s) (leg n : Nat) : Keeps u0 q0 (State.writeMapRows leg n s) := by
  induction n generalizing s with
  | zero => exact h
  | succ n ih =>
    unfold State.writeMapRows
    split
    · exact h
    · rename_i m rest _
      split
      · exact h
      · dsimp only
        apply ih
        apply State.stage_keeps
        refine State.withLoft_keeps ?_ _ ?_
        · exact State.appendStore_keeps (State.setMap_keeps h _ _) _ _ _ _
        · dsimp only
          with_reducible apply Keeps.landing (u0 := u0) (q0 := q0)
          exact State.appendStore_keeps (State.setMap_keeps h _ _) _ _ _ _

theorem State.mapResult_keeps (h : Keeps u0 q0 s) (leg : Nat) (block : Nat) (g : GroupResult) : Keeps u0 q0 (State.mapResult leg block g s) := by
  unfold State.mapResult
  try dsimp only
  with_reducible repeat' first
    | exact h | apply State.writeMapRows_keeps | apply State.setMap_keeps

theorem State.jobResult_keeps (h : Keeps u0 q0 s) (c : Nat) (j : Job) (cause : Option Nat) : Keeps u0 q0 (State.jobResult c j cause s) := by
  unfold State.jobResult
  try dsimp only
  with_reducible repeat' first
    | exact h | apply State.zoneJobDone_keeps | apply State.setRaman_keeps | apply State.mapResult_keeps | apply State.temperatureRow_keeps
    | fail_if_no_progress (refine Keeps.mk rfl rfl rfl rfl rfl rfl rfl ?_) | apply Keeps.ite | intro _ _ h | intro _ h | assumption | dsimp only
    | split

theorem State.endJob_keeps (h : Keeps u0 q0 s) (c : Nat) (cause : Option Nat) : Keeps u0 q0 (State.endJob c cause s) := by
  unfold State.endJob
  try dsimp only
  with_reducible repeat' first
    | exact h | apply State.setCell_keeps | apply State.jobResult_keeps | apply State.report_keeps | apply State.withLoft_keeps
    | fail_if_no_progress (refine Keeps.mk rfl rfl rfl rfl rfl rfl rfl ?_) | apply Keeps.landing (u0 := u0) (q0 := q0) | apply Keeps.ite | intro _ _ h
    | intro _ h | assumption | dsimp only | split

theorem State.dropJob_keeps (h : Keeps u0 q0 s) (c : Nat) : Keeps u0 q0 (State.dropJob c s) := by
  unfold State.dropJob
  try dsimp only
  with_reducible repeat' first
    | exact h | apply State.draw_keeps | apply State.endJob_keeps

theorem State.haltLibrary_keeps (h : Keeps u0 q0 s) (c : Nat) : Keeps u0 q0 (State.haltLibrary c s) := by
  unfold State.haltLibrary
  try dsimp only
  with_reducible repeat' first
    | exact h | apply State.dropJob_keeps | apply State.endJob_keeps | apply Keeps.ite | assumption | dsimp only | split

theorem State.loftEcc_keeps (h : Keeps u0 q0 s) (k : ReadCheck) (what : Nat) : Keeps u0 q0 (State.loftEcc k what s) := by
  unfold State.loftEcc
  try dsimp only
  with_reducible repeat' first
    | exact h | apply State.report_keeps | apply State.withLoft_keeps | fail_if_no_progress (refine Keeps.mk rfl rfl rfl rfl rfl rfl rfl ?_)
    | apply Keeps.landing (u0 := u0) (q0 := q0) | assumption | dsimp only | split

theorem State.haltUser_keeps (h : Keeps u0 q0 s) (c : Nat) (x : Cell) (j : Job) (m : Image) : Keeps u0 q0 (State.haltUser c x j m s) := by
  unfold State.haltUser
  extract_lets res page s1
  refine Keeps.ite (State.endJob_keeps (State.loftEcc_keeps h _ _) _ _) (Keeps.ite (State.endJob_keeps h _ _) ?_)
  apply State.endJob_keeps
  apply State.setCell_keeps
  dsimp only [s1]
  split
  · exact State.withLoft_keeps h _ h.landing
  · split
    · exact State.withLoft_keeps h _ (Loft.write_wf h.landing)
    · exact h

theorem State.readEcc_keeps (h : Keeps u0 q0 s) (c : Nat) (w : Nat) (k : ReadCheck) : Keeps u0 q0 (State.readEcc c w k s) := by
  unfold State.readEcc
  try dsimp only
  with_reducible repeat' first
    | exact h | apply State.loftEcc_keeps | apply State.withLoft_keeps | fail_if_no_progress (refine Keeps.mk rfl rfl rfl rfl rfl rfl rfl ?_)
    | apply Keeps.landing (u0 := u0) (q0 := q0) | apply Keeps.ite

theorem State.releaseSlot_keeps (h : Keeps u0 q0 s) (c : Nat) : Keeps u0 q0 (State.releaseSlot c s) := by
  unfold State.releaseSlot
  try dsimp only
  with_reducible repeat' first
    | exact h | apply State.setCell_keeps | apply State.withLoft_keeps | fail_if_no_progress (refine Keeps.mk rfl rfl rfl rfl rfl rfl rfl ?_)
    | apply Keeps.landing (u0 := u0) (q0 := q0) | apply Keeps.ite | intro _ _ h | intro _ h | assumption | dsimp only | split

theorem State.issueWord_keeps (h : Keeps u0 q0 s) (c : Nat) (here : Nat → Bool) (k : ReadCheck) : Keeps u0 q0 (State.issueWord c here k s) := by
  unfold State.issueWord
  try dsimp only
  with_reducible repeat' first
    | exact h | apply State.setCell_keeps | apply State.readEcc_keeps | apply State.dropJob_keeps | apply State.releaseSlot_keeps
    | apply State.loftEcc_keeps | apply State.withLoft_keeps | apply State.haltUser_keeps | apply State.endJob_keeps
    | fail_if_no_progress (refine Keeps.mk rfl rfl rfl rfl rfl rfl rfl ?_) | apply Keeps.landing (u0 := u0) (q0 := q0) | apply Loft.write_wf
    | simp only [Loft.halt_landing] | apply Keeps.ite | intro _ _ h | intro _ h | assumption | dsimp only | split

theorem State.nextZoneRow_keeps (h : Keeps u0 q0 s) (z n : Nat) : Keeps u0 q0 (State.nextZoneRow z n s).1 := by
  induction n generalizing s with
  | zero => exact h
  | succ n ih =>
    unfold State.nextZoneRow
    split
    · exact h
    · rename_i r _
      have h1 := State.advanceZone_keeps (State.distribute_keeps h r.frame) z r.frame
      generalize (s.distribute r.frame).advanceZone z r.frame = t at h1 ⊢
      extract_lets
      repeat' (first
        | with_reducible exact h1
        | with_reducible exact h
        | with_reducible apply ih
        | with_reducible apply State.evaluate_keeps
        | with_reducible apply State.putPage_keeps
        | with_reducible apply State.setZone_keeps
        | (dsimp only)
        | split)

theorem State.poolChanges_keeps (h : Keeps u0 q0 s) (frame : Nat) : Keeps u0 q0 (State.poolChanges frame s) := by
  unfold State.poolChanges
  try dsimp only
  with_reducible repeat' first
    | exact h | apply State.applyPoolSet_keeps | apply State.applyDue_keeps | intro _ _ h

theorem State.setUpCell_keeps (h : Keeps u0 q0 s) (c : Nat) (j : Job) : Keeps u0 q0 (State.setUpCell c j s) := by
  unfold State.setUpCell
  try dsimp only
  with_reducible repeat' first
    | exact h | apply State.setCell_keeps | fail_if_no_progress (refine Keeps.mk rfl rfl rfl rfl rfl rfl rfl ?_) | intro _ _ h | intro _ h
    | assumption | dsimp only | split

theorem State.startJob_keeps (h : Keeps u0 q0 s) (j : Job) (p : Pool) (k : ReadCheck) (taken : State → State) (hf : ∀ t, Keeps u0 q0 t → Keeps u0 q0 (taken t)) : Keeps u0 q0 (State.startJob j p k taken s) := by
  unfold State.startJob
  try dsimp only
  with_reducible repeat' first
    | exact h | apply State.setUpCell_keeps | apply State.loftEcc_keeps | apply State.endJob_keeps | apply hf | apply Keeps.ite | intro _ _ h
    | intro _ h | assumption | dsimp only | split

theorem State.startDecode_keeps (h : Keeps u0 q0 s) (leg : Nat) (k : ReadCheck) : Keeps u0 q0 (State.startDecode leg k s) := by
  unfold State.startDecode
  try dsimp only
  with_reducible repeat' first
    | exact h | apply State.poolChanges_keeps | apply State.startJob_keeps | (intro _ h; simp only [id]; exact h)
    | fail_if_no_progress (refine Keeps.mk rfl rfl rfl rfl rfl rfl rfl ?_) | apply Keeps.ite | intro _ _ h | intro _ h | assumption | dsimp only
    | split

theorem State.startMap_keeps (h : Keeps u0 q0 s) (leg : Nat) (group : Nat) (k : ReadCheck) : Keeps u0 q0 (State.startMap leg group k s) := by
  unfold State.startMap
  try dsimp only
  with_reducible repeat' first
    | exact h | apply State.withLoft_keeps | apply State.startJob_keeps | fail_if_no_progress (refine Keeps.mk rfl rfl rfl rfl rfl rfl rfl ?_)
    | apply Keeps.landing (u0 := u0) (q0 := q0) | apply Keeps.ite | intro _ _ h | intro _ h | assumption | dsimp only | split

theorem State.startZone_keeps (h : Keeps u0 q0 s) (z : Nat) (k : ReadCheck) : Keeps u0 q0 (State.startZone z k s) := by
  unfold State.startZone
  try dsimp only
  with_reducible repeat' first
    | exact h | apply State.poolChanges_keeps | apply State.nextZoneRow_keeps | apply State.startJob_keeps | (intro _ h; simp only [id]; exact h)
    | fail_if_no_progress (refine Keeps.mk rfl rfl rfl rfl rfl rfl rfl ?_) | (apply Keeps.of_fst; assumption) | apply Keeps.ite | intro _ _ h
    | intro _ h | assumption | dsimp only | split

theorem State.alarm_keeps (h : Keeps u0 q0 s) (payload : List Word) : Keeps u0 q0 (State.alarm payload s) := by
  unfold State.alarm
  try dsimp only
  with_reducible repeat' first
    | exact h | fail_if_no_progress (refine Keeps.mk rfl rfl rfl rfl rfl rfl rfl ?_) | apply Keeps.foldl | apply Keeps.ite | intro _ _ h

theorem State.applyMapSet_keeps (h : Keeps u0 q0 s) (p : Stamped) : Keeps u0 q0 (State.applyMapSet p s) := by
  unfold State.applyMapSet
  try dsimp only
  with_reducible repeat' first
    | exact h | apply State.setMap_keeps

theorem State.writeRecord_keeps (h : Keeps u0 q0 s) (z : Nat) (e : Evaluation) : Keeps u0 q0 (State.writeRecord z e s) := by
  unfold State.writeRecord
  try dsimp only
  with_reducible repeat' first
    | exact h | apply State.appendStore_keeps | apply State.withLoft_keeps | fail_if_no_progress (refine Keeps.mk rfl rfl rfl rfl rfl rfl rfl ?_)
    | apply Keeps.landing (u0 := u0) (q0 := q0) | apply Loft.write_wf | apply Keeps.ite

theorem State.commitZone_keeps (h : Keeps u0 q0 s) (f : Nat) (z : Nat) : Keeps u0 q0 (State.commitZone f z s) := by
  unfold State.commitZone
  try dsimp only
  with_reducible repeat' first
    | exact h | apply State.setZone_keeps | apply State.writeRecord_keeps | apply State.alarm_keeps | apply Keeps.foldlFst
    | fail_if_no_progress (refine Keeps.mk rfl rfl rfl rfl rfl rfl rfl ?_) | apply Keeps.foldl | apply Keeps.ite | intro _ _ h | intro _ h
    | assumption | dsimp only | split

theorem execLoftScrub_keeps (h : Keeps u0 q0 s) (m : LoftMemory) (k : ReadCheck) : ResKeeps u0 q0 (execLoftScrub m k s) := by
  unfold execLoftScrub
  try dsimp only
  with_reducible repeat' first
    | exact h | apply State.setCell_keeps | apply State.loftEcc_keeps | apply State.withLoft_keeps | apply State.endJob_keeps
    | fail_if_no_progress (refine Keeps.mk rfl rfl rfl rfl rfl rfl rfl ?_) | apply Keeps.landing (u0 := u0) (q0 := q0) | apply ResKeeps.next
    | apply ResKeeps.ite | apply Keeps.ite | intro _ _ h | intro _ h | assumption | dsimp only | split

theorem execZoneRestart_keeps (h : Keeps u0 q0 s) (z : Fin 256) : ResKeeps u0 q0 (execZoneRestart z s) := by
  unfold execZoneRestart
  try dsimp only
  with_reducible repeat' first
    | exact h | apply State.advanceZone_keeps | apply State.distribute_keeps | apply ResKeeps.next | assumption | dsimp only | split

theorem execBlockDelivery_keeps (h : Keeps u0 q0 s) (leg : Fin 2) : ResKeeps u0 q0 (execBlockDelivery leg s) := by
  unfold execBlockDelivery
  try dsimp only
  with_reducible repeat' first
    | exact h | apply State.applyDue_keeps | apply State.poolChanges_keeps | apply State.report_keeps | apply State.setMap_keeps
    | apply State.applyMapSet_keeps | apply State.withLoft_keeps | apply State.mapResult_keeps
    | fail_if_no_progress (refine Keeps.mk rfl rfl rfl rfl rfl rfl rfl ?_) | apply Keeps.foldl | apply Keeps.landing (u0 := u0) (q0 := q0)
    | apply ResKeeps.next | apply ResKeeps.ite | apply Keeps.ite | intro _ _ h | intro _ h | assumption | dsimp only | split

theorem State.leaveHoldover_keeps (h : Keeps u0 q0 s) : Keeps u0 q0 (State.leaveHoldover s) := by
  unfold State.leaveHoldover
  try dsimp only
  with_reducible repeat' first
    | exact h | apply State.setCondition_keeps | fail_if_no_progress (refine Keeps.mk rfl rfl rfl rfl rfl rfl rfl ?_) | apply Keeps.ite

theorem State.setTimeStat_keeps (h : Keeps u0 q0 s) (f : Fld) (b : Bool) : Keeps u0 q0 (State.setTimeStat f b s) := by
  unfold State.setTimeStat
  try dsimp only
  with_reducible repeat' first
    | exact h | fail_if_no_progress (refine Keeps.mk rfl rfl rfl rfl rfl rfl rfl ?_)

theorem State.enterHoldover_keeps (h : Keeps u0 q0 s) : Keeps u0 q0 (State.enterHoldover s) := by
  unfold State.enterHoldover
  try dsimp only
  with_reducible repeat' first
    | exact h | apply State.setCondition_keeps | fail_if_no_progress (refine Keeps.mk rfl rfl rfl rfl rfl rfl rfl ?_) | apply Keeps.ite

theorem State.judgeSource_keeps (h : Keeps u0 q0 s) (old : Nat) : Keeps u0 q0 (State.judgeSource old s) := by
  unfold State.judgeSource
  try dsimp only
  with_reducible repeat' first
    | exact h | apply State.leaveHoldover_keeps | apply State.setTimeStat_keeps | apply State.enterHoldover_keeps
    | fail_if_no_progress (refine Keeps.mk rfl rfl rfl rfl rfl rfl rfl ?_) | apply Keeps.ite

theorem State.timeStatus_keeps (h : Keeps u0 q0 s) (f : State → State) (hf : ∀ t, Keeps u0 q0 t → Keeps u0 q0 (f t)) : Keeps u0 q0 (State.timeStatus f s) := by
  unfold State.timeStatus
  dsimp only
  split
  · exact hf _ h
  · exact State.emit_keeps (hf _ h) _ _

theorem State.changeRing_keeps (h : Keeps u0 q0 s) (f : State → State) (hf : ∀ t, Keeps u0 q0 t → Keeps u0 q0 (f t)) : Keeps u0 q0 (State.changeRing f s) := by
  unfold State.changeRing
  apply State.timeStatus_keeps h
  intro t ht
  dsimp only
  split
  · exact hf _ ht
  · exact State.judgeSource_keeps (hf _ ht) _

theorem State.stepTime_keeps (h : Keeps u0 q0 s) (t : Nat) : Keeps u0 q0 (State.stepTime t s) := by
  unfold State.stepTime
  try dsimp only
  with_reducible repeat' first
    | exact h | fail_if_no_progress (refine Keeps.mk rfl rfl rfl rfl rfl rfl rfl ?_)

theorem State.powerFront_keeps (h : Keeps u0 q0 s) : Keeps u0 q0 (State.powerFront s) := by
  unfold State.powerFront
  try dsimp only
  with_reducible repeat' first
    | exact h | fail_if_no_progress (refine Keeps.mk rfl rfl rfl rfl rfl rfl rfl ?_) | apply Keeps.ite

theorem State.phaseGiven_keeps (h : Keeps u0 q0 s) (err : Int) : Keeps u0 q0 (State.phaseGiven err s) := by
  unfold State.phaseGiven
  try dsimp only
  with_reducible repeat' first
    | exact h | apply State.setCondition_keeps | apply State.stepTime_keeps | fail_if_no_progress (refine Keeps.mk rfl rfl rfl rfl rfl rfl rfl ?_)
    | apply Keeps.ite

theorem State.tiuAnswer_keeps (h : Keeps u0 q0 s) (e : Err) : Keeps u0 q0 (State.tiuAnswer e s) := by
  unfold State.tiuAnswer
  try dsimp only
  with_reducible repeat' first
    | exact h | apply State.reply_keeps | fail_if_no_progress (refine Keeps.mk rfl rfl rfl rfl rfl rfl rfl ?_) | apply Keeps.ite | intro _ _ h
    | intro _ h | assumption | dsimp only | split

theorem State.applyTempCal_keeps (h : Keeps u0 q0 s) (frame : Nat) (p : Stamped) : Keeps u0 q0 (State.applyTempCal frame p s) := by
  unfold State.applyTempCal
  try dsimp only
  with_reducible repeat' first
    | exact h | apply State.setHall_keeps

end Sys2Proof.Machine
end

