-- ==== Sys2Proof/Laws/KeepsTriggers.lean ====
section
/-! SUPPORT. One lemma per operation of the Causeway, the triggers and the streams: it keeps what `Keeps` says. -/

namespace Sys2Proof.Machine

variable {u0 : Nat} {q0 : List Instr} {s : State}

theorem State.setUnit_keeps (h : Keeps u0 q0 s) (u : Nat) (x : TrigUnit) : Keeps u0 q0 (State.setUnit u x s) := by
  unfold State.setUnit
  try dsimp only
  with_reducible repeat' first
    | exact h | fail_if_no_progress (refine Keeps.mk rfl rfl rfl rfl rfl rfl rfl ?_)

theorem State.distributeTrig_keeps (h : Keeps u0 q0 s) (frame : Nat) : Keeps u0 q0 (State.distributeTrig frame s) := by
  unfold State.distributeTrig
  try dsimp only
  with_reducible repeat' first
    | exact h | apply State.applyDue_keeps | apply State.setUnit_keeps | fail_if_no_progress (refine Keeps.mk rfl rfl rfl rfl rfl rfl rfl ?_)
    | apply Keeps.foldl | apply Keeps.ite | intro _ _ h

theorem State.fireRecord_keeps (h : Keeps u0 q0 s) (u : Nat) (v : Version) (cause : Nat) (flags : Nat) : Keeps u0 q0 (State.fireRecord u v cause flags s) := by
  unfold State.fireRecord
  try dsimp only
  with_reducible repeat' first
    | exact h | apply State.setUnit_keeps | fail_if_no_progress (refine Keeps.mk rfl rfl rfl rfl rfl rfl rfl ?_)

theorem State.judgeVersion_keeps (h : Keeps u0 q0 s) (u : Nat) (v : Version) (held : Bool) (other : Bool) (missing : Bool) : Keeps u0 q0 (State.judgeVersion u v held other missing s) := by
  unfold State.judgeVersion
  try dsimp only
  with_reducible repeat' first
    | exact h | apply State.setUnit_keeps | apply State.fireRecord_keeps | fail_if_no_progress (refine Keeps.mk rfl rfl rfl rfl rfl rfl rfl ?_)
    | apply Keeps.ite | intro _ _ h | intro _ h | assumption | dsimp only | split

theorem State.withCw_keeps (h : Keeps u0 q0 s) (c : Causeway) : Keeps u0 q0 (State.withCw c s) := by
  unfold State.withCw
  try dsimp only
  with_reducible repeat' first
    | exact h | fail_if_no_progress (refine Keeps.mk rfl rfl rfl rfl rfl rfl rfl ?_)

theorem State.cwSend_keeps (h : Keeps u0 q0 s) (ports : List Nat) (type : Nat) (payload : List Byte) : Keeps u0 q0 (State.cwSend ports type payload s) := by
  unfold State.cwSend
  try dsimp only
  with_reducible repeat' first
    | exact h | apply State.withCw_keeps

theorem State.cwArrive_keeps (h : Keeps u0 q0 s) (hX0 : CwHeader) : Keeps u0 q0 (State.cwArrive hX0 s).1 := by
  unfold State.cwArrive
  try dsimp only
  with_reducible repeat' first
    | exact h | apply State.withCw_keeps | fail_if_no_progress (refine Keeps.mk rfl rfl rfl rfl rfl rfl rfl ?_) | apply Keeps.ite | intro _ _ h
    | intro _ h | assumption | dsimp only | split

theorem State.cwFlood_keeps (h : Keeps u0 q0 s) (hX0 : CwHeader) (type : Nat) (own : Bool) (payload : List Byte) : Keeps u0 q0 (State.cwFlood hX0 type own payload s).1 := by
  unfold State.cwFlood
  try dsimp only
  with_reducible repeat' first
    | exact h | apply State.withCw_keeps | apply State.cwArrive_keeps | fail_if_no_progress (refine Keeps.mk rfl rfl rfl rfl rfl rfl rfl ?_)
    | apply Keeps.ite | intro _ _ h | intro _ h | assumption | dsimp only | split

theorem State.sendEpoch_keeps (h : Keeps u0 q0 s) : Keeps u0 q0 (State.sendEpoch s) := by
  unfold State.sendEpoch
  try dsimp only
  with_reducible repeat' first
    | exact h | apply State.cwSend_keeps | apply State.withCw_keeps | fail_if_no_progress (refine Keeps.mk rfl rfl rfl rfl rfl rfl rfl ?_)
    | apply Keeps.ite

theorem State.cwReady_keeps (h : Keeps u0 q0 s) : Keeps u0 q0 (State.cwReady s) := by
  unfold State.cwReady
  try dsimp only
  with_reducible repeat' first
    | exact h | apply State.sendEpoch_keeps | apply State.withCw_keeps | apply Keeps.ite

theorem State.cwWiden_keeps (h : Keeps u0 q0 s) (time : Nat) (ns : List Nat) : Keeps u0 q0 (State.cwWiden time ns s) := by
  unfold State.cwWiden
  try dsimp only
  with_reducible repeat' first
    | exact h | fail_if_no_progress (refine Keeps.mk rfl rfl rfl rfl rfl rfl rfl ?_) | apply Keeps.ite

theorem State.cwTakeSet_keeps (h : Keeps u0 q0 s) (time : Nat) (mask : Nat) (ns : List Nat) : Keeps u0 q0 (State.cwTakeSet time mask ns s) := by
  unfold State.cwTakeSet
  try dsimp only
  with_reducible repeat' first
    | exact h | apply State.cwWiden_keeps | apply State.withCw_keeps | apply State.emitAt_keeps

theorem State.cwSendMember_keeps (h : Keeps u0 q0 s) (ns : List Nat) : Keeps u0 q0 (State.cwSendMember ns s) := by
  unfold State.cwSendMember
  try dsimp only
  with_reducible repeat' first
    | exact h | apply State.cwSend_keeps | apply State.cwTakeSet_keeps

theorem State.cwTakeMaster_keeps (h : Keeps u0 q0 s) (ring : List Nat) : Keeps u0 q0 (State.cwTakeMaster ring s) := by
  unfold State.cwTakeMaster
  try dsimp only
  with_reducible repeat' first
    | exact h | apply State.withCw_keeps | apply State.cwReady_keeps

theorem State.armGroup_keeps (h : Keeps u0 q0 s) (g : Nat) (time : Nat) : Keeps u0 q0 (State.armGroup g time s) := by
  unfold State.armGroup
  try dsimp only
  with_reducible repeat' first
    | exact h | fail_if_no_progress (refine Keeps.mk rfl rfl rfl rfl rfl rfl rfl ?_) | apply Keeps.ite

theorem State.cwLinkCause_keeps (h : Keeps u0 q0 s) (p : Nat) : Keeps u0 q0 (State.cwLinkCause p s) := by
  unfold State.cwLinkCause
  try dsimp only
  with_reducible repeat' first
    | exact h | apply State.withCw_keeps | apply State.setCondition_keeps

theorem State.cwPhase_keeps (h : Keeps u0 q0 s) (err : Int) : Keeps u0 q0 (State.cwPhase err s) := by
  unfold State.cwPhase
  extract_lets c near run s1 tb s2 quarter s3
  have h1 : Keeps u0 q0 s1 := State.withCw_keeps h _
  have h2 : Keeps u0 q0 s2 := Keeps.mk rfl rfl rfl rfl rfl rfl rfl h1
  exact State.cwReady_keeps (Keeps.ite (State.setCondition_keeps (State.stepTime_keeps (State.withCw_keeps h2 _) _) _ _ _) (State.setCondition_keeps h2 _ _ _))

theorem State.cwSee_keeps (h : Keeps u0 q0 s) (m : Member) : Keeps u0 q0 (State.cwSee m s) := by
  unfold State.cwSee
  try dsimp only
  with_reducible repeat' first
    | exact h | apply State.withCw_keeps | apply State.cwReady_keeps | apply State.changeRing_keeps
    | fail_if_no_progress (refine Keeps.mk rfl rfl rfl rfl rfl rfl rfl ?_) | apply Keeps.ite | intro _ _ h | intro _ h

theorem execCwPortDown_keeps (h : Keeps u0 q0 s) (p : Fin 2) (hello : Bool) : ResKeeps u0 q0 (execCwPortDown p hello s) := by
  unfold execCwPortDown
  try dsimp only
  with_reducible repeat' first
    | exact h | apply State.untilUp_keeps | apply State.withCw_keeps | apply State.cwLinkCause_keeps
    | fail_if_no_progress (refine Keeps.mk rfl rfl rfl rfl rfl rfl rfl ?_) | apply ResKeeps.next | apply ResKeeps.ite | apply Keeps.ite

theorem execCwReset_keeps (h : Keeps u0 q0 s) (hX0 : CwHeader) (time : Fin (2 ^ 64)) : ResKeeps u0 q0 (execCwReset hX0 time s) := by
  unfold execCwReset
  try dsimp only
  with_reducible repeat' first
    | exact h | apply State.cwFlood_keeps | fail_if_no_progress (refine Keeps.mk rfl rfl rfl rfl rfl rfl rfl ?_)
    | apply ResKeeps.next | apply ResKeeps.ite | apply Keeps.ite

theorem execCwEpoch_keeps (h : Keeps u0 q0 s) (hX0 : CwHeader) (e : Fin (2 ^ 64)) (tF : BitVec 32) : ResKeeps u0 q0 (execCwEpoch hX0 e tF s) := by
  unfold execCwEpoch
  try dsimp only
  with_reducible repeat' first
    | exact h | apply State.cwFlood_keeps | apply State.withCw_keeps | fail_if_no_progress (refine Keeps.mk rfl rfl rfl rfl rfl rfl rfl ?_)
    | apply ResKeeps.next | apply ResKeeps.ite | apply Keeps.ite

theorem execCwDelayResp_keeps (h : Keeps u0 q0 s) (hX0 : CwHeader) (ra : Nat) (rb : BitVec 32) : ResKeeps u0 q0 (execCwDelayResp hX0 ra rb s) := by
  unfold execCwDelayResp
  try dsimp only
  with_reducible repeat' first
    | exact h | apply State.withCw_keeps | apply State.cwArrive_keeps | fail_if_no_progress (refine Keeps.mk rfl rfl rfl rfl rfl rfl rfl ?_)
    | apply ResKeeps.next | apply ResKeeps.ite

theorem execRingSplit_keeps (h : Keeps u0 q0 s) : ResKeeps u0 q0 (execRingSplit s) := by
  unfold execRingSplit
  try dsimp only
  with_reducible repeat' first
    | exact h | apply State.untilUp_keeps | apply State.cwSendMember_keeps | apply State.cwTakeMaster_keeps | apply State.withCw_keeps
    | apply State.changeRing_keeps | fail_if_no_progress (refine Keeps.mk rfl rfl rfl rfl rfl rfl rfl ?_) | apply Keeps.foldl | apply ResKeeps.next
    | apply ResKeeps.ite | apply Keeps.ite | intro _ _ h | intro _ h | assumption | dsimp only | split

theorem execMembershipStable_keeps (h : Keeps u0 q0 s) : ResKeeps u0 q0 (execMembershipStable s) := by
  unfold execMembershipStable
  try dsimp only
  with_reducible repeat' first
    | exact h | apply State.untilUp_keeps | apply State.cwSendMember_keeps | apply State.cwTakeMaster_keeps | apply State.withCw_keeps
    | apply State.setCondition_keeps | apply State.changeRing_keeps | fail_if_no_progress (refine Keeps.mk rfl rfl rfl rfl rfl rfl rfl ?_)
    | apply ResKeeps.next | apply ResKeeps.ite | apply Keeps.ite | intro _ _ h | intro _ h

theorem execCwHelloSend_keeps (h : Keeps u0 q0 s) : ResKeeps u0 q0 (execCwHelloSend s) := by
  unfold execCwHelloSend
  try dsimp only
  with_reducible repeat' first
    | exact h | apply State.withCw_keeps | fail_if_no_progress (refine Keeps.mk rfl rfl rfl rfl rfl rfl rfl ?_) | apply ResKeeps.next
    | apply ResKeeps.ite

theorem execCwTimeSend_keeps (h : Keeps u0 q0 s) : ResKeeps u0 q0 (execCwTimeSend s) := by
  unfold execCwTimeSend
  try dsimp only
  with_reducible repeat' first
    | exact h | apply State.cwSend_keeps | apply ResKeeps.next | apply ResKeeps.ite

theorem execCwTime_keeps (h : Keeps u0 q0 s) (hX0 : CwHeader) (time : Fin (2 ^ 64)) (hops : Fin 256) (own : Fin (2 ^ 72)) : ResKeeps u0 q0 (execCwTime hX0 time hops own s) := by
  unfold execCwTime
  try dsimp only
  with_reducible repeat' first
    | exact h | apply State.cwSend_keeps | apply State.withCw_keeps | apply State.cwArrive_keeps | apply State.cwPhase_keeps
    | fail_if_no_progress (refine Keeps.mk rfl rfl rfl rfl rfl rfl rfl ?_) | apply ResKeeps.next
    | apply ResKeeps.ite

theorem execCwLinkReturn_keeps (h : Keeps u0 q0 s) (p : Fin 2) : ResKeeps u0 q0 (execCwLinkReturn p s) := by
  unfold execCwLinkReturn
  try dsimp only
  with_reducible repeat' first
    | exact h | apply State.withCw_keeps | apply State.cwLinkCause_keeps | fail_if_no_progress (refine Keeps.mk rfl rfl rfl rfl rfl rfl rfl ?_)
    | apply ResKeeps.next | apply ResKeeps.ite

theorem execHopMeasurement_keeps (h : Keeps u0 q0 s) (p : Fin 2) : ResKeeps u0 q0 (execHopMeasurement p s) := by
  unfold execHopMeasurement
  try dsimp only
  with_reducible repeat' first
    | exact h | apply State.cwSend_keeps | apply State.withCw_keeps | fail_if_no_progress (refine Keeps.mk rfl rfl rfl rfl rfl rfl rfl ?_)
    | apply ResKeeps.next | apply ResKeeps.ite

theorem execCwMember_keeps (h : Keeps u0 q0 s) (hX0 : CwHeader) (mask : Fin 256) (time : Fin (2 ^ 64)) : ResKeeps u0 q0 (execCwMember hX0 mask time s) := by
  unfold execCwMember
  try dsimp only
  with_reducible repeat' first
    | exact h | apply State.cwFlood_keeps | apply State.cwTakeSet_keeps | apply ResKeeps.next | apply ResKeeps.ite

theorem execCwDelayReq_keeps (h : Keeps u0 q0 s) (hX0 : CwHeader) (rb : BitVec 32) : ResKeeps u0 q0 (execCwDelayReq hX0 rb s) := by
  unfold execCwDelayReq
  try dsimp only
  with_reducible repeat' first
    | exact h | apply State.cwSend_keeps | apply State.cwArrive_keeps | apply ResKeeps.next | apply ResKeeps.ite
    | apply Keeps.ite

theorem execCwArm_keeps (h : Keeps u0 q0 s) (hX0 : CwHeader) (group : Fin 4) (time : Fin (2 ^ 64)) : ResKeeps u0 q0 (execCwArm hX0 group time s) := by
  unfold execCwArm
  try dsimp only
  with_reducible repeat' first
    | exact h | apply State.cwFlood_keeps | apply State.armGroup_keeps | apply ResKeeps.next | apply ResKeeps.ite
    | apply Keeps.ite

theorem execCwVerdict_keeps (h : Keeps u0 q0 s) (hX0 : CwHeader) (time : Fin (2 ^ 64)) (groups : Fin 16) : ResKeeps u0 q0 (execCwVerdict hX0 time groups s) := by
  unfold execCwVerdict
  try dsimp only
  with_reducible repeat' first
    | exact h | apply State.cwFlood_keeps | fail_if_no_progress (refine Keeps.mk rfl rfl rfl rfl rfl rfl rfl ?_)
    | apply ResKeeps.next | apply ResKeeps.ite | apply Keeps.ite | intro _ _ h | intro _ h | assumption | dsimp only | split

theorem execCwHello_keeps (h : Keeps u0 q0 s) (hX0 : CwHeader) (serial : Fin (2 ^ 64)) (strap : Bool) (sending : Fin 2) (seen : Fin 256) (locked : Bool) : ResKeeps u0 q0 (execCwHello hX0 serial strap sending seen locked s) := by
  unfold execCwHello
  try dsimp only
  with_reducible repeat' first
    | exact h | apply State.cwFlood_keeps | apply State.withCw_keeps | apply State.cwSee_keeps
    | fail_if_no_progress (refine Keeps.mk rfl rfl rfl rfl rfl rfl rfl ?_) | apply ResKeeps.next
    | apply ResKeeps.ite | apply Keeps.ite

theorem State.giveVerdict_keeps (h : Keeps u0 q0 s) (v : Version) : Keeps u0 q0 (State.giveVerdict v s) := by
  unfold State.giveVerdict
  try dsimp only
  with_reducible repeat' first
    | exact h | apply State.cwSend_keeps | fail_if_no_progress (refine Keeps.mk rfl rfl rfl rfl rfl rfl rfl ?_) | apply Keeps.ite

theorem State.commitVersion_keeps (h : Keeps u0 q0 s) (f : Nat) : Keeps u0 q0 (State.commitVersion f s) := by
  unfold State.commitVersion
  try dsimp only
  with_reducible repeat' first
    | exact h | apply State.giveVerdict_keeps | apply State.withLoft_keeps | apply State.commitZone_keeps
    | fail_if_no_progress (refine Keeps.mk rfl rfl rfl rfl rfl rfl rfl ?_) | apply Keeps.foldl | apply Keeps.landing (u0 := u0) (q0 := q0)
    | intro _ _ h

theorem State.copierRequest_keeps (h : Keeps u0 q0 s) (a : Nat) (n : Nat) (write : Bool) : Keeps u0 q0 (State.copierRequest a n write s) := by
  unfold State.copierRequest
  try dsimp only
  with_reducible repeat' first
    | exact h | apply State.withCellar_keeps | fail_if_no_progress (refine Keeps.mk rfl rfl rfl rfl rfl rfl rfl ?_)
    | apply Keeps.mem (u0 := u0) (q0 := q0) | simp only [Cellar.request_mem]

theorem State.sliceOf_keeps (h : Keeps u0 q0 s) (r : Record) (x : RingRow) : Keeps u0 q0 (State.sliceOf r x s).1 := by
  unfold State.sliceOf
  try dsimp only
  with_reducible repeat' first
    | exact h | apply State.draw_keeps | apply Keeps.ite | intro _ _ h | intro _ h | assumption | dsimp only
    | split

theorem State.copySlice_keeps (h : Keeps u0 q0 s) (r : Record) (x : RingRow) (rest : List Record) : Keeps u0 q0 (State.copySlice r x rest s) := by
  unfold State.copySlice
  extract_lets t
  have h0 : Keeps u0 q0 t := State.copierRequest_keeps h _ _ _
  clear_value t
  have h1 := State.sliceOf_keeps h0 r x
  generalize t.sliceOf r x = y at h1 ⊢
  obtain ⟨s1, hd, vs, qs, lost⟩ := y
  dsimp only at h1 ⊢
  generalize (if lost = true then s1.trig.copyLost + 1 else s1.trig.copyLost) = n
  generalize (if lost = true then r.flags ||| 2 else r.flags) = fl
  split
  · exact Keeps.mk rfl rfl rfl rfl rfl rfl rfl h1
  · apply State.copierRequest_keeps
    generalize hc : s1.cellar.store _ _ = c
    have hm : Mem.wf 0 c.mem = true := by rw [← hc]; exact Cellar.store_wf h1.mem
    exact Keeps.mk (t := { s1 with cellar := c }) rfl rfl rfl rfl rfl rfl rfl (Keeps.cellar h1 hm)

theorem State.finishRecord_keeps (h : Keeps u0 q0 s) (r : Record) (rest : List Record) : Keeps u0 q0 (State.finishRecord r rest s) := by
  unfold State.finishRecord
  extract_lets ov legs body r1 c1 st
  have hm : Mem.wf 0 c1.mem = true := Cellar.store_wf (Cellar.store_wf h.mem)
  apply State.emitAt_keeps
  apply State.copierRequest_keeps
  exact Keeps.mk (t := { s with cellar := c1 }) rfl rfl rfl rfl rfl rfl rfl (Keeps.cellar h hm)

theorem State.flagIgnored_keeps (h : Keeps u0 q0 s) (u : Nat) (f : Nat) : Keeps u0 q0 (State.flagIgnored u f s) := by
  unfold State.flagIgnored
  try dsimp only
  with_reducible repeat' first
    | exact h | fail_if_no_progress (refine Keeps.mk rfl rfl rfl rfl rfl rfl rfl ?_) | apply Keeps.ite

theorem State.takeRecord_keeps (h : Keeps u0 q0 s) (r : Record) (rest : List Record) : Keeps u0 q0 (State.takeRecord r rest s).1 := by
  unfold State.takeRecord
  try dsimp only
  with_reducible repeat' first
    | exact h | fail_if_no_progress (refine Keeps.mk rfl rfl rfl rfl rfl rfl rfl ?_) | apply Keeps.ite | intro _ _ h | intro _ h | assumption
    | dsimp only | split

theorem State.takeVersion_keeps (h : Keeps u0 q0 s) (u : Nat) (v : Version) (rest : List Version) : Keeps u0 q0 (State.takeVersion u v rest s) := by
  unfold State.takeVersion
  try dsimp only
  with_reducible repeat' first
    | exact h | apply State.judgeVersion_keeps | apply State.flagIgnored_keeps | apply State.setUnit_keeps
    | fail_if_no_progress (refine Keeps.mk rfl rfl rfl rfl rfl rfl rfl ?_) | apply Keeps.ite

theorem State.waitStore_keeps (h : Keeps u0 q0 s) : Keeps u0 q0 (State.waitStore s) := by
  unfold State.waitStore
  try dsimp only
  with_reducible repeat' first
    | exact h | fail_if_no_progress (refine Keeps.mk rfl rfl rfl rfl rfl rfl rfl ?_)

theorem execVersionCommit_keeps (h : Keeps u0 q0 s) : ResKeeps u0 q0 (execVersionCommit s) := by
  unfold execVersionCommit
  split
  · exact ResKeeps.next h
  · rename_i f _
    split
    · exact ResKeeps.next h
    · split
      · exact ResKeeps.next (State.withLoft_keeps h _ h.landing)
      · extract_lets s1 s2
        have h1 : Keeps u0 q0 s1 := State.distributeTrig_keeps (State.distribute_keeps h _) _
        have h2 : Keeps u0 q0 s2 := Keeps.foldl h1 (fun t z ht => State.advanceZone_keeps ht _ _)
        clear_value s2
        split
        · exact ResKeeps.next h
        · split
          · split
            · exact ResKeeps.next h
            · exact ResKeeps.next (State.withLoft_keeps h _ h.landing)
          · exact ResKeeps.next (State.commitVersion_keeps (State.untilTime_keeps h2 _) _)

theorem execTriggerVersion_keeps (h : Keeps u0 q0 s) (u : Fin 16) : ResKeeps u0 q0 (execTriggerVersion u s) := by
  unfold execTriggerVersion
  try dsimp only
  with_reducible repeat' first
    | exact h | apply State.setUnit_keeps | apply State.takeVersion_keeps | fail_if_no_progress (refine Keeps.mk rfl rfl rfl rfl rfl rfl rfl ?_)
    | apply Keeps.foldl | apply ResKeeps.next | apply ResKeeps.ite | apply Keeps.ite | intro _ _ h | intro _ h | assumption | dsimp only | split

theorem execCopyRow_keeps (h : Keeps u0 q0 s) : ResKeeps u0 q0 (execCopyRow s) := by
  unfold execCopyRow
  try dsimp only
  with_reducible repeat' first
    | exact h | apply State.finishRecord_keeps | apply State.takeRecord_keeps | apply State.waitStore_keeps | apply State.copySlice_keeps
    | (apply Keeps.of_fst; assumption) | apply ResKeeps.next | apply ResKeeps.ite | apply Keeps.ite | intro _ _ h | intro _ h | assumption
    | dsimp only | split

theorem execVerdictTimeout_keeps (h : Keeps u0 q0 s) : ResKeeps u0 q0 (execVerdictTimeout s) := by
  unfold execVerdictTimeout
  try dsimp only
  with_reducible repeat' first
    | exact h | apply State.report_keeps | apply State.emitAt_keeps | apply State.untilTime_keeps
    | fail_if_no_progress (refine Keeps.mk rfl rfl rfl rfl rfl rfl rfl ?_) | apply Keeps.foldl | apply ResKeeps.next | intro _ _ h | intro _ h
    | assumption | dsimp only | split

theorem State.setStream_keeps (h : Keeps u0 q0 s) (n : Nat) (t : Stream) : Keeps u0 q0 (State.setStream n t s) := by
  unfold State.setStream
  try dsimp only
  with_reducible repeat' first
    | exact h | fail_if_no_progress (refine Keeps.mk rfl rfl rfl rfl rfl rfl rfl ?_)

theorem State.dropRecords_keeps (h : Keeps u0 q0 s) (qs : List Nat) : Keeps u0 q0 (State.dropRecords qs s) := by
  unfold State.dropRecords
  try dsimp only
  with_reducible repeat' first
    | exact h | fail_if_no_progress (refine Keeps.mk rfl rfl rfl rfl rfl rfl rfl ?_) | apply Keeps.ite

theorem State.closeBuffer_keeps (h : Keeps u0 q0 s) (n : Nat) : Keeps u0 q0 (State.closeBuffer n s) := by
  unfold State.closeBuffer
  try dsimp only
  with_reducible repeat' first
    | exact h | apply State.ring_keeps | apply State.setStream_keeps | apply State.dropRecords_keeps
    | fail_if_no_progress (refine Keeps.mk rfl rfl rfl rfl rfl rfl rfl ?_) | apply Keeps.ite | intro _ _ h | intro _ h | assumption | dsimp only
    | split

theorem State.discardRings_keeps (h : Keeps u0 q0 s) : Keeps u0 q0 (State.discardRings s) := by
  unfold State.discardRings
  try dsimp only
  with_reducible repeat' first
    | exact h | fail_if_no_progress (refine Keeps.mk rfl rfl rfl rfl rfl rfl rfl ?_)

theorem State.streamEnded_keeps (h : Keeps u0 q0 s) (n : Nat) : Keeps u0 q0 (State.streamEnded n s) := by
  unfold State.streamEnded
  try dsimp only
  with_reducible repeat' first
    | exact h | apply State.setStream_keeps | fail_if_no_progress (refine Keeps.mk rfl rfl rfl rfl rfl rfl rfl ?_) | intro _ _ h | intro _ h
    | assumption | dsimp only | split

theorem State.serve_keeps (h : Keeps u0 q0 s) (n : Nat) (mem : List D2hDescriptor) (fresh : Bool) (fuel : Nat) : Keeps u0 q0 (State.serve n mem fresh fuel s) := by
  induction fuel generalizing s fresh with
  | zero => exact h
  | succ fuel ih =>
    unfold State.serve
    dsimp only
    repeat' (first
      | with_reducible exact h
      | with_reducible apply ih
      | with_reducible apply State.setStream_keeps
      | with_reducible apply State.streamEnded_keeps
      | with_reducible apply State.closeBuffer_keeps
      | split)

theorem State.serveAll_keeps (h : Keeps u0 q0 s) (n : Nat) (mem : List D2hDescriptor) (fresh : Bool) : Keeps u0 q0 (State.serveAll n mem fresh s) := by
  unfold State.serveAll
  try dsimp only
  with_reducible repeat' first
    | exact h | apply State.serve_keeps

theorem State.applyStreamStart_keeps (h : Keeps u0 q0 s) (p : Stamped) : Keeps u0 q0 (State.applyStreamStart p s) := by
  unfold State.applyStreamStart
  try dsimp only
  with_reducible repeat' first
    | exact h | apply State.setStream_keeps

theorem State.pushEnd_keeps (h : Keeps u0 q0 s) (n : Nat) (cause : Nat) : Keeps u0 q0 (State.pushEnd n cause s) := by
  unfold State.pushEnd
  try dsimp only
  with_reducible repeat' first
    | exact h | apply State.draw_keeps | apply State.setStream_keeps | fail_if_no_progress (refine Keeps.mk rfl rfl rfl rfl rfl rfl rfl ?_)
    | apply Keeps.ite | intro _ _ h | intro _ h | assumption | dsimp only | split

theorem State.readerRequests_keeps (h : Keeps u0 q0 s) (t : Stream) (x : ItemRef) : Keeps u0 q0 (State.readerRequests t x s) := by
  unfold State.readerRequests
  extract_lets spans
  refine State.withCellar_keeps h _ ?_
  rw [Cellar.foldRequest_mem]
  exact h.mem

theorem State.readItem_keeps (h : Keeps u0 q0 s) (n : Nat) : Keeps u0 q0 (State.readItem n s) := by
  unfold State.readItem
  try dsimp only
  with_reducible repeat' first
    | exact h | apply State.setStream_keeps | apply State.readerRequests_keeps | apply State.dropRecords_keeps
    | fail_if_no_progress (refine Keeps.mk rfl rfl rfl rfl rfl rfl rfl ?_) | apply Keeps.ite | intro _ _ h | intro _ h | assumption | dsimp only
    | split

theorem State.streamStarts_keeps (h : Keeps u0 q0 s) : Keeps u0 q0 (State.streamStarts s) := by
  unfold State.streamStarts
  try dsimp only
  with_reducible repeat' first
    | exact h | apply State.applyDue_keeps | apply State.applyStreamStart_keeps | apply Keeps.ite | intro _ _ h

theorem execStreamFlushTimeout_keeps (h : Keeps u0 q0 s) (n : Fin 8) (mem : List D2hDescriptor) : ResKeeps u0 q0 (execStreamFlushTimeout n mem s) := by
  unfold execStreamFlushTimeout
  try dsimp only
  with_reducible repeat' first
    | exact h | apply State.untilUp_keeps | apply State.serveAll_keeps | apply State.closeBuffer_keeps | apply ResKeeps.next | apply ResKeeps.ite

theorem execStreamItemRead_keeps (h : Keeps u0 q0 s) (n : Fin 8) (mem : List D2hDescriptor) : ResKeeps u0 q0 (execStreamItemRead n mem s) := by
  unfold execStreamItemRead
  try dsimp only
  with_reducible repeat' first
    | exact h | apply State.streamStarts_keeps | apply State.readItem_keeps | apply State.setStream_keeps | apply State.serveAll_keeps
    | apply State.pushEnd_keeps | apply ResKeeps.next | apply ResKeeps.ite | apply Keeps.ite | intro _ _ h | intro _ h | assumption | dsimp only
    | split

theorem execUdpBlockSend_keeps (h : Keeps u0 q0 s) (n : Fin 8) : ResKeeps u0 q0 (execUdpBlockSend n s) := by
  unfold execUdpBlockSend
  try dsimp only
  with_reducible repeat' first
    | exact h | apply State.setStream_keeps | apply State.serveAll_keeps | apply State.streamEnded_keeps | apply State.dropRecords_keeps
    | fail_if_no_progress (refine Keeps.mk rfl rfl rfl rfl rfl rfl rfl ?_) | apply ResKeeps.next | apply ResKeeps.ite | apply Keeps.ite | intro _ _ h
    | intro _ h | assumption | dsimp only | split

theorem execStreamBuffersAdded_keeps (h : Keeps u0 q0 s) (n : Fin 8) (mem : List D2hDescriptor) : ResKeeps u0 q0 (execStreamBuffersAdded n mem s) := by
  unfold execStreamBuffersAdded
  try dsimp only
  with_reducible repeat' first
    | exact h | apply State.serveAll_keeps | apply State.takeH2d_keeps | apply ResKeeps.next | apply ResKeeps.ite

end Sys2Proof.Machine
end

