-- ==== Sys2Proof/Laws/KeepsMailbox.lean ====
section
/-! SUPPORT. One lemma per operation of the mailboxes, mode transitions, launches and the request protocol: it keeps what `Keeps` says. -/

namespace Sys2Proof.Machine

variable {u0 : Nat} {q0 : List Instr} {s : State}

theorem State.captureIgnored_keeps (h : Keeps u0 q0 s) (block : Fld) (offset : Nat) (req : Nat) (w : Word) : Keeps u0 q0 (State.captureIgnored block offset req w s) := by
  unfold State.captureIgnored
  try dsimp only
  with_reducible repeat' first
    | exact h | fail_if_no_progress (refine Keeps.mk rfl rfl rfl rfl rfl rfl rfl ?_)

theorem State.writeHintCfg_keeps (h : Keeps u0 q0 s) (p : Path) (offset : Nat) (sel : Word) (w : Word) : Keeps u0 q0 (State.writeHintCfg p offset sel w s) := by
  unfold State.writeHintCfg
  try dsimp only
  with_reducible repeat' first
    | exact h | apply State.captureIgnored_keeps | apply State.msixAll_keeps | fail_if_no_progress (refine Keeps.mk rfl rfl rfl rfl rfl rfl rfl ?_)
    | apply Keeps.ite

theorem State.aliasWrite_keeps (h : Keeps u0 q0 s) (a : AliasAccess) : Keeps u0 q0 (State.aliasWrite a s) := by
  unfold State.aliasWrite
  try dsimp only
  with_reducible repeat' first
    | exact h | apply State.writeHintCfg_keeps | fail_if_no_progress (refine Keeps.mk rfl rfl rfl rfl rfl rfl rfl ?_) | apply Keeps.ite

theorem State.setWide_keeps (h : Keeps u0 q0 s) (i : Nat) (m : WideMailbox) : Keeps u0 q0 (State.setWide i m s) := by
  unfold State.setWide
  try dsimp only
  with_reducible repeat' first
    | exact h | fail_if_no_progress (refine Keeps.mk rfl rfl rfl rfl rfl rfl rfl ?_)

theorem State.setChan_keeps (h : Keeps u0 q0 s) (c : Nat) (m : Mailbox) : Keeps u0 q0 (State.setChan c m s) := by
  unfold State.setChan
  try dsimp only
  with_reducible repeat' first
    | exact h | fail_if_no_progress (refine Keeps.mk rfl rfl rfl rfl rfl rfl rfl ?_)

theorem State.countDenied_keeps (h : Keeps u0 q0 s) : Keeps u0 q0 (State.countDenied s) := by
  unfold State.countDenied
  try dsimp only
  with_reducible repeat' first
    | exact h | fail_if_no_progress (refine Keeps.mk rfl rfl rfl rfl rfl rfl rfl ?_)

theorem State.discardIn_keeps (h : Keeps u0 q0 s) (c : Nat) : Keeps u0 q0 (State.discardIn c s) := by
  unfold State.discardIn
  try dsimp only
  with_reducible repeat' first
    | exact h | apply State.setChan_keeps | fail_if_no_progress (refine Keeps.mk rfl rfl rfl rfl rfl rfl rfl ?_) | apply Keeps.ite

theorem State.domainError_keeps (h : Keeps u0 q0 s) (p : Path) : Keeps u0 q0 (State.domainError p s) := by
  unfold State.domainError
  try dsimp only
  with_reducible repeat' first
    | exact h | fail_if_no_progress (refine Keeps.mk rfl rfl rfl rfl rfl rfl rfl ?_) | assumption | dsimp only | split

theorem State.returned_keeps (h : Keeps u0 q0 s) (p : Path) (ws : List Word) : Keeps u0 q0 (State.returned p ws s) := by
  unfold State.returned
  try dsimp only
  with_reducible repeat' first
    | exact h | fail_if_no_progress (refine Keeps.mk rfl rfl rfl rfl rfl rfl rfl ?_)

theorem State.setLock_keeps (h : Keeps u0 q0 s) (k : Nat) (req : Nat) : Keeps u0 q0 (State.setLock k req s) := by
  unfold State.setLock
  try dsimp only
  with_reducible repeat' first
    | exact h | fail_if_no_progress (refine Keeps.mk rfl rfl rfl rfl rfl rfl rfl ?_)

theorem State.lockRead_keeps (h : Keeps u0 q0 s) (k : Nat) (a : LockAccess) : Keeps u0 q0 (State.lockRead k a s) := by
  unfold State.lockRead
  try dsimp only
  with_reducible repeat' first
    | exact h | apply State.countDenied_keeps | apply State.returned_keeps | apply State.setLock_keeps | apply Keeps.ite

theorem State.popWord_keeps (h : Keeps u0 q0 s) (c : Nat) : Keeps u0 q0 (State.popWord c s).2 := by
  unfold State.popWord
  try dsimp only
  with_reducible repeat' first
    | exact h | apply State.setChan_keeps | fail_if_no_progress (refine Keeps.mk rfl rfl rfl rfl rfl rfl rfl ?_) | intro _ _ h | intro _ h
    | assumption | dsimp only | split

theorem State.popWords_keeps (h : Keeps u0 q0 s) (c n : Nat) : Keeps u0 q0 (State.popWords c n s).2 := by
  induction n generalizing s with
  | zero => exact h
  | succ n ih => exact ih (State.popWord_keeps h _)

theorem State.mbOutEffect_keeps (h : Keeps u0 q0 s) (p : Path) (c : Nat) (first : Nat) (n : Nat) (whole : Bool) : Keeps u0 q0 (State.mbOutEffect p c first n whole s) := by
  unfold State.mbOutEffect
  try dsimp only
  with_reducible repeat' first
    | exact h | apply State.popWords_keeps | apply State.setChan_keeps | apply State.returned_keeps
    | fail_if_no_progress (refine Keeps.mk rfl rfl rfl rfl rfl rfl rfl ?_) | apply Keeps.ite

theorem State.readWide3_keeps (h : Keeps u0 q0 s) (p : Path) : Keeps u0 q0 (State.readWide3 p s) := by
  unfold State.readWide3
  try dsimp only
  with_reducible repeat' first
    | exact h | apply State.setWide_keeps | apply State.returned_keeps | fail_if_no_progress (refine Keeps.mk rfl rfl rfl rfl rfl rfl rfl ?_)
    | intro _ _ h | intro _ h | assumption | dsimp only | split

theorem State.mbAccess_keeps (h : Keeps u0 q0 s) (p : Path) (c : Nat) (effect : State → State) (hf : ∀ t, Keeps u0 q0 t → Keeps u0 q0 (effect t)) : Keeps u0 q0 (State.mbAccess p c effect s) := by
  unfold State.mbAccess
  try dsimp only
  with_reducible repeat' first
    | exact h | apply State.countDenied_keeps | apply State.domainError_keeps | exact hf _ h | apply Keeps.ite

theorem State.mbReadAccess_keeps (h : Keeps u0 q0 s) (p : Path) (c : Nat) (effect : State → State) (hf : ∀ t, Keeps u0 q0 t → Keeps u0 q0 (effect t)) : Keeps u0 q0 (State.mbReadAccess p c effect s) := by
  unfold State.mbReadAccess
  try dsimp only
  with_reducible repeat' first
    | exact h | apply State.returned_keeps | apply State.mbAccess_keeps | exact hf

theorem State.pushWord_keeps (h : Keeps u0 q0 s) (c : Nat) (w : Word) : Keeps u0 q0 (State.pushWord c w s) := by
  unfold State.pushWord
  try dsimp only
  with_reducible repeat' first
    | exact h | apply State.setChan_keeps | apply State.ringH2d_keeps | fail_if_no_progress (refine Keeps.mk rfl rfl rfl rfl rfl rfl rfl ?_)
    | apply Keeps.ite

theorem State.mbInEffect_keeps (h : Keeps u0 q0 s) (c : Nat) (first : Nat) (ws : List Word) (whole : Bool) : Keeps u0 q0 (State.mbInEffect c first ws whole s) := by
  unfold State.mbInEffect
  try dsimp only
  with_reducible repeat' first
    | exact h | apply State.setChan_keeps | apply State.pushWord_keeps | fail_if_no_progress (refine Keeps.mk rfl rfl rfl rfl rfl rfl rfl ?_)
    | apply Keeps.foldl | apply Keeps.ite | intro _ _ h

theorem State.writeDbH2d_keeps (h : Keeps u0 q0 s) (w : Word) : Keeps u0 q0 (State.writeDbH2d w s) := by
  unfold State.writeDbH2d
  try dsimp only
  with_reducible repeat' first
    | exact h | fail_if_no_progress (refine Keeps.mk rfl rfl rfl rfl rfl rfl rfl ?_)

theorem State.selectWide_keeps (h : Keeps u0 q0 s) (p : Path) (index : Nat) : Keeps u0 q0 (State.selectWide p index s) := by
  unfold State.selectWide
  try dsimp only
  with_reducible repeat' first
    | exact h | apply State.setWide_keeps | fail_if_no_progress (refine Keeps.mk rfl rfl rfl rfl rfl rfl rfl ?_) | intro _ _ h | intro _ h
    | assumption | dsimp only | split

theorem State.lockWrite_keeps (h : Keeps u0 q0 s) (k : Nat) (a : LockAccess) (w : Word) : Keeps u0 q0 (State.lockWrite k a w s) := by
  unfold State.lockWrite
  try dsimp only
  with_reducible repeat' first
    | exact h | apply State.countDenied_keeps | apply State.setLock_keeps | fail_if_no_progress (refine Keeps.mk rfl rfl rfl rfl rfl rfl rfl ?_)
    | apply Keeps.ite

theorem State.lockCycle_keeps (h : Keeps u0 q0 s) (k : Nat) (reads : List LockAccess) (writes : List (LockAccess × Word)) : Keeps u0 q0 (State.lockCycle k reads writes s) := by
  unfold State.lockCycle
  try dsimp only
  with_reducible repeat' first
    | exact h | apply State.lockRead_keeps | apply State.lockWrite_keeps | apply Keeps.foldl | intro _ _ h

theorem execMbSleep_keeps (h : Keeps u0 q0 s) : ResKeeps u0 q0 (execMbSleep s) := by
  unfold execMbSleep
  try dsimp only
  with_reducible repeat' first
    | exact h | fail_if_no_progress (refine Keeps.mk rfl rfl rfl rfl rfl rfl rfl ?_) | apply ResKeeps.next | apply ResKeeps.ite

theorem execLockWrite_keeps (h : Keeps u0 q0 s) (k : Fin 32) (a : LockAccess) (w : Word) : ResKeeps u0 q0 (execLockWrite k a w s) := by
  unfold execLockWrite
  try dsimp only
  with_reducible repeat' first
    | exact h | apply State.lockWrite_keeps | apply ResKeeps.next

theorem execMbInWrite_keeps (h : Keeps u0 q0 s) (p : Path) (c : Fin 8) (first : Fin 16) (ws : List Word) (whole : Bool) : ResKeeps u0 q0 (execMbInWrite p c first ws whole s) := by
  unfold execMbInWrite
  try dsimp only
  with_reducible repeat' first
    | exact h | apply State.mbInEffect_keeps | apply State.mbAccess_keeps | apply ResKeeps.next | intro _ _ h | intro _ h

theorem execLockRead_keeps (h : Keeps u0 q0 s) (k : Fin 32) (reads : List LockAccess) (writes : List (LockAccess × Word)) : ResKeeps u0 q0 (execLockRead k reads writes s) := by
  unfold execLockRead
  try dsimp only
  with_reducible repeat' first
    | exact h | apply State.lockCycle_keeps | apply ResKeeps.next

theorem execMsixHoldoffEnd_keeps (h : Keeps u0 q0 s) (v : Fin 32) : ResKeeps u0 q0 (execMsixHoldoffEnd v s) := by
  unfold execMsixHoldoffEnd
  try dsimp only
  with_reducible repeat' first
    | exact h | apply State.untilUp_keeps | apply State.msixSend_keeps | fail_if_no_progress (refine Keeps.mk rfl rfl rfl rfl rfl rfl rfl ?_)
    | apply ResKeeps.next | apply ResKeeps.ite | apply Keeps.ite

theorem execMbOutRead_keeps (h : Keeps u0 q0 s) (p : Path) (c : Fin 8) (first : Fin 17) (n : Fin 17) (whole : Bool) : ResKeeps u0 q0 (execMbOutRead p c first n whole s) := by
  unfold execMbOutRead
  try dsimp only
  with_reducible repeat' first
    | exact h | apply State.mbOutEffect_keeps | apply State.mbReadAccess_keeps | apply ResKeeps.next | intro _ _ h | intro _ h

theorem execHintEnableSet_keeps (h : Keeps u0 q0 s) (p : Path) (w : Word) : ResKeeps u0 q0 (execHintEnableSet p w s) := by
  unfold execHintEnableSet
  try dsimp only
  with_reducible repeat' first
    | exact h | apply State.writeHintCfg_keeps | apply ResKeeps.next

theorem execDbD2hClear_keeps (h : Keeps u0 q0 s) (w : Word) : ResKeeps u0 q0 (execDbD2hClear w s) := by
  unfold execDbD2hClear
  try dsimp only
  with_reducible repeat' first
    | exact h | apply State.setDoorbells_keeps | apply ResKeeps.next

theorem execWideData3Read_keeps (h : Keeps u0 q0 s) (p : Path) : ResKeeps u0 q0 (execWideData3Read p s) := by
  unfold execWideData3Read
  try dsimp only
  with_reducible repeat' first
    | exact h | apply State.readWide3_keeps | apply ResKeeps.next

theorem execAliasWrite_keeps (h : Keeps u0 q0 s) (ws : List AliasAccess) : ResKeeps u0 q0 (execAliasWrite ws s) := by
  unfold execAliasWrite
  try dsimp only
  with_reducible repeat' first
    | exact h | apply State.aliasWrite_keeps | apply Keeps.foldl | apply ResKeeps.next | intro _ _ h

theorem execWideCaptureDone_keeps (h : Keeps u0 q0 s) (p : Path) : ResKeeps u0 q0 (execWideCaptureDone p s) := by
  unfold execWideCaptureDone
  try dsimp only
  with_reducible repeat' first
    | exact h | apply State.setWide_keeps | apply ResKeeps.next | apply ResKeeps.ite | apply Keeps.ite | intro _ _ h | intro _ h | assumption
    | dsimp only | split

theorem execMbStallTimeout_keeps (h : Keeps u0 q0 s) (c : Fin 8) : ResKeeps u0 q0 (execMbStallTimeout c s) := by
  unfold execMbStallTimeout
  try dsimp only
  with_reducible repeat' first
    | exact h | apply State.ring_keeps | apply State.untilUp_keeps | apply State.setChan_keeps | apply State.ringH2d_keeps | apply State.report_keeps
    | fail_if_no_progress (refine Keeps.mk rfl rfl rfl rfl rfl rfl rfl ?_) | apply ResKeeps.next | intro _ _ h | intro _ h | assumption | dsimp only
    | split

theorem execDbD2hMaskWrite_keeps (h : Keeps u0 q0 s) (w : Word) : ResKeeps u0 q0 (execDbD2hMaskWrite w s) := by
  unfold execDbD2hMaskWrite
  try dsimp only
  with_reducible repeat' first
    | exact h | apply State.setDoorbells_keeps | apply ResKeeps.next

theorem execMbInDiscard_keeps (h : Keeps u0 q0 s) (p : Path) (c : Fin 8) : ResKeeps u0 q0 (execMbInDiscard p c s) := by
  unfold execMbInDiscard
  try dsimp only
  with_reducible repeat' first
    | exact h | apply State.mbAccess_keeps | apply State.discardIn_keeps | apply ResKeeps.next | intro _ _ h | intro _ h

theorem execMailboxWake_keeps (h : Keeps u0 q0 s) (w : Word) : ResKeeps u0 q0 (execMailboxWake w s) := by
  unfold execMailboxWake
  try dsimp only
  with_reducible repeat' first
    | exact h | apply State.writeDbH2d_keeps | fail_if_no_progress (refine Keeps.mk rfl rfl rfl rfl rfl rfl rfl ?_) | apply ResKeeps.next
    | apply ResKeeps.ite

theorem execWideSelWrite_keeps (h : Keeps u0 q0 s) (p : Path) (index : Fin 256) : ResKeeps u0 q0 (execWideSelWrite p index s) := by
  unfold execWideSelWrite
  try dsimp only
  with_reducible repeat' first
    | exact h | apply State.selectWide_keeps | apply ResKeeps.next

theorem State.endSurveyOp_keeps (h : Keeps u0 q0 s) : Keeps u0 q0 (State.endSurveyOp s) := by
  unfold State.endSurveyOp
  try dsimp only
  with_reducible repeat' first
    | exact h | apply State.finishLong_keeps | fail_if_no_progress (refine Keeps.mk rfl rfl rfl rfl rfl rfl rfl ?_) | apply Keeps.ite | assumption
    | dsimp only | split

theorem State.probeStopped_keeps (h : Keeps u0 q0 s) : Keeps u0 q0 (State.probeStopped s) := by
  unfold State.probeStopped
  try dsimp only
  with_reducible repeat' first
    | exact h | apply State.endSurveyOp_keeps | apply State.cutGap_keeps | apply State.summarise_keeps | apply State.dropAllChanges_keeps
    | fail_if_no_progress (refine Keeps.mk rfl rfl rfl rfl rfl rfl rfl ?_)

theorem State.stopIfReached_keeps (h : Keeps u0 q0 s) : Keeps u0 q0 (State.stopIfReached s) := by
  unfold State.stopIfReached
  try dsimp only
  with_reducible repeat' first
    | exact h | apply State.probeStopped_keeps | apply Keeps.ite | assumption | dsimp only | split

theorem State.stopAt_keeps (h : Keeps u0 q0 s) (e : Nat) : Keeps u0 q0 (State.stopAt e s) := by
  unfold State.stopAt
  try dsimp only
  with_reducible repeat' first
    | exact h | apply State.stopIfReached_keeps | fail_if_no_progress (refine Keeps.mk rfl rfl rfl rfl rfl rfl rfl ?_)

theorem State.afterFade_keeps (h : Keeps u0 q0 s) : Keeps u0 q0 (State.afterFade s) := by
  unfold State.afterFade
  try dsimp only
  with_reducible repeat' first
    | exact h | apply State.stopAt_keeps | apply State.probeStopped_keeps | apply Keeps.ite

theorem State.beginShutdown_keeps (h : Keeps u0 q0 s) (op : LongOp) : Keeps u0 q0 (State.beginShutdown op s) := by
  unfold State.beginShutdown
  try dsimp only
  with_reducible repeat' first
    | exact h | apply State.afterFade_keeps | apply State.progress_keeps | fail_if_no_progress (refine Keeps.mk rfl rfl rfl rfl rfl rfl rfl ?_)
    | apply Keeps.ite

theorem State.endLong_keeps (h : Keeps u0 q0 s) (e : Err) (items : List Word) : Keeps u0 q0 (State.endLong e items s) := by
  unfold State.endLong
  try dsimp only
  with_reducible repeat' first
    | exact h | apply State.finishLong_keeps | apply State.beginShutdown_keeps | intro _ _ h | intro _ h | assumption | dsimp only | split

theorem State.endForShutdown_keeps (h : Keeps u0 q0 s) : Keeps u0 q0 (State.endForShutdown s) := by
  unfold State.endForShutdown
  try dsimp only
  with_reducible repeat' first
    | exact h | apply State.endModeSet_keeps | apply State.endSurveyOp_keeps

theorem State.withHearth_keeps (h : Keeps u0 q0 s) (hX0 : Hearth) : Keeps u0 q0 (State.withHearth hX0 s) := by
  unfold State.withHearth
  try dsimp only
  with_reducible repeat' first
    | exact h | fail_if_no_progress (refine Keeps.mk rfl rfl rfl rfl rfl rfl rfl ?_)

theorem State.setpointsDue_keeps (h : Keeps u0 q0 s) : Keeps u0 q0 (State.setpointsDue s) := by
  unfold State.setpointsDue
  try dsimp only
  with_reducible repeat' first
    | exact h | apply State.withHearth_keeps

theorem State.applyGainSet_keeps (h : Keeps u0 q0 s) (leg : Nat) (n : Nat) (p : Stamped) : Keeps u0 q0 (State.applyGainSet leg n p s) := by
  unfold State.applyGainSet
  try dsimp only
  with_reducible repeat' first
    | exact h | apply State.setThrLeg_keeps

theorem State.requestDirect_keeps (h : Keeps u0 q0 s) (leg k : Nat) (ws : List Word) : Keeps u0 q0 (State.requestDirect leg k ws s) := by
  unfold State.requestDirect
  exact State.setThrLeg_keeps h _ _

theorem State.applyReplayStart_keeps (h : Keeps u0 q0 s) (leg : Nat) : Keeps u0 q0 (State.applyReplayStart leg s) := by
  unfold State.applyReplayStart
  try dsimp only
  with_reducible repeat' first
    | exact h | apply State.setHall_keeps

theorem State.applyReplayStop_keeps (h : Keeps u0 q0 s) (leg : Nat) : Keeps u0 q0 (State.applyReplayStop leg s) := by
  unfold State.applyReplayStop
  try dsimp only
  with_reducible repeat' first
    | exact h | apply State.setHall_keeps

theorem State.ramanStartAt_keeps (h : Keeps u0 q0 s) (leg : Nat) (gframe : Nat) (trace : Nat) : Keeps u0 q0 (State.ramanStartAt leg gframe trace s) := by
  unfold State.ramanStartAt
  try dsimp only
  with_reducible repeat' first
    | exact h | apply State.setHall_keeps | fail_if_no_progress (refine Keeps.mk rfl rfl rfl rfl rfl rfl rfl ?_)

theorem State.ramanStop_keeps (h : Keeps u0 q0 s) (leg : Nat) : Keeps u0 q0 (State.ramanStop leg s) := by
  unfold State.ramanStop
  try dsimp only
  with_reducible repeat' first
    | exact h | apply State.setHall_keeps | fail_if_no_progress (refine Keeps.mk rfl rfl rfl rfl rfl rfl rfl ?_)

theorem State.applyTempSet_keeps (h : Keeps u0 q0 s) (leg : Nat) (k : Nat) (p : Stamped) : Keeps u0 q0 (State.applyTempSet leg k p s) := by
  unfold State.applyTempSet
  try dsimp only
  with_reducible repeat' first
    | exact h | apply State.requestDirect_keeps | apply State.ramanStartAt_keeps | apply State.ramanStop_keeps | apply State.setHall_keeps
    | fail_if_no_progress (refine Keeps.mk rfl rfl rfl rfl rfl rfl rfl ?_) | apply Keeps.ite

theorem State.frameChanges_keeps (h : Keeps u0 q0 s) (leg : Nat) (k : Nat) (n : Nat) : Keeps u0 q0 (State.frameChanges leg k n s) := by
  unfold State.frameChanges
  try dsimp only
  with_reducible repeat' first
    | exact h | apply State.applyDue_keeps | apply State.ramanStartAt_keeps | apply State.applyTempSet_keeps | apply State.applyGainSet_keeps
    | apply State.applyTempCal_keeps | apply State.setHall_keeps | fail_if_no_progress (refine Keeps.mk rfl rfl rfl rfl rfl rfl rfl ?_)
    | apply Keeps.ite | intro _ _ h

theorem State.judgeGate_keeps (h : Keeps u0 q0 s) (leg : Nat) (isOpen : Bool) (isShort : Bool) : Keeps u0 q0 (State.judgeGate leg isOpen isShort s) := by
  unfold State.judgeGate
  try dsimp only
  with_reducible repeat' first
    | exact h | apply State.reportAll_keeps | fail_if_no_progress (refine Keeps.mk rfl rfl rfl rfl rfl rfl rfl ?_)

theorem State.numberTrace_keeps (h : Keeps u0 q0 s) (leg : Nat) (k : Nat) (j : Nat) (slot : Nat) (n : Nat) (stamp : Nat) (boundary : Nat) (late : Bool) (replay : Bool) (tach : Vector Nat 8) : Keeps u0 q0 (State.numberTrace leg k j slot n stamp boundary late replay tach s) := by
  unfold State.numberTrace
  try dsimp only
  with_reducible repeat' first
    | exact h | apply State.setHall_keeps | fail_if_no_progress (refine Keeps.mk rfl rfl rfl rfl rfl rfl rfl ?_) | apply Keeps.ite

theorem State.playout_keeps (h : Keeps u0 q0 s) (leg : Nat) (k : Nat) (j : Nat) (slot : Nat) (stamp : Nat) (late : Bool) : Keeps u0 q0 (State.playout leg k j slot stamp late s) := by
  unfold State.playout
  try dsimp only
  with_reducible repeat' first
    | exact h | fail_if_no_progress (refine Keeps.mk rfl rfl rfl rfl rfl rfl rfl ?_)

theorem State.replaySwitch_keeps (h : Keeps u0 q0 s) (leg : Nat) (gframe : Nat) : Keeps u0 q0 (State.replaySwitch leg gframe s) := by
  unfold State.replaySwitch
  try dsimp only
  with_reducible repeat' first
    | exact h | apply State.applyReplayStart_keeps | apply State.applyDue_keeps | apply State.applyReplayStop_keeps | apply Keeps.ite | intro _ _ h

theorem execLaunch_keeps (h : Keeps u0 q0 s) (leg : Fin 2) (slot : Fin 8) (late : Bool) (gateOpen : Bool) (gateShort : Bool) : ResKeeps u0 q0 (execLaunch leg slot late gateOpen gateShort s) := by
  unfold execLaunch
  try dsimp only
  with_reducible repeat' first
    | exact h | apply State.frameChanges_keeps | apply State.judgeGate_keeps | apply State.numberTrace_keeps | apply State.playout_keeps
    | apply State.report_keeps | apply State.stopIfReached_keeps | apply State.setpointsDue_keeps | apply State.replaySwitch_keeps
    | apply State.untilTime_keeps | apply ResKeeps.next | apply ResKeeps.ite | apply Keeps.ite | intro _ _ h | intro _ h | assumption | dsimp only
    | split

theorem State.moveZone_keeps (h : Keeps u0 q0 s) (z : Nat) (word : Word) (bytes : List Byte) : Keeps u0 q0 (State.moveZone z word bytes s) := by
  unfold State.moveZone
  try dsimp only
  with_reducible repeat' first
    | exact h | apply State.setZone_keeps | apply State.withLoft_keeps | apply State.putPage_keeps
    | fail_if_no_progress (refine Keeps.mk rfl rfl rfl rfl rfl rfl rfl ?_) | apply Keeps.landing (u0 := u0) (q0 := q0) | apply Loft.write_wf

theorem State.repack_keeps (h : Keeps u0 q0 s) (z : Nat) (w : ZoneWant) : Keeps u0 q0 (State.repack s z w).1 := by
  unfold State.repack
  extract_lets l tabs hold wants zones clear put r
  have h1 : Keeps u0 q0 clear := State.withLoft_keeps h _ (Mem.wf_clearRange h.landing)
  have h2 : Keeps u0 q0 put.1 := by
    apply Keeps.foldlFst h1
    intro t a ht
    split
    · exact State.withLoft_keeps ht _ (Loft.write_wf ht.landing)
    · exact ht
  refine Keeps.foldlFst (x := (put.1, put.2, 0)) h2 ?_
  intro t e ht
  exact State.moveZone_keeps ht _ _ _

theorem State.placePages_keeps (h : Keeps u0 q0 s) (z : Nat) (w : ZoneWant) : Keeps u0 q0 (State.placePages s z w).1 := by
  unfold State.placePages
  try dsimp only
  with_reducible repeat' first
    | exact h | apply State.repack_keeps | apply Keeps.ite | assumption | dsimp only | split

theorem State.armTokens_keeps (h : Keeps u0 q0 s) (mask : Nat) (time : Nat) : Keeps u0 q0 (State.armTokens mask time s) := by
  unfold State.armTokens
  try dsimp only
  with_reducible repeat' first
    | exact h | apply State.cwSend_keeps | apply State.armGroup_keeps | apply Keeps.foldl | apply Keeps.ite | intro _ _ h

theorem State.settleHeld_keeps (h : Keeps u0 q0 s) : Keeps u0 q0 (State.settleHeld s) := by
  unfold State.settleHeld
  try dsimp only
  with_reducible repeat' first
    | exact h | apply State.dropChange_keeps | apply State.armTokens_keeps | fail_if_no_progress (refine Keeps.mk rfl rfl rfl rfl rfl rfl rfl ?_)
    | apply Keeps.foldl | apply Keeps.ite | intro _ _ h | intro _ h | assumption | dsimp only | split

theorem State.stampOn_keeps (h : Keeps u0 q0 s) (leg : Nat) (c : Cmd) (at_ : Option (Nat × Nat)) (words : List Word) (bulk : List Byte) (also : Bool) : Keeps u0 q0 (State.stampOn leg c at_ words bulk also s) := by
  unfold State.stampOn
  try dsimp only
  with_reducible repeat' first
    | exact h | apply State.settleHeld_keeps | apply State.summarise_keeps | fail_if_no_progress (refine Keeps.mk rfl rfl rfl rfl rfl rfl rfl ?_)
    | apply Keeps.ite

theorem State.stamp_keeps (h : Keeps u0 q0 s) (c : Cmd) (at_ : Option (Nat × Nat)) (words : List Word) (bulk : List Byte) (also : Bool) : Keeps u0 q0 (State.stamp c at_ words bulk also s) := by
  unfold State.stamp
  try dsimp only
  with_reducible repeat' first
    | exact h | apply State.stampOn_keeps

theorem State.popHead_keeps (h : Keeps u0 q0 s) (c : Nat) : Keeps u0 q0 (State.popHead c s) := by
  unfold State.popHead
  try dsimp only
  with_reducible repeat' first
    | exact h | fail_if_no_progress (refine Keeps.mk rfl rfl rfl rfl rfl rfl rfl ?_)

theorem State.settle_keeps (h : Keeps u0 q0 s) (c n : Nat) : Keeps u0 q0 (State.settle c n s) := by
  induction n generalizing s with
  | zero => exact h
  | succ n ih =>
    unfold State.settle
    split
    · exact h
    · split
      · exact h
      · exact ih (State.reply_keeps (State.popHead_keeps h _) _ _ _ _ _ _ _ _)

theorem State.settleAll_keeps (h : Keeps u0 q0 s) (c : Nat) : Keeps u0 q0 (State.settleAll c s) := by
  unfold State.settleAll
  try dsimp only
  with_reducible repeat' first
    | exact h | apply State.settle_keeps

theorem State.refuse_keeps (h : Keeps u0 q0 s) (c : Nat) (r : Request) (e : Err) : Keeps u0 q0 (State.refuse c r e s) := by
  unfold State.refuse
  try dsimp only
  with_reducible repeat' first
    | exact h | apply State.reply_keeps | apply State.settleAll_keeps | apply State.popHead_keeps
    | fail_if_no_progress (refine Keeps.mk rfl rfl rfl rfl rfl rfl rfl ?_) | apply Keeps.ite

theorem State.conclude_keeps (h : Keeps u0 q0 s) (c : Nat) (r : Request) (index : Nat) (x : Reply) (hx : ReplyKeeps u0 q0 x) : Keeps u0 q0 (State.conclude c r index s x) := by
  cases x with
  | refuse e => exact State.refuse_keeps h _ _ _
  | refuseWith e t => exact State.refuse_keeps (show Keeps u0 q0 t from hx) _ _ _
  | done items t => exact State.settleAll_keeps (State.reply_keeps (State.popHead_keeps (show Keeps u0 q0 t from hx) _) _ _ _ _ _ _ _ _) _
  | later t => exact State.settleAll_keeps (State.popHead_keeps (show Keeps u0 q0 t from hx) _) _

theorem State.perform_keeps (h : Keeps u0 q0 s) (sp : Spec) (c : Nat) (r : Request) (bulk : List Byte) (index : Cmd → Nat) (body : Cmd → State → Reply) (hb : ∀ cmd t, Keeps u0 q0 t → ReplyKeeps u0 q0 (body cmd t)) : Keeps u0 q0 (State.perform sp c r bulk index body s) := by
  unfold State.perform
  dsimp only
  apply State.conclude_keeps h
  split
  · exact ReplyKeeps.no
  · exact hb _ _ h

theorem State.command_keeps (h : Keeps u0 q0 s) (sp : Spec) (c : Nat) (index : Cmd → Nat) (body : Cmd → State → Reply) (hb : ∀ cmd t, Keeps u0 q0 t → ReplyKeeps u0 q0 (body cmd t)) : ResKeeps u0 q0 (State.command sp c index body s) := by
  unfold State.command
  try dsimp only
  with_reducible repeat' first
    | exact h | apply State.refuse_keeps | apply State.perform_keeps | exact hb | fail_if_no_progress (refine Keeps.mk rfl rfl rfl rfl rfl rfl rfl ?_)
    | apply ResKeeps.next | exact ReplyKeeps.refuse | apply ResKeeps.ite | apply ReplyKeeps.ite | apply Keeps.ite | intro _ _ h | intro _ h
    | assumption | dsimp only | split

theorem State.startLong_keeps (h : Keeps u0 q0 s) (c : Cmd) (lock : Option Nat) (unit : Nat) : Keeps u0 q0 (State.startLong c lock unit s) := by
  unfold State.startLong
  try dsimp only
  with_reducible repeat' first
    | exact h | apply State.progress_keeps | fail_if_no_progress (refine Keeps.mk rfl rfl rfl rfl rfl rfl rfl ?_)

theorem State.stamped_keeps (h : Keeps u0 q0 s) (c : Cmd) (ok : Nat → Bool) (words : List Word) (bulk : List Byte) (rest : Option (Nat × Nat) → List Word) : ReplyKeeps u0 q0 (State.stamped s c ok words bulk rest) := by
  unfold State.stamped
  try dsimp only
  with_reducible repeat' first
    | exact h | apply State.stamp_keeps | exact ReplyKeeps.no | apply ReplyKeeps.done | exact ReplyKeeps.refuse | apply ReplyKeeps.ite
    | apply Keeps.ite | assumption | dsimp only | split

theorem State.takeLock_keeps (h : Keeps u0 q0 s) (w : Word) : ∀ t, State.takeLock w s = .ok t → Keeps u0 q0 t.1 := by
  intro t ht
  unfold State.takeLock at ht
  dsimp only at ht
  split at ht
  · cases ht; exact h
  · split at ht
    · cases ht
    · cases ht; exact State.setLock_keeps h _ _

theorem execPlanCheck_keeps (h : Keeps u0 q0 s) (c : Fin 9) : ResKeeps u0 q0 (execPlanCheck c s) := by
  unfold execPlanCheck
  try dsimp only
  with_reducible repeat' first
    | exact h | apply State.command_keeps | fail_if_no_progress (refine Keeps.mk rfl rfl rfl rfl rfl rfl rfl ?_) | apply ReplyKeeps.done
    | exact ReplyKeeps.refuse | intro _ _ h | intro _ h | assumption | dsimp only | split

theorem execPlanSuggest_keeps (h : Keeps u0 q0 s) (c : Fin 9) : ResKeeps u0 q0 (execPlanSuggest c s) := by
  unfold execPlanSuggest
  try dsimp only
  with_reducible repeat' first
    | exact h | apply State.command_keeps | fail_if_no_progress (refine Keeps.mk rfl rfl rfl rfl rfl rfl rfl ?_) | exact ReplyKeeps.no
    | apply ReplyKeeps.done | apply ResKeeps.ite | apply ReplyKeeps.ite | apply Keeps.ite | intro _ _ h | intro _ h | assumption | dsimp only | split

end Sys2Proof.Machine
end

