-- ==== Sys2Proof/Laws/KeepsRooms.lean ====
section
/-! SUPPORT. One lemma per operation of the Hearth, the Threshold, the chains, the time base and the start of a plan: it keeps what `Keeps` says. -/

namespace Sys2Proof.Machine

variable {u0 : Nat} {q0 : List Instr} {s : State}

theorem State.withEth_keeps (h : Keeps u0 q0 s) (e : Eth) : Keeps u0 q0 (State.withEth e s) := by
  unfold State.withEth
  try dsimp only
  with_reducible repeat' first
    | exact h | fail_if_no_progress (refine Keeps.mk rfl rfl rfl rfl rfl rfl rfl ?_)

theorem State.setChain_keeps (h : Keeps u0 q0 s) (leg : Nat) (c : Chain) : Keeps u0 q0 (State.setChain leg c s) := by
  unfold State.setChain
  try dsimp only
  with_reducible repeat' first
    | exact h | apply State.setHall_keeps

theorem State.applyChainReset_keeps (h : Keeps u0 q0 s) (leg : Nat) : Keeps u0 q0 (State.applyChainReset leg s) := by
  unfold State.applyChainReset
  try dsimp only
  with_reducible repeat' first
    | exact h | apply State.setChain_keeps | apply Keeps.ite

theorem State.applyChainSet_keeps (h : Keeps u0 q0 s) (x : Merged) (p : Stamped) : Keeps u0 q0 (State.applyChainSet x p s) := by
  unfold State.applyChainSet
  try dsimp only
  with_reducible repeat' first
    | exact h | apply State.setChain_keeps | apply State.abandonFade_keeps | fail_if_no_progress (refine Keeps.mk rfl rfl rfl rfl rfl rfl rfl ?_)
    | apply Keeps.ite

theorem State.resetChain_keeps (h : Keeps u0 q0 s) (leg : Nat) (cause : Nat) (x : Merged) : Keeps u0 q0 (State.resetChain leg cause x s) := by
  unfold State.resetChain
  try dsimp only
  with_reducible repeat' first
    | exact h | apply State.setChain_keeps | apply State.abandonFade_keeps | apply State.emitAt_keeps

theorem State.holdChain_keeps (h : Keeps u0 q0 s) (leg : Nat) : Keeps u0 q0 (State.holdChain leg s) := by
  unfold State.holdChain
  try dsimp only
  with_reducible repeat' first
    | exact h | apply State.setChain_keeps | apply State.abandonFade_keeps

theorem State.prepareChain_keeps (h : Keeps u0 q0 s) (leg : Nat) (x : Merged) : Keeps u0 q0 (State.prepareChain leg x s) := by
  unfold State.prepareChain
  try dsimp only
  with_reducible repeat' first
    | exact h | apply State.resetChain_keeps | apply State.applyChainSet_keeps | apply State.applyDue_keeps | apply State.applyChainReset_keeps
    | apply State.setChain_keeps | apply State.holdChain_keeps | fail_if_no_progress (refine Keeps.mk rfl rfl rfl rfl rfl rfl rfl ?_)
    | apply Keeps.ite | intro _ _ h | intro _ h | assumption | dsimp only | split

theorem State.endFade_keeps (h : Keeps u0 q0 s) (leg : Nat) : Keeps u0 q0 (State.endFade leg s) := by
  unfold State.endFade
  try dsimp only
  with_reducible repeat' first
    | exact h | apply State.setChain_keeps | apply State.emitAt_keeps | fail_if_no_progress (refine Keeps.mk rfl rfl rfl rfl rfl rfl rfl ?_)
    | apply Keeps.ite | intro _ _ h | intro _ h | assumption | dsimp only | split

theorem State.chainTrace_keeps (h : Keeps u0 q0 s) (leg : Nat) (x : Merged) : Keeps u0 q0 (State.chainTrace leg x s) := by
  unfold State.chainTrace
  try dsimp only
  with_reducible repeat' first
    | exact h | apply State.prepareChain_keeps | apply State.setChain_keeps | apply State.holdChain_keeps | apply State.endFade_keeps
    | fail_if_no_progress (refine Keeps.mk rfl rfl rfl rfl rfl rfl rfl ?_) | apply Keeps.ite | intro _ _ h | intro _ h | assumption | dsimp only
    | split

theorem execSynchronisingReset_keeps (h : Keeps u0 q0 s) (leg : Fin 2) : ResKeeps u0 q0 (execSynchronisingReset leg s) := by
  unfold execSynchronisingReset
  try dsimp only
  with_reducible repeat' first
    | exact h | apply State.prepareChain_keeps | apply ResKeeps.next | apply ResKeeps.ite | apply Keeps.ite | assumption | dsimp only | split

theorem execChainTrace_keeps (h : Keeps u0 q0 s) (leg : Fin 2) : ResKeeps u0 q0 (execChainTrace leg s) := by
  unfold execChainTrace
  try dsimp only
  with_reducible repeat' first
    | exact h | apply State.chainTrace_keeps | apply ResKeeps.next | apply ResKeeps.ite | apply Keeps.ite | assumption | dsimp only | split

theorem State.keepAltered_keeps (h : Keeps u0 q0 s) (flag : Bool) : Keeps u0 q0 (State.keepAltered flag s) := by
  unfold State.keepAltered
  try dsimp only
  with_reducible repeat' first
    | exact h | fail_if_no_progress (refine Keeps.mk rfl rfl rfl rfl rfl rfl rfl ?_) | apply Keeps.ite

theorem State.beginFadeIn_keeps (h : Keeps u0 q0 s) : Keeps u0 q0 (State.beginFadeIn s) := by
  unfold State.beginFadeIn
  try dsimp only
  with_reducible repeat' first
    | exact h | fail_if_no_progress (refine Keeps.mk rfl rfl rfl rfl rfl rfl rfl ?_)

theorem State.afterTec_keeps (h : Keeps u0 q0 s) : Keeps u0 q0 (State.afterTec s) := by
  unfold State.afterTec
  try dsimp only
  with_reducible repeat' first
    | exact h | apply State.beginFadeIn_keeps | apply Keeps.ite

theorem State.setpoint_keeps (h : Keeps u0 q0 s) (ch : Nat) (w : Word) : Keeps u0 q0 (State.setpoint ch w s) := by
  unfold State.setpoint
  try dsimp only
  with_reducible repeat' first
    | exact h | apply State.withHearth_keeps | fail_if_no_progress (refine Keeps.mk rfl rfl rfl rfl rfl rfl rfl ?_) | apply Keeps.ite

theorem State.writeDriveCfg_keeps (h : Keeps u0 q0 s) (ch : Nat) (w : Word) : Keeps u0 q0 (State.writeDriveCfg ch w s) := by
  unfold State.writeDriveCfg
  try dsimp only
  with_reducible repeat' first
    | exact h | apply State.withHearth_keeps | apply State.keepAltered_keeps | fail_if_no_progress (refine Keeps.mk rfl rfl rfl rfl rfl rfl rfl ?_)
    | apply Keeps.ite

theorem execChainGo_keeps (h : Keeps u0 q0 s) : ResKeeps u0 q0 (execChainGo s) := by
  unfold execChainGo
  try dsimp only
  with_reducible repeat' first
    | exact h | apply State.withHearth_keeps | fail_if_no_progress (refine Keeps.mk rfl rfl rfl rfl rfl rfl rfl ?_) | apply ResKeeps.next
    | apply ResKeeps.ite

theorem execChannelEnable_keeps (h : Keeps u0 q0 s) (ch : Fin 14) (w : Word) : ResKeeps u0 q0 (execChannelEnable ch w s) := by
  unfold execChannelEnable
  try dsimp only
  with_reducible repeat' first
    | exact h | apply State.writeDriveCfg_keeps | apply ResKeeps.next | apply ResKeeps.ite

theorem execTecLimit_keeps (h : Keeps u0 q0 s) (t : Fin 2) : ResKeeps u0 q0 (execTecLimit t s) := by
  unfold execTecLimit
  try dsimp only
  with_reducible repeat' first
    | exact h | apply State.report_keeps | apply State.withHearth_keeps | fail_if_no_progress (refine Keeps.mk rfl rfl rfl rfl rfl rfl rfl ?_)
    | apply ResKeeps.next | apply ResKeeps.ite

theorem execChainTransferDone_keeps (h : Keeps u0 q0 s) (din : List Word) : ResKeeps u0 q0 (execChainTransferDone din s) := by
  unfold execChainTransferDone
  try dsimp only
  with_reducible repeat' first
    | exact h | apply State.report_keeps | apply State.withHearth_keeps | fail_if_no_progress (refine Keeps.mk rfl rfl rfl rfl rfl rfl rfl ?_)
    | apply ResKeeps.next | apply ResKeeps.ite | apply Keeps.ite

theorem execTecLoopUpdate_keeps (h : Keeps u0 q0 s) (t : Fin 2) : ResKeeps u0 q0 (execTecLoopUpdate t s) := by
  unfold execTecLoopUpdate
  try dsimp only
  with_reducible repeat' first
    | exact h | apply State.afterTec_keeps | apply State.setCondition_keeps | apply State.withHearth_keeps
    | fail_if_no_progress (refine Keeps.mk rfl rfl rfl rfl rfl rfl rfl ?_) | apply ResKeeps.next | exact ResKeeps.fault | apply ResKeeps.ite
    | apply Keeps.ite

theorem execHsPwmOnWindow_keeps (h : Keeps u0 q0 s) (n : Fin 4) (m : Sensed) : ResKeeps u0 q0 (execHsPwmOnWindow n m s) := by
  unfold execHsPwmOnWindow
  try dsimp only
  with_reducible repeat' first
    | exact h | apply State.withHearth_keeps | apply State.reportAll_keeps | fail_if_no_progress (refine Keeps.mk rfl rfl rfl rfl rfl rfl rfl ?_)
    | apply ResKeeps.next | apply ResKeeps.ite

theorem execHdSetpointWrite_keeps (h : Keeps u0 q0 s) (ch : Fin 12) (setpoint : BitVec 16) : ResKeeps u0 q0 (execHdSetpointWrite ch setpoint s) := by
  unfold execHdSetpointWrite
  try dsimp only
  with_reducible repeat' first
    | exact h | apply State.setpoint_keeps | apply ResKeeps.next | apply ResKeeps.ite

theorem execSetpointStep_keeps (h : Keeps u0 q0 s) (ch : Fin 12) (setpoint : BitVec 16) : ResKeeps u0 q0 (execSetpointStep ch setpoint s) := by
  unfold execSetpointStep
  try dsimp only
  with_reducible repeat' first
    | exact h | apply State.setpoint_keeps | apply ResKeeps.next | apply ResKeeps.ite

theorem execIlockNRise_keeps (h : Keeps u0 q0 s) : ResKeeps u0 q0 (execIlockNRise s) := by
  unfold execIlockNRise
  try dsimp only
  with_reducible repeat' first
    | exact h | apply State.setCondition_keeps | apply State.withHearth_keeps | fail_if_no_progress (refine Keeps.mk rfl rfl rfl rfl rfl rfl rfl ?_)
    | apply ResKeeps.next

theorem execHdLoopUpdate_keeps (h : Keeps u0 q0 s) (m : List Sensed) : ResKeeps u0 q0 (execHdLoopUpdate m s) := by
  unfold execHdLoopUpdate
  try dsimp only
  with_reducible repeat' first
    | exact h | apply State.afterFade_keeps | apply State.setpointsDue_keeps | apply State.withHearth_keeps | apply State.reportAll_keeps
    | apply Keeps.foldl | apply ResKeeps.next | apply ResKeeps.ite

theorem execIlockFall_keeps (h : Keeps u0 q0 s) : ResKeeps u0 q0 (execIlockFall s) := by
  unfold execIlockFall
  try dsimp only
  with_reducible repeat' first
    | exact h | apply State.setCondition_keeps | apply State.withHearth_keeps | fail_if_no_progress (refine Keeps.mk rfl rfl rfl rfl rfl rfl rfl ?_)
    | apply ResKeeps.next | apply ResKeeps.ite | apply Keeps.ite

theorem State.abortCalibrate_keeps (h : Keeps u0 q0 s) : ∀ t, State.abortCalibrate s = some t → Keeps u0 q0 t := by
  intro t ht
  unfold State.abortCalibrate at ht
  split at ht
  · split at ht
    · cases ht; exact State.endLong_keeps (Keeps.mk rfl rfl rfl rfl rfl rfl rfl h) _ _
    · cases ht
  · cases ht

theorem State.afterSelfCal_keeps (h : Keeps u0 q0 s) : Keeps u0 q0 (State.afterSelfCal s) := by
  unfold State.afterSelfCal
  try dsimp only
  with_reducible repeat' first
    | exact h | apply State.afterTec_keeps | fail_if_no_progress (refine Keeps.mk rfl rfl rfl rfl rfl rfl rfl ?_) | apply Keeps.ite

theorem State.startSelfCal_keeps (h : Keeps u0 q0 s) : Keeps u0 q0 (State.startSelfCal s) := by
  unfold State.startSelfCal
  try dsimp only
  with_reducible repeat' first
    | exact h | fail_if_no_progress (refine Keeps.mk rfl rfl rfl rfl rfl rfl rfl ?_)

theorem State.monitor_keeps (h : Keeps u0 q0 s) (ent : Word) (code : Nat) : Keeps u0 q0 (State.monitor ent code s) := by
  unfold State.monitor
  try dsimp only
  with_reducible repeat' first
    | exact h | apply State.retrimDue_keeps | apply Keeps.ite | assumption | dsimp only | split

theorem State.requestTrim_keeps (h : Keeps u0 q0 s) (w : Word) : Keeps u0 q0 (State.requestTrim w s) := by
  unfold State.requestTrim
  try dsimp only
  with_reducible repeat' first
    | exact h | apply State.setTrim_keeps | apply State.retrimDue_keeps | fail_if_no_progress (refine Keeps.mk rfl rfl rfl rfl rfl rfl rfl ?_)
    | apply Keeps.ite

theorem State.stampHk_keeps (h : Keeps u0 q0 s) (m : Nat) (res : Nat) : Keeps u0 q0 (State.stampHk m res s) := by
  unfold State.stampHk
  try dsimp only
  with_reducible repeat' first
    | exact h | apply State.setHall_keeps | fail_if_no_progress (refine Keeps.mk rfl rfl rfl rfl rfl rfl rfl ?_) | apply Keeps.foldl | apply Keeps.ite
    | intro _ _ h

theorem State.writeGainReq_keeps (h : Keeps u0 q0 s) (leg : Nat) (w : Word) : Keeps u0 q0 (State.writeGainReq leg w s) := by
  unfold State.writeGainReq
  try dsimp only
  with_reducible repeat' first
    | exact h | apply State.setThrLeg_keeps | fail_if_no_progress (refine Keeps.mk rfl rfl rfl rfl rfl rfl rfl ?_) | apply Keeps.ite

theorem execGainReqArm_keeps (h : Keeps u0 q0 s) (leg : Fin 2) (w : Word) : ResKeeps u0 q0 (execGainReqArm leg w s) := by
  unfold execGainReqArm
  try dsimp only
  with_reducible repeat' first
    | exact h | apply State.writeGainReq_keeps | apply ResKeeps.next | apply ResKeeps.ite

theorem execHkEntryConversion_keeps (h : Keeps u0 q0 s) (codes : List (Fin 4096)) (check : Fin 4096) : ResKeeps u0 q0 (execHkEntryConversion codes check s) := by
  unfold execHkEntryConversion
  try dsimp only
  with_reducible repeat' first
    | exact h | apply State.stampHk_keeps | apply State.setTrim_keeps | apply State.monitor_keeps | apply State.setCondition_keeps
    | fail_if_no_progress (refine Keeps.mk rfl rfl rfl rfl rfl rfl rfl ?_) | apply ResKeeps.next | apply ResKeeps.ite | apply Keeps.ite

theorem execAutoGainDecision_keeps (h : Keeps u0 q0 s) (leg : Fin 2) : ResKeeps u0 q0 (execAutoGainDecision leg s) := by
  unfold execAutoGainDecision
  try dsimp only
  with_reducible repeat' first
    | exact h | apply State.setThrLeg_keeps | fail_if_no_progress (refine Keeps.mk rfl rfl rfl rfl rfl rfl rfl ?_) | apply ResKeeps.next
    | apply ResKeeps.ite | apply Keeps.ite | intro _ _ h | intro _ h | assumption | dsimp only | split

theorem execCalibrationGapStart_keeps (h : Keeps u0 q0 s) : ResKeeps u0 q0 (execCalibrationGapStart s) := by
  unfold execCalibrationGapStart
  try dsimp only
  with_reducible repeat' first
    | exact h | apply State.setTrim_keeps | apply State.report_keeps | apply State.untilTime_keeps
    | fail_if_no_progress (refine Keeps.mk rfl rfl rfl rfl rfl rfl rfl ?_) | apply ResKeeps.next | apply ResKeeps.ite | apply Keeps.ite | intro _ _ h
    | intro _ h | assumption | dsimp only | split

theorem execCalibrateDone_keeps (h : Keeps u0 q0 s) (taps : List (Fin 256)) : ResKeeps u0 q0 (execCalibrateDone taps s) := by
  unfold execCalibrateDone
  split
  · exact ResKeeps.next h
  · split
    · rename_i t ht
      exact ResKeeps.next (State.abortCalibrate_keeps h t ht)
    · extract_lets
      apply ResKeeps.next
      apply State.endLong_keeps
      apply Keeps.foldl
      · apply Keeps.ite
        · apply State.wrote_keeps
          exact Keeps.mk (t := s) rfl rfl rfl rfl rfl rfl rfl h
        · apply State.setTrim_keeps
          apply State.wrote_keeps
          exact Keeps.mk (t := s) rfl rfl rfl rfl rfl rfl rfl h
      · intro t k ht
        exact State.report_keeps ht _ _

theorem execAdcSelfCalibrationDone_keeps (h : Keeps u0 q0 s) (factors : List (List Word)) (fails : List (Fin 12)) : ResKeeps u0 q0 (execAdcSelfCalibrationDone factors fails s) := by
  unfold execAdcSelfCalibrationDone
  split
  · exact ResKeeps.next h
  · rename_i u _
    split
    · exact ResKeeps.next h
    · extract_lets s1 calf leg _ s2 s3
      have h1 : Keeps u0 q0 s1 := State.untilUp_keeps h _
      have h2 : Keeps u0 q0 s2 := Keeps.mk (t := s1) rfl rfl rfl rfl rfl rfl rfl h1
      have h3 : Keeps u0 q0 s3 := Keeps.foldl h2 (fun t k ht => State.report_keeps ht _ _)
      split
      · rename_i t ht
        exact ResKeeps.next (State.abortCalibrate_keeps h3 t ht)
      · apply ResKeeps.next
        split
        · exact State.progress_keeps h3 _ _ _ _
        · exact h3

theorem execTrimDeferTick_keeps (h : Keeps u0 q0 s) : ResKeeps u0 q0 (execTrimDeferTick s) := by
  unfold execTrimDeferTick
  try dsimp only
  with_reducible repeat' first
    | exact h | apply State.setTrim_keeps | fail_if_no_progress (refine Keeps.mk rfl rfl rfl rfl rfl rfl rfl ?_) | apply ResKeeps.next
    | apply ResKeeps.ite | apply Keeps.ite

theorem execCalibrationGapEnd_keeps (h : Keeps u0 q0 s) (moves : List (List (Fin 3) × List (Fin 3))) : ResKeeps u0 q0 (execCalibrationGapEnd moves s) := by
  unfold execCalibrationGapEnd
  try dsimp only
  with_reducible repeat' first
    | exact h | apply State.watchWear_keeps | apply State.wrote_keeps | apply State.report_keeps | apply State.emitAt_keeps
    | apply State.untilTime_keeps | fail_if_no_progress (refine Keeps.mk rfl rfl rfl rfl rfl rfl rfl ?_) | apply Keeps.foldl | apply ResKeeps.next
    | apply ResKeeps.ite | apply Keeps.ite | intro _ _ h | intro _ h | assumption | dsimp only | split

theorem execGainChange_keeps (h : Keeps u0 q0 s) (leg : Fin 2) (direct : Bool) : ResKeeps u0 q0 (execGainChange leg direct s) := by
  unfold execGainChange
  try dsimp only
  with_reducible repeat' first
    | exact h | apply State.setThrLeg_keeps | apply State.untilTime_keeps | fail_if_no_progress (refine Keeps.mk rfl rfl rfl rfl rfl rfl rfl ?_)
    | apply ResKeeps.next | apply ResKeeps.ite | apply Keeps.ite | intro _ _ h | intro _ h | assumption | dsimp only | split

theorem execTrimReq_keeps (h : Keeps u0 q0 s) (w : Word) : ResKeeps u0 q0 (execTrimReq w s) := by
  unfold execTrimReq
  try dsimp only
  with_reducible repeat' first
    | exact h | apply State.requestTrim_keeps | apply ResKeeps.next | apply ResKeeps.ite | apply Keeps.ite

theorem execHkSelfCalibrationDone_keeps (h : Keeps u0 q0 s) : ResKeeps u0 q0 (execHkSelfCalibrationDone s) := by
  unfold execHkSelfCalibrationDone
  split
  · exact ResKeeps.next h
  · rename_i u _
    split
    · exact ResKeeps.next h
    · extract_lets s1 hk _ s2
      have h1 : Keeps u0 q0 s1 := State.untilUp_keeps h _
      have h2 : Keeps u0 q0 s2 := Keeps.mk (t := s1) rfl rfl rfl rfl rfl rfl rfl h1
      split
      · rename_i t ht
        exact ResKeeps.next (State.abortCalibrate_keeps h2 t ht)
      · apply ResKeeps.next
        split
        · exact State.progress_keeps h2 _ _ _ _
        · exact State.afterSelfCal_keeps h2

theorem State.withPtp_keeps (h : Keeps u0 q0 s) (p : PtpPort) : Keeps u0 q0 (State.withPtp p s) := by
  unfold State.withPtp
  try dsimp only
  with_reducible repeat' first
    | exact h | fail_if_no_progress (refine Keeps.mk rfl rfl rfl rfl rfl rfl rfl ?_)

theorem State.ptpAnnounce_keeps (h : Keeps u0 q0 s) (src : Nat) (c : PtpClock) (utc : Int) : Keeps u0 q0 (State.ptpAnnounce src c utc s) := by
  unfold State.ptpAnnounce
  try dsimp only
  with_reducible repeat' first
    | exact h | apply State.withPtp_keeps | fail_if_no_progress (refine Keeps.mk rfl rfl rfl rfl rfl rfl rfl ?_) | apply Keeps.ite

theorem State.ptpAnswer_keeps (h : Keeps u0 q0 s) (seq : Nat) (ms : List PtpSent) : Keeps u0 q0 (State.ptpAnswer seq ms s) := by
  unfold State.ptpAnswer
  try dsimp only
  with_reducible repeat' first
    | exact h | apply State.withEth_keeps

theorem State.ptpAsk_keeps (h : Keeps u0 q0 s) : Keeps u0 q0 (State.ptpAsk s) := by
  unfold State.ptpAsk
  try dsimp only
  with_reducible repeat' first
    | exact h | apply State.withPtp_keeps | apply State.withEth_keeps

theorem State.ptpDelay_keeps (h : Keeps u0 q0 s) (round : Int) : Keeps u0 q0 (State.ptpDelay round s) := by
  unfold State.ptpDelay
  try dsimp only
  with_reducible repeat' first
    | exact h | apply State.withPtp_keeps

theorem State.ptpExchange_keeps (h : Keeps u0 q0 s) (ahead : Int) : Keeps u0 q0 (State.ptpExchange ahead s) := by
  unfold State.ptpExchange
  try dsimp only
  with_reducible repeat' first
    | exact h | apply State.leaveHoldover_keeps | apply State.setTimeStat_keeps | apply State.phaseGiven_keeps | apply State.ptpAsk_keeps
    | apply State.timeStatus_keeps | apply State.withPtp_keeps | fail_if_no_progress (refine Keeps.mk rfl rfl rfl rfl rfl rfl rfl ?_)
    | apply Keeps.ite | intro _ _ h | intro _ h | assumption | dsimp only | split

theorem State.ptpTake_keeps (h : Keeps u0 q0 s) (m : PtpMessage) : Keeps u0 q0 (State.ptpTake m s) := by
  unfold State.ptpTake
  try dsimp only
  with_reducible repeat' first
    | exact h | apply State.ptpDelay_keeps | apply State.ptpExchange_keeps | apply State.ptpAnswer_keeps | apply State.ptpAnnounce_keeps
    | apply State.withPtp_keeps | fail_if_no_progress (refine Keeps.mk rfl rfl rfl rfl rfl rfl rfl ?_) | apply Keeps.ite | intro _ _ h | intro _ h
    | assumption | dsimp only | split

theorem State.refreshSnapshots_keeps (h : Keeps u0 q0 s) (k : Nat) (edge : Nat) : Keeps u0 q0 (State.refreshSnapshots k edge s) := by
  unfold State.refreshSnapshots
  try dsimp only
  with_reducible repeat' first
    | exact h | fail_if_no_progress (refine Keeps.mk rfl rfl rfl rfl rfl rfl rfl ?_)

theorem State.setTach_keeps (h : Keeps u0 q0 s) (k : Nat) (t : Tach) : Keeps u0 q0 (State.setTach k t s) := by
  unfold State.setTach
  try dsimp only
  with_reducible repeat' first
    | exact h | fail_if_no_progress (refine Keeps.mk rfl rfl rfl rfl rfl rfl rfl ?_)

theorem State.tachCount_keeps (h : Keeps u0 q0 s) (k : Nat) (stamp : Nat) (up : Bool) : Keeps u0 q0 (State.tachCount k stamp up s) := by
  unfold State.tachCount
  try dsimp only
  with_reducible repeat' first
    | exact h | apply State.refreshSnapshots_keeps | apply State.setTach_keeps

theorem State.withTime_keeps (h : Keeps u0 q0 s) (t : TimeBase) (hm : s.time.up ≤ t.up) : Keeps u0 q0 (State.withTime t s) := by
  exact Keeps.time h (Nat.le_trans h.up hm)

theorem State.takeTimeCfg_keeps (h : Keeps u0 q0 s) (w : Word) (ptp : PtpPort) : Keeps u0 q0 (State.takeTimeCfg w ptp s) := by
  unfold State.takeTimeCfg
  try dsimp only
  with_reducible repeat' first
    | exact h | apply State.withTime_keeps | apply State.judgeSource_keeps | apply State.timeStatus_keeps
    | fail_if_no_progress (refine Keeps.mk rfl rfl rfl rfl rfl rfl rfl ?_) | exact Nat.le_refl _ | exact Nat.le_max_left _ _ | intro _ _ h | intro _ h

theorem State.tbIgnored_keeps (h : Keeps u0 q0 s) (flag : Bool) (offset : Nat) : Keeps u0 q0 (State.tbIgnored flag offset s) := by
  unfold State.tbIgnored
  try dsimp only
  with_reducible repeat' first
    | exact h | apply State.withTime_keeps | fail_if_no_progress (refine Keeps.mk rfl rfl rfl rfl rfl rfl rfl ?_) | exact Nat.le_refl _
    | exact Nat.le_max_left _ _ | apply Keeps.ite

theorem State.withTiu_keeps (h : Keeps u0 q0 s) (t : Tiu) : Keeps u0 q0 (State.withTiu t s) := by
  unfold State.withTiu
  try dsimp only
  with_reducible repeat' first
    | exact h | fail_if_no_progress (refine Keeps.mk rfl rfl rfl rfl rfl rfl rfl ?_)

theorem State.tiuDone_keeps (h : Keeps u0 q0 s) : Keeps u0 q0 (State.tiuDone s) := by
  unfold State.tiuDone
  try dsimp only
  with_reducible repeat' first
    | exact h | apply State.withTiu_keeps | apply State.tiuAnswer_keeps

theorem State.writeTachCfg_keeps (h : Keeps u0 q0 s) (k : Nat) (w : Word) : Keeps u0 q0 (State.writeTachCfg k w s) := by
  unfold State.writeTachCfg
  try dsimp only
  with_reducible repeat' first
    | exact h | apply State.tbIgnored_keeps | apply State.setTach_keeps | apply State.keepAltered_keeps

theorem execTiuNoStart_keeps (h : Keeps u0 q0 s) : ResKeeps u0 q0 (execTiuNoStart s) := by
  unfold execTiuNoStart
  try dsimp only
  with_reducible repeat' first
    | exact h | apply State.withTiu_keeps | apply State.untilUp_keeps | apply State.tiuAnswer_keeps
    | fail_if_no_progress (refine Keeps.mk rfl rfl rfl rfl rfl rfl rfl ?_) | apply ResKeeps.next | apply ResKeeps.ite

theorem execTachEdge_keeps (h : Keeps u0 q0 s) (k : Fin 8) (level : Bool) (held : Nat) (stamp : Nat) (both : Bool) : ResKeeps u0 q0 (execTachEdge k level held stamp both s) := by
  unfold execTachEdge
  try dsimp only
  with_reducible repeat' first
    | exact h | apply State.report_keeps | apply State.setTach_keeps | apply State.tachCount_keeps | apply State.untilTime_keeps
    | fail_if_no_progress (refine Keeps.mk rfl rfl rfl rfl rfl rfl rfl ?_) | apply ResKeeps.next | apply ResKeeps.ite | apply Keeps.ite | intro _ _ h
    | intro _ h | assumption | dsimp only | split

theorem execPtpTimeout_keeps (h : Keeps u0 q0 s) : ResKeeps u0 q0 (execPtpTimeout s) := by
  unfold execPtpTimeout
  try dsimp only
  with_reducible repeat' first
    | exact h | apply State.untilUp_keeps | apply State.setTimeStat_keeps | apply State.enterHoldover_keeps | apply State.timeStatus_keeps
    | apply State.withPtp_keeps | fail_if_no_progress (refine Keeps.mk rfl rfl rfl rfl rfl rfl rfl ?_) | apply ResKeeps.next | apply ResKeeps.ite
    | apply Keeps.ite | intro _ _ h | intro _ h

theorem execTimeStep_keeps (h : Keeps u0 q0 s) : ResKeeps u0 q0 (execTimeStep s) := by
  unfold execTimeStep
  try dsimp only
  with_reducible repeat' first
    | exact h | apply State.withTime_keeps | apply State.stepTime_keeps | fail_if_no_progress (refine Keeps.mk rfl rfl rfl rfl rfl rfl rfl ?_)
    | exact Nat.le_refl _ | exact Nat.le_max_left _ _ | apply ResKeeps.next | apply ResKeeps.ite

theorem execPpsOutPulse_keeps (h : Keeps u0 q0 s) : ResKeeps u0 q0 (execPpsOutPulse s) := by
  unfold execPpsOutPulse
  try dsimp only
  with_reducible repeat' first
    | exact h | apply State.withTime_keeps | apply State.pass_keeps | fail_if_no_progress (refine Keeps.mk rfl rfl rfl rfl rfl rfl rfl ?_)
    | exact Nat.le_refl _ | exact Nat.le_max_left _ _ | apply ResKeeps.next

theorem execHoldoverLimit_keeps (h : Keeps u0 q0 s) : ResKeeps u0 q0 (execHoldoverLimit s) := by
  unfold execHoldoverLimit
  try dsimp only
  with_reducible repeat' first
    | exact h | apply State.untilUp_keeps | apply State.setCondition_keeps | apply ResKeeps.next | intro _ _ h | intro _ h | assumption | dsimp only
    | split

theorem execRef10mLoss_keeps (h : Keeps u0 q0 s) : ResKeeps u0 q0 (execRef10mLoss s) := by
  unfold execRef10mLoss
  try dsimp only
  with_reducible repeat' first
    | exact h | apply State.setTimeStat_keeps | apply State.enterHoldover_keeps | apply State.timeStatus_keeps | apply ResKeeps.next
    | apply ResKeeps.ite | apply Keeps.ite | intro _ _ h | intro _ h

theorem execTiuRangeEnd_keeps (h : Keeps u0 q0 s) : ResKeeps u0 q0 (execTiuRangeEnd s) := by
  unfold execTiuRangeEnd
  try dsimp only
  with_reducible repeat' first
    | exact h | apply State.untilUp_keeps | apply State.tiuDone_keeps | apply ResKeeps.next | apply ResKeeps.ite

theorem execPtpEventMessage_keeps (h : Keeps u0 q0 s) (m : PtpMessage) : ResKeeps u0 q0 (execPtpEventMessage m s) := by
  unfold execPtpEventMessage
  try dsimp only
  with_reducible repeat' first
    | exact h | apply State.ptpTake_keeps | apply State.untilTime_keeps | apply State.withPtp_keeps
    | fail_if_no_progress (refine Keeps.mk rfl rfl rfl rfl rfl rfl rfl ?_) | apply ResKeeps.next | apply ResKeeps.ite | apply Keeps.ite

theorem execTiuStopEvent_keeps (h : Keeps u0 q0 s) (j : Fin 8) (count : Nat) (code : Int) : ResKeeps u0 q0 (execTiuStopEvent j count code s) := by
  unfold execTiuStopEvent
  try dsimp only
  with_reducible repeat' first
    | exact h | apply State.withTiu_keeps | apply State.tiuDone_keeps | fail_if_no_progress (refine Keeps.mk rfl rfl rfl rfl rfl rfl rfl ?_)
    | apply ResKeeps.next | apply ResKeeps.ite | apply Keeps.ite

theorem execPpsMissing_keeps (h : Keeps u0 q0 s) : ResKeeps u0 q0 (execPpsMissing s) := by
  unfold execPpsMissing
  try dsimp only
  with_reducible repeat' first
    | exact h | apply State.withTime_keeps | apply State.setTimeStat_keeps | apply State.enterHoldover_keeps | apply State.untilTime_keeps
    | apply State.timeStatus_keeps | fail_if_no_progress (refine Keeps.mk rfl rfl rfl rfl rfl rfl rfl ?_) | exact Nat.le_refl _
    | exact Nat.le_max_left _ _ | apply ResKeeps.next | apply ResKeeps.ite | apply Keeps.ite | intro _ _ h | intro _ h

theorem execSamplePllLockChange_keeps (h : Keeps u0 q0 s) (locked : Bool) : ResKeeps u0 q0 (execSamplePllLockChange locked s) := by
  unfold execSamplePllLockChange
  try dsimp only
  with_reducible repeat' first
    | exact h | apply State.withTime_keeps | apply State.setCondition_keeps | fail_if_no_progress (refine Keeps.mk rfl rfl rfl rfl rfl rfl rfl ?_)
    | exact Nat.le_refl _ | exact Nat.le_max_left _ _ | apply ResKeeps.next

theorem execPpsEdge_keeps (h : Keeps u0 q0 s) (stamp : Nat) : ResKeeps u0 q0 (execPpsEdge stamp s) := by
  unfold execPpsEdge
  try dsimp only
  with_reducible repeat' first
    | exact h | apply State.withTime_keeps | apply State.leaveHoldover_keeps | apply State.setTimeStat_keeps | apply State.phaseGiven_keeps
    | apply State.untilTime_keeps | apply State.timeStatus_keeps | fail_if_no_progress (refine Keeps.mk rfl rfl rfl rfl rfl rfl rfl ?_)
    | exact Nat.le_refl _ | exact Nat.le_max_left _ _ | apply ResKeeps.next | apply ResKeeps.ite | apply Keeps.ite | intro _ _ h | intro _ h

theorem execTachStall_keeps (h : Keeps u0 q0 s) (k : Fin 8) : ResKeeps u0 q0 (execTachStall k s) := by
  unfold execTachStall
  try dsimp only
  with_reducible repeat' first
    | exact h | apply State.untilUp_keeps | apply State.setTach_keeps | fail_if_no_progress (refine Keeps.mk rfl rfl rfl rfl rfl rfl rfl ?_)
    | apply ResKeeps.next | apply ResKeeps.ite

theorem execTiuStartEvent_keeps (h : Keeps u0 q0 s) (count : Nat) (code : Int) (time : Nat) : ResKeeps u0 q0 (execTiuStartEvent count code time s) := by
  unfold execTiuStartEvent
  try dsimp only
  with_reducible repeat' first
    | exact h | apply State.withTiu_keeps | apply State.untilTime_keeps | fail_if_no_progress (refine Keeps.mk rfl rfl rfl rfl rfl rfl rfl ?_)
    | apply ResKeeps.next | apply ResKeeps.ite

theorem execTiuGo_keeps (h : Keeps u0 q0 s) (one : List Int) (two : List Int) : ResKeeps u0 q0 (execTiuGo one two s) := by
  unfold execTiuGo
  try dsimp only
  with_reducible repeat' first
    | exact h | apply State.withTiu_keeps | apply State.tiuAnswer_keeps | apply State.pass_keeps | apply State.report_keeps
    | fail_if_no_progress (refine Keeps.mk rfl rfl rfl rfl rfl rfl rfl ?_) | apply ResKeeps.next | apply ResKeeps.ite

theorem execDisciplineUpdate_keeps (h : Keeps u0 q0 s) (freq : Int) (err : Int) (elapsedMs : Nat) (locked : Bool) : ResKeeps u0 q0 (execDisciplineUpdate freq err elapsedMs locked s) := by
  unfold execDisciplineUpdate
  try dsimp only
  with_reducible repeat' first
    | exact h | apply State.withTime_keeps | apply State.pass_keeps | apply State.timeStatus_keeps
    | fail_if_no_progress (refine Keeps.mk rfl rfl rfl rfl rfl rfl rfl ?_) | exact Nat.le_refl _ | exact Nat.le_max_left _ _ | apply ResKeeps.next
    | apply ResKeeps.ite | apply Keeps.ite | intro _ _ h | intro _ h

theorem execTpllLockChange_keeps (h : Keeps u0 q0 s) (locked : Bool) : ResKeeps u0 q0 (execTpllLockChange locked s) := by
  unfold execTpllLockChange
  try dsimp only
  with_reducible repeat' first
    | exact h | apply State.withTime_keeps | apply State.setCondition_keeps | fail_if_no_progress (refine Keeps.mk rfl rfl rfl rfl rfl rfl rfl ?_)
    | exact Nat.le_refl _ | exact Nat.le_max_left _ _ | apply ResKeeps.next

theorem execTachEnable_keeps (h : Keeps u0 q0 s) (k : Fin 8) (w : Word) : ResKeeps u0 q0 (execTachEnable k w s) := by
  unfold execTachEnable
  try dsimp only
  with_reducible repeat' first
    | exact h | apply State.writeTachCfg_keeps | apply ResKeeps.next | apply ResKeeps.ite

theorem execRef10mReturn_keeps (h : Keeps u0 q0 s) (ppb : Int) : ResKeeps u0 q0 (execRef10mReturn ppb s) := by
  unfold execRef10mReturn
  try dsimp only
  with_reducible repeat' first
    | exact h | apply State.leaveHoldover_keeps | apply State.setTimeStat_keeps | apply State.timeStatus_keeps | apply ResKeeps.next
    | apply ResKeeps.ite | apply Keeps.ite | intro _ _ h | intro _ h

theorem State.journalPlan_keeps (h : Keeps u0 q0 s) (q : PendingPlan) : Keeps u0 q0 (State.journalPlan q s) := by
  unfold State.journalPlan
  try dsimp only
  with_reducible repeat' first
    | exact h | apply State.wrote_keeps | fail_if_no_progress (refine Keeps.mk rfl rfl rfl rfl rfl rfl rfl ?_) | apply Keeps.ite

theorem State.keepItems_keeps (h : Keeps u0 q0 s) (ws : List Word) : Keeps u0 q0 (State.keepItems ws s) := by
  unfold State.keepItems
  try dsimp only
  with_reducible repeat' first
    | exact h | fail_if_no_progress (refine Keeps.mk rfl rfl rfl rfl rfl rfl rfl ?_)

theorem State.ramanWithPlan_keeps (h : Keeps u0 q0 s) (leg : Nat) : Keeps u0 q0 (State.ramanWithPlan s leg) := by
  unfold State.ramanWithPlan
  try dsimp only
  with_reducible repeat' first
    | exact h | apply State.ramanStartAt_keeps | apply State.ramanStop_keeps | apply Keeps.ite

theorem State.legWithPlan_keeps (h : Keeps u0 q0 s) (e : Nat) (halted : Bool) (leg : Nat) : Keeps u0 q0 (State.legWithPlan e halted s leg) := by
  unfold State.legWithPlan
  try dsimp only
  with_reducible repeat' first
    | exact h | apply State.hallWithPlan_keeps | apply State.setThrLeg_keeps | apply State.withLoft_keeps | apply State.ramanWithPlan_keeps
    | apply State.setHall_keeps | fail_if_no_progress (refine Keeps.mk rfl rfl rfl rfl rfl rfl rfl ?_) | apply Keeps.landing (u0 := u0) (q0 := q0)

theorem Keeps.vecStopped {t : State} (h : Keeps u0 q0 t) :
    Keeps u0 q0 (t.withLoft { t.loft with vec := { t.loft.vec with next := none, held := false } }) := State.withLoft_keeps h _ h.landing

theorem State.zonesWithPlan_keeps (h : Keeps u0 q0 s) : Keeps u0 q0 (State.zonesWithPlan s) := by
  unfold State.zonesWithPlan
  dsimp only
  have h1 := State.restartZones_keeps h s.probe.frameBase (fun _ => true)
  generalize s.restartZones s.probe.frameBase (fun _ => true) = s1 at h1 ⊢
  split
  · exact State.withLoft_keeps h1 _ h1.landing
  · exact Keeps.vecStopped (Keeps.foldl h1 (fun t z ht => State.commitZone_keeps (State.advanceZone_keeps ht _ _) _ _))

theorem State.retrimWithPlan_keeps (h : Keeps u0 q0 s) (e : Nat) (waive : Bool) : Keeps u0 q0 (State.retrimWithPlan e waive s) := by
  unfold State.retrimWithPlan
  try dsimp only
  with_reducible repeat' first
    | exact h | apply State.setTrim_keeps | apply State.retrimDue_keeps | fail_if_no_progress (refine Keeps.mk rfl rfl rfl rfl rfl rfl rfl ?_)
    | apply Keeps.ite

theorem State.nextSurveyOp_keeps (h : Keeps u0 q0 s) : Keeps u0 q0 (State.nextSurveyOp s) := by
  unfold State.nextSurveyOp
  try dsimp only
  with_reducible repeat' first
    | exact h | apply State.endSurveyOp_keeps | apply State.progress_keeps | fail_if_no_progress (refine Keeps.mk rfl rfl rfl rfl rfl rfl rfl ?_)
    | assumption | dsimp only | split

theorem State.triggersWithPlan_keeps (h : Keeps u0 q0 s) (fromSurvey : Bool) : Keeps u0 q0 (State.triggersWithPlan fromSurvey s) := by
  unfold State.triggersWithPlan
  try dsimp only
  with_reducible repeat' first
    | exact h | fail_if_no_progress (refine Keeps.mk rfl rfl rfl rfl rfl rfl rfl ?_)

theorem State.planBegins_keeps (h : Keeps u0 q0 s) (q : PendingPlan) (e : Nat) (fromRest : Bool) (halted : Bool) : Keeps u0 q0 (State.planBegins q e fromRest halted s) := by
  unfold State.planBegins
  try dsimp only
  with_reducible repeat' first
    | exact h | apply State.withCellar_keeps | apply State.discardRings_keeps | apply State.zonesWithPlan_keeps | apply State.retrimWithPlan_keeps
    | apply State.endSurveyOp_keeps | apply State.settleHeld_keeps | apply State.sendEpoch_keeps | apply State.legWithPlan_keeps
    | apply State.journalPlan_keeps | apply State.nextSurveyOp_keeps | apply State.surveyGain_keeps | apply State.triggersWithPlan_keeps
    | apply State.summarise_keeps | fail_if_no_progress (refine Keeps.mk rfl rfl rfl rfl rfl rfl rfl ?_) | apply Keeps.foldl
    | apply Keeps.mem (u0 := u0) (q0 := q0) | simp only [Cellar.takeMap_mem, Cellar.restartRings_mem] | apply Keeps.ite | intro _ _ h

theorem State.startProbe_keeps (h : Keeps u0 q0 s) (q : PendingPlan) : Keeps u0 q0 (State.startProbe q s) := by
  unfold State.startProbe
  try dsimp only
  with_reducible repeat' first
    | exact h | apply State.planBegins_keeps | apply State.finishLong_keeps | apply State.keepItems_keeps | apply State.untilTime_keeps
    | fail_if_no_progress (refine Keeps.mk rfl rfl rfl rfl rfl rfl rfl ?_) | apply Keeps.ite

theorem execProbeStart_keeps (h : Keeps u0 q0 s) : ResKeeps u0 q0 (execProbeStart s) := by
  unfold execProbeStart
  try dsimp only
  with_reducible repeat' first
    | exact h | apply State.startProbe_keeps | apply ResKeeps.next | apply ResKeeps.ite | apply Keeps.ite | assumption | dsimp only | split

theorem execJournalledPlanRestart_keeps (h : Keeps u0 q0 s) : ResKeeps u0 q0 (execJournalledPlanRestart s) := by
  unfold execJournalledPlanRestart
  try dsimp only
  with_reducible repeat' first
    | exact h | apply State.planBegins_keeps | apply State.untilTime_keeps | fail_if_no_progress (refine Keeps.mk rfl rfl rfl rfl rfl rfl rfl ?_)
    | apply ResKeeps.next | apply ResKeeps.ite | apply Keeps.ite | intro _ _ h | intro _ h | assumption | dsimp only | split

theorem execQuietIntervalEnd_keeps (h : Keeps u0 q0 s) : ResKeeps u0 q0 (execQuietIntervalEnd s) := by
  unfold execQuietIntervalEnd
  try dsimp only
  with_reducible repeat' first
    | exact h | apply State.planBegins_keeps | apply State.untilTime_keeps | apply ResKeeps.next | apply ResKeeps.ite | apply Keeps.ite | intro _ _ h
    | intro _ h | assumption | dsimp only | split

end Sys2Proof.Machine
end

