-- ==== Sys2Proof/Laws/KeepsBoot.lean ====
section
/-! SUPPORT. One lemma per operation of images, self tests, start-up and the cells: it keeps what `Keeps` says. -/

namespace Sys2Proof.Machine

variable {u0 : Nat} {q0 : List Instr} {s : State}

theorem State.chunkStaged_keeps (h : Keeps u0 q0 s) (op : LongOp) : Keeps u0 q0 (State.chunkStaged op s) := by
  unfold State.chunkStaged
  try dsimp only
  with_reducible repeat' first
    | exact h | apply State.endLong_keeps | fail_if_no_progress (refine Keeps.mk rfl rfl rfl rfl rfl rfl rfl ?_) | apply Keeps.ite | intro _ _ h
    | intro _ h | assumption | dsimp only | split

theorem execFwActivate_keeps (h : Keeps u0 q0 s) (c : Fin 9) : ResKeeps u0 q0 (execFwActivate c s) := by
  unfold execFwActivate
  try dsimp only
  with_reducible repeat' first
    | exact h | apply State.command_keeps | apply State.startLong_keeps | apply State.resetStudy_keeps
    | fail_if_no_progress (refine Keeps.mk rfl rfl rfl rfl rfl rfl rfl ?_) | exact ReplyKeeps.no | apply ReplyKeeps.later | apply ResKeeps.ite
    | apply ReplyKeeps.ite | apply Keeps.ite | intro _ _ h | intro _ h | assumption | dsimp only | split

theorem execFlashWriteDone_keeps (h : Keeps u0 q0 s) : ResKeeps u0 q0 (execFlashWriteDone s) := by
  unfold execFlashWriteDone
  split
  · exact ResKeeps.next h
  · rename_i a bs _
    extract_lets page rest _ s1
    have h1 : Keeps u0 q0 s1 := Keeps.porch h (Mem.wf_writeN h.flash)
    have h2 : Keeps u0 q0 { s1 with porch := { s1.porch with flashWrite := none } } := Keeps.mk (t := s1) rfl rfl rfl rfl rfl rfl rfl h1
    split
    · exact ResKeeps.next h2
    · split
      · exact ResKeeps.next h2
      · split
        · exact ResKeeps.next (State.endLong_keeps h2 _ _)
        · split
          · exact ResKeeps.next (State.chunkStaged_keeps h1 _)
          · exact ResKeeps.next (State.progress_keeps h1 _ _ _ _)

theorem execFwStage_keeps (h : Keeps u0 q0 s) (c : Fin 9) : ResKeeps u0 q0 (execFwStage c s) := by
  unfold execFwStage
  try dsimp only
  with_reducible repeat' first
    | exact h | apply State.command_keeps | apply State.startLong_keeps | apply State.takeLock_keeps
    | fail_if_no_progress (refine Keeps.mk rfl rfl rfl rfl rfl rfl rfl ?_) | (apply Keeps.of_ok1; assumption) | exact ReplyKeeps.no
    | apply ReplyKeeps.later | exact ReplyKeeps.refuse | apply ResKeeps.ite | apply ReplyKeeps.ite | apply Keeps.ite | intro _ _ h | intro _ h
    | assumption | dsimp only | split

theorem State.afterBist_keeps (h : Keeps u0 q0 s) : Keeps u0 q0 (State.afterBist s) := by
  unfold State.afterBist
  try dsimp only
  with_reducible repeat' first
    | exact h | fail_if_no_progress (refine Keeps.mk rfl rfl rfl rfl rfl rfl rfl ?_) | apply Keeps.ite

theorem State.answerTrain_keeps (h : Keeps u0 q0 s) (e : Err) (extra : List Word) : Keeps u0 q0 (State.answerTrain e extra s) := by
  unfold State.answerTrain
  try dsimp only
  with_reducible repeat' first
    | exact h | apply State.endLong_keeps | apply Keeps.ite | assumption | dsimp only | split

theorem State.powerOff_keeps (h : Keeps u0 q0 s) (op : LongOp) : Keeps u0 q0 (State.powerOff op s) := by
  unfold State.powerOff
  try dsimp only
  with_reducible repeat' first
    | exact h | apply State.finishLong_keeps | apply State.logEvent_keeps | fail_if_no_progress (refine Keeps.mk rfl rfl rfl rfl rfl rfl rfl ?_)

theorem State.freshBist_keeps (h : Keeps u0 q0 s) : Keeps u0 q0 (State.freshBist s) := by
  unfold State.freshBist
  exact Keeps.mk rfl rfl rfl rfl rfl rfl rfl h

theorem State.bistOver_keeps (h : Keeps u0 q0 s) (op : LongOp) : Keeps u0 q0 (State.bistOver op s) := by
  unfold State.bistOver
  exact Keeps.ite (State.powerOff_keeps (State.freshBist_keeps h) op) (State.endLong_keeps (State.afterBist_keeps h) _ _)

theorem State.bistProgress_keeps (h : Keeps u0 q0 s) (op : LongOp) : Keeps u0 q0 (State.bistProgress op s) := by
  unfold State.bistProgress
  exact Keeps.ite (State.progress_keeps h _ _ _ _) (State.progress_keeps h _ _ _ _)

theorem State.endBist_keeps (h : Keeps u0 q0 s) : Keeps u0 q0 (State.endBist s) := by
  unfold State.endBist
  try dsimp only
  with_reducible repeat' first
    | exact h | apply State.watchWear_keeps | apply State.wrote_keeps | apply State.logEvent_keeps
    | fail_if_no_progress (refine Keeps.mk rfl rfl rfl rfl rfl rfl rfl ?_) | apply Keeps.foldl | intro _ _ h

theorem State.wipeTested_keeps (h : Keeps u0 q0 s) : Keeps u0 q0 (State.wipeTested s) := by
  unfold State.wipeTested
  try dsimp only
  with_reducible repeat' first
    | exact h | fail_if_no_progress (refine Keeps.mk rfl rfl rfl rfl rfl rfl rfl ?_)

theorem State.slice_keeps (h : Keeps u0 q0 s) (fails : List FailingBit) : Keeps u0 q0 (State.slice fails s) := by
  unfold State.slice
  try dsimp only
  with_reducible repeat' first
    | exact h | apply State.wipeTested_keeps | fail_if_no_progress (refine Keeps.mk rfl rfl rfl rfl rfl rfl rfl ?_)

theorem State.bistSliced_keeps (h : Keeps u0 q0 s) (fails : List FailingBit) (op : LongOp) : Keeps u0 q0 (State.bistSliced fails op s) := by
  have ht := State.slice_keeps (State.pass_keeps h (20 * ms)) fails
  have hp := State.bistProgress_keeps ht op
  unfold State.bistSliced
  exact Keeps.ite hp (State.bistOver_keeps (State.endBist_keeps hp) op)

theorem State.startBist_keeps (h : Keeps u0 q0 s) (budget : Nat) : Keeps u0 q0 (State.startBist budget s) := by
  unfold State.startBist
  try dsimp only
  with_reducible repeat' first
    | exact h | apply State.powerFront_keeps | fail_if_no_progress (refine Keeps.mk rfl rfl rfl rfl rfl rfl rfl ?_)

theorem State.drained_keeps (h : Keeps u0 q0 s) (op : LongOp) : Keeps u0 q0 (State.drained op s) := by
  unfold State.drained
  try dsimp only
  with_reducible repeat' first
    | exact h | apply State.powerOff_keeps | apply State.progress_keeps | apply State.startBist_keeps
    | fail_if_no_progress (refine Keeps.mk rfl rfl rfl rfl rfl rfl rfl ?_) | apply Keeps.ite

theorem State.startTraining_keeps (h : Keeps u0 q0 s) (full : Bool) : Keeps u0 q0 (State.startTraining full s) := by
  unfold State.startTraining
  try dsimp only
  with_reducible repeat' first
    | exact h | fail_if_no_progress (refine Keeps.mk rfl rfl rfl rfl rfl rfl rfl ?_)

theorem State.trained_keeps (h : Keeps u0 q0 s) (phy : Vector Phy 4) (fromStore : Bool) : Keeps u0 q0 (State.trained phy fromStore s) := by
  unfold State.trained
  try dsimp only
  with_reducible repeat' first
    | exact h | fail_if_no_progress (refine Keeps.mk rfl rfl rfl rfl rfl rfl rfl ?_)

theorem execShutdownDrainDone_keeps (h : Keeps u0 q0 s) : ResKeeps u0 q0 (execShutdownDrainDone s) := by
  unfold execShutdownDrainDone
  try dsimp only
  with_reducible repeat' first
    | exact h | apply State.untilUp_keeps | apply State.drained_keeps | apply ResKeeps.next | apply ResKeeps.ite | apply Keeps.ite | intro _ _ h
    | intro _ h | assumption | dsimp only | split

theorem execBist_keeps (h : Keeps u0 q0 s) (c : Fin 9) : ResKeeps u0 q0 (execBist c s) := by
  unfold execBist
  try dsimp only
  with_reducible repeat' first
    | exact h | apply State.command_keeps | apply State.startLong_keeps | apply State.startBist_keeps | apply State.takeLock_keeps
    | apply State.endLong_keeps | fail_if_no_progress (refine Keeps.mk rfl rfl rfl rfl rfl rfl rfl ?_) | (apply Keeps.of_ok1; assumption)
    | exact ReplyKeeps.no | apply ReplyKeeps.later | exact ReplyKeeps.refuse | apply ResKeeps.ite | apply ReplyKeeps.ite | apply Keeps.ite
    | intro _ _ h | intro _ h | assumption | dsimp only | split

theorem execTrainingDone_keeps (h : Keeps u0 q0 s) (phy : Vector Phy 4) (fail : Option (Fin 2 × Fin 2 × Fin 72)) : ResKeeps u0 q0 (execTrainingDone phy fail s) := by
  unfold execTrainingDone
  try dsimp only
  with_reducible repeat' first
    | exact h | apply State.untilUp_keeps | apply State.trained_keeps | apply State.wrote_keeps | apply State.answerTrain_keeps
    | apply State.report_keeps | fail_if_no_progress (refine Keeps.mk rfl rfl rfl rfl rfl rfl rfl ?_) | apply ResKeeps.next | apply ResKeeps.ite
    | apply Keeps.ite | intro _ _ h | intro _ h | assumption | dsimp only | split

theorem execShutdown_keeps (h : Keeps u0 q0 s) (c : Fin 9) : ResKeeps u0 q0 (execShutdown c s) := by
  unfold execShutdown
  try dsimp only
  with_reducible repeat' first
    | exact h | apply State.command_keeps | apply State.endForShutdown_keeps | apply State.beginShutdown_keeps
    | fail_if_no_progress (refine Keeps.mk rfl rfl rfl rfl rfl rfl rfl ?_) | exact ReplyKeeps.no | apply ReplyKeeps.later | apply ResKeeps.ite
    | apply ReplyKeeps.ite | apply Keeps.ite | intro _ _ h | intro _ h | assumption | dsimp only | split

theorem execTrain_keeps (h : Keeps u0 q0 s) (c : Fin 9) : ResKeeps u0 q0 (execTrain c s) := by
  unfold execTrain
  try dsimp only
  with_reducible repeat' first
    | exact h | apply State.command_keeps | apply State.startTraining_keeps | apply State.startLong_keeps
    | fail_if_no_progress (refine Keeps.mk rfl rfl rfl rfl rfl rfl rfl ?_) | exact ReplyKeeps.no | apply ReplyKeeps.later | apply ResKeeps.ite
    | apply ReplyKeeps.ite | apply Keeps.ite | intro _ _ h

theorem execBistSliceDone_keeps (h : Keeps u0 q0 s) (fails : List FailingBit) : ResKeeps u0 q0 (execBistSliceDone fails s) := by
  unfold execBistSliceDone
  split
  · exact ResKeeps.next h
  · exact ResKeeps.ite (ResKeeps.next h) (ResKeeps.next (State.bistSliced_keeps h fails _))

theorem State.activated_keeps (h : Keeps u0 q0 s) (slot : Nat) : Keeps u0 q0 (State.activated slot s) := by
  unfold State.activated
  apply State.finishLong_keeps
  apply State.logEvent_keeps
  have hp := Keeps.porch (x := { s.porch with flash := Mem.write 0xFF s.porch.flash 0 (BitVec.ofNat 8 slot) }) h (Mem.wf_write h.flash)
  exact Keeps.mk (t := { s with porch := { s.porch with flash := Mem.write 0xFF s.porch.flash 0 (BitVec.ofNat 8 slot) } }) rfl rfl rfl rfl rfl rfl rfl hp

theorem State.showStale_keeps (h : Keeps u0 q0 s) : Keeps u0 q0 (State.showStale s) := by
  unfold State.showStale
  try dsimp only
  with_reducible repeat' first
    | exact h | fail_if_no_progress (refine Keeps.mk rfl rfl rfl rfl rfl rfl rfl ?_)

theorem State.afterPowerLoss_keeps (h : Keeps u0 q0 s) : Keeps u0 q0 (State.afterPowerLoss s) := by
  unfold State.afterPowerLoss
  try dsimp only
  with_reducible repeat' first
    | exact h | apply State.setTrim_keeps | apply State.report_keeps | apply State.showStale_keeps | apply State.logEvent_keeps
    | fail_if_no_progress (refine Keeps.mk rfl rfl rfl rfl rfl rfl rfl ?_) | apply Keeps.ite

theorem State.applyHeld_keeps (h : Keeps u0 q0 s) : Keeps u0 q0 (State.applyHeld s) := by
  unfold State.applyHeld
  try dsimp only
  with_reducible repeat' first
    | exact h | apply State.blockReset_keeps | fail_if_no_progress (refine Keeps.mk rfl rfl rfl rfl rfl rfl rfl ?_) | apply Keeps.foldl | intro _ _ h

theorem State.loadCal_keeps (h : Keeps u0 q0 s) : Keeps u0 q0 (State.loadCal s) := by
  unfold State.loadCal
  try dsimp only
  with_reducible repeat' first
    | exact h | apply State.setTrim_keeps | apply State.report_keeps | fail_if_no_progress (refine Keeps.mk rfl rfl rfl rfl rfl rfl rfl ?_)
    | apply Keeps.ite

theorem State.loadFaultCfg_keeps (h : Keeps u0 q0 s) : Keeps u0 q0 (State.loadFaultCfg s) := by
  unfold State.loadFaultCfg
  try dsimp only
  with_reducible repeat' first
    | exact h | apply State.setSource_keeps | fail_if_no_progress (refine Keeps.mk rfl rfl rfl rfl rfl rfl rfl ?_) | apply Keeps.foldl | intro _ _ h

theorem State.noteReport_keeps (h : Keeps u0 q0 s) (r : FaultReport) : Keeps u0 q0 (State.noteReport r s) := by
  unfold State.noteReport
  try dsimp only
  with_reducible repeat' first
    | exact h | apply State.setSource_keeps | fail_if_no_progress (refine Keeps.mk rfl rfl rfl rfl rfl rfl rfl ?_) | apply Keeps.ite

theorem State.powerReset_keeps (h : Keeps 0 q0 s) (good : Bool) : Keeps 0 q0 (State.powerReset good s) := by
  unfold State.powerReset
  dsimp only
  split
  · exact ⟨⟨⟨rfl, rfl⟩, rfl, rfl, h.flash⟩, Nat.zero_le _, h.2.2⟩
  · apply State.setSource_keeps
    exact ⟨⟨⟨rfl, rfl⟩, rfl, rfl, h.flash⟩, Nat.zero_le _, h.2.2⟩

theorem State.ready_keeps (h : Keeps u0 q0 s) : Keeps u0 q0 (State.ready s) := by
  unfold State.ready
  try dsimp only
  with_reducible repeat' first
    | exact h | apply State.wrote_keeps | apply State.summarise_keeps | fail_if_no_progress (refine Keeps.mk rfl rfl rfl rfl rfl rfl rfl ?_)
    | apply Keeps.ite

theorem State.startFirmware_keeps (h : Keeps u0 q0 s) (slot : Nat) (memDesc : Word) : Keeps u0 q0 (State.startFirmware slot memDesc s) := by
  unfold State.startFirmware
  extract_lets bo ho s1 s2 pw s3
  have h1 : Keeps u0 q0 s1 := Keeps.mk rfl rfl rfl rfl Cellar.describe_mem rfl rfl h
  have h2 : Keeps u0 q0 s2 := State.powerFront_keeps (State.afterPowerLoss_keeps (State.loadCal_keeps (State.loadFaultCfg_keeps h1)))
  clear_value s2
  have h3 : Keeps u0 q0 s3 := State.startSelfCal_keeps (Keeps.mk rfl rfl rfl rfl rfl rfl rfl h2)
  exact State.applyHeld_keeps (Keeps.ite (State.startTraining_keeps h3 _) h3)

theorem State.takeReports_keeps (h : Keeps u0 q0 s) (rs : List FaultReport) : Keeps u0 q0 (State.takeReports rs s) := by
  unfold State.takeReports
  try dsimp only
  with_reducible repeat' first
    | exact h | apply State.noteReport_keeps | apply State.reportAll_keeps | apply Keeps.foldl | intro _ _ h

theorem execRailRemoval_keeps (h : Keeps 0 q0 s) (torn : Bool) : ResKeeps 0 q0 (execRailRemoval torn s) := by
  unfold execRailRemoval
  dsimp only
  apply ResKeeps.next
  exact Keeps.mk (t := s.powerReset false) rfl rfl rfl rfl rfl rfl rfl (State.powerReset_keeps h _)

theorem execRailDieSample_keeps (h : Keeps u0 q0 s) (low : Option (Fin 256)) (high : Option (Fin 256)) (hot : Option (Fin 256)) (crit : Option (Fin 256)) (drive : Option (Fin 256)) : ResKeeps u0 q0 (execRailDieSample low high hot crit drive s) := by
  unfold execRailDieSample
  try dsimp only
  with_reducible repeat' first
    | exact h | apply State.takeReports_keeps | apply ResKeeps.next

theorem execResetNLow_keeps (h : Keeps 0 q0 s) : ResKeeps 0 q0 (execResetNLow s) := by
  unfold execResetNLow
  exact ResKeeps.next (State.powerReset_keeps h _)

theorem execWatchdog_keeps (h : Keeps u0 q0 s) : ResKeeps u0 q0 (execWatchdog s) := by
  unfold execWatchdog
  try dsimp only
  with_reducible repeat' first
    | exact h | apply State.untilUp_keeps | apply State.report_keeps | fail_if_no_progress (refine Keeps.mk rfl rfl rfl rfl rfl rfl rfl ?_)
    | apply ResKeeps.next | apply ResKeeps.ite

theorem execCollectorCfgCheck_keeps (h : Keeps u0 q0 s) (bad : Bool) : ResKeeps u0 q0 (execCollectorCfgCheck bad s) := by
  unfold execCollectorCfgCheck
  try dsimp only
  with_reducible repeat' first
    | exact h | apply State.report_keeps | fail_if_no_progress (refine Keeps.mk rfl rfl rfl rfl rfl rfl rfl ?_) | apply ResKeeps.next
    | apply ResKeeps.ite

theorem execFaultOccurrence_keeps (h : Keeps u0 q0 s) (rs : List FaultReport) : ResKeeps u0 q0 (execFaultOccurrence rs s) := by
  unfold execFaultOccurrence
  try dsimp only
  with_reducible repeat' first
    | exact h | apply State.takeReports_keeps | apply ResKeeps.next

theorem execFwReady_keeps (h : Keeps u0 q0 s) (ok : Bool) : ResKeeps u0 q0 (execFwReady ok s) := by
  unfold execFwReady
  try dsimp only
  with_reducible repeat' first
    | exact h | apply State.activated_keeps | apply State.ready_keeps | apply State.finishLong_keeps
    | fail_if_no_progress (refine Keeps.mk rfl rfl rfl rfl rfl rfl rfl ?_) | apply ResKeeps.next | apply ResKeeps.ite | apply Keeps.ite | intro _ _ h
    | intro _ h | assumption | dsimp only | split

theorem execRailsGood_keeps (h : Keeps u0 q0 s) : ResKeeps u0 q0 (execRailsGood s) := by
  unfold execRailsGood
  try dsimp only
  with_reducible repeat' first
    | exact h | fail_if_no_progress (refine Keeps.mk rfl rfl rfl rfl rfl rfl rfl ?_) | apply ResKeeps.next | apply ResKeeps.ite | apply Keeps.ite

theorem execBootImageLoaded_keeps (h : Keeps u0 q0 s) (memDesc : Word) : ResKeeps u0 q0 (execBootImageLoaded memDesc s) := by
  unfold execBootImageLoaded
  try dsimp only
  with_reducible repeat' first
    | exact h | apply State.startFirmware_keeps | apply State.untilUp_keeps | apply State.report_keeps
    | fail_if_no_progress (refine Keeps.mk rfl rfl rfl rfl rfl rfl rfl ?_) | apply ResKeeps.next | apply ResKeeps.ite

theorem execPorRelease_keeps (h : Keeps u0 q0 s) (masterSel : Bool) : ResKeeps u0 q0 (execPorRelease masterSel s) := by
  unfold execPorRelease
  try dsimp only
  with_reducible repeat' first
    | exact h | apply State.untilUp_keeps | apply State.startWatching_keeps | fail_if_no_progress (refine Keeps.mk rfl rfl rfl rfl rfl rfl rfl ?_)
    | apply ResKeeps.next | apply ResKeeps.ite

theorem execLds_keeps (h : Keeps u0 q0 s) (c : Fin 72) : ResKeeps u0 q0 (execLds c s) := by
  unfold execLds
  try dsimp only
  with_reducible repeat' first
    | exact h | apply State.issueWord_keeps | apply ResKeeps.next

theorem execMac_keeps (h : Keeps u0 q0 s) (c : Fin 72) : ResKeeps u0 q0 (execMac c s) := by
  unfold execMac
  try dsimp only
  with_reducible repeat' first
    | exact h | apply State.issueWord_keeps | apply ResKeeps.next

theorem execSget_keeps (h : Keeps u0 q0 s) (c : Fin 72) : ResKeeps u0 q0 (execSget c s) := by
  unfold execSget
  try dsimp only
  with_reducible repeat' first
    | exact h | apply State.issueWord_keeps | apply ResKeeps.next

theorem execShr_keeps (h : Keeps u0 q0 s) (c : Fin 72) : ResKeeps u0 q0 (execShr c s) := by
  unfold execShr
  try dsimp only
  with_reducible repeat' first
    | exact h | apply State.issueWord_keeps | apply ResKeeps.next

theorem execSdiv_keeps (h : Keeps u0 q0 s) (c : Fin 72) : ResKeeps u0 q0 (execSdiv c s) := by
  unfold execSdiv
  try dsimp only
  with_reducible repeat' first
    | exact h | apply State.issueWord_keeps | apply ResKeeps.next

theorem execSput_keeps (h : Keeps u0 q0 s) (c : Fin 72) : ResKeeps u0 q0 (execSput c s) := by
  unfold execSput
  try dsimp only
  with_reducible repeat' first
    | exact h | apply State.issueWord_keeps | apply ResKeeps.next

theorem execGset_keeps (h : Keeps u0 q0 s) (c : Fin 72) : ResKeeps u0 q0 (execGset c s) := by
  unfold execGset
  try dsimp only
  with_reducible repeat' first
    | exact h | apply State.issueWord_keeps | apply ResKeeps.next

theorem execLoop_keeps (h : Keeps u0 q0 s) (c : Fin 72) : ResKeeps u0 q0 (execLoop c s) := by
  unfold execLoop
  try dsimp only
  with_reducible repeat' first
    | exact h | apply State.issueWord_keeps | apply ResKeeps.next

theorem execSli_keeps (h : Keeps u0 q0 s) (c : Fin 72) : ResKeeps u0 q0 (execSli c s) := by
  unfold execSli
  try dsimp only
  with_reducible repeat' first
    | exact h | apply State.issueWord_keeps | apply ResKeeps.next

theorem execMovda_keeps (h : Keeps u0 q0 s) (c : Fin 72) : ResKeeps u0 q0 (execMovda c s) := by
  unfold execMovda
  try dsimp only
  with_reducible repeat' first
    | exact h | apply State.issueWord_keeps | apply ResKeeps.next

theorem execLdl_keeps (h : Keeps u0 q0 s) (c : Fin 72) (k : ReadCheck) : ResKeeps u0 q0 (execLdl c k s) := by
  unfold execLdl
  try dsimp only
  with_reducible repeat' first
    | exact h | apply State.issueWord_keeps | apply ResKeeps.next

theorem execCrot_keeps (h : Keeps u0 q0 s) (c : Fin 72) : ResKeeps u0 q0 (execCrot c s) := by
  unfold execCrot
  try dsimp only
  with_reducible repeat' first
    | exact h | apply State.issueWord_keeps | apply ResKeeps.next

theorem execAbs_keeps (h : Keeps u0 q0 s) (c : Fin 72) : ResKeeps u0 q0 (execAbs c s) := by
  unfold execAbs
  try dsimp only
  with_reducible repeat' first
    | exact h | apply State.issueWord_keeps | apply ResKeeps.next

theorem execBxadd_keeps (h : Keeps u0 q0 s) (c : Fin 72) : ResKeeps u0 q0 (execBxadd c s) := by
  unfold execBxadd
  try dsimp only
  with_reducible repeat' first
    | exact h | apply State.issueWord_keeps | apply ResKeeps.next

theorem execHalt_keeps (h : Keeps u0 q0 s) (c : Fin 72) : ResKeeps u0 q0 (execHalt c s) := by
  unfold execHalt
  try dsimp only
  with_reducible repeat' first
    | exact h | apply State.issueWord_keeps | apply State.haltLibrary_keeps | fail_if_no_progress (refine Keeps.mk rfl rfl rfl rfl rfl rfl rfl ?_)
    | apply ResKeeps.next | apply ResKeeps.ite | apply Keeps.ite

theorem execNeg_keeps (h : Keeps u0 q0 s) (c : Fin 72) : ResKeeps u0 q0 (execNeg c s) := by
  unfold execNeg
  try dsimp only
  with_reducible repeat' first
    | exact h | apply State.issueWord_keeps | apply ResKeeps.next

theorem execAdd_keeps (h : Keeps u0 q0 s) (c : Fin 72) : ResKeeps u0 q0 (execAdd c s) := by
  unfold execAdd
  try dsimp only
  with_reducible repeat' first
    | exact h | apply State.issueWord_keeps | apply ResKeeps.next

theorem execLd_keeps (h : Keeps u0 q0 s) (c : Fin 72) (k : ReadCheck) : ResKeeps u0 q0 (execLd c k s) := by
  unfold execLd
  try dsimp only
  with_reducible repeat' first
    | exact h | apply State.issueWord_keeps | apply ResKeeps.next

theorem execCmagsq_keeps (h : Keeps u0 q0 s) (c : Fin 72) : ResKeeps u0 q0 (execCmagsq c s) := by
  unfold execCmagsq
  try dsimp only
  with_reducible repeat' first
    | exact h | apply State.issueWord_keeps | apply ResKeeps.next

theorem execMin_keeps (h : Keeps u0 q0 s) (c : Fin 72) : ResKeeps u0 q0 (execMin c s) := by
  unfold execMin
  try dsimp only
  with_reducible repeat' first
    | exact h | apply State.issueWord_keeps | apply ResKeeps.next

theorem execNop_keeps (h : Keeps u0 q0 s) (c : Fin 72) : ResKeeps u0 q0 (execNop c s) := by
  unfold execNop
  try dsimp only
  with_reducible repeat' first
    | exact h | apply State.issueWord_keeps | apply ResKeeps.next

theorem execBcast_keeps (h : Keeps u0 q0 s) (c : Fin 72) : ResKeeps u0 q0 (execBcast c s) := by
  unfold execBcast
  try dsimp only
  with_reducible repeat' first
    | exact h | apply State.issueWord_keeps | apply ResKeeps.next

theorem execSt_keeps (h : Keeps u0 q0 s) (c : Fin 72) : ResKeeps u0 q0 (execSt c s) := by
  unfold execSt
  try dsimp only
  with_reducible repeat' first
    | exact h | apply State.issueWord_keeps | apply ResKeeps.next

theorem execMax_keeps (h : Keeps u0 q0 s) (c : Fin 72) : ResKeeps u0 q0 (execMax c s) := by
  unfold execMax
  try dsimp only
  with_reducible repeat' first
    | exact h | apply State.issueWord_keeps | apply ResKeeps.next

theorem execMovad_keeps (h : Keeps u0 q0 s) (c : Fin 72) : ResKeeps u0 q0 (execMovad c s) := by
  unfold execMovad
  try dsimp only
  with_reducible repeat' first
    | exact h | apply State.issueWord_keeps | apply ResKeeps.next

theorem execSalu_keeps (h : Keeps u0 q0 s) (c : Fin 72) : ResKeeps u0 q0 (execSalu c s) := by
  unfold execSalu
  try dsimp only
  with_reducible repeat' first
    | exact h | apply State.issueWord_keeps | apply ResKeeps.next

theorem execBfy_keeps (h : Keeps u0 q0 s) (c : Fin 72) : ResKeeps u0 q0 (execBfy c s) := by
  unfold execBfy
  try dsimp only
  with_reducible repeat' first
    | exact h | apply State.issueWord_keeps | apply ResKeeps.next

theorem execTrn4_keeps (h : Keeps u0 q0 s) (c : Fin 72) : ResKeeps u0 q0 (execTrn4 c s) := by
  unfold execTrn4
  try dsimp only
  with_reducible repeat' first
    | exact h | apply State.issueWord_keeps | apply ResKeeps.next

theorem execBr_keeps (h : Keeps u0 q0 s) (c : Fin 72) : ResKeeps u0 q0 (execBr c s) := by
  unfold execBr
  try dsimp only
  with_reducible repeat' first
    | exact h | apply State.issueWord_keeps | apply ResKeeps.next

theorem execSalui_keeps (h : Keeps u0 q0 s) (c : Fin 72) : ResKeeps u0 q0 (execSalui c s) := by
  unfold execSalui
  try dsimp only
  with_reducible repeat' first
    | exact h | apply State.issueWord_keeps | apply ResKeeps.next

theorem execJobStart_keeps (h : Keeps u0 q0 s) (kind : Fin 3) (item : Fin 8192) (k : ReadCheck) : ResKeeps u0 q0 (execJobStart kind item k s) := by
  unfold execJobStart
  try dsimp only
  with_reducible repeat' first
    | exact h | apply State.startDecode_keeps | apply State.startZone_keeps | apply State.startMap_keeps | apply ResKeeps.next | apply ResKeeps.ite
    | apply Keeps.ite | assumption | dsimp only | split

theorem execCmac_keeps (h : Keeps u0 q0 s) (c : Fin 72) : ResKeeps u0 q0 (execCmac c s) := by
  unfold execCmac
  try dsimp only
  with_reducible repeat' first
    | exact h | apply State.issueWord_keeps | apply ResKeeps.next

theorem execStl_keeps (h : Keeps u0 q0 s) (c : Fin 72) : ResKeeps u0 q0 (execStl c s) := by
  unfold execStl
  try dsimp only
  with_reducible repeat' first
    | exact h | apply State.issueWord_keeps | apply ResKeeps.next

theorem execShl_keeps (h : Keeps u0 q0 s) (c : Fin 72) : ResKeeps u0 q0 (execShl c s) := by
  unfold execShl
  try dsimp only
  with_reducible repeat' first
    | exact h | apply State.issueWord_keeps | apply ResKeeps.next

theorem execSts_keeps (h : Keeps u0 q0 s) (c : Fin 72) : ResKeeps u0 q0 (execSts c s) := by
  unfold execSts
  try dsimp only
  with_reducible repeat' first
    | exact h | apply State.issueWord_keeps | apply ResKeeps.next

theorem execMacsq_keeps (h : Keeps u0 q0 s) (c : Fin 72) : ResKeeps u0 q0 (execMacsq c s) := by
  unfold execMacsq
  try dsimp only
  with_reducible repeat' first
    | exact h | apply State.issueWord_keeps | apply ResKeeps.next

theorem execSub_keeps (h : Keeps u0 q0 s) (c : Fin 72) : ResKeeps u0 q0 (execSub c s) := by
  unfold execSub
  try dsimp only
  with_reducible repeat' first
    | exact h | apply State.issueWord_keeps | apply ResKeeps.next

theorem execScale_keeps (h : Keeps u0 q0 s) (c : Fin 72) : ResKeeps u0 q0 (execScale c s) := by
  unfold execScale
  try dsimp only
  with_reducible repeat' first
    | exact h | apply State.issueWord_keeps | apply ResKeeps.next

theorem execSred_keeps (h : Keeps u0 q0 s) (c : Fin 72) : ResKeeps u0 q0 (execSred c s) := by
  unfold execSred
  try dsimp only
  with_reducible repeat' first
    | exact h | apply State.issueWord_keeps | apply ResKeeps.next

end Sys2Proof.Machine
end

