-- ==== Sys2Proof/Laws/KeepsCommands.lean ====
section
/-! SUPPORT. One lemma per operation of the requests and the firmware: it keeps what `Keeps` says. -/

namespace Sys2Proof.Machine

variable {u0 : Nat} {q0 : List Instr} {s : State}

theorem State.excite_keeps (h : Keeps u0 q0 s) (f : Nat) : Keeps u0 q0 (State.excite f s) := by
  unfold State.excite
  try dsimp only
  with_reducible repeat' first
    | exact h | fail_if_no_progress (refine Keeps.mk rfl rfl rfl rfl rfl rfl rfl ?_)

theorem execTempSet_keeps (h : Keeps u0 q0 s) (c : Fin 9) : ResKeeps u0 q0 (execTempSet c s) := by
  unfold execTempSet
  try dsimp only
  with_reducible repeat' first
    | exact h | apply State.command_keeps | apply State.stamp_keeps | fail_if_no_progress (refine Keeps.mk rfl rfl rfl rfl rfl rfl rfl ?_)
    | exact ReplyKeeps.no | apply ReplyKeeps.done | exact ReplyKeeps.refuse | apply ResKeeps.ite | apply ReplyKeeps.ite | apply Keeps.ite
    | intro _ _ h | intro _ h | assumption | dsimp only | split

theorem execChainSet_keeps (h : Keeps u0 q0 s) (c : Fin 9) : ResKeeps u0 q0 (execChainSet c s) := by
  unfold execChainSet
  try dsimp only
  with_reducible repeat' first
    | exact h | apply State.command_keeps | apply State.stamp_keeps | fail_if_no_progress (refine Keeps.mk rfl rfl rfl rfl rfl rfl rfl ?_)
    | exact ReplyKeeps.no | apply ReplyKeeps.done | exact ReplyKeeps.refuse | apply ResKeeps.ite | apply ReplyKeeps.ite | apply Keeps.ite
    | intro _ _ h | intro _ h | assumption | dsimp only | split

theorem execTempCal_keeps (h : Keeps u0 q0 s) (c : Fin 9) : ResKeeps u0 q0 (execTempCal c s) := by
  unfold execTempCal
  try dsimp only
  with_reducible repeat' first
    | exact h | apply State.stamped_keeps | apply State.command_keeps | fail_if_no_progress (refine Keeps.mk rfl rfl rfl rfl rfl rfl rfl ?_)
    | exact ReplyKeeps.no | apply ResKeeps.ite | apply ReplyKeeps.ite | apply Keeps.ite | intro _ _ h

theorem execChainReset_keeps (h : Keeps u0 q0 s) (c : Fin 9) : ResKeeps u0 q0 (execChainReset c s) := by
  unfold execChainReset
  try dsimp only
  with_reducible repeat' first
    | exact h | apply State.command_keeps | apply State.stampOn_keeps | fail_if_no_progress (refine Keeps.mk rfl rfl rfl rfl rfl rfl rfl ?_)
    | apply Keeps.foldl | exact ReplyKeeps.no | apply ReplyKeeps.done | exact ReplyKeeps.refuse | apply ResKeeps.ite | apply ReplyKeeps.ite
    | apply Keeps.ite | intro _ _ h | intro _ h | assumption | dsimp only | split

theorem execReplayStart_keeps (h : Keeps u0 q0 s) (c : Fin 9) : ResKeeps u0 q0 (execReplayStart c s) := by
  unfold execReplayStart
  try dsimp only
  with_reducible repeat' first
    | exact h | apply State.stamped_keeps | apply State.command_keeps | fail_if_no_progress (refine Keeps.mk rfl rfl rfl rfl rfl rfl rfl ?_)
    | exact ReplyKeeps.no | apply ResKeeps.ite | apply ReplyKeeps.ite | apply Keeps.ite | intro _ _ h

theorem execTableLoad_keeps (h : Keeps u0 q0 s) (c : Fin 9) : ResKeeps u0 q0 (execTableLoad c s) := by
  unfold execTableLoad
  try dsimp only
  with_reducible repeat' first
    | exact h | apply State.command_keeps | fail_if_no_progress (refine Keeps.mk rfl rfl rfl rfl rfl rfl rfl ?_) | exact ReplyKeeps.no
    | apply ReplyKeeps.done | apply ResKeeps.ite | apply ReplyKeeps.ite | apply Keeps.ite | intro _ _ h

theorem execReplayStop_keeps (h : Keeps u0 q0 s) (c : Fin 9) : ResKeeps u0 q0 (execReplayStop c s) := by
  unfold execReplayStop
  try dsimp only
  with_reducible repeat' first
    | exact h | apply State.stamped_keeps | apply State.command_keeps | fail_if_no_progress (refine Keeps.mk rfl rfl rfl rfl rfl rfl rfl ?_)
    | exact ReplyKeeps.no | apply ResKeeps.ite | apply ReplyKeeps.ite | apply Keeps.ite | intro _ _ h

theorem execFrontSet_keeps (h : Keeps u0 q0 s) (c : Fin 9) : ResKeeps u0 q0 (execFrontSet c s) := by
  unfold execFrontSet
  try dsimp only
  with_reducible repeat' first
    | exact h | apply State.command_keeps | apply State.stamp_keeps | apply State.excite_keeps | apply State.summarise_keeps
    | fail_if_no_progress (refine Keeps.mk rfl rfl rfl rfl rfl rfl rfl ?_) | exact ReplyKeeps.no | apply ReplyKeeps.done | exact ReplyKeeps.refuse
    | apply ResKeeps.ite | apply ReplyKeeps.ite | apply Keeps.ite | intro _ _ h | intro _ h | assumption | dsimp only | split

theorem execGainSet_keeps (h : Keeps u0 q0 s) (c : Fin 9) : ResKeeps u0 q0 (execGainSet c s) := by
  unfold execGainSet
  try dsimp only
  with_reducible repeat' first
    | exact h | apply State.stamped_keeps | apply State.command_keeps | fail_if_no_progress (refine Keeps.mk rfl rfl rfl rfl rfl rfl rfl ?_)
    | exact ReplyKeeps.no | apply ResKeeps.ite | apply ReplyKeeps.ite | apply Keeps.ite | intro _ _ h

theorem execMapSet_keeps (h : Keeps u0 q0 s) (c : Fin 9) : ResKeeps u0 q0 (execMapSet c s) := by
  unfold execMapSet
  try dsimp only
  with_reducible repeat' first
    | exact h | apply State.stamped_keeps | apply State.command_keeps | fail_if_no_progress (refine Keeps.mk rfl rfl rfl rfl rfl rfl rfl ?_)
    | exact ReplyKeeps.no | apply ResKeeps.ite | apply ReplyKeeps.ite | apply Keeps.ite | intro _ _ h

theorem State.revoke_keeps (h : Keeps u0 q0 s) : Keeps u0 q0 (State.revoke s) := by
  unfold State.revoke
  try dsimp only
  with_reducible repeat' first
    | exact h | apply State.freeLocksOf_keeps | fail_if_no_progress (refine Keeps.mk rfl rfl rfl rfl rfl rfl rfl ?_)

theorem State.netDest_keeps (h : Keeps u0 q0 s) (cmd : Cmd) : ReplyKeeps u0 q0 (State.netDest cmd s) := by
  unfold State.netDest
  try dsimp only
  with_reducible repeat' first
    | exact h | apply State.withEth_keeps | fail_if_no_progress (refine Keeps.mk rfl rfl rfl rfl rfl rfl rfl ?_) | exact ReplyKeeps.no
    | apply ReplyKeeps.done | apply ReplyKeeps.ite

theorem State.writeEthCfg_keeps (h : Keeps u0 q0 s) (p : Nat) (w : Word) : Keeps u0 q0 (State.writeEthCfg p w s) := by
  unfold State.writeEthCfg
  try dsimp only
  with_reducible repeat' first
    | exact h | apply State.keepAltered_keeps | apply State.withEth_keeps | fail_if_no_progress (refine Keeps.mk rfl rfl rfl rfl rfl rfl rfl ?_)

theorem State.netPort_keeps (h : Keeps u0 q0 s) (cmd : Cmd) : ReplyKeeps u0 q0 (State.netPort cmd s) := by
  unfold State.netPort
  try dsimp only
  with_reducible repeat' first
    | exact h | apply State.writeEthCfg_keeps | apply State.setCondition_keeps | apply State.withEth_keeps
    | fail_if_no_progress (refine Keeps.mk rfl rfl rfl rfl rfl rfl rfl ?_) | exact ReplyKeeps.no | apply ReplyKeeps.done | apply ReplyKeeps.ite

theorem execSecRevoke_keeps (h : Keeps u0 q0 s) (c : Fin 9) : ResKeeps u0 q0 (execSecRevoke c s) := by
  unfold execSecRevoke
  try dsimp only
  with_reducible repeat' first
    | exact h | apply State.command_keeps | apply State.revoke_keeps | fail_if_no_progress (refine Keeps.mk rfl rfl rfl rfl rfl rfl rfl ?_)
    | apply ReplyKeeps.done | intro _ _ h

theorem execSecChallenge_keeps (h : Keeps u0 q0 s) (c : Fin 9) : ResKeeps u0 q0 (execSecChallenge c s) := by
  unfold execSecChallenge
  try dsimp only
  with_reducible repeat' first
    | exact h | apply State.draw_keeps | apply State.command_keeps | fail_if_no_progress (refine Keeps.mk rfl rfl rfl rfl rfl rfl rfl ?_)
    | apply ReplyKeeps.done | intro _ _ h

theorem execSecUnlock_keeps (h : Keeps u0 q0 s) (c : Fin 9) : ResKeeps u0 q0 (execSecUnlock c s) := by
  unfold execSecUnlock
  try dsimp only
  with_reducible repeat' first
    | exact h | apply State.command_keeps | apply State.report_keeps | fail_if_no_progress (refine Keeps.mk rfl rfl rfl rfl rfl rfl rfl ?_)
    | exact ReplyKeeps.no | apply ReplyKeeps.done | apply ReplyKeeps.refuseWith | apply ResKeeps.ite | apply ReplyKeeps.ite | apply Keeps.ite
    | intro _ _ h

theorem execMemMap_keeps (h : Keeps u0 q0 s) (c : Fin 9) : ResKeeps u0 q0 (execMemMap c s) := by
  unfold execMemMap
  try dsimp only
  with_reducible repeat' first
    | exact h | apply State.withCellar_keeps | apply State.command_keeps | apply State.takeLock_keeps
    | fail_if_no_progress (refine Keeps.mk rfl rfl rfl rfl rfl rfl rfl ?_) | apply Keeps.mem (u0 := u0) (q0 := q0)
    | exact ReplyKeeps.no | apply ReplyKeeps.done | exact ReplyKeeps.refuse | apply ResKeeps.ite | apply ReplyKeeps.ite | apply Keeps.ite
    | intro _ _ h | intro _ h | assumption | dsimp only | split

theorem execSecKey_keeps (h : Keeps u0 q0 s) (c : Fin 9) : ResKeeps u0 q0 (execSecKey c s) := by
  unfold execSecKey
  try dsimp only
  with_reducible repeat' first
    | exact h | apply State.command_keeps | fail_if_no_progress (refine Keeps.mk rfl rfl rfl rfl rfl rfl rfl ?_) | exact ReplyKeeps.no
    | apply ReplyKeeps.done | apply ResKeeps.ite | apply ReplyKeeps.ite | apply Keeps.ite | intro _ _ h

theorem execNetSet_keeps (h : Keeps u0 q0 s) (c : Fin 9) : ResKeeps u0 q0 (execNetSet c s) := by
  unfold execNetSet
  try dsimp only
  with_reducible repeat' first
    | exact h | apply State.command_keeps | apply State.netPort_keeps | apply State.netDest_keeps | apply State.withEth_keeps
    | fail_if_no_progress (refine Keeps.mk rfl rfl rfl rfl rfl rfl rfl ?_) | exact ReplyKeeps.no | apply ReplyKeeps.done | apply ResKeeps.ite
    | apply ReplyKeeps.ite | apply Keeps.ite | intro _ _ h | intro _ h | assumption | dsimp only | split

theorem State.packAll_keeps (h : Keeps u0 q0 s) : Keeps u0 q0 (State.packAll s) := by
  unfold State.packAll
  try dsimp only
  with_reducible repeat' first
    | exact h | apply State.repack_keeps

theorem State.storeImage_keeps (h : Keeps u0 q0 s) (i : Nat) (bs : List Byte) (tab : Word) (l : Loft) (at_ : Nat) (hl : Mem.wf 0 l.landing = true) : Keeps u0 q0 (State.storeImage i bs tab l at_ s) := by
  unfold State.storeImage
  extract_lets code init tabBytes place m l1
  exact State.withLoft_keeps h _ (Loft.write_wf (Loft.write_wf (show Mem.wf 0 l1.landing = true from hl)))

theorem execCellLoad_keeps (h : Keeps u0 q0 s) (c : Fin 9) : ResKeeps u0 q0 (execCellLoad c s) := by
  unfold execCellLoad
  apply State.command_keeps h
  intro cmd t ht
  extract_lets i bs _ t0 n tabBytes w
  have h0 : Keeps u0 q0 t0 := State.withLoft_keeps ht _ ht.landing
  clear_value t0 w
  iterate 5 (refine ReplyKeeps.ite ReplyKeeps.no ?_)
  split
  · exact ReplyKeeps.no
  · rename_i l a hp
    have h1 : Keeps u0 q0 (t0.withLoft l) := State.withLoft_keeps h0 _ (Loft.storePlace_wf h0.landing hp)
    have h2 := State.placePages_keeps h1 256 w
    refine ReplyKeeps.ite (ReplyKeeps.done (State.storeImage_keeps h1 _ _ _ _ _ h1.landing)) (ReplyKeeps.ite ReplyKeeps.no ?_)
    exact ReplyKeeps.done (State.storeImage_keeps h2 _ _ _ _ _ h2.landing)

theorem execZoneSet_keeps (h : Keeps u0 q0 s) (c : Fin 9) : ResKeeps u0 q0 (execZoneSet c s) := by
  unfold execZoneSet
  try dsimp only
  with_reducible repeat' first
    | exact h | apply State.command_keeps | apply State.stamp_keeps | apply State.placePages_keeps
    | fail_if_no_progress (refine Keeps.mk rfl rfl rfl rfl rfl rfl rfl ?_) | exact ReplyKeeps.no
    | apply ReplyKeeps.done | exact ReplyKeeps.refuse | apply ResKeeps.ite | apply ReplyKeeps.ite | apply Keeps.ite | intro _ _ h | intro _ h
    | assumption | dsimp only | split

theorem execZoneParam_keeps (h : Keeps u0 q0 s) (c : Fin 9) : ResKeeps u0 q0 (execZoneParam c s) := by
  unfold execZoneParam
  try dsimp only
  with_reducible repeat' first
    | exact h | apply State.stamped_keeps | apply State.command_keeps | fail_if_no_progress (refine Keeps.mk rfl rfl rfl rfl rfl rfl rfl ?_)
    | exact ReplyKeeps.no | apply ResKeeps.ite | apply ReplyKeeps.ite | apply Keeps.ite | intro _ _ h | intro _ h | assumption | dsimp only | split

theorem execPoolSet_keeps (h : Keeps u0 q0 s) (c : Fin 9) : ResKeeps u0 q0 (execPoolSet c s) := by
  unfold execPoolSet
  try dsimp only
  with_reducible repeat' first
    | exact h | apply State.stamped_keeps | apply State.command_keeps | fail_if_no_progress (refine Keeps.mk rfl rfl rfl rfl rfl rfl rfl ?_)
    | exact ReplyKeeps.no | apply ResKeeps.ite | apply ReplyKeeps.ite | apply Keeps.ite | intro _ _ h

theorem execZoneEnable_keeps (h : Keeps u0 q0 s) (c : Fin 9) : ResKeeps u0 q0 (execZoneEnable c s) := by
  unfold execZoneEnable
  try dsimp only
  with_reducible repeat' first
    | exact h | apply State.command_keeps | apply State.stamp_keeps | apply State.packAll_keeps
    | fail_if_no_progress (refine Keeps.mk rfl rfl rfl rfl rfl rfl rfl ?_) | exact ReplyKeeps.no | apply ReplyKeeps.done | exact ReplyKeeps.refuse
    | apply ResKeeps.ite | apply ReplyKeeps.ite | apply Keeps.ite | intro _ _ h | intro _ h | assumption | dsimp only | split

theorem execZoneRead_keeps (h : Keeps u0 q0 s) (c : Fin 9) : ResKeeps u0 q0 (execZoneRead c s) := by
  unfold execZoneRead
  try dsimp only
  with_reducible repeat' first
    | exact h | apply State.command_keeps | fail_if_no_progress (refine Keeps.mk rfl rfl rfl rfl rfl rfl rfl ?_) | exact ReplyKeeps.no
    | apply ReplyKeeps.done | apply ResKeeps.ite | apply ReplyKeeps.ite | apply Keeps.ite | intro _ _ h

theorem execStatus_keeps (h : Keeps u0 q0 s) (c : Fin 9) : ResKeeps u0 q0 (execStatus c s) := by
  unfold execStatus
  try dsimp only
  with_reducible repeat' first
    | exact h | apply State.command_keeps | fail_if_no_progress (refine Keeps.mk rfl rfl rfl rfl rfl rfl rfl ?_) | apply ReplyKeeps.done | intro _ _ h

theorem execSurveyRead_keeps (h : Keeps u0 q0 s) (c : Fin 9) : ResKeeps u0 q0 (execSurveyRead c s) := by
  unfold execSurveyRead
  try dsimp only
  with_reducible repeat' first
    | exact h | apply State.command_keeps | fail_if_no_progress (refine Keeps.mk rfl rfl rfl rfl rfl rfl rfl ?_) | exact ReplyKeeps.no
    | apply ReplyKeeps.done | apply ResKeeps.ite | apply ReplyKeeps.ite | apply Keeps.ite | intro _ _ h | intro _ h | assumption | dsimp only | split

theorem execRecordList_keeps (h : Keeps u0 q0 s) (c : Fin 9) : ResKeeps u0 q0 (execRecordList c s) := by
  unfold execRecordList
  try dsimp only
  with_reducible repeat' first
    | exact h | apply State.command_keeps | fail_if_no_progress (refine Keeps.mk rfl rfl rfl rfl rfl rfl rfl ?_) | exact ReplyKeeps.no
    | apply ReplyKeeps.done | apply ResKeeps.ite | apply ReplyKeeps.ite | apply Keeps.ite | intro _ _ h

theorem execFaultRead_keeps (h : Keeps u0 q0 s) (c : Fin 9) : ResKeeps u0 q0 (execFaultRead c s) := by
  unfold execFaultRead
  try dsimp only
  with_reducible repeat' first
    | exact h | apply State.command_keeps | fail_if_no_progress (refine Keeps.mk rfl rfl rfl rfl rfl rfl rfl ?_) | exact ReplyKeeps.no
    | apply ReplyKeeps.done | apply ResKeeps.ite | apply ReplyKeeps.ite | apply Keeps.ite | intro _ _ h

theorem execIdentify_keeps (h : Keeps u0 q0 s) (c : Fin 9) : ResKeeps u0 q0 (execIdentify c s) := by
  unfold execIdentify
  try dsimp only
  with_reducible repeat' first
    | exact h | apply State.command_keeps | fail_if_no_progress (refine Keeps.mk rfl rfl rfl rfl rfl rfl rfl ?_) | apply ReplyKeeps.done | intro _ _ h

theorem execLogRead_keeps (h : Keeps u0 q0 s) (c : Fin 9) : ResKeeps u0 q0 (execLogRead c s) := by
  unfold execLogRead
  try dsimp only
  with_reducible repeat' first
    | exact h | apply State.command_keeps | fail_if_no_progress (refine Keeps.mk rfl rfl rfl rfl rfl rfl rfl ?_) | exact ReplyKeeps.no
    | apply ReplyKeeps.done | apply ResKeeps.ite | apply ReplyKeeps.ite | apply Keeps.ite | intro _ _ h

theorem execProgress_keeps (h : Keeps u0 q0 s) (c : Fin 9) : ResKeeps u0 q0 (execProgress c s) := by
  unfold execProgress
  try dsimp only
  with_reducible repeat' first
    | exact h | apply State.command_keeps | fail_if_no_progress (refine Keeps.mk rfl rfl rfl rfl rfl rfl rfl ?_) | apply ReplyKeeps.done | intro _ _ h

theorem execTachStatus_keeps (h : Keeps u0 q0 s) (c : Fin 9) : ResKeeps u0 q0 (execTachStatus c s) := by
  unfold execTachStatus
  try dsimp only
  with_reducible repeat' first
    | exact h | apply State.command_keeps | fail_if_no_progress (refine Keeps.mk rfl rfl rfl rfl rfl rfl rfl ?_) | exact ReplyKeeps.no
    | apply ReplyKeeps.done | apply ResKeeps.ite | apply ReplyKeeps.ite | apply Keeps.ite | intro _ _ h

theorem execTimeRead_keeps (h : Keeps u0 q0 s) (c : Fin 9) : ResKeeps u0 q0 (execTimeRead c s) := by
  unfold execTimeRead
  try dsimp only
  with_reducible repeat' first
    | exact h | apply State.command_keeps | fail_if_no_progress (refine Keeps.mk rfl rfl rfl rfl rfl rfl rfl ?_) | apply ReplyKeeps.done
    | apply ResKeeps.ite | apply ReplyKeeps.ite | apply Keeps.ite | intro _ _ h

theorem State.armCommand_keeps (h : Keeps u0 q0 s) (cmd : Cmd) : ReplyKeeps u0 q0 (State.armCommand cmd s) := by
  unfold State.armCommand
  try dsimp only
  with_reducible repeat' first
    | exact h | apply State.stamp_keeps | apply State.armTokens_keeps | fail_if_no_progress (refine Keeps.mk rfl rfl rfl rfl rfl rfl rfl ?_)
    | exact ReplyKeeps.no | apply ReplyKeeps.done | exact ReplyKeeps.refuse | apply ReplyKeeps.ite | apply Keeps.ite | intro _ _ h | intro _ h
    | assumption | dsimp only | split

theorem State.fireRetained_keeps (h : Keeps u0 q0 s) (u : Nat) (time : Nat) : ∀ t, State.fireRetained u time s = .ok t → Keeps u0 q0 t.2 := by
  intro t ht
  unfold State.fireRetained at ht
  extract_lets x r at ht
  split at ht
  · split at ht
    · cases ht
    · extract_lets pre post cut trace first rows rec_ stat s2 at ht
      injection ht with ht
      subst ht
      exact Keeps.mk rfl rfl rfl rfl rfl rfl rfl (State.setUnit_keeps h _ _)
  · cases ht

theorem execTrigSet_keeps (h : Keeps u0 q0 s) (c : Fin 9) : ResKeeps u0 q0 (execTrigSet c s) := by
  unfold execTrigSet
  try dsimp only
  with_reducible repeat' first
    | exact h | apply State.command_keeps | apply State.stamp_keeps | fail_if_no_progress (refine Keeps.mk rfl rfl rfl rfl rfl rfl rfl ?_)
    | exact ReplyKeeps.no | apply ReplyKeeps.done | exact ReplyKeeps.refuse | apply ResKeeps.ite | apply ReplyKeeps.ite | apply Keeps.ite
    | intro _ _ h | intro _ h | assumption | dsimp only | split

theorem execRecordDelete_keeps (h : Keeps u0 q0 s) (c : Fin 9) : ResKeeps u0 q0 (execRecordDelete c s) := by
  unfold execRecordDelete
  try dsimp only
  with_reducible repeat' first
    | exact h | apply State.command_keeps | fail_if_no_progress (refine Keeps.mk rfl rfl rfl rfl rfl rfl rfl ?_) | apply ReplyKeeps.done | intro _ _ h

theorem execDisarm_keeps (h : Keeps u0 q0 s) (c : Fin 9) : ResKeeps u0 q0 (execDisarm c s) := by
  unfold execDisarm
  try dsimp only
  with_reducible repeat' first
    | exact h | apply State.command_keeps | apply State.armCommand_keeps | fail_if_no_progress (refine Keeps.mk rfl rfl rfl rfl rfl rfl rfl ?_)
    | intro _ _ h

theorem execArm_keeps (h : Keeps u0 q0 s) (c : Fin 9) : ResKeeps u0 q0 (execArm c s) := by
  unfold execArm
  try dsimp only
  with_reducible repeat' first
    | exact h | apply State.command_keeps | apply State.armCommand_keeps | fail_if_no_progress (refine Keeps.mk rfl rfl rfl rfl rfl rfl rfl ?_)
    | intro _ _ h

theorem execFire_keeps (h : Keeps u0 q0 s) (c : Fin 9) : ResKeeps u0 q0 (execFire c s) := by
  unfold execFire
  try dsimp only
  with_reducible repeat' first
    | exact h | apply State.stamped_keeps | apply State.command_keeps | apply State.fireRetained_keeps
    | fail_if_no_progress (refine Keeps.mk rfl rfl rfl rfl rfl rfl rfl ?_) | (apply Keeps.of_ok2; assumption) | exact ReplyKeeps.no
    | apply ReplyKeeps.done | exact ReplyKeeps.refuse | apply ResKeeps.ite | apply ReplyKeeps.ite | apply Keeps.ite | intro _ _ h | intro _ h
    | assumption | dsimp only | split

theorem execStreamSet_keeps (h : Keeps u0 q0 s) (c : Fin 9) : ResKeeps u0 q0 (execStreamSet c s) := by
  unfold execStreamSet
  try dsimp only
  with_reducible repeat' first
    | exact h | apply State.command_keeps | apply State.setStream_keeps | fail_if_no_progress (refine Keeps.mk rfl rfl rfl rfl rfl rfl rfl ?_)
    | exact ReplyKeeps.no | apply ReplyKeeps.done | apply ResKeeps.ite | apply ReplyKeeps.ite | apply Keeps.ite | intro _ _ h

theorem execStreamStart_keeps (h : Keeps u0 q0 s) (c : Fin 9) : ResKeeps u0 q0 (execStreamStart c s) := by
  unfold execStreamStart
  try dsimp only
  with_reducible repeat' first
    | exact h | apply State.command_keeps | apply State.stamp_keeps | fail_if_no_progress (refine Keeps.mk rfl rfl rfl rfl rfl rfl rfl ?_)
    | exact ReplyKeeps.no | apply ReplyKeeps.done | exact ReplyKeeps.refuse | apply ResKeeps.ite | apply ReplyKeeps.ite | apply Keeps.ite
    | intro _ _ h | intro _ h | assumption | dsimp only | split

theorem execStreamStop_keeps (h : Keeps u0 q0 s) (c : Fin 9) : ResKeeps u0 q0 (execStreamStop c s) := by
  unfold execStreamStop
  try dsimp only
  with_reducible repeat' first
    | exact h | apply State.command_keeps | apply State.setStream_keeps | fail_if_no_progress (refine Keeps.mk rfl rfl rfl rfl rfl rfl rfl ?_)
    | exact ReplyKeeps.no | apply ReplyKeeps.done | exact ReplyKeeps.refuse | apply ResKeeps.ite | apply ReplyKeeps.ite | apply Keeps.ite
    | intro _ _ h | intro _ h | assumption | dsimp only | split

theorem State.clearSource_keeps (h : Keeps u0 q0 s) (n : Nat) : Keeps u0 q0 (State.clearSource n s) := by
  unfold State.clearSource
  try dsimp only
  with_reducible repeat' first
    | exact h | apply State.setSource_keeps | apply State.faultEvent_keeps | apply State.logFault_keeps

theorem execCalibrate_keeps (h : Keeps u0 q0 s) (c : Fin 9) : ResKeeps u0 q0 (execCalibrate c s) := by
  unfold execCalibrate
  try dsimp only
  with_reducible repeat' first
    | exact h | apply State.command_keeps | apply State.startSelfCal_keeps | apply State.powerFront_keeps | apply State.startLong_keeps
    | apply State.takeLock_keeps | fail_if_no_progress (refine Keeps.mk rfl rfl rfl rfl rfl rfl rfl ?_) | (apply Keeps.of_ok1; assumption)
    | exact ReplyKeeps.no | apply ReplyKeeps.later | exact ReplyKeeps.refuse | apply ResKeeps.ite | apply ReplyKeeps.ite | apply Keeps.ite
    | intro _ _ h | intro _ h | assumption | dsimp only | split

theorem execFaultCfg_keeps (h : Keeps u0 q0 s) (c : Fin 9) : ResKeeps u0 q0 (execFaultCfg c s) := by
  unfold execFaultCfg
  try dsimp only
  with_reducible repeat' first
    | exact h | apply State.setSource_keeps | apply State.command_keeps | apply State.watchWear_keeps | apply State.wrote_keeps
    | fail_if_no_progress (refine Keeps.mk rfl rfl rfl rfl rfl rfl rfl ?_) | exact ResKeeps.fault | exact ReplyKeeps.no | apply ReplyKeeps.done
    | apply ResKeeps.ite | apply ReplyKeeps.ite | apply Keeps.ite | intro _ _ h

theorem execRetrimDefer_keeps (h : Keeps u0 q0 s) (c : Fin 9) : ResKeeps u0 q0 (execRetrimDefer c s) := by
  unfold execRetrimDefer
  try dsimp only
  with_reducible repeat' first
    | exact h | apply State.setTrim_keeps | apply State.command_keeps | fail_if_no_progress (refine Keeps.mk rfl rfl rfl rfl rfl rfl rfl ?_)
    | exact ReplyKeeps.no | apply ReplyKeeps.done | apply ResKeeps.ite | apply ReplyKeeps.ite | apply Keeps.ite | intro _ _ h

theorem execTrimSet_keeps (h : Keeps u0 q0 s) (c : Fin 9) : ResKeeps u0 q0 (execTrimSet c s) := by
  unfold execTrimSet
  try dsimp only
  with_reducible repeat' first
    | exact h | apply State.setTrim_keeps | apply State.command_keeps | apply State.keepAltered_keeps
    | fail_if_no_progress (refine Keeps.mk rfl rfl rfl rfl rfl rfl rfl ?_) | exact ReplyKeeps.no | apply ReplyKeeps.done | apply ResKeeps.ite
    | apply ReplyKeeps.ite | apply Keeps.ite | intro _ _ h

theorem execTimeSet_keeps (h : Keeps u0 q0 s) (c : Fin 9) : ResKeeps u0 q0 (execTimeSet c s) := by
  unfold execTimeSet
  try dsimp only
  with_reducible repeat' first
    | exact h | apply State.command_keeps | apply State.withTime_keeps | apply State.stepTime_keeps
    | fail_if_no_progress (refine Keeps.mk rfl rfl rfl rfl rfl rfl rfl ?_) | exact Nat.le_refl _ | exact Nat.le_max_left _ _ | exact ReplyKeeps.no
    | apply ReplyKeeps.done | apply ResKeeps.ite | apply ReplyKeeps.ite | apply Keeps.ite | intro _ _ h

theorem execTachCfg_keeps (h : Keeps u0 q0 s) (c : Fin 9) : ResKeeps u0 q0 (execTachCfg c s) := by
  unfold execTachCfg
  try dsimp only
  with_reducible repeat' first
    | exact h | apply State.restartZones_keeps | apply State.command_keeps | apply State.setTach_keeps
    | fail_if_no_progress (refine Keeps.mk rfl rfl rfl rfl rfl rfl rfl ?_) | exact ReplyKeeps.no | apply ReplyKeeps.done | apply ResKeeps.ite
    | apply ReplyKeeps.ite | apply Keeps.ite | intro _ _ h

theorem execTiuMeasure_keeps (h : Keeps u0 q0 s) (c : Fin 9) : ResKeeps u0 q0 (execTiuMeasure c s) := by
  unfold execTiuMeasure
  try dsimp only
  with_reducible repeat' first
    | exact h | apply State.withTiu_keeps | apply State.command_keeps | fail_if_no_progress (refine Keeps.mk rfl rfl rfl rfl rfl rfl rfl ?_)
    | exact ReplyKeeps.no | apply ReplyKeeps.later | apply ResKeeps.ite | apply ReplyKeeps.ite | apply Keeps.ite | intro _ _ h

theorem execFaultClear_keeps (h : Keeps u0 q0 s) (c : Fin 9) : ResKeeps u0 q0 (execFaultClear c s) := by
  unfold execFaultClear
  try dsimp only
  with_reducible repeat' first
    | exact h | apply State.command_keeps | apply State.leaveSafe_keeps | apply State.clearSource_keeps
    | fail_if_no_progress (refine Keeps.mk rfl rfl rfl rfl rfl rfl rfl ?_) | apply Keeps.foldl | apply ReplyKeeps.done | apply ReplyKeeps.refuseWith
    | intro _ _ h | intro _ h | assumption | dsimp only | split

theorem execTimeCfg_keeps (h : Keeps u0 q0 s) (c : Fin 9) : ResKeeps u0 q0 (execTimeCfg c s) := by
  unfold execTimeCfg
  try dsimp only
  with_reducible repeat' first
    | exact h | apply State.command_keeps | apply State.takeTimeCfg_keeps | apply State.keepAltered_keeps
    | fail_if_no_progress (refine Keeps.mk rfl rfl rfl rfl rfl rfl rfl ?_) | exact ReplyKeeps.no | apply ReplyKeeps.done | apply ResKeeps.ite
    | apply ReplyKeeps.ite | apply Keeps.ite | intro _ _ h

theorem State.takeEvent_keeps (h : Keeps u0 q0 s) (q : Nat) : ∀ t, State.takeEvent q s = some t → Keeps u0 q0 t.2.2 := by
  intro t ht
  unfold State.takeEvent at ht
  dsimp only at ht
  split at ht
  · split at ht
    · cases ht
    · cases ht; exact Keeps.mk rfl rfl rfl rfl rfl rfl rfl h
  · split at ht
    · cases ht
    · cases ht; exact Keeps.mk rfl rfl rfl rfl rfl rfl rfl h

theorem State.nextOut_keeps (h : Keeps u0 q0 s) (c : Nat) : ∀ t, State.nextOut c s = some t → Keeps u0 q0 t.2 := by
  intro t ht
  unfold State.nextOut at ht
  dsimp only at ht
  have hout : ∀ y, (match vget s.fw.out c [] with
      | [] => none
      | m :: rest => some (m.msg, { s with fw := { s.fw with out := vset s.fw.out c rest } }) : Option (Msg × State)) = some y → Keeps u0 q0 y.2 := by
    intro y hy
    split at hy
    · cases hy
    · cases hy; exact Keeps.mk rfl rfl rfl rfl rfl rfl rfl h
  split at ht
  · exact hout _ ht
  · rename_i o series v hev
    have hv : Keeps u0 q0 v := by
      cases hq : eventQueueOf c with
      | none => rw [hq] at hev; cases hev
      | some q => rw [hq] at hev; exact State.takeEvent_keeps h q _ hev
    split at ht
    · exact hout _ ht
    · split at ht
      · cases ht; exact hv
      · cases ht; exact Keeps.mk rfl rfl rfl rfl rfl rfl rfl hv

theorem State.complete_keeps (h : Keeps u0 q0 s) (c : Nat) : Keeps u0 q0 (State.complete s c) := by
  unfold State.complete
  try dsimp only
  with_reducible repeat' first
    | exact h | apply State.ring_keeps | apply State.setChan_keeps | apply State.nextOut_keeps
    | fail_if_no_progress (refine Keeps.mk rfl rfl rfl rfl rfl rfl rfl ?_) | (apply Keeps.of_some2; assumption) | apply Keeps.ite | intro _ _ h
    | intro _ h | assumption | dsimp only | split

theorem State.completeUdp_keeps (h : Keeps u0 q0 s) (d : Nat) : Keeps u0 q0 (State.completeUdp s d) := by
  unfold State.completeUdp
  try dsimp only
  with_reducible repeat' first
    | exact h | apply State.takeEvent_keeps | fail_if_no_progress (refine Keeps.mk rfl rfl rfl rfl rfl rfl rfl ?_)
    | (apply Keeps.of_some3; assumption) | apply Keeps.ite | intro _ _ h | intro _ h | assumption | dsimp only | split

theorem State.visit_keeps (h : Keeps u0 q0 s) (c : Nat) : Keeps u0 q0 (State.visit s c) := by
  unfold State.visit
  try dsimp only
  with_reducible repeat' first
    | exact h | apply State.settleAll_keeps | apply State.setChan_keeps | apply State.takeH2d_keeps
    | fail_if_no_progress (refine Keeps.mk rfl rfl rfl rfl rfl rfl rfl ?_) | apply Keeps.ite

theorem execFirmwareOutboundComplete_keeps (h : Keeps u0 q0 s) : ResKeeps u0 q0 (execFirmwareOutboundComplete s) := by
  unfold execFirmwareOutboundComplete
  try dsimp only
  with_reducible repeat' first
    | exact h | apply State.completeUdp_keeps | apply State.complete_keeps | apply Keeps.foldl | apply ResKeeps.next | apply ResKeeps.ite
    | apply Keeps.ite | intro _ _ h

theorem execBulkTimeout_keeps (h : Keeps u0 q0 s) (c : Fin 9) : ResKeeps u0 q0 (execBulkTimeout c s) := by
  unfold execBulkTimeout
  try dsimp only
  with_reducible repeat' first
    | exact h | apply State.untilUp_keeps | apply State.refuse_keeps | fail_if_no_progress (refine Keeps.mk rfl rfl rfl rfl rfl rfl rfl ?_)
    | apply ResKeeps.next | exact ReplyKeeps.refuse | assumption | dsimp only | split

theorem execFirmwareTakeInbound_keeps (h : Keeps u0 q0 s) : ResKeeps u0 q0 (execFirmwareTakeInbound s) := by
  unfold execFirmwareTakeInbound
  try dsimp only
  with_reducible repeat' first
    | exact h | apply State.takeH2d_keeps | apply State.visit_keeps | apply Keeps.foldl | apply ResKeeps.next | apply ResKeeps.ite | apply Keeps.ite
    | intro _ _ h

theorem execLongOperationAbort_keeps (h : Keeps u0 q0 s) : ResKeeps u0 q0 (execLongOperationAbort s) := by
  unfold execLongOperationAbort
  try dsimp only
  with_reducible repeat' first
    | exact h | apply State.takeH2d_keeps | fail_if_no_progress (refine Keeps.mk rfl rfl rfl rfl rfl rfl rfl ?_) | apply ResKeeps.next
    | apply ResKeeps.ite | apply Keeps.ite | intro _ _ h | intro _ h | assumption | dsimp only | split

end Sys2Proof.Machine
end

