-- ==== Sys2Proof/Laws/KeepsHost.lean ====
section
/-! SUPPORT. One lemma per operation of the host map, the ports, MODE_SET and raw register writes: it keeps what `Keeps` says. -/

namespace Sys2Proof.Machine

variable {u0 : Nat} {q0 : List Instr} {s : State}

theorem State.hostRead_keeps (h : Keeps u0 q0 s) (p : Path) (off : Nat) : Keeps u0 q0 (State.hostRead p off s) := by
  unfold State.hostRead
  try dsimp only
  with_reducible repeat' first
    | exact h | apply State.lockRead_keeps | apply State.mbOutEffect_keeps | apply State.readWide3_keeps | apply State.mbReadAccess_keeps
    | apply State.returned_keeps | fail_if_no_progress (refine Keeps.mk rfl rfl rfl rfl rfl rfl rfl ?_) | apply Keeps.ite | intro _ _ h | intro _ h

theorem State.ringWake_keeps (h : Keeps u0 q0 s) (w : Word) : Keeps u0 q0 (State.ringWake w s) := by
  unfold State.ringWake
  try dsimp only
  with_reducible repeat' first
    | exact h | apply State.writeDbH2d_keeps | fail_if_no_progress (refine Keeps.mk rfl rfl rfl rfl rfl rfl rfl ?_) | apply Keeps.ite

theorem State.writeDoor_keeps (h : Keeps u0 q0 s) (off : Nat) (w : Word) : Keeps u0 q0 (State.writeDoor off w s) := by
  unfold State.writeDoor
  try dsimp only
  with_reducible repeat' first
    | exact h | apply State.ringWake_keeps | apply State.setDoorbells_keeps | fail_if_no_progress (refine Keeps.mk rfl rfl rfl rfl rfl rfl rfl ?_)
    | assumption | dsimp only | split

theorem State.writeChan_keeps (h : Keeps u0 q0 s) (off : Nat) (w : Word) : Keeps u0 q0 (State.writeChan off w s) := by
  unfold State.writeChan
  try dsimp only
  with_reducible repeat' first
    | exact h | apply State.setChan_keeps | apply State.discardIn_keeps | fail_if_no_progress (refine Keeps.mk rfl rfl rfl rfl rfl rfl rfl ?_)
    | apply Keeps.ite | intro _ _ h | intro _ h | assumption | dsimp only | split

theorem State.writeControl_keeps (h : Keeps u0 q0 s) (p : Path) (off : Nat) (w : Word) : Keeps u0 q0 (State.writeControl p off w s) := by
  unfold State.writeControl
  try dsimp only
  with_reducible repeat' first
    | exact h | apply State.writeHintCfg_keeps | apply State.keepAltered_keeps | fail_if_no_progress (refine Keeps.mk rfl rfl rfl rfl rfl rfl rfl ?_)
    | apply Keeps.ite

theorem State.writeSource_keeps (h : Keeps u0 q0 s) (p : Path) (off : Nat) (w : Word) : Keeps u0 q0 (State.writeSource p off w s) := by
  unfold State.writeSource
  try dsimp only
  with_reducible repeat' first
    | exact h | apply State.setSource_keeps | apply State.captureIgnored_keeps | apply Keeps.ite

theorem State.writeCollector_keeps (h : Keeps u0 q0 s) (p : Path) (off : Nat) (w : Word) : Keeps u0 q0 (State.writeCollector p off w s) := by
  unfold State.writeCollector
  try dsimp only
  with_reducible repeat' first
    | exact h | apply State.setSource_keeps | apply State.writeSource_keeps | fail_if_no_progress (refine Keeps.mk rfl rfl rfl rfl rfl rfl rfl ?_)
    | apply Keeps.ite

theorem State.hostWrite_keeps (h : Keeps u0 q0 s) (p : Path) (off : Nat) (w : Word) : Keeps u0 q0 (State.hostWrite p off w s) := by
  unfold State.hostWrite
  try dsimp only
  with_reducible repeat' first
    | exact h | apply State.mbInEffect_keeps | apply State.writeDoor_keeps | apply State.writeChan_keeps | apply State.aliasWrite_keeps
    | apply State.writeControl_keeps | apply State.mbAccess_keeps | apply State.writeCollector_keeps | apply State.selectWide_keeps
    | apply State.lockWrite_keeps | fail_if_no_progress (refine Keeps.mk rfl rfl rfl rfl rfl rfl rfl ?_) | apply Keeps.ite | intro _ _ h | intro _ h

theorem State.hostWriteBytes_keeps (h : Keeps u0 q0 s) (p : Path) (off : Nat) (be : Nat) (w : Word) : Keeps u0 q0 (State.hostWriteBytes p off be w s) := by
  unfold State.hostWriteBytes
  try dsimp only
  with_reducible repeat' first
    | exact h | apply State.mbInEffect_keeps | apply State.captureIgnored_keeps | apply State.hostWrite_keeps | apply State.mbAccess_keeps
    | apply Keeps.ite | intro _ _ h | intro _ h

theorem execStrHeadLoRead_keeps (h : Keeps u0 q0 s) (n : Fin 8) : ResKeeps u0 q0 (execStrHeadLoRead n s) := by
  unfold execStrHeadLoRead
  try dsimp only
  with_reducible repeat' first
    | exact h | apply State.returned_keeps | fail_if_no_progress (refine Keeps.mk rfl rfl rfl rfl rfl rfl rfl ?_) | apply ResKeeps.next
    | apply ResKeeps.ite

theorem execVecFrameLoRead_keeps (h : Keeps u0 q0 s) : ResKeeps u0 q0 (execVecFrameLoRead s) := by
  unfold execVecFrameLoRead
  try dsimp only
  with_reducible repeat' first
    | exact h | apply State.returned_keeps | fail_if_no_progress (refine Keeps.mk rfl rfl rfl rfl rfl rfl rfl ?_) | apply ResKeeps.next
    | apply ResKeeps.ite

theorem execTrigFireLoRead_keeps (h : Keeps u0 q0 s) (u : Fin 16) : ResKeeps u0 q0 (execTrigFireLoRead u s) := by
  unfold execTrigFireLoRead
  try dsimp only
  with_reducible repeat' first
    | exact h | apply State.returned_keeps | fail_if_no_progress (refine Keeps.mk rfl rfl rfl rfl rfl rfl rfl ?_) | apply ResKeeps.next
    | apply ResKeeps.ite

theorem State.takeBuffer_keeps (h : Keeps u0 q0 s) (ch : Nat) (data : List Byte) : Keeps u0 q0 (State.takeBuffer ch data s) := by
  unfold State.takeBuffer
  try dsimp only
  with_reducible repeat' first
    | exact h | apply State.setHall_keeps | fail_if_no_progress (refine Keeps.mk rfl rfl rfl rfl rfl rfl rfl ?_) | apply Keeps.ite

theorem State.fillReplay_keeps (h : Keeps u0 q0 s) (ch : Nat) : Keeps u0 q0 (State.fillReplay ch s) := by
  unfold State.fillReplay
  try dsimp only
  with_reducible repeat' first
    | exact h | apply State.takeBuffer_keeps | fail_if_no_progress (refine Keeps.mk rfl rfl rfl rfl rfl rfl rfl ?_) | apply Keeps.ite | intro _ _ h
    | intro _ h | assumption | dsimp only | split

theorem State.replayEnd_keeps (h : Keeps u0 q0 s) (leg : Nat) : Keeps u0 q0 (State.replayEnd leg s) := by
  unfold State.replayEnd
  try dsimp only
  with_reducible repeat' first
    | exact h | apply State.setHall_keeps | fail_if_no_progress (refine Keeps.mk rfl rfl rfl rfl rfl rfl rfl ?_)

theorem State.replayClose_keeps (h : Keeps u0 q0 s) (leg : Nat) : Keeps u0 q0 (State.replayClose leg s) := by
  unfold State.replayClose
  try dsimp only
  with_reducible repeat' first
    | exact h | apply State.replayEnd_keeps | apply Keeps.ite

theorem State.replayCoherent_keeps (h : Keeps u0 q0 s) (leg : Nat) (n : Nat) (bs : List Byte) : Keeps u0 q0 (State.replayCoherent leg n bs s) := by
  unfold State.replayCoherent
  try dsimp only
  with_reducible repeat' first
    | exact h | apply State.setHall_keeps

theorem State.replayDirect_keeps (h : Keeps u0 q0 s) (leg : Nat) (n : Nat) (bs : List Byte) : Keeps u0 q0 (State.replayDirect leg n bs s) := by
  unfold State.replayDirect
  try dsimp only
  with_reducible repeat' first
    | exact h | apply State.placeDirect_keeps

theorem State.replayError_keeps (h : Keeps u0 q0 s) (leg : Nat) (first : Nat) : Keeps u0 q0 (State.replayError leg first s) := by
  unfold State.replayError
  try dsimp only
  with_reducible repeat' first
    | exact h | apply State.report_keeps | apply State.replayEnd_keeps | apply State.setHall_keeps

theorem State.replayGroups_keeps (h : Keeps u0 q0 s) (leg g n : Nat) (bs : List Byte) : Keeps u0 q0 (State.replayGroups leg g n bs s) := by
  induction g generalizing s n bs with
  | zero => exact h
  | succ g ih =>
    apply ih
    apply State.replayDirect_keeps
    exact Keeps.foldl h (fun t a ht => State.replayCoherent_keeps ht _ _ _)

theorem State.replayHk_keeps (h : Keeps u0 q0 s) (leg : Nat) (rs : List SideRecord) : Keeps u0 q0 (State.replayHk leg rs s) := by
  unfold State.replayHk
  try dsimp only
  with_reducible repeat' first
    | exact h | apply State.setHall_keeps | fail_if_no_progress (refine Keeps.mk rfl rfl rfl rfl rfl rfl rfl ?_) | apply Keeps.foldl | apply Keeps.ite
    | intro _ _ h

theorem State.replayLaunch_keeps (h : Keeps u0 q0 s) (leg : Nat) (r : SideRecord) : Keeps u0 q0 (State.replayLaunch leg r s) := by
  unfold State.replayLaunch
  try dsimp only
  with_reducible repeat' first
    | exact h | apply State.frameChanges_keeps | apply State.numberTrace_keeps | apply State.replaySwitch_keeps | apply State.setHall_keeps
    | fail_if_no_progress (refine Keeps.mk rfl rfl rfl rfl rfl rfl rfl ?_) | apply Keeps.ite | intro _ _ h | intro _ h | assumption | dsimp only
    | split

theorem State.replaySides_keeps (h : Keeps u0 q0 s) (leg : Nat) (rs : List SideRecord) : Keeps u0 q0 (State.replaySides leg rs s) := by
  unfold State.replaySides
  try dsimp only
  with_reducible repeat' first
    | exact h | apply State.setHall_keeps | fail_if_no_progress (refine Keeps.mk rfl rfl rfl rfl rfl rfl rfl ?_) | apply Keeps.foldl | intro _ _ h
    | intro _ h | assumption | dsimp only | split

theorem execReplayBlock_keeps (h : Keeps u0 q0 s) (leg : Fin 2) : ResKeeps u0 q0 (execReplayBlock leg s) := by
  unfold execReplayBlock
  try dsimp only
  with_reducible repeat' first
    | exact h | apply State.replayGroups_keeps | apply State.replayClose_keeps | apply State.replayError_keeps | apply State.stopIfReached_keeps
    | apply State.replayHk_keeps | apply State.replayLaunch_keeps | apply State.replaySides_keeps | apply State.fillReplay_keeps
    | apply State.setHall_keeps | fail_if_no_progress (refine Keeps.mk rfl rfl rfl rfl rfl rfl rfl ?_) | apply Keeps.foldl | apply ResKeeps.next
    | apply ResKeeps.ite | apply Keeps.ite | intro _ _ h | intro _ h | assumption | dsimp only | split

theorem State.clearWidePcie_keeps (h : Keeps u0 q0 s) : Keeps u0 q0 (State.clearWidePcie s) := by
  unfold State.clearWidePcie
  try dsimp only
  with_reducible repeat' first
    | exact h | apply State.setWide_keeps

theorem State.hostStop_keeps (h : Keeps u0 q0 s) : Keeps u0 q0 (State.hostStop s) := by
  unfold State.hostStop
  try dsimp only
  with_reducible repeat' first
    | exact h | apply State.freeLocksOf_keeps | apply State.replayClose_keeps | apply State.revoke_keeps | apply State.setHall_keeps
    | fail_if_no_progress (refine Keeps.mk rfl rfl rfl rfl rfl rfl rfl ?_) | apply Keeps.foldl | apply Keeps.ite

theorem State.withSpi_keeps (h : Keeps u0 q0 s) (x : Spi) : Keeps u0 q0 (State.withSpi x s) := by
  unfold State.withSpi
  try dsimp only
  with_reducible repeat' first
    | exact h | fail_if_no_progress (refine Keeps.mk rfl rfl rfl rfl rfl rfl rfl ?_)

theorem State.spiEnd_keeps (h : Keeps u0 q0 s) (owed : Nat) (e : Nat) (answered : Bool) (overX3 : Bool) : Keeps u0 q0 (State.spiEnd owed e answered overX3 s) := by
  unfold State.spiEnd
  try dsimp only
  with_reducible repeat' first
    | exact h | apply State.withSpi_keeps | fail_if_no_progress (refine Keeps.mk rfl rfl rfl rfl rfl rfl rfl ?_) | apply Keeps.ite

theorem State.spiRead_keeps (h : Keeps u0 q0 s) (n off : Nat) : Keeps u0 q0 (State.spiRead n off s).2 := by
  induction n generalizing s off with
  | zero => exact h
  | succ n ih => exact ih (State.hostRead_keeps h _ _) _

theorem State.spiWrite_keeps (h : Keeps u0 q0 s) (ws : List Word) (off : Nat) : Keeps u0 q0 (State.spiWrite ws off s) := by
  induction ws generalizing s off with
  | nil => exact h
  | cons w ws ih => exact ih (State.hostWrite_keeps h _ _ _) _

theorem State.withDbg_keeps (h : Keeps u0 q0 s) (x : Dbg) : Keeps u0 q0 (State.withDbg x s) := by
  unfold State.withDbg
  try dsimp only
  with_reducible repeat' first
    | exact h | fail_if_no_progress (refine Keeps.mk rfl rfl rfl rfl rfl rfl rfl ?_)

theorem State.withPcie_keeps (h : Keeps u0 q0 s) (x : Pcie) : Keeps u0 q0 (State.withPcie x s) := by
  unfold State.withPcie
  try dsimp only
  with_reducible repeat' first
    | exact h | fail_if_no_progress (refine Keeps.mk rfl rfl rfl rfl rfl rfl rfl ?_)

theorem execSpiTransaction_keeps (h : Keeps u0 q0 s) (bytes : List Byte) (cut : Bool) : ResKeeps u0 q0 (execSpiTransaction bytes cut s) := by
  unfold execSpiTransaction
  try dsimp only
  with_reducible repeat' first
    | exact h | apply State.withSpi_keeps | apply State.spiRead_keeps | apply State.spiEnd_keeps | apply State.spiWrite_keeps
    | apply State.returned_keeps | fail_if_no_progress (refine Keeps.mk rfl rfl rfl rfl rfl rfl rfl ?_)
    | apply ResKeeps.next | apply ResKeeps.ite

theorem execPcieLinkChange_keeps (h : Keeps u0 q0 s) (up : Bool) (aer : Bool) : ResKeeps u0 q0 (execPcieLinkChange up aer s) := by
  unfold execPcieLinkChange
  try dsimp only
  with_reducible repeat' first
    | exact h | apply State.withPcie_keeps | apply State.report_keeps | fail_if_no_progress (refine Keeps.mk rfl rfl rfl rfl rfl rfl rfl ?_)
    | apply ResKeeps.next | apply ResKeeps.ite | apply Keeps.ite

theorem execD3hotEntry_keeps (h : Keeps u0 q0 s) : ResKeeps u0 q0 (execD3hotEntry s) := by
  unfold execD3hotEntry
  try dsimp only
  with_reducible repeat' first
    | exact h | apply State.withPcie_keeps | apply State.hostStop_keeps | fail_if_no_progress (refine Keeps.mk rfl rfl rfl rfl rfl rfl rfl ?_)
    | apply ResKeeps.next

theorem execPerstNAssert_keeps (h : Keeps u0 q0 s) : ResKeeps u0 q0 (execPerstNAssert s) := by
  unfold execPerstNAssert
  try dsimp only
  with_reducible repeat' first
    | exact h | apply State.withPcie_keeps | apply State.hostStop_keeps | apply State.clearWidePcie_keeps
    | fail_if_no_progress (refine Keeps.mk rfl rfl rfl rfl rfl rfl rfl ?_) | apply ResKeeps.next

theorem execDbgUpdateDr_keeps (h : Keeps u0 q0 s) (reg : BitVec 52) : ResKeeps u0 q0 (execDbgUpdateDr reg s) := by
  unfold execDbgUpdateDr
  try dsimp only
  with_reducible repeat' first
    | exact h | apply State.hostRead_keeps | apply State.withDbg_keeps | apply State.hostWrite_keeps
    | fail_if_no_progress (refine Keeps.mk rfl rfl rfl rfl rfl rfl rfl ?_) | apply ResKeeps.next | apply ResKeeps.ite | apply Keeps.ite

theorem execH2dDescriptorRead_keeps (h : Keeps u0 q0 s) (ch : Fin 3) (d : H2dDescriptor) : ResKeeps u0 q0 (execH2dDescriptorRead ch d s) := by
  unfold execH2dDescriptorRead
  try dsimp only
  with_reducible repeat' first
    | exact h | apply State.fillReplay_keeps | fail_if_no_progress (refine Keeps.mk rfl rfl rfl rfl rfl rfl rfl ?_) | apply ResKeeps.next
    | apply ResKeeps.ite

theorem execPerstNRelease_keeps (h : Keeps u0 q0 s) : ResKeeps u0 q0 (execPerstNRelease s) := by
  unfold execPerstNRelease
  try dsimp only
  with_reducible repeat' first
    | exact h | apply State.withPcie_keeps | fail_if_no_progress (refine Keeps.mk rfl rfl rfl rfl rfl rfl rfl ?_) | apply ResKeeps.next

theorem execFlr_keeps (h : Keeps u0 q0 s) : ResKeeps u0 q0 (execFlr s) := by
  unfold execFlr
  try dsimp only
  with_reducible repeat' first
    | exact h | apply State.withPcie_keeps | apply State.hostStop_keeps | apply State.clearWidePcie_keeps
    | fail_if_no_progress (refine Keeps.mk rfl rfl rfl rfl rfl rfl rfl ?_) | apply ResKeeps.next

theorem execDebugDisconnect_keeps (h : Keeps u0 q0 s) : ResKeeps u0 q0 (execDebugDisconnect s) := by
  unfold execDebugDisconnect
  try dsimp only
  with_reducible repeat' first
    | exact h | apply State.freeLocksOf_keeps | apply State.withDbg_keeps | fail_if_no_progress (refine Keeps.mk rfl rfl rfl rfl rfl rfl rfl ?_)
    | apply ResKeeps.next

theorem execH2dChainExtended_keeps (h : Keeps u0 q0 s) (ch : Fin 3) : ResKeeps u0 q0 (execH2dChainExtended ch s) := by
  unfold execH2dChainExtended
  try dsimp only
  with_reducible repeat' first
    | exact h | apply State.takeH2d_keeps | fail_if_no_progress (refine Keeps.mk rfl rfl rfl rfl rfl rfl rfl ?_) | apply ResKeeps.next
    | apply ResKeeps.ite

theorem State.dropLaunch_keeps (h : Keeps u0 q0 s) (l : Launch) : Keeps u0 q0 (State.dropLaunch l s) := by
  unfold State.dropLaunch
  try dsimp only
  with_reducible repeat' first
    | exact h | fail_if_no_progress (refine Keeps.mk rfl rfl rfl rfl rfl rfl rfl ?_)

theorem State.surveyTrace_keeps (h : Keeps u0 q0 s) (l : Launch) (r : WordRun) : Keeps u0 q0 (State.surveyTrace l r s) := by
  unfold State.surveyTrace
  try dsimp only
  with_reducible repeat' first
    | exact h | apply State.surveyGain_keeps | apply State.setHall_keeps | fail_if_no_progress (refine Keeps.mk rfl rfl rfl rfl rfl rfl rfl ?_)
    | apply Keeps.ite

theorem State.processTrace_keeps (h : Keeps u0 q0 s) (l : Launch) (r : WordRun) : Keeps u0 q0 (State.processTrace l r s) := by
  unfold State.processTrace
  try dsimp only
  with_reducible repeat' first
    | exact h | apply State.applyDue_keeps | apply State.dropLaunch_keeps | apply State.surveyTrace_keeps | apply State.applyFront_keeps
    | apply State.setHall_keeps | fail_if_no_progress (refine Keeps.mk rfl rfl rfl rfl rfl rfl rfl ?_) | apply Keeps.ite | intro _ _ h

theorem execTraceProcess_keeps (h : Keeps u0 q0 s) (leg : Fin 2) : ResKeeps u0 q0 (execTraceProcess leg s) := by
  unfold execTraceProcess
  try dsimp only
  with_reducible repeat' first
    | exact h | apply State.processTrace_keeps | apply ResKeeps.next | apply ResKeeps.ite | apply Keeps.ite | intro _ _ h | intro _ h | assumption
    | dsimp only | split

theorem State.applyIdle_keeps (h : Keeps u0 q0 s) (p : Stamped) : Keeps u0 q0 (State.applyIdle p s) := by
  unfold State.applyIdle
  try dsimp only
  with_reducible repeat' first
    | exact h | apply State.requestDirect_keeps | apply State.applyReplayStart_keeps | apply State.applyReplayStop_keeps
    | apply State.applyGainSet_keeps | apply State.takeChange_keeps | apply State.applyMapSet_keeps | apply State.setChain_keeps
    | apply State.applyFront_keeps | apply State.applyTempCal_keeps | apply State.setHall_keeps
    | fail_if_no_progress (refine Keeps.mk rfl rfl rfl rfl rfl rfl rfl ?_) | apply Keeps.ite

theorem State.loseRooms_keeps (h : Keeps u0 q0 s) : Keeps u0 q0 (State.loseRooms s) := by
  unfold State.loseRooms
  try dsimp only
  with_reducible repeat' first
    | exact h | apply State.discardRows_keeps | fail_if_no_progress (refine Keeps.mk rfl rfl rfl rfl rfl rfl rfl ?_)

theorem State.modeChange_keeps (h : Keeps u0 q0 s) (cmd : Cmd) (p : PlanWords) : ReplyKeeps u0 q0 (State.modeChange cmd p s) := by
  unfold State.modeChange
  try dsimp only
  with_reducible repeat' first
    | exact h | apply State.endSurveyOp_keeps | apply State.startLong_keeps | apply State.keepItems_keeps | apply State.summarise_keeps
    | fail_if_no_progress (refine Keeps.mk rfl rfl rfl rfl rfl rfl rfl ?_) | apply ResKeeps.next | apply ReplyKeeps.done | apply ReplyKeeps.later
    | exact ReplyKeeps.refuse | apply ReplyKeeps.ite | apply Keeps.ite | intro _ _ h | intro _ h | assumption | dsimp only | split

theorem State.modeFromSurvey_keeps (h : Keeps u0 q0 s) (cmd : Cmd) (p : PlanWords) : ReplyKeeps u0 q0 (State.modeFromSurvey cmd p s) := by
  unfold State.modeFromSurvey
  try dsimp only
  with_reducible repeat' first
    | exact h | apply State.planBegins_keeps | apply State.endSurveyOp_keeps | apply State.startLong_keeps | apply State.keepItems_keeps
    | apply ReplyKeeps.done | apply ReplyKeeps.later | apply ReplyKeeps.ite

theorem State.modeRest_keeps (h : Keeps u0 q0 s) (cmd : Cmd) : ReplyKeeps u0 q0 (State.modeRest cmd s) := by
  unfold State.modeRest
  try dsimp only
  with_reducible repeat' first
    | exact h | apply State.stopAt_keeps | apply State.probeStopped_keeps | apply State.summarise_keeps
    | fail_if_no_progress (refine Keeps.mk rfl rfl rfl rfl rfl rfl rfl ?_) | apply ResKeeps.next | apply ReplyKeeps.done | exact ReplyKeeps.refuse
    | apply ReplyKeeps.ite | apply Keeps.ite | intro _ _ h | intro _ h | assumption | dsimp only | split

theorem State.startRooms_keeps (h : Keeps u0 q0 s) (calibrated : Bool) : Keeps u0 q0 (State.startRooms calibrated s) := by
  unfold State.startRooms
  try dsimp only
  with_reducible repeat' first
    | exact h | apply State.afterTec_keeps | apply State.startSelfCal_keeps | apply State.powerFront_keeps
    | fail_if_no_progress (refine Keeps.mk rfl rfl rfl rfl rfl rfl rfl ?_) | apply Keeps.ite

theorem State.modeStart_keeps (h : Keeps u0 q0 s) (cmd : Cmd) (p : PlanWords) : ReplyKeeps u0 q0 (State.modeStart cmd p s) := by
  unfold State.modeStart
  try dsimp only
  with_reducible repeat' first
    | exact h | apply State.startRooms_keeps | apply State.startLong_keeps | apply State.summarise_keeps
    | fail_if_no_progress (refine Keeps.mk rfl rfl rfl rfl rfl rfl rfl ?_) | apply ReplyKeeps.later | apply ReplyKeeps.ite | apply Keeps.ite

theorem State.modeSet_keeps (h : Keeps u0 q0 s) (cmd : Cmd) : ReplyKeeps u0 q0 (State.modeSet cmd s) := by
  unfold State.modeSet
  try dsimp only
  with_reducible repeat' first
    | exact h | apply State.modeChange_keeps | apply State.modeStart_keeps | apply State.modeRest_keeps | apply State.modeFromSurvey_keeps
    | exact ReplyKeeps.no | exact ReplyKeeps.refuse | apply ReplyKeeps.ite | apply Keeps.ite | intro _ _ h | intro _ h | assumption | dsimp only
    | split

theorem execTecSettleTimeout_keeps (h : Keeps u0 q0 s) : ResKeeps u0 q0 (execTecSettleTimeout s) := by
  unfold execTecSettleTimeout
  try dsimp only
  with_reducible repeat' first
    | exact h | apply State.untilUp_keeps | apply State.beginFadeIn_keeps | fail_if_no_progress (refine Keeps.mk rfl rfl rfl rfl rfl rfl rfl ?_)
    | apply ResKeeps.next | apply ResKeeps.ite

theorem execStampedChangeApply_keeps (h : Keeps u0 q0 s) (k : Nat) : ResKeeps u0 q0 (execStampedChangeApply k s) := by
  unfold execStampedChangeApply
  try dsimp only
  with_reducible repeat' first
    | exact h | apply State.streamStarts_keeps | apply State.distributeTrig_keeps | apply State.prepareChain_keeps | apply State.applyIdle_keeps
    | apply State.takeChange_keeps | apply State.applyFront_keeps | apply State.distribute_keeps | apply ResKeeps.next | apply ResKeeps.ite
    | apply Keeps.ite | intro _ _ h | intro _ h | assumption | dsimp only | split

theorem execRestPowerDown_keeps (h : Keeps u0 q0 s) : ResKeeps u0 q0 (execRestPowerDown s) := by
  unfold execRestPowerDown
  try dsimp only
  with_reducible repeat' first
    | exact h | apply State.startRooms_keeps | apply State.loseRooms_keeps | fail_if_no_progress (refine Keeps.mk rfl rfl rfl rfl rfl rfl rfl ?_)
    | apply ResKeeps.next | apply ResKeeps.ite | apply Keeps.ite

theorem execModeSet_keeps (h : Keeps u0 q0 s) (c : Fin 9) : ResKeeps u0 q0 (execModeSet c s) := by
  unfold execModeSet
  try dsimp only
  with_reducible repeat' first
    | exact h | apply State.command_keeps | apply State.modeSet_keeps | fail_if_no_progress (refine Keeps.mk rfl rfl rfl rfl rfl rfl rfl ?_)
    | intro _ _ h

theorem State.setEthPort_keeps (h : Keeps u0 q0 s) (p : Nat) (x : EthPort) : Keeps u0 q0 (State.setEthPort p x s) := by
  unfold State.setEthPort
  try dsimp only
  with_reducible repeat' first
    | exact h | apply State.withEth_keeps

theorem State.dropFrame_keeps (h : Keeps u0 q0 s) (p : Nat) : Keeps u0 q0 (State.dropFrame p s) := by
  unfold State.dropFrame
  try dsimp only
  with_reducible repeat' first
    | exact h | apply State.setEthPort_keeps

theorem State.ethSend_keeps (h : Keeps u0 q0 s) (o : EthOut) : Keeps u0 q0 (State.ethSend o s) := by
  unfold State.ethSend
  try dsimp only
  with_reducible repeat' first
    | exact h | apply State.withEth_keeps

theorem State.setSession_keeps (h : Keeps u0 q0 s) (x : UdpSession) : Keeps u0 q0 (State.setSession x s) := by
  unfold State.setSession
  try dsimp only
  with_reducible repeat' first
    | exact h | apply State.withEth_keeps

theorem State.useSession_keeps (h : Keeps u0 q0 s) (k : Nat) : Keeps u0 q0 (State.useSession k s).2 := by
  unfold State.useSession
  try dsimp only
  with_reducible repeat' first
    | exact h | apply State.withEth_keeps

theorem State.takeDatagram_keeps (h : Keeps u0 q0 s) (src : Nat) (session : Nat) (seq : Nat) (msg : Msg) (bulk : List Byte) : Keeps u0 q0 (State.takeDatagram src session seq msg bulk s) := by
  unfold State.takeDatagram
  try dsimp only
  with_reducible repeat' first
    | exact h | apply State.setSession_keeps | apply State.useSession_keeps | apply State.settleAll_keeps | apply State.ethSend_keeps
    | fail_if_no_progress (refine Keeps.mk rfl rfl rfl rfl rfl rfl rfl ?_) | apply Keeps.ite | intro _ _ h
    | intro _ h | assumption | dsimp only | split

theorem State.ompDatagram_keeps (h : Keeps u0 q0 s) (p : Nat) (src : Nat) (bs : List Byte) : Keeps u0 q0 (State.ompDatagram p src bs s) := by
  unfold State.ompDatagram
  try dsimp only
  with_reducible repeat' first
    | exact h | apply State.dropFrame_keeps | apply State.takeDatagram_keeps | apply Keeps.ite

theorem State.resolveFrom_keeps (h : Keeps u0 q0 s) (p : Nat) (v6 : Bool) (sender : Nat) : Keeps u0 q0 (State.resolveFrom p v6 sender s) := by
  unfold State.resolveFrom
  try dsimp only
  with_reducible repeat' first
    | exact h | apply State.withEth_keeps

theorem execEthFrameReceived_keeps (h : Keeps u0 q0 s) (f : EthFrame) : ResKeeps u0 q0 (execEthFrameReceived f s) := by
  unfold execEthFrameReceived
  try dsimp only
  with_reducible repeat' first
    | exact h | apply State.ompDatagram_keeps | apply State.setEthPort_keeps | apply State.dropFrame_keeps | apply State.ethSend_keeps
    | apply State.resolveFrom_keeps | fail_if_no_progress (refine Keeps.mk rfl rfl rfl rfl rfl rfl rfl ?_) | apply ResKeeps.next | apply ResKeeps.ite
    | apply Keeps.ite | intro _ _ h | intro _ h | assumption | dsimp only | split

theorem execAddressProbe_keeps (h : Keeps u0 q0 s) : ResKeeps u0 q0 (execAddressProbe s) := by
  unfold execAddressProbe
  try dsimp only
  with_reducible repeat' first
    | exact h | apply State.ethSend_keeps | apply Keeps.foldl | apply ResKeeps.next | intro _ _ h

theorem execEthLinkChange_keeps (h : Keeps u0 q0 s) (p : Fin 2) (link : Bool) (at25 : Bool) : ResKeeps u0 q0 (execEthLinkChange p link at25 s) := by
  unfold execEthLinkChange
  try dsimp only
  with_reducible repeat' first
    | exact h | apply State.setEthPort_keeps | apply State.setCondition_keeps | fail_if_no_progress (refine Keeps.mk rfl rfl rfl rfl rfl rfl rfl ?_)
    | apply ResKeeps.next

theorem execI2cModulePoll_keeps (h : Keeps u0 q0 s) (b : Fin 3) (pages : Option (List Byte × List Byte)) (stuck : Bool) : ResKeeps u0 q0 (execI2cModulePoll b pages stuck s) := by
  unfold execI2cModulePoll
  try dsimp only
  with_reducible repeat' first
    | exact h | apply State.setEthPort_keeps | apply State.setCondition_keeps | fail_if_no_progress (refine Keeps.mk rfl rfl rfl rfl rfl rfl rfl ?_)
    | apply ResKeeps.next | apply ResKeeps.ite | apply Keeps.ite

theorem Reg.write_keeps {r : Reg} {flag : State → State} {w : Word} (hr : ∀ w, Keeps u0 q0 (r.put w)) (hf : ∀ t, Keeps u0 q0 t → Keeps u0 q0 (flag t)) : Keeps u0 q0 (r.write flag w) := by
  unfold Reg.write
  dsimp only
  apply State.keepAltered_keeps
  split
  · exact hf _ (hr _)
  · exact hr _

theorem State.cellarReg_keeps (h : Keeps u0 q0 s) (off : Nat) : OKeeps u0 q0 (s.cellarReg off) := by
  unfold State.cellarReg
  dsimp only
  with_reducible repeat' first
    | exact h | assumption | apply State.withCellar_keeps | apply OKeeps.cons | apply OKeeps.nil | apply OKeeps.row | apply OKeeps.at
    | apply OKeeps.map | apply OKeeps.none | apply OKeeps.ite | apply OKeeps.bind
    | fail_if_no_progress (refine Keeps.mk rfl rfl rfl rfl rfl rfl rfl ?_) | apply Keeps.landing (u0 := u0) (q0 := q0)
    | apply Keeps.mem (u0 := u0) (q0 := q0) | exact Nat.le_refl _ | (intro _) | (split)

theorem State.writeCellar_keeps (h : Keeps u0 q0 s) (off : Nat) (w : Word) : Keeps u0 q0 (State.writeCellar off w s) := by
  unfold State.writeCellar
  try dsimp only
  with_reducible repeat' first
    | exact h | apply State.withCellar_keeps | apply State.trnGo_keeps | apply Reg.write_keeps | apply Reg.write_keeps | apply State.cellarReg_keeps
    | (intro _; fail_if_no_progress (refine Keeps.mk rfl rfl rfl rfl rfl rfl rfl ?_))
    | fail_if_no_progress (refine Keeps.mk rfl rfl rfl rfl rfl rfl rfl ?_) | apply Keeps.mem (u0 := u0) (q0 := q0) | apply Loft.write_wf
    | apply Keeps.ite | apply OKeeps.cons | apply OKeeps.nil | apply OKeeps.row | apply OKeeps.at | apply OKeeps.map | apply OKeeps.none
    | apply OKeeps.ite | (apply OKeeps.put; assumption) | intro _ _ h | intro _ h | assumption | dsimp only | split

theorem State.compReg_keeps (h : Keeps u0 q0 s) (off : Nat) : OKeeps u0 q0 (s.compReg off) := by
  unfold State.compReg
  dsimp only
  with_reducible repeat' first
    | exact h | assumption | apply State.setStream_keeps | apply OKeeps.cons | apply OKeeps.nil | apply OKeeps.row | apply OKeeps.at
    | apply OKeeps.map | apply OKeeps.none | apply OKeeps.ite | apply OKeeps.bind
    | fail_if_no_progress (refine Keeps.mk rfl rfl rfl rfl rfl rfl rfl ?_) | apply Keeps.landing (u0 := u0) (q0 := q0)
    | apply Keeps.mem (u0 := u0) (q0 := q0) | exact Nat.le_refl _ | (intro _)

theorem State.writeComp_keeps (h : Keeps u0 q0 s) (off : Nat) (w : Word) : Keeps u0 q0 (State.writeComp off w s) := by
  unfold State.writeComp
  try dsimp only
  with_reducible repeat' first
    | exact h | apply Reg.write_keeps | apply Reg.write_keeps | apply State.compReg_keeps
    | (intro _; fail_if_no_progress (refine Keeps.mk rfl rfl rfl rfl rfl rfl rfl ?_))
    | fail_if_no_progress (refine Keeps.mk rfl rfl rfl rfl rfl rfl rfl ?_) | apply OKeeps.cons | apply OKeeps.nil | apply OKeeps.row | apply OKeeps.at
    | apply OKeeps.map | apply OKeeps.none | apply OKeeps.ite | (apply OKeeps.put; assumption) | intro _ _ h | intro _ h | assumption | dsimp only
    | split

theorem State.hallReg_keeps (h : Keeps u0 q0 s) (off : Nat) : OKeeps u0 q0 (s.hallReg off) := by
  unfold State.hallReg
  dsimp only
  with_reducible repeat' first
    | exact h | assumption | apply State.setHall_keeps | apply OKeeps.cons | apply OKeeps.nil | apply OKeeps.row | apply OKeeps.at | apply OKeeps.map
    | apply OKeeps.none | apply OKeeps.ite | apply OKeeps.bind | fail_if_no_progress (refine Keeps.mk rfl rfl rfl rfl rfl rfl rfl ?_)
    | apply Keeps.landing (u0 := u0) (q0 := q0) | apply Keeps.mem (u0 := u0) (q0 := q0) | exact Nat.le_refl _ | (intro _) | apply Keeps.ite | apply State.abandonFade_keeps

theorem State.writeHall_keeps (h : Keeps u0 q0 s) (off : Nat) (w : Word) : Keeps u0 q0 (State.writeHall off w s) := by
  unfold State.writeHall
  try dsimp only
  with_reducible repeat' first
    | exact h | apply Reg.write_keeps | apply State.setHall_keeps | apply Reg.write_keeps | apply State.hallReg_keeps
    | (intro _; fail_if_no_progress (refine Keeps.mk rfl rfl rfl rfl rfl rfl rfl ?_))
    | fail_if_no_progress (refine Keeps.mk rfl rfl rfl rfl rfl rfl rfl ?_) | apply OKeeps.cons | apply OKeeps.nil | apply OKeeps.row | apply OKeeps.at
    | apply OKeeps.map | apply OKeeps.none | apply OKeeps.ite | (apply OKeeps.put; assumption) | intro _ _ h | intro _ h | assumption | dsimp only
    | split

theorem State.hearthReg_keeps (h : Keeps u0 q0 s) (off : Nat) : OKeeps u0 q0 (s.hearthReg off) := by
  unfold State.hearthReg
  dsimp only
  with_reducible repeat' first
    | exact h | assumption | apply State.withHearth_keeps | apply OKeeps.cons | apply OKeeps.nil | apply OKeeps.row | apply OKeeps.at
    | apply OKeeps.map | apply OKeeps.none | apply OKeeps.ite | apply OKeeps.bind
    | fail_if_no_progress (refine Keeps.mk rfl rfl rfl rfl rfl rfl rfl ?_) | apply Keeps.landing (u0 := u0) (q0 := q0)
    | apply Keeps.mem (u0 := u0) (q0 := q0) | exact Nat.le_refl _ | (intro _)

theorem State.writeHearth_keeps (h : Keeps u0 q0 s) (off : Nat) (w : Word) : Keeps u0 q0 (State.writeHearth off w s) := by
  unfold State.writeHearth
  try dsimp only
  with_reducible repeat' first
    | exact h | apply State.setpoint_keeps | apply State.writeDriveCfg_keeps | apply State.withHearth_keeps | apply Reg.write_keeps | apply Reg.write_keeps
    | apply State.hearthReg_keeps | (intro _; fail_if_no_progress (refine Keeps.mk rfl rfl rfl rfl rfl rfl rfl ?_))
    | fail_if_no_progress (refine Keeps.mk rfl rfl rfl rfl rfl rfl rfl ?_) | apply Keeps.ite | apply OKeeps.cons | apply OKeeps.nil | apply OKeeps.row
    | apply OKeeps.at | apply OKeeps.map | apply OKeeps.none | apply OKeeps.ite | (apply OKeeps.put; assumption) | intro _ _ h | intro _ h
    | assumption | dsimp only | split

theorem State.loftReg_keeps (h : Keeps u0 q0 s) (off : Nat) : OKeeps u0 q0 (s.loftReg off) := by
  unfold State.loftReg
  dsimp only
  with_reducible repeat' first
    | exact h | assumption | apply State.withLoft_keeps | apply State.setMap_keeps | apply OKeeps.cons | apply OKeeps.nil | apply OKeeps.row
    | apply OKeeps.at | apply OKeeps.map | apply OKeeps.none | apply OKeeps.ite | apply OKeeps.bind
    | fail_if_no_progress (refine Keeps.mk rfl rfl rfl rfl rfl rfl rfl ?_) | apply Keeps.landing (u0 := u0) (q0 := q0)
    | apply Keeps.mem (u0 := u0) (q0 := q0) | exact Nat.le_refl _ | (intro _)
theorem State.zoneReg_keeps (h : Keeps u0 q0 s) (off : Nat) : OKeeps u0 q0 (s.zoneReg off) := by
  unfold State.zoneReg
  dsimp only
  with_reducible repeat' first
    | exact h | assumption | apply State.setZone_keeps | apply OKeeps.cons | apply OKeeps.nil | apply OKeeps.row | apply OKeeps.at | apply OKeeps.map
    | apply OKeeps.none | apply OKeeps.ite | apply OKeeps.bind | fail_if_no_progress (refine Keeps.mk rfl rfl rfl rfl rfl rfl rfl ?_)
    | apply Keeps.landing (u0 := u0) (q0 := q0) | apply Keeps.mem (u0 := u0) (q0 := q0) | exact Nat.le_refl _ | (intro _)
theorem State.trigReg_keeps (h : Keeps u0 q0 s) (off : Nat) : OKeeps u0 q0 (s.trigReg off) := by
  unfold State.trigReg
  dsimp only
  with_reducible repeat' first
    | exact h | assumption | apply State.setUnit_keeps | apply OKeeps.cons | apply OKeeps.nil | apply OKeeps.row | apply OKeeps.at | apply OKeeps.map
    | apply OKeeps.none | apply OKeeps.ite | apply OKeeps.bind | fail_if_no_progress (refine Keeps.mk rfl rfl rfl rfl rfl rfl rfl ?_)
    | apply Keeps.landing (u0 := u0) (q0 := q0) | apply Keeps.mem (u0 := u0) (q0 := q0) | exact Nat.le_refl _ | (intro _)

theorem State.writeLoft_keeps (h : Keeps u0 q0 s) (off : Nat) (w : Word) : Keeps u0 q0 (State.writeLoft off w s) := by
  unfold State.writeLoft
  try dsimp only
  with_reducible repeat' first
    | exact h | apply State.withLoft_keeps | apply Reg.write_keeps | apply Reg.write_keeps | apply State.loftReg_keeps | apply State.zoneReg_keeps
    | apply State.trigReg_keeps | (intro _; fail_if_no_progress (refine Keeps.mk rfl rfl rfl rfl rfl rfl rfl ?_))
    | fail_if_no_progress (refine Keeps.mk rfl rfl rfl rfl rfl rfl rfl ?_) | apply Keeps.landing (u0 := u0) (q0 := q0) | apply Loft.write_wf
    | apply Keeps.ite | apply OKeeps.cons | apply OKeeps.nil | apply OKeeps.row | apply OKeeps.at | apply OKeeps.map | apply OKeeps.none
    | apply OKeeps.ite | (apply OKeeps.put; assumption) | intro _ _ h | intro _ h | assumption | dsimp only | split

theorem State.writePorch_keeps (h : Keeps u0 q0 s) (off : Nat) (w : Word) : Keeps u0 q0 (State.writePorch off w s) := by
  unfold State.writePorch
  try dsimp only
  with_reducible repeat' first
    | exact h | apply State.writeEthCfg_keeps | apply State.setCondition_keeps | apply Reg.write_keeps | apply State.withEth_keeps
    | apply Reg.write_keeps | (intro _; fail_if_no_progress (refine Keeps.mk rfl rfl rfl rfl rfl rfl rfl ?_))
    | fail_if_no_progress (refine Keeps.mk rfl rfl rfl rfl rfl rfl rfl ?_) | apply Keeps.ite | apply OKeeps.cons | apply OKeeps.nil | apply OKeeps.row
    | apply OKeeps.at | apply OKeeps.map | apply OKeeps.none | apply OKeeps.ite | intro _ _ h | intro _ h
    | assumption | dsimp only | split

theorem State.writeStartup_keeps (h : Keeps u0 q0 s) (off : Nat) (w : Word) : Keeps u0 q0 (State.writeStartup off w s) := by
  unfold State.writeStartup
  try dsimp only
  with_reducible repeat' first
    | exact h | fail_if_no_progress (refine Keeps.mk rfl rfl rfl rfl rfl rfl rfl ?_) | assumption | dsimp only | split

theorem State.writeTbCtrl_keeps (h : Keeps u0 q0 s) (w : Word) : Keeps u0 q0 (State.writeTbCtrl w s) := by
  unfold State.writeTbCtrl
  try dsimp only
  with_reducible repeat' first
    | exact h | apply State.withTime_keeps | apply State.stepTime_keeps | fail_if_no_progress (refine Keeps.mk rfl rfl rfl rfl rfl rfl rfl ?_)
    | apply Loft.write_wf | exact Nat.le_refl _ | exact Nat.le_max_left _ _ | apply Keeps.ite

theorem State.thresholdReg_keeps (h : Keeps u0 q0 s) (off : Nat) : OKeeps u0 q0 (s.thresholdReg off) := by
  unfold State.thresholdReg
  dsimp only
  with_reducible repeat' first
    | exact h | assumption | apply State.setThrLeg_keeps | apply State.setTrim_keeps | apply OKeeps.cons | apply OKeeps.nil | apply OKeeps.row
    | apply OKeeps.at | apply OKeeps.map | apply OKeeps.none | apply OKeeps.ite | apply OKeeps.bind
    | fail_if_no_progress (refine Keeps.mk rfl rfl rfl rfl rfl rfl rfl ?_) | apply Keeps.landing (u0 := u0) (q0 := q0)
    | apply Keeps.mem (u0 := u0) (q0 := q0) | exact Nat.le_refl _ | (intro _)

theorem State.writeThreshold_keeps (h : Keeps u0 q0 s) (off : Nat) (w : Word) : Keeps u0 q0 (State.writeThreshold off w s) := by
  unfold State.writeThreshold
  try dsimp only
  with_reducible repeat' first
    | exact h | apply State.requestTrim_keeps | apply State.writeGainReq_keeps | apply Reg.write_keeps | apply State.retrimDue_keeps | apply Reg.write_keeps
    | apply State.thresholdReg_keeps | (intro _; fail_if_no_progress (refine Keeps.mk rfl rfl rfl rfl rfl rfl rfl ?_))
    | fail_if_no_progress (refine Keeps.mk rfl rfl rfl rfl rfl rfl rfl ?_) | apply Keeps.ite | apply OKeeps.cons | apply OKeeps.nil | apply OKeeps.row
    | apply OKeeps.at | apply OKeeps.map | apply OKeeps.none | apply OKeeps.ite | (apply OKeeps.put; assumption) | intro _ _ h | intro _ h
    | assumption | dsimp only | split

theorem State.timeReg_keeps (h : Keeps u0 q0 s) (off : Nat) : OKeeps u0 q0 (s.timeReg off) := by
  unfold State.timeReg
  dsimp only
  with_reducible repeat' first
    | exact h | assumption | apply State.takeTimeCfg_keeps | apply State.withTime_keeps | apply State.withTiu_keeps | apply OKeeps.cons
    | apply OKeeps.nil | apply OKeeps.row | apply OKeeps.at | apply OKeeps.map | apply OKeeps.none | apply OKeeps.ite | apply OKeeps.bind
    | fail_if_no_progress (refine Keeps.mk rfl rfl rfl rfl rfl rfl rfl ?_) | apply Keeps.landing (u0 := u0) (q0 := q0)
    | apply Keeps.mem (u0 := u0) (q0 := q0) | exact Nat.le_refl _ | (intro _)
theorem State.tachReg_keeps (h : Keeps u0 q0 s) (off : Nat) : OKeeps u0 q0 (s.tachReg off) := by
  unfold State.tachReg
  dsimp only
  with_reducible repeat' first
    | exact h | assumption | apply State.setTach_keeps | apply OKeeps.cons | apply OKeeps.nil | apply OKeeps.row | apply OKeeps.at | apply OKeeps.map
    | apply OKeeps.none | apply OKeeps.ite | apply OKeeps.bind | fail_if_no_progress (refine Keeps.mk rfl rfl rfl rfl rfl rfl rfl ?_)
    | apply Keeps.landing (u0 := u0) (q0 := q0) | apply Keeps.mem (u0 := u0) (q0 := q0) | exact Nat.le_refl _ | (intro _)

theorem State.writeTimeBase_keeps (h : Keeps u0 q0 s) (off : Nat) (w : Word) : Keeps u0 q0 (State.writeTimeBase off w s) := by
  unfold State.writeTimeBase
  try dsimp only
  with_reducible repeat' first
    | exact h | apply State.tbIgnored_keeps | apply State.writeTbCtrl_keeps | apply Reg.write_keeps | apply State.writeTachCfg_keeps
    | apply Reg.write_keeps | apply State.timeReg_keeps | apply State.tachReg_keeps
    | (intro _; fail_if_no_progress (refine Keeps.mk rfl rfl rfl rfl rfl rfl rfl ?_))
    | fail_if_no_progress (refine Keeps.mk rfl rfl rfl rfl rfl rfl rfl ?_) | apply Keeps.ite | apply OKeeps.cons | apply OKeeps.nil | apply OKeeps.row
    | apply OKeeps.at | apply OKeeps.map | apply OKeeps.none | apply OKeeps.ite | (apply OKeeps.put; assumption) | intro _ _ h | intro _ h
    | assumption | dsimp only | split

theorem execRegisterWrite_keeps (h : Keeps u0 q0 s) (b : RegBlock) (off : Fin 65536) (p : Path) (be : Fin 16) (w : Word) : ResKeeps u0 q0 (execRegisterWrite b off p be w s) := by
  unfold execRegisterWrite
  try dsimp only
  with_reducible repeat' first
    | exact h | apply State.writePorch_keeps | apply State.writeTimeBase_keeps | apply State.writeHall_keeps | apply State.writeHearth_keeps
    | apply State.writeThreshold_keeps | apply State.writeLoft_keeps | apply State.writeComp_keeps | apply State.hostWriteBytes_keeps
    | apply State.writeCellar_keeps | apply State.writeStartup_keeps | apply ResKeeps.next | apply ResKeeps.ite | apply Keeps.ite | intro _ _ h
    | intro _ h | assumption | dsimp only | split

theorem State.endSurvey_keeps (h : Keeps u0 q0 s) : Keeps u0 q0 (State.endSurvey s) := by
  unfold State.endSurvey
  try dsimp only
  with_reducible repeat' first
    | exact h | fail_if_no_progress (refine Keeps.mk rfl rfl rfl rfl rfl rfl rfl ?_)

theorem State.storeSurvey_keeps (h : Keeps u0 q0 s) (leg : Nat) : Keeps u0 q0 (State.storeSurvey leg s) := by
  unfold State.storeSurvey
  try dsimp only
  with_reducible repeat' first
    | exact h | apply State.withCellar_keeps | apply Keeps.mem (u0 := u0) (q0 := q0) | apply Cellar.store_wf

theorem execSurveyWindowDone_keeps (h : Keeps u0 q0 s) (leg : Fin 2) (loss : List Nat) (ends : Bool) (length : Nat) (places strengths : List Nat) :
    ResKeeps u0 q0 (execSurveyWindowDone leg loss ends length places strengths s) := by
  unfold execSurveyWindowDone
  try dsimp only
  with_reducible repeat' first
    | exact h | apply State.endSurvey_keeps | apply State.surveyGain_keeps | apply State.storeSurvey_keeps | apply State.progress_keeps
    | fail_if_no_progress (refine Keeps.mk rfl rfl rfl rfl rfl rfl rfl ?_) | apply ResKeeps.next | apply ResKeeps.ite | apply Keeps.ite

end Sys2Proof.Machine
end

