-- ==== Sys2Proof/Laws/KeepsStep.lean ====
section
/-! SUPPORT. What every command does to a sound state: it leaves a sound state, its uptime never runs back but by RESET_N and a rail removal, and it leaves
the queue as it was. -/

namespace Sys2Proof.Machine

variable {u0 : Nat} {q0 : List Instr} {s : State}

/-- Every command but the two that end the uptime. -/
theorem exec_keeps (h : Keeps u0 q0 s) (i : Instr) (h1 : i ≠ .resetNLow) (h2 : ∀ torn, i ≠ .railRemoval torn) : ResKeeps u0 q0 (exec i s) := by
  cases i with
  | identify a0 => exact execIdentify_keeps h _
  | status a0 => exact execStatus_keeps h _
  | progress a0 => exact execProgress_keeps h _
  | modeSet a0 => exact execModeSet_keeps h _
  | planCheck a0 => exact execPlanCheck_keeps h _
  | planSuggest a0 => exact execPlanSuggest_keeps h _
  | tableLoad a0 => exact execTableLoad_keeps h _
  | gainSet a0 => exact execGainSet_keeps h _
  | frontSet a0 => exact execFrontSet_keeps h _
  | chainSet a0 => exact execChainSet_keeps h _
  | chainReset a0 => exact execChainReset_keeps h _
  | mapSet a0 => exact execMapSet_keeps h _
  | cellLoad a0 => exact execCellLoad_keeps h _
  | poolSet a0 => exact execPoolSet_keeps h _
  | zoneSet a0 => exact execZoneSet_keeps h _
  | zoneParam a0 => exact execZoneParam_keeps h _
  | zoneEnable a0 => exact execZoneEnable_keeps h _
  | zoneRead a0 => exact execZoneRead_keeps h _
  | trigSet a0 => exact execTrigSet_keeps h _
  | arm a0 => exact execArm_keeps h _
  | disarm a0 => exact execDisarm_keeps h _
  | fire a0 => exact execFire_keeps h _
  | recordList a0 => exact execRecordList_keeps h _
  | recordDelete a0 => exact execRecordDelete_keeps h _
  | streamSet a0 => exact execStreamSet_keeps h _
  | streamStart a0 => exact execStreamStart_keeps h _
  | streamStop a0 => exact execStreamStop_keeps h _
  | tempSet a0 => exact execTempSet_keeps h _
  | tempCal a0 => exact execTempCal_keeps h _
  | calibrate a0 => exact execCalibrate_keeps h _
  | retrimDefer a0 => exact execRetrimDefer_keeps h _
  | trimSet a0 => exact execTrimSet_keeps h _
  | surveyRead a0 => exact execSurveyRead_keeps h _
  | timeCfg a0 => exact execTimeCfg_keeps h _
  | timeSet a0 => exact execTimeSet_keeps h _
  | tiuMeasure a0 => exact execTiuMeasure_keeps h _
  | tachCfg a0 => exact execTachCfg_keeps h _
  | tachStatus a0 => exact execTachStatus_keeps h _
  | timeRead a0 => exact execTimeRead_keeps h _
  | faultRead a0 => exact execFaultRead_keeps h _
  | faultClear a0 => exact execFaultClear_keeps h _
  | faultCfg a0 => exact execFaultCfg_keeps h _
  | logRead a0 => exact execLogRead_keeps h _
  | netSet a0 => exact execNetSet_keeps h _
  | memMap a0 => exact execMemMap_keeps h _
  | replayStart a0 => exact execReplayStart_keeps h _
  | replayStop a0 => exact execReplayStop_keeps h _
  | fwStage a0 => exact execFwStage_keeps h _
  | fwActivate a0 => exact execFwActivate_keeps h _
  | bist a0 => exact execBist_keeps h _
  | train a0 => exact execTrain_keeps h _
  | shutdown a0 => exact execShutdown_keeps h _
  | secChallenge a0 => exact execSecChallenge_keeps h _
  | secUnlock a0 => exact execSecUnlock_keeps h _
  | secRevoke a0 => exact execSecRevoke_keeps h _
  | secKey a0 => exact execSecKey_keeps h _
  | bulkTimeout a0 => exact execBulkTimeout_keeps h _
  | stampedChangeApply a0 => exact execStampedChangeApply_keeps h _
  | launch a0 a1 a2 a3 a4 => exact execLaunch_keeps h _ _ _ _ _
  | quietIntervalEnd => exact execQuietIntervalEnd_keeps h
  | probeStart => exact execProbeStart_keeps h
  | tecSettleTimeout => exact execTecSettleTimeout_keeps h
  | restPowerDown => exact execRestPowerDown_keeps h
  | surveyWindowDone a0 a1 a2 a3 a4 a5 => exact execSurveyWindowDone_keeps h _ _ _ _ _ _
  | straitWordArrival a0 => exact execStraitWordArrival_keeps h _
  | gainChange a0 a1 => exact execGainChange_keeps h _ _
  | autoGainDecision a0 => exact execAutoGainDecision_keeps h _
  | traceProcess a0 => exact execTraceProcess_keeps h _
  | ramanChannelStart a0 => exact execRamanChannelStart_keeps h _
  | ramanSpanSnapshot a0 => exact execRamanSpanSnapshot_keeps h _
  | chainTrace a0 => exact execChainTrace_keeps h _
  | synchronisingReset a0 => exact execSynchronisingReset_keeps h _
  | replayBlock a0 => exact execReplayBlock_keeps h _
  | h2dDescriptorRead a0 a1 => exact execH2dDescriptorRead_keeps h _ _
  | cellarPortWrite a0 a1 => exact execCellarPortWrite_keeps h _ _
  | cellarGrant a0 a1 a2 => exact execCellarGrant_keeps h _ _ _
  | cellarRead a0 a1 a2 => exact execCellarRead_keeps h _ _ _
  | correctedWriteback => exact execCorrectedWriteback_keeps h
  | refreshDue a0 => exact execRefreshDue_keeps h _
  | patrolScrub a0 => exact execPatrolScrub_keeps h _
  | blockDelivery a0 => exact execBlockDelivery_keeps h _
  | jobStart a0 a1 a2 => exact execJobStart_keeps h _ _ _
  | loftScrub a0 a1 => exact execLoftScrub_keeps h _ _
  | nop a0 => exact execNop_keeps h _
  | add a0 => exact execAdd_keeps h _
  | sub a0 => exact execSub_keeps h _
  | bfy a0 => exact execBfy_keeps h _
  | neg a0 => exact execNeg_keeps h _
  | abs a0 => exact execAbs_keeps h _
  | min a0 => exact execMin_keeps h _
  | max a0 => exact execMax_keeps h _
  | shr a0 => exact execShr_keeps h _
  | shl a0 => exact execShl_keeps h _
  | bcast a0 => exact execBcast_keeps h _
  | trn4 a0 => exact execTrn4_keeps h _
  | mac a0 => exact execMac_keeps h _
  | macsq a0 => exact execMacsq_keeps h _
  | movad a0 => exact execMovad_keeps h _
  | movda a0 => exact execMovda_keeps h _
  | cmac a0 => exact execCmac_keeps h _
  | cmagsq a0 => exact execCmagsq_keeps h _
  | crot a0 => exact execCrot_keeps h _
  | ld a0 a1 => exact execLd_keeps h _ _
  | st a0 => exact execSt_keeps h _
  | lds a0 => exact execLds_keeps h _
  | sts a0 => exact execSts_keeps h _
  | ldl a0 a1 => exact execLdl_keeps h _ _
  | stl a0 => exact execStl_keeps h _
  | scale a0 => exact execScale_keeps h _
  | gset a0 => exact execGset_keeps h _
  | sli a0 => exact execSli_keeps h _
  | salu a0 => exact execSalu_keeps h _
  | salui a0 => exact execSalui_keeps h _
  | sdiv a0 => exact execSdiv_keeps h _
  | sred a0 => exact execSred_keeps h _
  | sget a0 => exact execSget_keeps h _
  | sput a0 => exact execSput_keeps h _
  | loop a0 => exact execLoop_keeps h _
  | br a0 => exact execBr_keeps h _
  | bxadd a0 => exact execBxadd_keeps h _
  | halt a0 => exact execHalt_keeps h _
  | zoneRestart a0 => exact execZoneRestart_keeps h _
  | versionCommit => exact execVersionCommit_keeps h
  | triggerVersion a0 => exact execTriggerVersion_keeps h _
  | verdictTimeout => exact execVerdictTimeout_keeps h
  | copyRow => exact execCopyRow_keeps h
  | streamItemRead a0 a1 => exact execStreamItemRead_keeps h _ _
  | streamFlushTimeout a0 a1 => exact execStreamFlushTimeout_keeps h _ _
  | udpBlockSend a0 => exact execUdpBlockSend_keeps h _
  | calibrationGapStart => exact execCalibrationGapStart_keeps h
  | calibrationGapEnd a0 => exact execCalibrationGapEnd_keeps h _
  | trimReq a0 => exact execTrimReq_keeps h _
  | trimDeferTick => exact execTrimDeferTick_keeps h
  | hkEntryConversion a0 a1 => exact execHkEntryConversion_keeps h _ _
  | adcSelfCalibrationDone a0 a1 => exact execAdcSelfCalibrationDone_keeps h _ _
  | hkSelfCalibrationDone => exact execHkSelfCalibrationDone_keeps h
  | calibrateDone a0 => exact execCalibrateDone_keeps h _
  | gainReqArm a0 a1 => exact execGainReqArm_keeps h _ _
  | hdLoopUpdate a0 => exact execHdLoopUpdate_keeps h _
  | hdSetpointWrite a0 a1 => exact execHdSetpointWrite_keeps h _ _
  | setpointStep a0 a1 => exact execSetpointStep_keeps h _ _
  | channelEnable a0 a1 => exact execChannelEnable_keeps h _ _
  | tecLoopUpdate a0 => exact execTecLoopUpdate_keeps h _
  | tecLimit a0 => exact execTecLimit_keeps h _
  | chainGo => exact execChainGo_keeps h
  | chainTransferDone a0 => exact execChainTransferDone_keeps h _
  | ilockFall => exact execIlockFall_keeps h
  | tachEdge a0 a1 a2 a3 a4 => exact execTachEdge_keeps h _ _ _ _ _
  | tachStall a0 => exact execTachStall_keeps h _
  | tachEnable a0 a1 => exact execTachEnable_keeps h _ _
  | ppsEdge a0 => exact execPpsEdge_keeps h _
  | ppsMissing => exact execPpsMissing_keeps h
  | ref10mLoss => exact execRef10mLoss_keeps h
  | ref10mReturn a0 => exact execRef10mReturn_keeps h _
  | holdoverLimit => exact execHoldoverLimit_keeps h
  | ptpEventMessage a0 => exact execPtpEventMessage_keeps h _
  | ptpTimeout => exact execPtpTimeout_keeps h
  | disciplineUpdate a0 a1 a2 a3 => exact execDisciplineUpdate_keeps h _ _ _ _
  | timeStep => exact execTimeStep_keeps h
  | ppsOutPulse => exact execPpsOutPulse_keeps h
  | tiuGo a0 a1 => exact execTiuGo_keeps h _ _
  | tiuStartEvent a0 a1 a2 => exact execTiuStartEvent_keeps h _ _ _
  | tiuStopEvent a0 a1 a2 => exact execTiuStopEvent_keeps h _ _ _
  | tiuRangeEnd => exact execTiuRangeEnd_keeps h
  | tiuNoStart => exact execTiuNoStart_keeps h
  | mbInWrite a0 a1 a2 a3 a4 => exact execMbInWrite_keeps h _ _ _ _ _
  | mbOutRead a0 a1 a2 a3 a4 => exact execMbOutRead_keeps h _ _ _ _ _
  | mbInDiscard a0 a1 => exact execMbInDiscard_keeps h _ _
  | firmwareTakeInbound => exact execFirmwareTakeInbound_keeps h
  | firmwareOutboundComplete => exact execFirmwareOutboundComplete_keeps h
  | mbStallTimeout a0 => exact execMbStallTimeout_keeps h _
  | mbSleep => exact execMbSleep_keeps h
  | mailboxWake a0 => exact execMailboxWake_keeps h _
  | longOperationAbort => exact execLongOperationAbort_keeps h
  | streamBuffersAdded a0 a1 => exact execStreamBuffersAdded_keeps h _ _
  | h2dChainExtended a0 => exact execH2dChainExtended_keeps h _
  | dbD2hClear a0 => exact execDbD2hClear_keeps h _
  | dbD2hMaskWrite a0 => exact execDbD2hMaskWrite_keeps h _
  | hintEnableSet a0 a1 => exact execHintEnableSet_keeps h _ _
  | msixHoldoffEnd a0 => exact execMsixHoldoffEnd_keeps h _
  | lockRead a0 a1 a2 => exact execLockRead_keeps h _ _ _
  | lockWrite a0 a1 a2 => exact execLockWrite_keeps h _ _ _
  | aliasWrite a0 => exact execAliasWrite_keeps h _
  | wideSelWrite a0 a1 => exact execWideSelWrite_keeps h _ _
  | wideCaptureDone a0 => exact execWideCaptureDone_keeps h _
  | wideData3Read a0 => exact execWideData3Read_keeps h _
  | vecFrameLoRead => exact execVecFrameLoRead_keeps h
  | trigFireLoRead a0 => exact execTrigFireLoRead_keeps h _
  | strHeadLoRead a0 => exact execStrHeadLoRead_keeps h _
  | registerWrite a0 a1 a2 a3 a4 => exact execRegisterWrite_keeps h _ _ _ _ _
  | spiTransaction a0 a1 => exact execSpiTransaction_keeps h _ _
  | dbgUpdateDr a0 => exact execDbgUpdateDr_keeps h _
  | debugDisconnect => exact execDebugDisconnect_keeps h
  | perstNAssert => exact execPerstNAssert_keeps h
  | flr => exact execFlr_keeps h
  | d3hotEntry => exact execD3hotEntry_keeps h
  | ethFrameReceived a0 => exact execEthFrameReceived_keeps h _
  | addressProbe => exact execAddressProbe_keeps h
  | i2cModulePoll a0 a1 a2 => exact execI2cModulePoll_keeps h _ _ _
  | cwHelloSend => exact execCwHelloSend_keeps h
  | cwHello a0 a1 a2 a3 a4 a5 => exact execCwHello_keeps h _ _ _ _ _ _
  | membershipStable => exact execMembershipStable_keeps h
  | hopMeasurement a0 => exact execHopMeasurement_keeps h _
  | cwDelayReq a0 a1 => exact execCwDelayReq_keeps h _ _
  | cwDelayResp a0 a1 a2 => exact execCwDelayResp_keeps h _ _ _
  | cwTimeSend => exact execCwTimeSend_keeps h
  | cwTime a0 a1 a2 a3 => exact execCwTime_keeps h _ _ _ _
  | cwEpoch a0 a1 a2 => exact execCwEpoch_keeps h _ _ _
  | cwArm a0 a1 a2 => exact execCwArm_keeps h _ _ _
  | cwVerdict a0 a1 a2 => exact execCwVerdict_keeps h _ _ _
  | cwReset a0 a1 => exact execCwReset_keeps h _ _
  | cwMember a0 a1 a2 => exact execCwMember_keeps h _ _ _
  | cwPortDown a0 a1 => exact execCwPortDown_keeps h _ _
  | ringSplit => exact execRingSplit_keeps h
  | cwLinkReturn a0 => exact execCwLinkReturn_keeps h _
  | faultOccurrence a0 => exact execFaultOccurrence_keeps h _
  | journalledPlanRestart => exact execJournalledPlanRestart_keeps h
  | collectorCfgCheck a0 => exact execCollectorCfgCheck_keeps h _
  | watchdog => exact execWatchdog_keeps h
  | railDieSample a0 a1 a2 a3 a4 => exact execRailDieSample_keeps h _ _ _ _ _
  | railsGood => exact execRailsGood_keeps h
  | resetNLow => exact absurd rfl h1
  | porRelease a0 => exact execPorRelease_keeps h _
  | bootImageLoaded a0 => exact execBootImageLoaded_keeps h _
  | fwReady a0 => exact execFwReady_keeps h _
  | trainingDone a0 a1 => exact execTrainingDone_keeps h _ _
  | trnGo => exact execTrnGo_keeps h
  | bistSliceDone a0 => exact execBistSliceDone_keeps h _
  | shutdownDrainDone => exact execShutdownDrainDone_keeps h
  | ilockNRise => exact execIlockNRise_keeps h
  | samplePllLockChange a0 => exact execSamplePllLockChange_keeps h _
  | tpllLockChange a0 => exact execTpllLockChange_keeps h _
  | ethLinkChange a0 a1 a2 => exact execEthLinkChange_keeps h _ _ _
  | pcieLinkChange a0 a1 => exact execPcieLinkChange_keeps h _ _
  | perstNRelease => exact execPerstNRelease_keeps h
  | railRemoval a0 => exact absurd rfl (h2 a0)
  | trnCompareDone a0 a1 a2 a3 => exact execTrnCompareDone_keeps h _ _ _ _
  | hsPwmOnWindow a0 a1 => exact execHsPwmOnWindow_keeps h _ _
  | flashWriteDone => exact execFlashWriteDone_keeps h

/-- Every command, where no bound on the uptime is asked. -/
theorem exec_keeps_zero (h : Keeps 0 q0 s) (i : Instr) : ResKeeps 0 q0 (exec i s) := by
  by_cases h1 : i = .resetNLow
  · subst h1; exact execResetNLow_keeps h
  · by_cases h2 : ∃ torn, i = .railRemoval torn
    · obtain ⟨torn, rfl⟩ := h2; exact execRailRemoval_keeps h torn
    · exact exec_keeps h i h1 (fun torn e => h2 ⟨torn, e⟩)

end Sys2Proof.Machine
end

