-- ==== Sys2Proof/Laws/Requests.lean ====
section
/-! SUPPORT. What running a request does, said once: one that gets as far as its own checks (`State.reach`) is concluded by its body, one that an earlier
check refuses is refused, one whose command is not at the head changes nothing. The requests' meanings cite these lemmas. -/

namespace Sys2Proof.Machine

variable {s t : State} {sp : Spec} {c : Nat} {r : Request} {b : List Byte} {index : Cmd → Nat} {body : Cmd → State → Reply}

/-- The first failure of eight checks. -/
theorem first_of_eight {α : Type} (a b d e f g h i : Bool) (A B D E F G H I : α) :
    (([(a, A), (b, B), (d, D), (e, E), (f, F), (g, G), (h, H), (i, I)].find? (·.1)).map (·.2)) =
      if a then some A else if b then some B else if d then some D else if e then some E else if f then some F else if g then some G else
        if h then some H else if i then some I else none := by
  cases a <;> cases b <;> cases d <;> cases e <;> cases f <;> cases g <;> cases h <;> cases i <;> rfl

/-- Steps 3 to 7 of R361 are the first failure of their list. -/
theorem State.firstRefusal_eq_entryCheck : s.firstRefusal sp r c = s.entryCheck sp r c := by
  unfold State.firstRefusal State.checks State.entryCheck
  refine (first_of_eight _ _ _ _ _ _ _ _ _ _ _ _ _ _ _ _).trans ?_
  cases r.udp <;> rfl

/-- A request that arrives is carried out. -/
theorem State.command_of_arrives (h : s.arrives sp c = some (r, b, t)) : s.command sp c index body = .next (t.perform sp c r b index body) := by
  unfold State.arrives at h
  unfold State.command
  split at h
  · cases h
  · rename_i r' rest hin
    split at h
    · cases h
    · rename_i hc
      rw [State.firstRefusal_eq_entryCheck] at hc
      simp only [Bool.or_eq_true, Bool.and_eq_true, not_or, not_and] at hc
      simp only [hin]
      rw [if_neg (by simp only [Bool.or_eq_true, not_or]; exact ⟨⟨hc.1.1.1, hc.1.1.2⟩, hc.1.2⟩)]
      have hadm : (if r'.waitUp.isSome = true then none else s.entryCheck sp r' c) = none := by
        split
        · rfl
        · rename_i hw
          have := hc.2 (by simpa using hw)
          simpa using this
      rw [hadm]
      dsimp only
      split at h
      · rename_i hb
        cases h
        rw [if_pos hb]
      · rename_i hb
        rw [if_neg hb]
        split at h
        · rename_i h8
          rw [if_pos h8]
          obtain ⟨b', hb', e⟩ := Option.map_eq_some_iff.mp h
          cases e
          rw [hb']
        · rename_i h8
          rw [if_neg h8]
          split at h
          · cases h
          · rename_i bs more hbk
            rw [hbk]
            dsimp only
            split at h
            · cases h
            · rename_i ht
              rw [if_pos (by simpa using ht)]
              obtain ⟨b', hb', e⟩ := Option.map_eq_some_iff.mp h
              cases e
              rw [hb']

/-- The body concludes a request that reaches it. -/
theorem State.command_of_reach (h : s.reach sp c = some (r, b, t)) :
    s.command sp c index body = .next (t.conclude c r (index (r.cmd sp c b)) (body (r.cmd sp c b) t)) := by
  unfold State.reach at h
  split at h
  · cases h
  · rename_i r' b' t' ha
    split at h
    · cases h
    · rename_i hbad
      cases h
      rw [State.command_of_arrives ha]
      simp only [State.perform]
      rw [if_neg hbad]

/-- A body that is done answers. -/
theorem exec_done {i : Instr} {k : Fin 9} {items : List Word} {u : State} (he : exec i s = s.command sp k.val index body)
    (h : s.reach sp k.val = some (r, b, t)) (hb : body (r.cmd sp k.val b) t = .done items u) :
    exec i s = .next (u.answered k.val r (index (r.cmd sp k.val b)) items) := by
  rw [he, State.command_of_reach h, hb]; rfl

/-- A body that is to be answered later begins. -/
theorem exec_later {i : Instr} {k : Fin 9} {u : State} (he : exec i s = s.command sp k.val index body)
    (h : s.reach sp k.val = some (r, b, t)) (hb : body (r.cmd sp k.val b) t = .later u) : exec i s = .next (u.accepted k.val) := by
  rw [he, State.command_of_reach h, hb]; rfl

/-- A body that refuses is refused, with the leg that the command concerns where the error names none. -/
theorem exec_refuse {i : Instr} {k : Fin 9} {e : Err} (he : exec i s = s.command sp k.val index body)
    (h : s.reach sp k.val = some (r, b, t)) (hb : body (r.cmd sp k.val b) t = .refuse e) :
    exec i s = .next (t.refuse k.val r { e with index := if e.index = 0xFF then index (r.cmd sp k.val b) else e.index }) := by
  rw [he, State.command_of_reach h, hb]; rfl

/-- The same for a refusal that has an effect of its own. -/
theorem exec_refuseWith {i : Instr} {k : Fin 9} {e : Err} {u : State} (he : exec i s = s.command sp k.val index body)
    (h : s.reach sp k.val = some (r, b, t)) (hb : body (r.cmd sp k.val b) t = .refuseWith e u) :
    exec i s = .next (u.refuse k.val r { e with index := if e.index = 0xFF then index (r.cmd sp k.val b) else e.index }) := by
  rw [he, State.command_of_reach h, hb]; rfl

variable {row : Fin 9 → Instr}

/-- A row's claim from what its body does: it answers. -/
theorem answers_of {ok : Cmd → State → Prop} {items : Cmd → State → List Word} {effect : Cmd → State → State} (body : Fin 9 → Cmd → State → Reply)
    (he : ∀ (k : Fin 9) (s : State) (sp : Spec), requestRow s (row k) = some (k, sp) → exec (row k) s = s.command sp k.val index (body k))
    (hb : ∀ k cmd t, ok cmd t → body k cmd t = .done (items cmd t) (effect cmd t)) : Answers row index ok items effect :=
  fun k sp s _ _ _ hrow hreach hok => exec_done (he k s sp hrow) hreach (hb k _ _ hok)

/-- The same for a long operation. -/
theorem begins_of {ok : Cmd → State → Prop} {effect : Cmd → State → State} (body : Fin 9 → Cmd → State → Reply)
    (he : ∀ (k : Fin 9) (s : State) (sp : Spec), requestRow s (row k) = some (k, sp) → exec (row k) s = s.command sp k.val index (body k))
    (hb : ∀ k cmd t, ok cmd t → body k cmd t = .later (effect cmd t)) : Begins row ok effect :=
  fun k sp s _ _ _ hrow hreach hok => exec_later (he k s sp hrow) hreach (hb k _ _ hok)

/-- The same for a refusal. -/
theorem refuses_of {when_ : Cmd → State → Prop} {st : Status} {detail : Cmd → State → Nat} (body : Fin 9 → Cmd → State → Reply)
    (he : ∀ (k : Fin 9) (s : State) (sp : Spec), requestRow s (row k) = some (k, sp) → exec (row k) s = s.command sp k.val index (body k))
    (hb : ∀ k cmd t, when_ cmd t → body k cmd t = .refuse { status := st, detail := detail cmd t }) : Refuses row index when_ st detail := by
  intro k sp s _ _ _ hrow hreach hok
  have h := exec_refuse (he k s sp hrow) hreach (hb k _ _ hok)
  simpa only [if_true] using h

/-- The same for a stamped command. -/
theorem answersAt_of {ok : Cmd → State → Option (Nat × Nat) → Prop} {places : Cmd → State → Nat → Bool} {items : Cmd → State → Option (Nat × Nat) → List Word}
    {effect : Cmd → State → Option (Nat × Nat) → State} (body : Fin 9 → Cmd → State → Reply)
    (he : ∀ (k : Fin 9) (s : State) (sp : Spec), requestRow s (row k) = some (k, sp) → exec (row k) s = s.command sp k.val index (body k))
    (hb : ∀ k cmd t at_, t.place cmd (places cmd t) = .ok at_ → t.waitingChanges < 64 → ok cmd t at_ →
      body k cmd t = .done (effWords at_ ++ items cmd t at_) (effect cmd t at_)) : AnswersAt row index ok places items effect :=
  fun k sp s _ _ _ _ hrow hreach hp hw hok => exec_done (he k s sp hrow) hreach (hb k _ _ _ hp hw hok)

/-- An AT block that does not hold refuses the command with PARAM. -/
theorem State.command_badAt (h : s.arrives sp c = some (r, b, t)) (hs : sp.s = true) (hb : t.badAt sp.code (r.cmd sp c b) = true) :
    s.command sp c index body = .next (t.refuse c r { status := .param, index := index (r.cmd sp c b) }) := by
  rw [State.command_of_arrives h]
  simp [State.perform, hs, hb, State.conclude, no]

/-- An empty carrier: nothing happens. -/
theorem State.command_empty (h : vget s.fw.inbox c [] = []) : s.command sp c index body = .next s := by
  unfold State.command; rw [h]

/-- Another command at the head: this row does nothing. -/
theorem State.command_other {rest : List Request} (h : vget s.fw.inbox c [] = r :: rest) (hc : msgCode r.msg ≠ sp.code) :
    s.command sp c index body = .next s := by
  unfold State.command; rw [h]
  dsimp only
  rw [if_pos]
  simp [hc]

/-- A request that the checks of R361 refuse is refused. -/
theorem State.command_refused {rest : List Request} {e : Status} (h : vget s.fw.inbox c [] = r :: rest) (hf : s.fwReady = true)
    (hh : headerErr r.msg = none) (hc : msgCode r.msg = sp.code) (hw : r.waitUp = none) (ha : s.firstRefusal sp r c = some e) :
    s.command sp c index body = .next (s.refuse c r { status := e }) := by
  rw [State.firstRefusal_eq_entryCheck] at ha
  unfold State.command; rw [h]
  simp [hf, hh, hc, hw, ha]

/-- A row of a request runs its command. -/
theorem exec_request {i : Instr} {k : Fin 9} (h : requestRow s i = some (k, sp)) : ∃ index body, exec i s = s.command sp k.val index body := by
  cases i
  case identify => cases h; unfold exec execIdentify; exact ⟨_, _, rfl⟩
  case status => cases h; unfold exec execStatus; exact ⟨_, _, rfl⟩
  case progress => cases h; unfold exec execProgress; exact ⟨_, _, rfl⟩
  case modeSet => cases h; unfold exec execModeSet; exact ⟨_, _, rfl⟩
  case planCheck => cases h; unfold exec execPlanCheck; exact ⟨_, _, rfl⟩
  case planSuggest => cases h; unfold exec execPlanSuggest; exact ⟨_, _, rfl⟩
  case tableLoad => cases h; unfold exec execTableLoad; exact ⟨_, _, rfl⟩
  case gainSet => cases h; unfold exec execGainSet; exact ⟨_, _, rfl⟩
  case frontSet => cases h; unfold exec execFrontSet; exact ⟨_, _, rfl⟩
  case chainSet => cases h; unfold exec execChainSet; exact ⟨_, _, rfl⟩
  case chainReset => cases h; unfold exec execChainReset; exact ⟨_, _, rfl⟩
  case mapSet => cases h; unfold exec execMapSet; exact ⟨_, _, rfl⟩
  case cellLoad => cases h; unfold exec execCellLoad; exact ⟨_, _, rfl⟩
  case poolSet => cases h; unfold exec execPoolSet; exact ⟨_, _, rfl⟩
  case zoneSet => cases h; unfold exec execZoneSet; exact ⟨_, _, rfl⟩
  case zoneParam => cases h; unfold exec execZoneParam; exact ⟨_, _, rfl⟩
  case zoneEnable => cases h; unfold exec execZoneEnable; exact ⟨_, _, rfl⟩
  case zoneRead => cases h; unfold exec execZoneRead; exact ⟨_, _, rfl⟩
  case trigSet => cases h; unfold exec execTrigSet; exact ⟨_, _, rfl⟩
  case arm => cases h; unfold exec execArm; exact ⟨_, _, rfl⟩
  case disarm => cases h; unfold exec execDisarm; exact ⟨_, _, rfl⟩
  case fire => cases h; unfold exec execFire; exact ⟨_, _, rfl⟩
  case recordList => cases h; unfold exec execRecordList; exact ⟨_, _, rfl⟩
  case recordDelete => cases h; unfold exec execRecordDelete; exact ⟨_, _, rfl⟩
  case streamSet => cases h; unfold exec execStreamSet; exact ⟨_, _, rfl⟩
  case streamStart => cases h; unfold exec execStreamStart; exact ⟨_, _, rfl⟩
  case streamStop => cases h; unfold exec execStreamStop; exact ⟨_, _, rfl⟩
  case tempSet => cases h; unfold exec execTempSet; exact ⟨_, _, rfl⟩
  case tempCal => cases h; unfold exec execTempCal; exact ⟨_, _, rfl⟩
  case calibrate => cases h; unfold exec execCalibrate; exact ⟨_, _, rfl⟩
  case retrimDefer => cases h; unfold exec execRetrimDefer; exact ⟨_, _, rfl⟩
  case trimSet => cases h; unfold exec execTrimSet; exact ⟨_, _, rfl⟩
  case surveyRead => cases h; unfold exec execSurveyRead; exact ⟨_, _, rfl⟩
  case timeCfg => cases h; unfold exec execTimeCfg; exact ⟨_, _, rfl⟩
  case timeSet => cases h; unfold exec execTimeSet; exact ⟨_, _, rfl⟩
  case tiuMeasure => cases h; unfold exec execTiuMeasure; exact ⟨_, _, rfl⟩
  case tachCfg => cases h; unfold exec execTachCfg; exact ⟨_, _, rfl⟩
  case tachStatus => cases h; unfold exec execTachStatus; exact ⟨_, _, rfl⟩
  case timeRead => cases h; unfold exec execTimeRead; exact ⟨_, _, rfl⟩
  case faultRead => cases h; unfold exec execFaultRead; exact ⟨_, _, rfl⟩
  case faultClear => cases h; unfold exec execFaultClear; exact ⟨_, _, rfl⟩
  case faultCfg => cases h; unfold exec execFaultCfg; exact ⟨_, _, rfl⟩
  case logRead => cases h; unfold exec execLogRead; exact ⟨_, _, rfl⟩
  case netSet => cases h; unfold exec execNetSet; exact ⟨_, _, rfl⟩
  case memMap => cases h; unfold exec execMemMap; exact ⟨_, _, rfl⟩
  case replayStart => cases h; unfold exec execReplayStart; exact ⟨_, _, rfl⟩
  case replayStop => cases h; unfold exec execReplayStop; exact ⟨_, _, rfl⟩
  case fwStage => cases h; unfold exec execFwStage; exact ⟨_, _, rfl⟩
  case fwActivate => cases h; unfold exec execFwActivate; exact ⟨_, _, rfl⟩
  case bist => cases h; unfold exec execBist; exact ⟨_, _, rfl⟩
  case train => cases h; unfold exec execTrain; exact ⟨_, _, rfl⟩
  case shutdown => cases h; unfold exec execShutdown; exact ⟨_, _, rfl⟩
  case secChallenge => cases h; unfold exec execSecChallenge; exact ⟨_, _, rfl⟩
  case secUnlock => cases h; unfold exec execSecUnlock; exact ⟨_, _, rfl⟩
  case secRevoke => cases h; unfold exec execSecRevoke; exact ⟨_, _, rfl⟩
  case secKey => cases h; unfold exec execSecKey; exact ⟨_, _, rfl⟩
  all_goals cases h

/-- A request row always answers a next state. -/
theorem State.command_next : ∃ t, s.command sp c index body = .next t := by
  unfold State.command
  repeat' (first | exact ⟨_, rfl⟩ | dsimp only | split)

end Sys2Proof.Machine
end

