-- ==== Sys2Proof/Laws/Vec.lean ====
section
/-! SUPPORT. Reading back what was written into a vector of registers. -/

namespace Sys2Proof.Machine

variable {α : Type} {n i j : Nat} {v : Vector α n} {x d : α} {f : α → α}

@[simp] theorem vget_vset_self (h : i < n) : vget (vset v i x) i d = x := by
  simp [vget, vset, h]
@[simp] theorem vget_vset_ne (h : i ≠ j) : vget (vset v i x) j d = vget v j d := by
  simp [vget, vset, h]
theorem vset_out (h : n ≤ i) : vset v i x = v := by
  apply Vector.ext; intro k hk
  simp only [vset, Vector.getElem_setIfInBounds]
  split
  · omega
  · rfl
theorem vmod_eq (h : i < n) : vmod v i f = vset v i (f (vget v i d)) := by
  unfold vmod vset vget
  have : v.toList[i]? = some v[i] := by simp [h]
  rw [this]; rfl
theorem vget_vmod_self (h : i < n) : vget (vmod v i f) i d = f (vget v i d) := by
  rw [vmod_eq (d := d) h, vget_vset_self h]
theorem vget_vmod_ne (h : i ≠ j) : vget (vmod v i f) j d = vget v j d := by
  by_cases hi : i < n
  · rw [vmod_eq (d := d) hi, vget_vset_ne h]
  · unfold vmod
    have : v.toList[i]? = none := by simp; omega
    rw [this]

end Sys2Proof.Machine
end

