-- ==== Sys2Proof/Laws/State.lean ====
section
/-! SUPPORT. What each named update of State does to each field: the field it writes takes the new value, every other field is unchanged. All hold by rfl. -/

namespace Sys2Proof.Machine

variable {s : State}

@[simp] theorem State.untilUp_pending (u : Nat) : (s.untilUp u).pending = s.pending := rfl
@[simp] theorem State.untilUp_free (u : Nat) : (s.untilUp u).free = s.free := rfl
@[simp] theorem State.untilUp_time (u : Nat) : (s.untilUp u).time = { s.time with up := max s.time.up u } := rfl
@[simp] theorem State.untilUp_tiu (u : Nat) : (s.untilUp u).tiu = s.tiu := rfl
@[simp] theorem State.untilUp_tach (u : Nat) : (s.untilUp u).tach = s.tach := rfl
@[simp] theorem State.untilUp_power (u : Nat) : (s.untilUp u).power = s.power := rfl
@[simp] theorem State.untilUp_boot (u : Nat) : (s.untilUp u).boot = s.boot := rfl
@[simp] theorem State.untilUp_larder (u : Nat) : (s.untilUp u).larder = s.larder := rfl
@[simp] theorem State.untilUp_fc (u : Nat) : (s.untilUp u).fc = s.fc := rfl
@[simp] theorem State.untilUp_host (u : Nat) : (s.untilUp u).host = s.host := rfl
@[simp] theorem State.untilUp_mb (u : Nat) : (s.untilUp u).mb = s.mb := rfl
@[simp] theorem State.untilUp_msix (u : Nat) : (s.untilUp u).msix = s.msix := rfl
@[simp] theorem State.untilUp_porch (u : Nat) : (s.untilUp u).porch = s.porch := rfl
@[simp] theorem State.untilUp_streams (u : Nat) : (s.untilUp u).streams = s.streams := rfl
@[simp] theorem State.untilUp_cw (u : Nat) : (s.untilUp u).cw = s.cw := rfl
@[simp] theorem State.untilUp_fw (u : Nat) : (s.untilUp u).fw = s.fw := rfl
@[simp] theorem State.untilUp_probe (u : Nat) : (s.untilUp u).probe = s.probe := rfl
@[simp] theorem State.untilUp_hearth (u : Nat) : (s.untilUp u).hearth = s.hearth := rfl
@[simp] theorem State.untilUp_thr (u : Nat) : (s.untilUp u).thr = s.thr := rfl
@[simp] theorem State.untilUp_cellar (u : Nat) : (s.untilUp u).cellar = s.cellar := rfl
@[simp] theorem State.untilUp_trig (u : Nat) : (s.untilUp u).trig = s.trig := rfl
@[simp] theorem State.untilUp_halls (u : Nat) : (s.untilUp u).halls = s.halls := rfl
@[simp] theorem State.untilUp_loft (u : Nat) : (s.untilUp u).loft = s.loft := rfl

@[simp] theorem State.withTime_pending (t : TimeBase) : (s.withTime t).pending = s.pending := rfl
@[simp] theorem State.withTime_free (t : TimeBase) : (s.withTime t).free = s.free := rfl
@[simp] theorem State.withTime_time (t : TimeBase) : (s.withTime t).time = t := rfl
@[simp] theorem State.withTime_tiu (t : TimeBase) : (s.withTime t).tiu = s.tiu := rfl
@[simp] theorem State.withTime_tach (t : TimeBase) : (s.withTime t).tach = s.tach := rfl
@[simp] theorem State.withTime_power (t : TimeBase) : (s.withTime t).power = s.power := rfl
@[simp] theorem State.withTime_boot (t : TimeBase) : (s.withTime t).boot = s.boot := rfl
@[simp] theorem State.withTime_larder (t : TimeBase) : (s.withTime t).larder = s.larder := rfl
@[simp] theorem State.withTime_fc (t : TimeBase) : (s.withTime t).fc = s.fc := rfl
@[simp] theorem State.withTime_host (t : TimeBase) : (s.withTime t).host = s.host := rfl
@[simp] theorem State.withTime_mb (t : TimeBase) : (s.withTime t).mb = s.mb := rfl
@[simp] theorem State.withTime_msix (t : TimeBase) : (s.withTime t).msix = s.msix := rfl
@[simp] theorem State.withTime_porch (t : TimeBase) : (s.withTime t).porch = s.porch := rfl
@[simp] theorem State.withTime_streams (t : TimeBase) : (s.withTime t).streams = s.streams := rfl
@[simp] theorem State.withTime_cw (t : TimeBase) : (s.withTime t).cw = s.cw := rfl
@[simp] theorem State.withTime_fw (t : TimeBase) : (s.withTime t).fw = s.fw := rfl
@[simp] theorem State.withTime_probe (t : TimeBase) : (s.withTime t).probe = s.probe := rfl
@[simp] theorem State.withTime_hearth (t : TimeBase) : (s.withTime t).hearth = s.hearth := rfl
@[simp] theorem State.withTime_thr (t : TimeBase) : (s.withTime t).thr = s.thr := rfl
@[simp] theorem State.withTime_cellar (t : TimeBase) : (s.withTime t).cellar = s.cellar := rfl
@[simp] theorem State.withTime_trig (t : TimeBase) : (s.withTime t).trig = s.trig := rfl
@[simp] theorem State.withTime_halls (t : TimeBase) : (s.withTime t).halls = s.halls := rfl
@[simp] theorem State.withTime_loft (t : TimeBase) : (s.withTime t).loft = s.loft := rfl

@[simp] theorem State.setTimeStat_pending (f : Fld) (b : Bool) : (s.setTimeStat f b).pending = s.pending := rfl
@[simp] theorem State.setTimeStat_free (f : Fld) (b : Bool) : (s.setTimeStat f b).free = s.free := rfl
@[simp] theorem State.setTimeStat_time (f : Fld) (b : Bool) : (s.setTimeStat f b).time = { s.time with timeStat := fsetB s.time.timeStat f b } := rfl
@[simp] theorem State.setTimeStat_tiu (f : Fld) (b : Bool) : (s.setTimeStat f b).tiu = s.tiu := rfl
@[simp] theorem State.setTimeStat_tach (f : Fld) (b : Bool) : (s.setTimeStat f b).tach = s.tach := rfl
@[simp] theorem State.setTimeStat_power (f : Fld) (b : Bool) : (s.setTimeStat f b).power = s.power := rfl
@[simp] theorem State.setTimeStat_boot (f : Fld) (b : Bool) : (s.setTimeStat f b).boot = s.boot := rfl
@[simp] theorem State.setTimeStat_larder (f : Fld) (b : Bool) : (s.setTimeStat f b).larder = s.larder := rfl
@[simp] theorem State.setTimeStat_fc (f : Fld) (b : Bool) : (s.setTimeStat f b).fc = s.fc := rfl
@[simp] theorem State.setTimeStat_host (f : Fld) (b : Bool) : (s.setTimeStat f b).host = s.host := rfl
@[simp] theorem State.setTimeStat_mb (f : Fld) (b : Bool) : (s.setTimeStat f b).mb = s.mb := rfl
@[simp] theorem State.setTimeStat_msix (f : Fld) (b : Bool) : (s.setTimeStat f b).msix = s.msix := rfl
@[simp] theorem State.setTimeStat_porch (f : Fld) (b : Bool) : (s.setTimeStat f b).porch = s.porch := rfl
@[simp] theorem State.setTimeStat_streams (f : Fld) (b : Bool) : (s.setTimeStat f b).streams = s.streams := rfl
@[simp] theorem State.setTimeStat_cw (f : Fld) (b : Bool) : (s.setTimeStat f b).cw = s.cw := rfl
@[simp] theorem State.setTimeStat_fw (f : Fld) (b : Bool) : (s.setTimeStat f b).fw = s.fw := rfl
@[simp] theorem State.setTimeStat_probe (f : Fld) (b : Bool) : (s.setTimeStat f b).probe = s.probe := rfl
@[simp] theorem State.setTimeStat_hearth (f : Fld) (b : Bool) : (s.setTimeStat f b).hearth = s.hearth := rfl
@[simp] theorem State.setTimeStat_thr (f : Fld) (b : Bool) : (s.setTimeStat f b).thr = s.thr := rfl
@[simp] theorem State.setTimeStat_cellar (f : Fld) (b : Bool) : (s.setTimeStat f b).cellar = s.cellar := rfl
@[simp] theorem State.setTimeStat_trig (f : Fld) (b : Bool) : (s.setTimeStat f b).trig = s.trig := rfl
@[simp] theorem State.setTimeStat_halls (f : Fld) (b : Bool) : (s.setTimeStat f b).halls = s.halls := rfl
@[simp] theorem State.setTimeStat_loft (f : Fld) (b : Bool) : (s.setTimeStat f b).loft = s.loft := rfl

@[simp] theorem State.withTiu_pending (t : Tiu) : (s.withTiu t).pending = s.pending := rfl
@[simp] theorem State.withTiu_free (t : Tiu) : (s.withTiu t).free = s.free := rfl
@[simp] theorem State.withTiu_time (t : Tiu) : (s.withTiu t).time = s.time := rfl
@[simp] theorem State.withTiu_tiu (t : Tiu) : (s.withTiu t).tiu = t := rfl
@[simp] theorem State.withTiu_tach (t : Tiu) : (s.withTiu t).tach = s.tach := rfl
@[simp] theorem State.withTiu_power (t : Tiu) : (s.withTiu t).power = s.power := rfl
@[simp] theorem State.withTiu_boot (t : Tiu) : (s.withTiu t).boot = s.boot := rfl
@[simp] theorem State.withTiu_larder (t : Tiu) : (s.withTiu t).larder = s.larder := rfl
@[simp] theorem State.withTiu_fc (t : Tiu) : (s.withTiu t).fc = s.fc := rfl
@[simp] theorem State.withTiu_host (t : Tiu) : (s.withTiu t).host = s.host := rfl
@[simp] theorem State.withTiu_mb (t : Tiu) : (s.withTiu t).mb = s.mb := rfl
@[simp] theorem State.withTiu_msix (t : Tiu) : (s.withTiu t).msix = s.msix := rfl
@[simp] theorem State.withTiu_porch (t : Tiu) : (s.withTiu t).porch = s.porch := rfl
@[simp] theorem State.withTiu_streams (t : Tiu) : (s.withTiu t).streams = s.streams := rfl
@[simp] theorem State.withTiu_cw (t : Tiu) : (s.withTiu t).cw = s.cw := rfl
@[simp] theorem State.withTiu_fw (t : Tiu) : (s.withTiu t).fw = s.fw := rfl
@[simp] theorem State.withTiu_probe (t : Tiu) : (s.withTiu t).probe = s.probe := rfl
@[simp] theorem State.withTiu_hearth (t : Tiu) : (s.withTiu t).hearth = s.hearth := rfl
@[simp] theorem State.withTiu_thr (t : Tiu) : (s.withTiu t).thr = s.thr := rfl
@[simp] theorem State.withTiu_cellar (t : Tiu) : (s.withTiu t).cellar = s.cellar := rfl
@[simp] theorem State.withTiu_trig (t : Tiu) : (s.withTiu t).trig = s.trig := rfl
@[simp] theorem State.withTiu_halls (t : Tiu) : (s.withTiu t).halls = s.halls := rfl
@[simp] theorem State.withTiu_loft (t : Tiu) : (s.withTiu t).loft = s.loft := rfl

@[simp] theorem State.setTach_pending (k : Nat) (t : Tach) : (s.setTach k t).pending = s.pending := rfl
@[simp] theorem State.setTach_free (k : Nat) (t : Tach) : (s.setTach k t).free = s.free := rfl
@[simp] theorem State.setTach_time (k : Nat) (t : Tach) : (s.setTach k t).time = s.time := rfl
@[simp] theorem State.setTach_tiu (k : Nat) (t : Tach) : (s.setTach k t).tiu = s.tiu := rfl
@[simp] theorem State.setTach_tach (k : Nat) (t : Tach) : (s.setTach k t).tach = vset s.tach k t := rfl
@[simp] theorem State.setTach_power (k : Nat) (t : Tach) : (s.setTach k t).power = s.power := rfl
@[simp] theorem State.setTach_boot (k : Nat) (t : Tach) : (s.setTach k t).boot = s.boot := rfl
@[simp] theorem State.setTach_larder (k : Nat) (t : Tach) : (s.setTach k t).larder = s.larder := rfl
@[simp] theorem State.setTach_fc (k : Nat) (t : Tach) : (s.setTach k t).fc = s.fc := rfl
@[simp] theorem State.setTach_host (k : Nat) (t : Tach) : (s.setTach k t).host = s.host := rfl
@[simp] theorem State.setTach_mb (k : Nat) (t : Tach) : (s.setTach k t).mb = s.mb := rfl
@[simp] theorem State.setTach_msix (k : Nat) (t : Tach) : (s.setTach k t).msix = s.msix := rfl
@[simp] theorem State.setTach_porch (k : Nat) (t : Tach) : (s.setTach k t).porch = s.porch := rfl
@[simp] theorem State.setTach_streams (k : Nat) (t : Tach) : (s.setTach k t).streams = s.streams := rfl
@[simp] theorem State.setTach_cw (k : Nat) (t : Tach) : (s.setTach k t).cw = s.cw := rfl
@[simp] theorem State.setTach_fw (k : Nat) (t : Tach) : (s.setTach k t).fw = s.fw := rfl
@[simp] theorem State.setTach_probe (k : Nat) (t : Tach) : (s.setTach k t).probe = s.probe := rfl
@[simp] theorem State.setTach_hearth (k : Nat) (t : Tach) : (s.setTach k t).hearth = s.hearth := rfl
@[simp] theorem State.setTach_thr (k : Nat) (t : Tach) : (s.setTach k t).thr = s.thr := rfl
@[simp] theorem State.setTach_cellar (k : Nat) (t : Tach) : (s.setTach k t).cellar = s.cellar := rfl
@[simp] theorem State.setTach_trig (k : Nat) (t : Tach) : (s.setTach k t).trig = s.trig := rfl
@[simp] theorem State.setTach_halls (k : Nat) (t : Tach) : (s.setTach k t).halls = s.halls := rfl
@[simp] theorem State.setTach_loft (k : Nat) (t : Tach) : (s.setTach k t).loft = s.loft := rfl

@[simp] theorem State.setSource_pending (n : Nat) (f : FaultSource) : (s.setSource n f).pending = s.pending := rfl
@[simp] theorem State.setSource_free (n : Nat) (f : FaultSource) : (s.setSource n f).free = s.free := rfl
@[simp] theorem State.setSource_time (n : Nat) (f : FaultSource) : (s.setSource n f).time = s.time := rfl
@[simp] theorem State.setSource_tiu (n : Nat) (f : FaultSource) : (s.setSource n f).tiu = s.tiu := rfl
@[simp] theorem State.setSource_tach (n : Nat) (f : FaultSource) : (s.setSource n f).tach = s.tach := rfl
@[simp] theorem State.setSource_power (n : Nat) (f : FaultSource) : (s.setSource n f).power = s.power := rfl
@[simp] theorem State.setSource_boot (n : Nat) (f : FaultSource) : (s.setSource n f).boot = s.boot := rfl
@[simp] theorem State.setSource_larder (n : Nat) (f : FaultSource) : (s.setSource n f).larder = s.larder := rfl
@[simp] theorem State.setSource_fc (n : Nat) (f : FaultSource) : (s.setSource n f).fc = { s.fc with sources := vset s.fc.sources n f } := rfl
@[simp] theorem State.setSource_host (n : Nat) (f : FaultSource) : (s.setSource n f).host = s.host := rfl
@[simp] theorem State.setSource_mb (n : Nat) (f : FaultSource) : (s.setSource n f).mb = s.mb := rfl
@[simp] theorem State.setSource_msix (n : Nat) (f : FaultSource) : (s.setSource n f).msix = s.msix := rfl
@[simp] theorem State.setSource_porch (n : Nat) (f : FaultSource) : (s.setSource n f).porch = s.porch := rfl
@[simp] theorem State.setSource_streams (n : Nat) (f : FaultSource) : (s.setSource n f).streams = s.streams := rfl
@[simp] theorem State.setSource_cw (n : Nat) (f : FaultSource) : (s.setSource n f).cw = s.cw := rfl
@[simp] theorem State.setSource_fw (n : Nat) (f : FaultSource) : (s.setSource n f).fw = s.fw := rfl
@[simp] theorem State.setSource_probe (n : Nat) (f : FaultSource) : (s.setSource n f).probe = s.probe := rfl
@[simp] theorem State.setSource_hearth (n : Nat) (f : FaultSource) : (s.setSource n f).hearth = s.hearth := rfl
@[simp] theorem State.setSource_thr (n : Nat) (f : FaultSource) : (s.setSource n f).thr = s.thr := rfl
@[simp] theorem State.setSource_cellar (n : Nat) (f : FaultSource) : (s.setSource n f).cellar = s.cellar := rfl
@[simp] theorem State.setSource_trig (n : Nat) (f : FaultSource) : (s.setSource n f).trig = s.trig := rfl
@[simp] theorem State.setSource_halls (n : Nat) (f : FaultSource) : (s.setSource n f).halls = s.halls := rfl
@[simp] theorem State.setSource_loft (n : Nat) (f : FaultSource) : (s.setSource n f).loft = s.loft := rfl

@[simp] theorem State.returned_pending (p : Path) (ws : List Word) : (s.returned p ws).pending = s.pending := rfl
@[simp] theorem State.returned_free (p : Path) (ws : List Word) : (s.returned p ws).free = s.free := rfl
@[simp] theorem State.returned_time (p : Path) (ws : List Word) : (s.returned p ws).time = s.time := rfl
@[simp] theorem State.returned_tiu (p : Path) (ws : List Word) : (s.returned p ws).tiu = s.tiu := rfl
@[simp] theorem State.returned_tach (p : Path) (ws : List Word) : (s.returned p ws).tach = s.tach := rfl
@[simp] theorem State.returned_power (p : Path) (ws : List Word) : (s.returned p ws).power = s.power := rfl
@[simp] theorem State.returned_boot (p : Path) (ws : List Word) : (s.returned p ws).boot = s.boot := rfl
@[simp] theorem State.returned_larder (p : Path) (ws : List Word) : (s.returned p ws).larder = s.larder := rfl
@[simp] theorem State.returned_fc (p : Path) (ws : List Word) : (s.returned p ws).fc = s.fc := rfl
@[simp] theorem State.returned_host (p : Path) (ws : List Word) : (s.returned p ws).host = { s.host with readBack := vset s.host.readBack (pathReq p) ws } := rfl
@[simp] theorem State.returned_mb (p : Path) (ws : List Word) : (s.returned p ws).mb = s.mb := rfl
@[simp] theorem State.returned_msix (p : Path) (ws : List Word) : (s.returned p ws).msix = s.msix := rfl
@[simp] theorem State.returned_porch (p : Path) (ws : List Word) : (s.returned p ws).porch = s.porch := rfl
@[simp] theorem State.returned_streams (p : Path) (ws : List Word) : (s.returned p ws).streams = s.streams := rfl
@[simp] theorem State.returned_cw (p : Path) (ws : List Word) : (s.returned p ws).cw = s.cw := rfl
@[simp] theorem State.returned_fw (p : Path) (ws : List Word) : (s.returned p ws).fw = s.fw := rfl
@[simp] theorem State.returned_probe (p : Path) (ws : List Word) : (s.returned p ws).probe = s.probe := rfl
@[simp] theorem State.returned_hearth (p : Path) (ws : List Word) : (s.returned p ws).hearth = s.hearth := rfl
@[simp] theorem State.returned_thr (p : Path) (ws : List Word) : (s.returned p ws).thr = s.thr := rfl
@[simp] theorem State.returned_cellar (p : Path) (ws : List Word) : (s.returned p ws).cellar = s.cellar := rfl
@[simp] theorem State.returned_trig (p : Path) (ws : List Word) : (s.returned p ws).trig = s.trig := rfl
@[simp] theorem State.returned_halls (p : Path) (ws : List Word) : (s.returned p ws).halls = s.halls := rfl
@[simp] theorem State.returned_loft (p : Path) (ws : List Word) : (s.returned p ws).loft = s.loft := rfl

@[simp] theorem State.setWide_pending (i : Nat) (m : WideMailbox) : (s.setWide i m).pending = s.pending := rfl
@[simp] theorem State.setWide_free (i : Nat) (m : WideMailbox) : (s.setWide i m).free = s.free := rfl
@[simp] theorem State.setWide_time (i : Nat) (m : WideMailbox) : (s.setWide i m).time = s.time := rfl
@[simp] theorem State.setWide_tiu (i : Nat) (m : WideMailbox) : (s.setWide i m).tiu = s.tiu := rfl
@[simp] theorem State.setWide_tach (i : Nat) (m : WideMailbox) : (s.setWide i m).tach = s.tach := rfl
@[simp] theorem State.setWide_power (i : Nat) (m : WideMailbox) : (s.setWide i m).power = s.power := rfl
@[simp] theorem State.setWide_boot (i : Nat) (m : WideMailbox) : (s.setWide i m).boot = s.boot := rfl
@[simp] theorem State.setWide_larder (i : Nat) (m : WideMailbox) : (s.setWide i m).larder = s.larder := rfl
@[simp] theorem State.setWide_fc (i : Nat) (m : WideMailbox) : (s.setWide i m).fc = s.fc := rfl
@[simp] theorem State.setWide_host (i : Nat) (m : WideMailbox) : (s.setWide i m).host = { s.host with wide := vset s.host.wide i m } := rfl
@[simp] theorem State.setWide_mb (i : Nat) (m : WideMailbox) : (s.setWide i m).mb = s.mb := rfl
@[simp] theorem State.setWide_msix (i : Nat) (m : WideMailbox) : (s.setWide i m).msix = s.msix := rfl
@[simp] theorem State.setWide_porch (i : Nat) (m : WideMailbox) : (s.setWide i m).porch = s.porch := rfl
@[simp] theorem State.setWide_streams (i : Nat) (m : WideMailbox) : (s.setWide i m).streams = s.streams := rfl
@[simp] theorem State.setWide_cw (i : Nat) (m : WideMailbox) : (s.setWide i m).cw = s.cw := rfl
@[simp] theorem State.setWide_fw (i : Nat) (m : WideMailbox) : (s.setWide i m).fw = s.fw := rfl
@[simp] theorem State.setWide_probe (i : Nat) (m : WideMailbox) : (s.setWide i m).probe = s.probe := rfl
@[simp] theorem State.setWide_hearth (i : Nat) (m : WideMailbox) : (s.setWide i m).hearth = s.hearth := rfl
@[simp] theorem State.setWide_thr (i : Nat) (m : WideMailbox) : (s.setWide i m).thr = s.thr := rfl
@[simp] theorem State.setWide_cellar (i : Nat) (m : WideMailbox) : (s.setWide i m).cellar = s.cellar := rfl
@[simp] theorem State.setWide_trig (i : Nat) (m : WideMailbox) : (s.setWide i m).trig = s.trig := rfl
@[simp] theorem State.setWide_halls (i : Nat) (m : WideMailbox) : (s.setWide i m).halls = s.halls := rfl
@[simp] theorem State.setWide_loft (i : Nat) (m : WideMailbox) : (s.setWide i m).loft = s.loft := rfl

@[simp] theorem State.setChan_pending (c : Nat) (m : Mailbox) : (s.setChan c m).pending = s.pending := rfl
@[simp] theorem State.setChan_free (c : Nat) (m : Mailbox) : (s.setChan c m).free = s.free := rfl
@[simp] theorem State.setChan_time (c : Nat) (m : Mailbox) : (s.setChan c m).time = s.time := rfl
@[simp] theorem State.setChan_tiu (c : Nat) (m : Mailbox) : (s.setChan c m).tiu = s.tiu := rfl
@[simp] theorem State.setChan_tach (c : Nat) (m : Mailbox) : (s.setChan c m).tach = s.tach := rfl
@[simp] theorem State.setChan_power (c : Nat) (m : Mailbox) : (s.setChan c m).power = s.power := rfl
@[simp] theorem State.setChan_boot (c : Nat) (m : Mailbox) : (s.setChan c m).boot = s.boot := rfl
@[simp] theorem State.setChan_larder (c : Nat) (m : Mailbox) : (s.setChan c m).larder = s.larder := rfl
@[simp] theorem State.setChan_fc (c : Nat) (m : Mailbox) : (s.setChan c m).fc = s.fc := rfl
@[simp] theorem State.setChan_host (c : Nat) (m : Mailbox) : (s.setChan c m).host = s.host := rfl
@[simp] theorem State.setChan_mb (c : Nat) (m : Mailbox) : (s.setChan c m).mb = { s.mb with chan := vset s.mb.chan c m } := rfl
@[simp] theorem State.setChan_msix (c : Nat) (m : Mailbox) : (s.setChan c m).msix = s.msix := rfl
@[simp] theorem State.setChan_porch (c : Nat) (m : Mailbox) : (s.setChan c m).porch = s.porch := rfl
@[simp] theorem State.setChan_streams (c : Nat) (m : Mailbox) : (s.setChan c m).streams = s.streams := rfl
@[simp] theorem State.setChan_cw (c : Nat) (m : Mailbox) : (s.setChan c m).cw = s.cw := rfl
@[simp] theorem State.setChan_fw (c : Nat) (m : Mailbox) : (s.setChan c m).fw = s.fw := rfl
@[simp] theorem State.setChan_probe (c : Nat) (m : Mailbox) : (s.setChan c m).probe = s.probe := rfl
@[simp] theorem State.setChan_hearth (c : Nat) (m : Mailbox) : (s.setChan c m).hearth = s.hearth := rfl
@[simp] theorem State.setChan_thr (c : Nat) (m : Mailbox) : (s.setChan c m).thr = s.thr := rfl
@[simp] theorem State.setChan_cellar (c : Nat) (m : Mailbox) : (s.setChan c m).cellar = s.cellar := rfl
@[simp] theorem State.setChan_trig (c : Nat) (m : Mailbox) : (s.setChan c m).trig = s.trig := rfl
@[simp] theorem State.setChan_halls (c : Nat) (m : Mailbox) : (s.setChan c m).halls = s.halls := rfl
@[simp] theorem State.setChan_loft (c : Nat) (m : Mailbox) : (s.setChan c m).loft = s.loft := rfl

@[simp] theorem State.freeLock_pending (k : Nat) : (s.freeLock k).pending = s.pending := rfl
@[simp] theorem State.freeLock_free (k : Nat) : (s.freeLock k).free = s.free := rfl
@[simp] theorem State.freeLock_time (k : Nat) : (s.freeLock k).time = s.time := rfl
@[simp] theorem State.freeLock_tiu (k : Nat) : (s.freeLock k).tiu = s.tiu := rfl
@[simp] theorem State.freeLock_tach (k : Nat) : (s.freeLock k).tach = s.tach := rfl
@[simp] theorem State.freeLock_power (k : Nat) : (s.freeLock k).power = s.power := rfl
@[simp] theorem State.freeLock_boot (k : Nat) : (s.freeLock k).boot = s.boot := rfl
@[simp] theorem State.freeLock_larder (k : Nat) : (s.freeLock k).larder = s.larder := rfl
@[simp] theorem State.freeLock_fc (k : Nat) : (s.freeLock k).fc = s.fc := rfl
@[simp] theorem State.freeLock_host (k : Nat) : (s.freeLock k).host = s.host := rfl
@[simp] theorem State.freeLock_mb (k : Nat) : (s.freeLock k).mb = { s.mb with locks := vset s.mb.locks k 0 } := rfl
@[simp] theorem State.freeLock_msix (k : Nat) : (s.freeLock k).msix = s.msix := rfl
@[simp] theorem State.freeLock_porch (k : Nat) : (s.freeLock k).porch = s.porch := rfl
@[simp] theorem State.freeLock_streams (k : Nat) : (s.freeLock k).streams = s.streams := rfl
@[simp] theorem State.freeLock_cw (k : Nat) : (s.freeLock k).cw = s.cw := rfl
@[simp] theorem State.freeLock_fw (k : Nat) : (s.freeLock k).fw = s.fw := rfl
@[simp] theorem State.freeLock_probe (k : Nat) : (s.freeLock k).probe = s.probe := rfl
@[simp] theorem State.freeLock_hearth (k : Nat) : (s.freeLock k).hearth = s.hearth := rfl
@[simp] theorem State.freeLock_thr (k : Nat) : (s.freeLock k).thr = s.thr := rfl
@[simp] theorem State.freeLock_cellar (k : Nat) : (s.freeLock k).cellar = s.cellar := rfl
@[simp] theorem State.freeLock_trig (k : Nat) : (s.freeLock k).trig = s.trig := rfl
@[simp] theorem State.freeLock_halls (k : Nat) : (s.freeLock k).halls = s.halls := rfl
@[simp] theorem State.freeLock_loft (k : Nat) : (s.freeLock k).loft = s.loft := rfl

@[simp] theorem State.withEth_pending (e : Eth) : (s.withEth e).pending = s.pending := rfl
@[simp] theorem State.withEth_free (e : Eth) : (s.withEth e).free = s.free := rfl
@[simp] theorem State.withEth_time (e : Eth) : (s.withEth e).time = s.time := rfl
@[simp] theorem State.withEth_tiu (e : Eth) : (s.withEth e).tiu = s.tiu := rfl
@[simp] theorem State.withEth_tach (e : Eth) : (s.withEth e).tach = s.tach := rfl
@[simp] theorem State.withEth_power (e : Eth) : (s.withEth e).power = s.power := rfl
@[simp] theorem State.withEth_boot (e : Eth) : (s.withEth e).boot = s.boot := rfl
@[simp] theorem State.withEth_larder (e : Eth) : (s.withEth e).larder = s.larder := rfl
@[simp] theorem State.withEth_fc (e : Eth) : (s.withEth e).fc = s.fc := rfl
@[simp] theorem State.withEth_host (e : Eth) : (s.withEth e).host = s.host := rfl
@[simp] theorem State.withEth_mb (e : Eth) : (s.withEth e).mb = s.mb := rfl
@[simp] theorem State.withEth_msix (e : Eth) : (s.withEth e).msix = s.msix := rfl
@[simp] theorem State.withEth_porch (e : Eth) : (s.withEth e).porch = { s.porch with eth := e } := rfl
@[simp] theorem State.withEth_streams (e : Eth) : (s.withEth e).streams = s.streams := rfl
@[simp] theorem State.withEth_cw (e : Eth) : (s.withEth e).cw = s.cw := rfl
@[simp] theorem State.withEth_fw (e : Eth) : (s.withEth e).fw = s.fw := rfl
@[simp] theorem State.withEth_probe (e : Eth) : (s.withEth e).probe = s.probe := rfl
@[simp] theorem State.withEth_hearth (e : Eth) : (s.withEth e).hearth = s.hearth := rfl
@[simp] theorem State.withEth_thr (e : Eth) : (s.withEth e).thr = s.thr := rfl
@[simp] theorem State.withEth_cellar (e : Eth) : (s.withEth e).cellar = s.cellar := rfl
@[simp] theorem State.withEth_trig (e : Eth) : (s.withEth e).trig = s.trig := rfl
@[simp] theorem State.withEth_halls (e : Eth) : (s.withEth e).halls = s.halls := rfl
@[simp] theorem State.withEth_loft (e : Eth) : (s.withEth e).loft = s.loft := rfl

@[simp] theorem State.withSpi_pending (x : Spi) : (s.withSpi x).pending = s.pending := rfl
@[simp] theorem State.withSpi_free (x : Spi) : (s.withSpi x).free = s.free := rfl
@[simp] theorem State.withSpi_time (x : Spi) : (s.withSpi x).time = s.time := rfl
@[simp] theorem State.withSpi_tiu (x : Spi) : (s.withSpi x).tiu = s.tiu := rfl
@[simp] theorem State.withSpi_tach (x : Spi) : (s.withSpi x).tach = s.tach := rfl
@[simp] theorem State.withSpi_power (x : Spi) : (s.withSpi x).power = s.power := rfl
@[simp] theorem State.withSpi_boot (x : Spi) : (s.withSpi x).boot = s.boot := rfl
@[simp] theorem State.withSpi_larder (x : Spi) : (s.withSpi x).larder = s.larder := rfl
@[simp] theorem State.withSpi_fc (x : Spi) : (s.withSpi x).fc = s.fc := rfl
@[simp] theorem State.withSpi_host (x : Spi) : (s.withSpi x).host = s.host := rfl
@[simp] theorem State.withSpi_mb (x : Spi) : (s.withSpi x).mb = s.mb := rfl
@[simp] theorem State.withSpi_msix (x : Spi) : (s.withSpi x).msix = s.msix := rfl
@[simp] theorem State.withSpi_porch (x : Spi) : (s.withSpi x).porch = { s.porch with spi := x } := rfl
@[simp] theorem State.withSpi_streams (x : Spi) : (s.withSpi x).streams = s.streams := rfl
@[simp] theorem State.withSpi_cw (x : Spi) : (s.withSpi x).cw = s.cw := rfl
@[simp] theorem State.withSpi_fw (x : Spi) : (s.withSpi x).fw = s.fw := rfl
@[simp] theorem State.withSpi_probe (x : Spi) : (s.withSpi x).probe = s.probe := rfl
@[simp] theorem State.withSpi_hearth (x : Spi) : (s.withSpi x).hearth = s.hearth := rfl
@[simp] theorem State.withSpi_thr (x : Spi) : (s.withSpi x).thr = s.thr := rfl
@[simp] theorem State.withSpi_cellar (x : Spi) : (s.withSpi x).cellar = s.cellar := rfl
@[simp] theorem State.withSpi_trig (x : Spi) : (s.withSpi x).trig = s.trig := rfl
@[simp] theorem State.withSpi_halls (x : Spi) : (s.withSpi x).halls = s.halls := rfl
@[simp] theorem State.withSpi_loft (x : Spi) : (s.withSpi x).loft = s.loft := rfl

@[simp] theorem State.withPcie_pending (x : Pcie) : (s.withPcie x).pending = s.pending := rfl
@[simp] theorem State.withPcie_free (x : Pcie) : (s.withPcie x).free = s.free := rfl
@[simp] theorem State.withPcie_time (x : Pcie) : (s.withPcie x).time = s.time := rfl
@[simp] theorem State.withPcie_tiu (x : Pcie) : (s.withPcie x).tiu = s.tiu := rfl
@[simp] theorem State.withPcie_tach (x : Pcie) : (s.withPcie x).tach = s.tach := rfl
@[simp] theorem State.withPcie_power (x : Pcie) : (s.withPcie x).power = s.power := rfl
@[simp] theorem State.withPcie_boot (x : Pcie) : (s.withPcie x).boot = s.boot := rfl
@[simp] theorem State.withPcie_larder (x : Pcie) : (s.withPcie x).larder = s.larder := rfl
@[simp] theorem State.withPcie_fc (x : Pcie) : (s.withPcie x).fc = s.fc := rfl
@[simp] theorem State.withPcie_host (x : Pcie) : (s.withPcie x).host = s.host := rfl
@[simp] theorem State.withPcie_mb (x : Pcie) : (s.withPcie x).mb = s.mb := rfl
@[simp] theorem State.withPcie_msix (x : Pcie) : (s.withPcie x).msix = s.msix := rfl
@[simp] theorem State.withPcie_porch (x : Pcie) : (s.withPcie x).porch = { s.porch with pcie := x } := rfl
@[simp] theorem State.withPcie_streams (x : Pcie) : (s.withPcie x).streams = s.streams := rfl
@[simp] theorem State.withPcie_cw (x : Pcie) : (s.withPcie x).cw = s.cw := rfl
@[simp] theorem State.withPcie_fw (x : Pcie) : (s.withPcie x).fw = s.fw := rfl
@[simp] theorem State.withPcie_probe (x : Pcie) : (s.withPcie x).probe = s.probe := rfl
@[simp] theorem State.withPcie_hearth (x : Pcie) : (s.withPcie x).hearth = s.hearth := rfl
@[simp] theorem State.withPcie_thr (x : Pcie) : (s.withPcie x).thr = s.thr := rfl
@[simp] theorem State.withPcie_cellar (x : Pcie) : (s.withPcie x).cellar = s.cellar := rfl
@[simp] theorem State.withPcie_trig (x : Pcie) : (s.withPcie x).trig = s.trig := rfl
@[simp] theorem State.withPcie_halls (x : Pcie) : (s.withPcie x).halls = s.halls := rfl
@[simp] theorem State.withPcie_loft (x : Pcie) : (s.withPcie x).loft = s.loft := rfl

@[simp] theorem State.setStream_pending (n : Nat) (t : Stream) : (s.setStream n t).pending = s.pending := rfl
@[simp] theorem State.setStream_free (n : Nat) (t : Stream) : (s.setStream n t).free = s.free := rfl
@[simp] theorem State.setStream_time (n : Nat) (t : Stream) : (s.setStream n t).time = s.time := rfl
@[simp] theorem State.setStream_tiu (n : Nat) (t : Stream) : (s.setStream n t).tiu = s.tiu := rfl
@[simp] theorem State.setStream_tach (n : Nat) (t : Stream) : (s.setStream n t).tach = s.tach := rfl
@[simp] theorem State.setStream_power (n : Nat) (t : Stream) : (s.setStream n t).power = s.power := rfl
@[simp] theorem State.setStream_boot (n : Nat) (t : Stream) : (s.setStream n t).boot = s.boot := rfl
@[simp] theorem State.setStream_larder (n : Nat) (t : Stream) : (s.setStream n t).larder = s.larder := rfl
@[simp] theorem State.setStream_fc (n : Nat) (t : Stream) : (s.setStream n t).fc = s.fc := rfl
@[simp] theorem State.setStream_host (n : Nat) (t : Stream) : (s.setStream n t).host = s.host := rfl
@[simp] theorem State.setStream_mb (n : Nat) (t : Stream) : (s.setStream n t).mb = s.mb := rfl
@[simp] theorem State.setStream_msix (n : Nat) (t : Stream) : (s.setStream n t).msix = s.msix := rfl
@[simp] theorem State.setStream_porch (n : Nat) (t : Stream) : (s.setStream n t).porch = s.porch := rfl
@[simp] theorem State.setStream_streams (n : Nat) (t : Stream) : (s.setStream n t).streams = { s.streams with str := vset s.streams.str n t } := rfl
@[simp] theorem State.setStream_cw (n : Nat) (t : Stream) : (s.setStream n t).cw = s.cw := rfl
@[simp] theorem State.setStream_fw (n : Nat) (t : Stream) : (s.setStream n t).fw = s.fw := rfl
@[simp] theorem State.setStream_probe (n : Nat) (t : Stream) : (s.setStream n t).probe = s.probe := rfl
@[simp] theorem State.setStream_hearth (n : Nat) (t : Stream) : (s.setStream n t).hearth = s.hearth := rfl
@[simp] theorem State.setStream_thr (n : Nat) (t : Stream) : (s.setStream n t).thr = s.thr := rfl
@[simp] theorem State.setStream_cellar (n : Nat) (t : Stream) : (s.setStream n t).cellar = s.cellar := rfl
@[simp] theorem State.setStream_trig (n : Nat) (t : Stream) : (s.setStream n t).trig = s.trig := rfl
@[simp] theorem State.setStream_halls (n : Nat) (t : Stream) : (s.setStream n t).halls = s.halls := rfl
@[simp] theorem State.setStream_loft (n : Nat) (t : Stream) : (s.setStream n t).loft = s.loft := rfl

@[simp] theorem State.withCw_pending (c : Causeway) : (s.withCw c).pending = s.pending := rfl
@[simp] theorem State.withCw_free (c : Causeway) : (s.withCw c).free = s.free := rfl
@[simp] theorem State.withCw_time (c : Causeway) : (s.withCw c).time = s.time := rfl
@[simp] theorem State.withCw_tiu (c : Causeway) : (s.withCw c).tiu = s.tiu := rfl
@[simp] theorem State.withCw_tach (c : Causeway) : (s.withCw c).tach = s.tach := rfl
@[simp] theorem State.withCw_power (c : Causeway) : (s.withCw c).power = s.power := rfl
@[simp] theorem State.withCw_boot (c : Causeway) : (s.withCw c).boot = s.boot := rfl
@[simp] theorem State.withCw_larder (c : Causeway) : (s.withCw c).larder = s.larder := rfl
@[simp] theorem State.withCw_fc (c : Causeway) : (s.withCw c).fc = s.fc := rfl
@[simp] theorem State.withCw_host (c : Causeway) : (s.withCw c).host = s.host := rfl
@[simp] theorem State.withCw_mb (c : Causeway) : (s.withCw c).mb = s.mb := rfl
@[simp] theorem State.withCw_msix (c : Causeway) : (s.withCw c).msix = s.msix := rfl
@[simp] theorem State.withCw_porch (c : Causeway) : (s.withCw c).porch = s.porch := rfl
@[simp] theorem State.withCw_streams (c : Causeway) : (s.withCw c).streams = s.streams := rfl
@[simp] theorem State.withCw_cw (c : Causeway) : (s.withCw c).cw = c := rfl
@[simp] theorem State.withCw_fw (c : Causeway) : (s.withCw c).fw = s.fw := rfl
@[simp] theorem State.withCw_probe (c : Causeway) : (s.withCw c).probe = s.probe := rfl
@[simp] theorem State.withCw_hearth (c : Causeway) : (s.withCw c).hearth = s.hearth := rfl
@[simp] theorem State.withCw_thr (c : Causeway) : (s.withCw c).thr = s.thr := rfl
@[simp] theorem State.withCw_cellar (c : Causeway) : (s.withCw c).cellar = s.cellar := rfl
@[simp] theorem State.withCw_trig (c : Causeway) : (s.withCw c).trig = s.trig := rfl
@[simp] theorem State.withCw_halls (c : Causeway) : (s.withCw c).halls = s.halls := rfl
@[simp] theorem State.withCw_loft (c : Causeway) : (s.withCw c).loft = s.loft := rfl

@[simp] theorem State.popHead_pending (c : Nat) : (s.popHead c).pending = s.pending := rfl
@[simp] theorem State.popHead_free (c : Nat) : (s.popHead c).free = s.free := rfl
@[simp] theorem State.popHead_time (c : Nat) : (s.popHead c).time = s.time := rfl
@[simp] theorem State.popHead_tiu (c : Nat) : (s.popHead c).tiu = s.tiu := rfl
@[simp] theorem State.popHead_tach (c : Nat) : (s.popHead c).tach = s.tach := rfl
@[simp] theorem State.popHead_power (c : Nat) : (s.popHead c).power = s.power := rfl
@[simp] theorem State.popHead_boot (c : Nat) : (s.popHead c).boot = s.boot := rfl
@[simp] theorem State.popHead_larder (c : Nat) : (s.popHead c).larder = s.larder := rfl
@[simp] theorem State.popHead_fc (c : Nat) : (s.popHead c).fc = s.fc := rfl
@[simp] theorem State.popHead_host (c : Nat) : (s.popHead c).host = s.host := rfl
@[simp] theorem State.popHead_mb (c : Nat) : (s.popHead c).mb = s.mb := rfl
@[simp] theorem State.popHead_msix (c : Nat) : (s.popHead c).msix = s.msix := rfl
@[simp] theorem State.popHead_porch (c : Nat) : (s.popHead c).porch = s.porch := rfl
@[simp] theorem State.popHead_streams (c : Nat) : (s.popHead c).streams = s.streams := rfl
@[simp] theorem State.popHead_cw (c : Nat) : (s.popHead c).cw = s.cw := rfl
@[simp] theorem State.popHead_fw (c : Nat) : (s.popHead c).fw = { s.fw with inbox := vmod s.fw.inbox c (fun q => q.drop 1) } := rfl
@[simp] theorem State.popHead_probe (c : Nat) : (s.popHead c).probe = s.probe := rfl
@[simp] theorem State.popHead_hearth (c : Nat) : (s.popHead c).hearth = s.hearth := rfl
@[simp] theorem State.popHead_thr (c : Nat) : (s.popHead c).thr = s.thr := rfl
@[simp] theorem State.popHead_cellar (c : Nat) : (s.popHead c).cellar = s.cellar := rfl
@[simp] theorem State.popHead_trig (c : Nat) : (s.popHead c).trig = s.trig := rfl
@[simp] theorem State.popHead_halls (c : Nat) : (s.popHead c).halls = s.halls := rfl
@[simp] theorem State.popHead_loft (c : Nat) : (s.popHead c).loft = s.loft := rfl

@[simp] theorem State.withHearth_pending (h : Hearth) : (s.withHearth h).pending = s.pending := rfl
@[simp] theorem State.withHearth_free (h : Hearth) : (s.withHearth h).free = s.free := rfl
@[simp] theorem State.withHearth_time (h : Hearth) : (s.withHearth h).time = s.time := rfl
@[simp] theorem State.withHearth_tiu (h : Hearth) : (s.withHearth h).tiu = s.tiu := rfl
@[simp] theorem State.withHearth_tach (h : Hearth) : (s.withHearth h).tach = s.tach := rfl
@[simp] theorem State.withHearth_power (h : Hearth) : (s.withHearth h).power = s.power := rfl
@[simp] theorem State.withHearth_boot (h : Hearth) : (s.withHearth h).boot = s.boot := rfl
@[simp] theorem State.withHearth_larder (h : Hearth) : (s.withHearth h).larder = s.larder := rfl
@[simp] theorem State.withHearth_fc (h : Hearth) : (s.withHearth h).fc = s.fc := rfl
@[simp] theorem State.withHearth_host (h : Hearth) : (s.withHearth h).host = s.host := rfl
@[simp] theorem State.withHearth_mb (h : Hearth) : (s.withHearth h).mb = s.mb := rfl
@[simp] theorem State.withHearth_msix (h : Hearth) : (s.withHearth h).msix = s.msix := rfl
@[simp] theorem State.withHearth_porch (h : Hearth) : (s.withHearth h).porch = s.porch := rfl
@[simp] theorem State.withHearth_streams (h : Hearth) : (s.withHearth h).streams = s.streams := rfl
@[simp] theorem State.withHearth_cw (h : Hearth) : (s.withHearth h).cw = s.cw := rfl
@[simp] theorem State.withHearth_fw (h : Hearth) : (s.withHearth h).fw = s.fw := rfl
@[simp] theorem State.withHearth_probe (h : Hearth) : (s.withHearth h).probe = s.probe := rfl
@[simp] theorem State.withHearth_hearth (h : Hearth) : (s.withHearth h).hearth = h := rfl
@[simp] theorem State.withHearth_thr (h : Hearth) : (s.withHearth h).thr = s.thr := rfl
@[simp] theorem State.withHearth_cellar (h : Hearth) : (s.withHearth h).cellar = s.cellar := rfl
@[simp] theorem State.withHearth_trig (h : Hearth) : (s.withHearth h).trig = s.trig := rfl
@[simp] theorem State.withHearth_halls (h : Hearth) : (s.withHearth h).halls = s.halls := rfl
@[simp] theorem State.withHearth_loft (h : Hearth) : (s.withHearth h).loft = s.loft := rfl

@[simp] theorem State.setTrim_pending (t : Trim) : (s.setTrim t).pending = s.pending := rfl
@[simp] theorem State.setTrim_free (t : Trim) : (s.setTrim t).free = s.free := rfl
@[simp] theorem State.setTrim_time (t : Trim) : (s.setTrim t).time = s.time := rfl
@[simp] theorem State.setTrim_tiu (t : Trim) : (s.setTrim t).tiu = s.tiu := rfl
@[simp] theorem State.setTrim_tach (t : Trim) : (s.setTrim t).tach = s.tach := rfl
@[simp] theorem State.setTrim_power (t : Trim) : (s.setTrim t).power = s.power := rfl
@[simp] theorem State.setTrim_boot (t : Trim) : (s.setTrim t).boot = s.boot := rfl
@[simp] theorem State.setTrim_larder (t : Trim) : (s.setTrim t).larder = s.larder := rfl
@[simp] theorem State.setTrim_fc (t : Trim) : (s.setTrim t).fc = s.fc := rfl
@[simp] theorem State.setTrim_host (t : Trim) : (s.setTrim t).host = s.host := rfl
@[simp] theorem State.setTrim_mb (t : Trim) : (s.setTrim t).mb = s.mb := rfl
@[simp] theorem State.setTrim_msix (t : Trim) : (s.setTrim t).msix = s.msix := rfl
@[simp] theorem State.setTrim_porch (t : Trim) : (s.setTrim t).porch = s.porch := rfl
@[simp] theorem State.setTrim_streams (t : Trim) : (s.setTrim t).streams = s.streams := rfl
@[simp] theorem State.setTrim_cw (t : Trim) : (s.setTrim t).cw = s.cw := rfl
@[simp] theorem State.setTrim_fw (t : Trim) : (s.setTrim t).fw = s.fw := rfl
@[simp] theorem State.setTrim_probe (t : Trim) : (s.setTrim t).probe = s.probe := rfl
@[simp] theorem State.setTrim_hearth (t : Trim) : (s.setTrim t).hearth = s.hearth := rfl
@[simp] theorem State.setTrim_thr (t : Trim) : (s.setTrim t).thr = { s.thr with trim := t } := rfl
@[simp] theorem State.setTrim_cellar (t : Trim) : (s.setTrim t).cellar = s.cellar := rfl
@[simp] theorem State.setTrim_trig (t : Trim) : (s.setTrim t).trig = s.trig := rfl
@[simp] theorem State.setTrim_halls (t : Trim) : (s.setTrim t).halls = s.halls := rfl
@[simp] theorem State.setTrim_loft (t : Trim) : (s.setTrim t).loft = s.loft := rfl

@[simp] theorem State.setThrLeg_pending (leg : Nat) (t : ThrLeg) : (s.setThrLeg leg t).pending = s.pending := rfl
@[simp] theorem State.setThrLeg_free (leg : Nat) (t : ThrLeg) : (s.setThrLeg leg t).free = s.free := rfl
@[simp] theorem State.setThrLeg_time (leg : Nat) (t : ThrLeg) : (s.setThrLeg leg t).time = s.time := rfl
@[simp] theorem State.setThrLeg_tiu (leg : Nat) (t : ThrLeg) : (s.setThrLeg leg t).tiu = s.tiu := rfl
@[simp] theorem State.setThrLeg_tach (leg : Nat) (t : ThrLeg) : (s.setThrLeg leg t).tach = s.tach := rfl
@[simp] theorem State.setThrLeg_power (leg : Nat) (t : ThrLeg) : (s.setThrLeg leg t).power = s.power := rfl
@[simp] theorem State.setThrLeg_boot (leg : Nat) (t : ThrLeg) : (s.setThrLeg leg t).boot = s.boot := rfl
@[simp] theorem State.setThrLeg_larder (leg : Nat) (t : ThrLeg) : (s.setThrLeg leg t).larder = s.larder := rfl
@[simp] theorem State.setThrLeg_fc (leg : Nat) (t : ThrLeg) : (s.setThrLeg leg t).fc = s.fc := rfl
@[simp] theorem State.setThrLeg_host (leg : Nat) (t : ThrLeg) : (s.setThrLeg leg t).host = s.host := rfl
@[simp] theorem State.setThrLeg_mb (leg : Nat) (t : ThrLeg) : (s.setThrLeg leg t).mb = s.mb := rfl
@[simp] theorem State.setThrLeg_msix (leg : Nat) (t : ThrLeg) : (s.setThrLeg leg t).msix = s.msix := rfl
@[simp] theorem State.setThrLeg_porch (leg : Nat) (t : ThrLeg) : (s.setThrLeg leg t).porch = s.porch := rfl
@[simp] theorem State.setThrLeg_streams (leg : Nat) (t : ThrLeg) : (s.setThrLeg leg t).streams = s.streams := rfl
@[simp] theorem State.setThrLeg_cw (leg : Nat) (t : ThrLeg) : (s.setThrLeg leg t).cw = s.cw := rfl
@[simp] theorem State.setThrLeg_fw (leg : Nat) (t : ThrLeg) : (s.setThrLeg leg t).fw = s.fw := rfl
@[simp] theorem State.setThrLeg_probe (leg : Nat) (t : ThrLeg) : (s.setThrLeg leg t).probe = s.probe := rfl
@[simp] theorem State.setThrLeg_hearth (leg : Nat) (t : ThrLeg) : (s.setThrLeg leg t).hearth = s.hearth := rfl
@[simp] theorem State.setThrLeg_thr (leg : Nat) (t : ThrLeg) : (s.setThrLeg leg t).thr = { s.thr with leg := vset s.thr.leg leg t } := rfl
@[simp] theorem State.setThrLeg_cellar (leg : Nat) (t : ThrLeg) : (s.setThrLeg leg t).cellar = s.cellar := rfl
@[simp] theorem State.setThrLeg_trig (leg : Nat) (t : ThrLeg) : (s.setThrLeg leg t).trig = s.trig := rfl
@[simp] theorem State.setThrLeg_halls (leg : Nat) (t : ThrLeg) : (s.setThrLeg leg t).halls = s.halls := rfl
@[simp] theorem State.setThrLeg_loft (leg : Nat) (t : ThrLeg) : (s.setThrLeg leg t).loft = s.loft := rfl

@[simp] theorem State.withCellar_pending (c : Cellar) : (s.withCellar c).pending = s.pending := rfl
@[simp] theorem State.withCellar_free (c : Cellar) : (s.withCellar c).free = s.free := rfl
@[simp] theorem State.withCellar_time (c : Cellar) : (s.withCellar c).time = s.time := rfl
@[simp] theorem State.withCellar_tiu (c : Cellar) : (s.withCellar c).tiu = s.tiu := rfl
@[simp] theorem State.withCellar_tach (c : Cellar) : (s.withCellar c).tach = s.tach := rfl
@[simp] theorem State.withCellar_power (c : Cellar) : (s.withCellar c).power = s.power := rfl
@[simp] theorem State.withCellar_boot (c : Cellar) : (s.withCellar c).boot = s.boot := rfl
@[simp] theorem State.withCellar_larder (c : Cellar) : (s.withCellar c).larder = s.larder := rfl
@[simp] theorem State.withCellar_fc (c : Cellar) : (s.withCellar c).fc = s.fc := rfl
@[simp] theorem State.withCellar_host (c : Cellar) : (s.withCellar c).host = s.host := rfl
@[simp] theorem State.withCellar_mb (c : Cellar) : (s.withCellar c).mb = s.mb := rfl
@[simp] theorem State.withCellar_msix (c : Cellar) : (s.withCellar c).msix = s.msix := rfl
@[simp] theorem State.withCellar_porch (c : Cellar) : (s.withCellar c).porch = s.porch := rfl
@[simp] theorem State.withCellar_streams (c : Cellar) : (s.withCellar c).streams = s.streams := rfl
@[simp] theorem State.withCellar_cw (c : Cellar) : (s.withCellar c).cw = s.cw := rfl
@[simp] theorem State.withCellar_fw (c : Cellar) : (s.withCellar c).fw = s.fw := rfl
@[simp] theorem State.withCellar_probe (c : Cellar) : (s.withCellar c).probe = s.probe := rfl
@[simp] theorem State.withCellar_hearth (c : Cellar) : (s.withCellar c).hearth = s.hearth := rfl
@[simp] theorem State.withCellar_thr (c : Cellar) : (s.withCellar c).thr = s.thr := rfl
@[simp] theorem State.withCellar_cellar (c : Cellar) : (s.withCellar c).cellar = c := rfl
@[simp] theorem State.withCellar_trig (c : Cellar) : (s.withCellar c).trig = s.trig := rfl
@[simp] theorem State.withCellar_halls (c : Cellar) : (s.withCellar c).halls = s.halls := rfl
@[simp] theorem State.withCellar_loft (c : Cellar) : (s.withCellar c).loft = s.loft := rfl

@[simp] theorem State.setUnit_pending (u : Nat) (x : TrigUnit) : (s.setUnit u x).pending = s.pending := rfl
@[simp] theorem State.setUnit_free (u : Nat) (x : TrigUnit) : (s.setUnit u x).free = s.free := rfl
@[simp] theorem State.setUnit_time (u : Nat) (x : TrigUnit) : (s.setUnit u x).time = s.time := rfl
@[simp] theorem State.setUnit_tiu (u : Nat) (x : TrigUnit) : (s.setUnit u x).tiu = s.tiu := rfl
@[simp] theorem State.setUnit_tach (u : Nat) (x : TrigUnit) : (s.setUnit u x).tach = s.tach := rfl
@[simp] theorem State.setUnit_power (u : Nat) (x : TrigUnit) : (s.setUnit u x).power = s.power := rfl
@[simp] theorem State.setUnit_boot (u : Nat) (x : TrigUnit) : (s.setUnit u x).boot = s.boot := rfl
@[simp] theorem State.setUnit_larder (u : Nat) (x : TrigUnit) : (s.setUnit u x).larder = s.larder := rfl
@[simp] theorem State.setUnit_fc (u : Nat) (x : TrigUnit) : (s.setUnit u x).fc = s.fc := rfl
@[simp] theorem State.setUnit_host (u : Nat) (x : TrigUnit) : (s.setUnit u x).host = s.host := rfl
@[simp] theorem State.setUnit_mb (u : Nat) (x : TrigUnit) : (s.setUnit u x).mb = s.mb := rfl
@[simp] theorem State.setUnit_msix (u : Nat) (x : TrigUnit) : (s.setUnit u x).msix = s.msix := rfl
@[simp] theorem State.setUnit_porch (u : Nat) (x : TrigUnit) : (s.setUnit u x).porch = s.porch := rfl
@[simp] theorem State.setUnit_streams (u : Nat) (x : TrigUnit) : (s.setUnit u x).streams = s.streams := rfl
@[simp] theorem State.setUnit_cw (u : Nat) (x : TrigUnit) : (s.setUnit u x).cw = s.cw := rfl
@[simp] theorem State.setUnit_fw (u : Nat) (x : TrigUnit) : (s.setUnit u x).fw = s.fw := rfl
@[simp] theorem State.setUnit_probe (u : Nat) (x : TrigUnit) : (s.setUnit u x).probe = s.probe := rfl
@[simp] theorem State.setUnit_hearth (u : Nat) (x : TrigUnit) : (s.setUnit u x).hearth = s.hearth := rfl
@[simp] theorem State.setUnit_thr (u : Nat) (x : TrigUnit) : (s.setUnit u x).thr = s.thr := rfl
@[simp] theorem State.setUnit_cellar (u : Nat) (x : TrigUnit) : (s.setUnit u x).cellar = s.cellar := rfl
@[simp] theorem State.setUnit_trig (u : Nat) (x : TrigUnit) : (s.setUnit u x).trig = { s.trig with units := vset s.trig.units u x } := rfl
@[simp] theorem State.setUnit_halls (u : Nat) (x : TrigUnit) : (s.setUnit u x).halls = s.halls := rfl
@[simp] theorem State.setUnit_loft (u : Nat) (x : TrigUnit) : (s.setUnit u x).loft = s.loft := rfl

@[simp] theorem State.setHall_pending (leg : Nat) (h : Hall) : (s.setHall leg h).pending = s.pending := rfl
@[simp] theorem State.setHall_free (leg : Nat) (h : Hall) : (s.setHall leg h).free = s.free := rfl
@[simp] theorem State.setHall_time (leg : Nat) (h : Hall) : (s.setHall leg h).time = s.time := rfl
@[simp] theorem State.setHall_tiu (leg : Nat) (h : Hall) : (s.setHall leg h).tiu = s.tiu := rfl
@[simp] theorem State.setHall_tach (leg : Nat) (h : Hall) : (s.setHall leg h).tach = s.tach := rfl
@[simp] theorem State.setHall_power (leg : Nat) (h : Hall) : (s.setHall leg h).power = s.power := rfl
@[simp] theorem State.setHall_boot (leg : Nat) (h : Hall) : (s.setHall leg h).boot = s.boot := rfl
@[simp] theorem State.setHall_larder (leg : Nat) (h : Hall) : (s.setHall leg h).larder = s.larder := rfl
@[simp] theorem State.setHall_fc (leg : Nat) (h : Hall) : (s.setHall leg h).fc = s.fc := rfl
@[simp] theorem State.setHall_host (leg : Nat) (h : Hall) : (s.setHall leg h).host = s.host := rfl
@[simp] theorem State.setHall_mb (leg : Nat) (h : Hall) : (s.setHall leg h).mb = s.mb := rfl
@[simp] theorem State.setHall_msix (leg : Nat) (h : Hall) : (s.setHall leg h).msix = s.msix := rfl
@[simp] theorem State.setHall_porch (leg : Nat) (h : Hall) : (s.setHall leg h).porch = s.porch := rfl
@[simp] theorem State.setHall_streams (leg : Nat) (h : Hall) : (s.setHall leg h).streams = s.streams := rfl
@[simp] theorem State.setHall_cw (leg : Nat) (h : Hall) : (s.setHall leg h).cw = s.cw := rfl
@[simp] theorem State.setHall_fw (leg : Nat) (h : Hall) : (s.setHall leg h).fw = s.fw := rfl
@[simp] theorem State.setHall_probe (leg : Nat) (h : Hall) : (s.setHall leg h).probe = s.probe := rfl
@[simp] theorem State.setHall_hearth (leg : Nat) (h : Hall) : (s.setHall leg h).hearth = s.hearth := rfl
@[simp] theorem State.setHall_thr (leg : Nat) (h : Hall) : (s.setHall leg h).thr = s.thr := rfl
@[simp] theorem State.setHall_cellar (leg : Nat) (h : Hall) : (s.setHall leg h).cellar = s.cellar := rfl
@[simp] theorem State.setHall_trig (leg : Nat) (h : Hall) : (s.setHall leg h).trig = s.trig := rfl
@[simp] theorem State.setHall_halls (leg : Nat) (h : Hall) : (s.setHall leg h).halls = { s.halls with leg := vset s.halls.leg leg h } := rfl
@[simp] theorem State.setHall_loft (leg : Nat) (h : Hall) : (s.setHall leg h).loft = s.loft := rfl

@[simp] theorem State.setRaman_pending (leg : Nat) (r : Raman) : (s.setRaman leg r).pending = s.pending := rfl
@[simp] theorem State.setRaman_free (leg : Nat) (r : Raman) : (s.setRaman leg r).free = s.free := rfl
@[simp] theorem State.setRaman_time (leg : Nat) (r : Raman) : (s.setRaman leg r).time = s.time := rfl
@[simp] theorem State.setRaman_tiu (leg : Nat) (r : Raman) : (s.setRaman leg r).tiu = s.tiu := rfl
@[simp] theorem State.setRaman_tach (leg : Nat) (r : Raman) : (s.setRaman leg r).tach = s.tach := rfl
@[simp] theorem State.setRaman_power (leg : Nat) (r : Raman) : (s.setRaman leg r).power = s.power := rfl
@[simp] theorem State.setRaman_boot (leg : Nat) (r : Raman) : (s.setRaman leg r).boot = s.boot := rfl
@[simp] theorem State.setRaman_larder (leg : Nat) (r : Raman) : (s.setRaman leg r).larder = s.larder := rfl
@[simp] theorem State.setRaman_fc (leg : Nat) (r : Raman) : (s.setRaman leg r).fc = s.fc := rfl
@[simp] theorem State.setRaman_host (leg : Nat) (r : Raman) : (s.setRaman leg r).host = s.host := rfl
@[simp] theorem State.setRaman_mb (leg : Nat) (r : Raman) : (s.setRaman leg r).mb = s.mb := rfl
@[simp] theorem State.setRaman_msix (leg : Nat) (r : Raman) : (s.setRaman leg r).msix = s.msix := rfl
@[simp] theorem State.setRaman_porch (leg : Nat) (r : Raman) : (s.setRaman leg r).porch = s.porch := rfl
@[simp] theorem State.setRaman_streams (leg : Nat) (r : Raman) : (s.setRaman leg r).streams = s.streams := rfl
@[simp] theorem State.setRaman_cw (leg : Nat) (r : Raman) : (s.setRaman leg r).cw = s.cw := rfl
@[simp] theorem State.setRaman_fw (leg : Nat) (r : Raman) : (s.setRaman leg r).fw = s.fw := rfl
@[simp] theorem State.setRaman_probe (leg : Nat) (r : Raman) : (s.setRaman leg r).probe = s.probe := rfl
@[simp] theorem State.setRaman_hearth (leg : Nat) (r : Raman) : (s.setRaman leg r).hearth = s.hearth := rfl
@[simp] theorem State.setRaman_thr (leg : Nat) (r : Raman) : (s.setRaman leg r).thr = s.thr := rfl
@[simp] theorem State.setRaman_cellar (leg : Nat) (r : Raman) : (s.setRaman leg r).cellar = s.cellar := rfl
@[simp] theorem State.setRaman_trig (leg : Nat) (r : Raman) : (s.setRaman leg r).trig = s.trig := rfl
@[simp] theorem State.setRaman_halls (leg : Nat) (r : Raman) : (s.setRaman leg r).halls = { s.halls with leg := vset s.halls.leg leg { s.hall leg with raman := r } } := rfl
@[simp] theorem State.setRaman_loft (leg : Nat) (r : Raman) : (s.setRaman leg r).loft = s.loft := rfl

@[simp] theorem State.withLoft_pending (l : Loft) : (s.withLoft l).pending = s.pending := rfl
@[simp] theorem State.withLoft_free (l : Loft) : (s.withLoft l).free = s.free := rfl
@[simp] theorem State.withLoft_time (l : Loft) : (s.withLoft l).time = s.time := rfl
@[simp] theorem State.withLoft_tiu (l : Loft) : (s.withLoft l).tiu = s.tiu := rfl
@[simp] theorem State.withLoft_tach (l : Loft) : (s.withLoft l).tach = s.tach := rfl
@[simp] theorem State.withLoft_power (l : Loft) : (s.withLoft l).power = s.power := rfl
@[simp] theorem State.withLoft_boot (l : Loft) : (s.withLoft l).boot = s.boot := rfl
@[simp] theorem State.withLoft_larder (l : Loft) : (s.withLoft l).larder = s.larder := rfl
@[simp] theorem State.withLoft_fc (l : Loft) : (s.withLoft l).fc = s.fc := rfl
@[simp] theorem State.withLoft_host (l : Loft) : (s.withLoft l).host = s.host := rfl
@[simp] theorem State.withLoft_mb (l : Loft) : (s.withLoft l).mb = s.mb := rfl
@[simp] theorem State.withLoft_msix (l : Loft) : (s.withLoft l).msix = s.msix := rfl
@[simp] theorem State.withLoft_porch (l : Loft) : (s.withLoft l).porch = s.porch := rfl
@[simp] theorem State.withLoft_streams (l : Loft) : (s.withLoft l).streams = s.streams := rfl
@[simp] theorem State.withLoft_cw (l : Loft) : (s.withLoft l).cw = s.cw := rfl
@[simp] theorem State.withLoft_fw (l : Loft) : (s.withLoft l).fw = s.fw := rfl
@[simp] theorem State.withLoft_probe (l : Loft) : (s.withLoft l).probe = s.probe := rfl
@[simp] theorem State.withLoft_hearth (l : Loft) : (s.withLoft l).hearth = s.hearth := rfl
@[simp] theorem State.withLoft_thr (l : Loft) : (s.withLoft l).thr = s.thr := rfl
@[simp] theorem State.withLoft_cellar (l : Loft) : (s.withLoft l).cellar = s.cellar := rfl
@[simp] theorem State.withLoft_trig (l : Loft) : (s.withLoft l).trig = s.trig := rfl
@[simp] theorem State.withLoft_halls (l : Loft) : (s.withLoft l).halls = s.halls := rfl
@[simp] theorem State.withLoft_loft (l : Loft) : (s.withLoft l).loft = l := rfl

@[simp] theorem State.setZone_pending (z : Nat) (x : Zone) : (s.setZone z x).pending = s.pending := rfl
@[simp] theorem State.setZone_free (z : Nat) (x : Zone) : (s.setZone z x).free = s.free := rfl
@[simp] theorem State.setZone_time (z : Nat) (x : Zone) : (s.setZone z x).time = s.time := rfl
@[simp] theorem State.setZone_tiu (z : Nat) (x : Zone) : (s.setZone z x).tiu = s.tiu := rfl
@[simp] theorem State.setZone_tach (z : Nat) (x : Zone) : (s.setZone z x).tach = s.tach := rfl
@[simp] theorem State.setZone_power (z : Nat) (x : Zone) : (s.setZone z x).power = s.power := rfl
@[simp] theorem State.setZone_boot (z : Nat) (x : Zone) : (s.setZone z x).boot = s.boot := rfl
@[simp] theorem State.setZone_larder (z : Nat) (x : Zone) : (s.setZone z x).larder = s.larder := rfl
@[simp] theorem State.setZone_fc (z : Nat) (x : Zone) : (s.setZone z x).fc = s.fc := rfl
@[simp] theorem State.setZone_host (z : Nat) (x : Zone) : (s.setZone z x).host = s.host := rfl
@[simp] theorem State.setZone_mb (z : Nat) (x : Zone) : (s.setZone z x).mb = s.mb := rfl
@[simp] theorem State.setZone_msix (z : Nat) (x : Zone) : (s.setZone z x).msix = s.msix := rfl
@[simp] theorem State.setZone_porch (z : Nat) (x : Zone) : (s.setZone z x).porch = s.porch := rfl
@[simp] theorem State.setZone_streams (z : Nat) (x : Zone) : (s.setZone z x).streams = s.streams := rfl
@[simp] theorem State.setZone_cw (z : Nat) (x : Zone) : (s.setZone z x).cw = s.cw := rfl
@[simp] theorem State.setZone_fw (z : Nat) (x : Zone) : (s.setZone z x).fw = s.fw := rfl
@[simp] theorem State.setZone_probe (z : Nat) (x : Zone) : (s.setZone z x).probe = s.probe := rfl
@[simp] theorem State.setZone_hearth (z : Nat) (x : Zone) : (s.setZone z x).hearth = s.hearth := rfl
@[simp] theorem State.setZone_thr (z : Nat) (x : Zone) : (s.setZone z x).thr = s.thr := rfl
@[simp] theorem State.setZone_cellar (z : Nat) (x : Zone) : (s.setZone z x).cellar = s.cellar := rfl
@[simp] theorem State.setZone_trig (z : Nat) (x : Zone) : (s.setZone z x).trig = s.trig := rfl
@[simp] theorem State.setZone_halls (z : Nat) (x : Zone) : (s.setZone z x).halls = s.halls := rfl
@[simp] theorem State.setZone_loft (z : Nat) (x : Zone) : (s.setZone z x).loft = { s.loft with zone := vset s.loft.zone z x } := rfl

@[simp] theorem State.setMap_pending (leg : Nat) (m : MapLeg) : (s.setMap leg m).pending = s.pending := rfl
@[simp] theorem State.setMap_free (leg : Nat) (m : MapLeg) : (s.setMap leg m).free = s.free := rfl
@[simp] theorem State.setMap_time (leg : Nat) (m : MapLeg) : (s.setMap leg m).time = s.time := rfl
@[simp] theorem State.setMap_tiu (leg : Nat) (m : MapLeg) : (s.setMap leg m).tiu = s.tiu := rfl
@[simp] theorem State.setMap_tach (leg : Nat) (m : MapLeg) : (s.setMap leg m).tach = s.tach := rfl
@[simp] theorem State.setMap_power (leg : Nat) (m : MapLeg) : (s.setMap leg m).power = s.power := rfl
@[simp] theorem State.setMap_boot (leg : Nat) (m : MapLeg) : (s.setMap leg m).boot = s.boot := rfl
@[simp] theorem State.setMap_larder (leg : Nat) (m : MapLeg) : (s.setMap leg m).larder = s.larder := rfl
@[simp] theorem State.setMap_fc (leg : Nat) (m : MapLeg) : (s.setMap leg m).fc = s.fc := rfl
@[simp] theorem State.setMap_host (leg : Nat) (m : MapLeg) : (s.setMap leg m).host = s.host := rfl
@[simp] theorem State.setMap_mb (leg : Nat) (m : MapLeg) : (s.setMap leg m).mb = s.mb := rfl
@[simp] theorem State.setMap_msix (leg : Nat) (m : MapLeg) : (s.setMap leg m).msix = s.msix := rfl
@[simp] theorem State.setMap_porch (leg : Nat) (m : MapLeg) : (s.setMap leg m).porch = s.porch := rfl
@[simp] theorem State.setMap_streams (leg : Nat) (m : MapLeg) : (s.setMap leg m).streams = s.streams := rfl
@[simp] theorem State.setMap_cw (leg : Nat) (m : MapLeg) : (s.setMap leg m).cw = s.cw := rfl
@[simp] theorem State.setMap_fw (leg : Nat) (m : MapLeg) : (s.setMap leg m).fw = s.fw := rfl
@[simp] theorem State.setMap_probe (leg : Nat) (m : MapLeg) : (s.setMap leg m).probe = s.probe := rfl
@[simp] theorem State.setMap_hearth (leg : Nat) (m : MapLeg) : (s.setMap leg m).hearth = s.hearth := rfl
@[simp] theorem State.setMap_thr (leg : Nat) (m : MapLeg) : (s.setMap leg m).thr = s.thr := rfl
@[simp] theorem State.setMap_cellar (leg : Nat) (m : MapLeg) : (s.setMap leg m).cellar = s.cellar := rfl
@[simp] theorem State.setMap_trig (leg : Nat) (m : MapLeg) : (s.setMap leg m).trig = s.trig := rfl
@[simp] theorem State.setMap_halls (leg : Nat) (m : MapLeg) : (s.setMap leg m).halls = s.halls := rfl
@[simp] theorem State.setMap_loft (leg : Nat) (m : MapLeg) : (s.setMap leg m).loft = { s.loft with map := vset s.loft.map leg m } := rfl

@[simp] theorem State.setCell_pending (c : Nat) (x : Cell) : (s.setCell c x).pending = s.pending := rfl
@[simp] theorem State.setCell_free (c : Nat) (x : Cell) : (s.setCell c x).free = s.free := rfl
@[simp] theorem State.setCell_time (c : Nat) (x : Cell) : (s.setCell c x).time = s.time := rfl
@[simp] theorem State.setCell_tiu (c : Nat) (x : Cell) : (s.setCell c x).tiu = s.tiu := rfl
@[simp] theorem State.setCell_tach (c : Nat) (x : Cell) : (s.setCell c x).tach = s.tach := rfl
@[simp] theorem State.setCell_power (c : Nat) (x : Cell) : (s.setCell c x).power = s.power := rfl
@[simp] theorem State.setCell_boot (c : Nat) (x : Cell) : (s.setCell c x).boot = s.boot := rfl
@[simp] theorem State.setCell_larder (c : Nat) (x : Cell) : (s.setCell c x).larder = s.larder := rfl
@[simp] theorem State.setCell_fc (c : Nat) (x : Cell) : (s.setCell c x).fc = s.fc := rfl
@[simp] theorem State.setCell_host (c : Nat) (x : Cell) : (s.setCell c x).host = s.host := rfl
@[simp] theorem State.setCell_mb (c : Nat) (x : Cell) : (s.setCell c x).mb = s.mb := rfl
@[simp] theorem State.setCell_msix (c : Nat) (x : Cell) : (s.setCell c x).msix = s.msix := rfl
@[simp] theorem State.setCell_porch (c : Nat) (x : Cell) : (s.setCell c x).porch = s.porch := rfl
@[simp] theorem State.setCell_streams (c : Nat) (x : Cell) : (s.setCell c x).streams = s.streams := rfl
@[simp] theorem State.setCell_cw (c : Nat) (x : Cell) : (s.setCell c x).cw = s.cw := rfl
@[simp] theorem State.setCell_fw (c : Nat) (x : Cell) : (s.setCell c x).fw = s.fw := rfl
@[simp] theorem State.setCell_probe (c : Nat) (x : Cell) : (s.setCell c x).probe = s.probe := rfl
@[simp] theorem State.setCell_hearth (c : Nat) (x : Cell) : (s.setCell c x).hearth = s.hearth := rfl
@[simp] theorem State.setCell_thr (c : Nat) (x : Cell) : (s.setCell c x).thr = s.thr := rfl
@[simp] theorem State.setCell_cellar (c : Nat) (x : Cell) : (s.setCell c x).cellar = s.cellar := rfl
@[simp] theorem State.setCell_trig (c : Nat) (x : Cell) : (s.setCell c x).trig = s.trig := rfl
@[simp] theorem State.setCell_halls (c : Nat) (x : Cell) : (s.setCell c x).halls = s.halls := rfl
@[simp] theorem State.setCell_loft (c : Nat) (x : Cell) : (s.setCell c x).loft = { s.loft with cell := vset s.loft.cell c x } := rfl

/-! ### A register of a row reads back as written; the others of the row are unchanged -/

@[simp] theorem State.hall_setHall_self {leg : Nat} {x : Hall} (h : leg < 2) : (s.setHall leg x).hall leg = x := vget_vset_self h
@[simp] theorem State.hall_setHall_ne {leg j : Nat} {x : Hall} (h : leg ≠ j) : (s.setHall leg x).hall j = s.hall j := vget_vset_ne h
@[simp] theorem State.thrLeg_setThrLeg_self {leg : Nat} {x : ThrLeg} (h : leg < 2) : (s.setThrLeg leg x).thrLeg leg = x := vget_vset_self h
@[simp] theorem State.thrLeg_setThrLeg_ne {leg j : Nat} {x : ThrLeg} (h : leg ≠ j) : (s.setThrLeg leg x).thrLeg j = s.thrLeg j := vget_vset_ne h
@[simp] theorem State.zone_setZone_self {z : Nat} {x : Zone} (h : z < 256) : (s.setZone z x).zone z = x := vget_vset_self h
@[simp] theorem State.zone_setZone_ne {z j : Nat} {x : Zone} (h : z ≠ j) : (s.setZone z x).zone j = s.zone j := vget_vset_ne h
@[simp] theorem State.mapLeg_setMap_self {leg : Nat} {x : MapLeg} (h : leg < 2) : (s.setMap leg x).mapLeg leg = x := vget_vset_self h
@[simp] theorem State.mapLeg_setMap_ne {leg j : Nat} {x : MapLeg} (h : leg ≠ j) : (s.setMap leg x).mapLeg j = s.mapLeg j := vget_vset_ne h
@[simp] theorem State.unit_setUnit_self {u : Nat} {x : TrigUnit} (h : u < 16) : (s.setUnit u x).unit u = x := vget_vset_self h
@[simp] theorem State.unit_setUnit_ne {u j : Nat} {x : TrigUnit} (h : u ≠ j) : (s.setUnit u x).unit j = s.unit j := vget_vset_ne h
@[simp] theorem State.stream_setStream_self {n : Nat} {x : Stream} (h : n < 8) : (s.setStream n x).stream n = x := vget_vset_self h
@[simp] theorem State.stream_setStream_ne {n j : Nat} {x : Stream} (h : n ≠ j) : (s.setStream n x).stream j = s.stream j := vget_vset_ne h
@[simp] theorem State.chan_setChan_self {c : Nat} {x : Mailbox} (h : c < 8) : (s.setChan c x).chan c = x := vget_vset_self h
@[simp] theorem State.chan_setChan_ne {c j : Nat} {x : Mailbox} (h : c ≠ j) : (s.setChan c x).chan j = s.chan j := vget_vset_ne h
@[simp] theorem State.source_setSource_self {n : Nat} {x : FaultSource} (h : n < 128) : (s.setSource n x).source n = x := vget_vset_self h
@[simp] theorem State.source_setSource_ne {n j : Nat} {x : FaultSource} (h : n ≠ j) : (s.setSource n x).source j = s.source j := vget_vset_ne h
@[simp] theorem State.tachOf_setTach_self {k : Nat} {x : Tach} (h : k < 8) : (s.setTach k x).tachOf k = x := vget_vset_self h
@[simp] theorem State.tachOf_setTach_ne {k j : Nat} {x : Tach} (h : k ≠ j) : (s.setTach k x).tachOf j = s.tachOf j := vget_vset_ne h

end Sys2Proof.Machine
end

