-- ==== Sys2Proof/WellFormed.lean ====
section
/-! DEFINITION. Which operands a command can carry: what the bit widths of Syntax leave open and the manual's layouts fix. The meanings do not rest on
these checks. -/

namespace Sys2Proof

/-- A device-to-host descriptor: its address and NEXT are multiples of 32, its buffer's address a multiple of 64, BUF_LEN 69,632 to 16,777,216 in steps of
4,096 (R310). -/
def D2hDescriptor.wellFormed (d : D2hDescriptor) : Bool :=
  d.addr % 32 == 0 && d.next % 32 == 0 && d.bufAddr % 64 == 0 && decide (69632 ≤ d.bufLen) && decide (d.bufLen ≤ 16777216) && d.bufLen % 4096 == 0

/-- A host-to-device descriptor, of the same layout (R318). -/
def H2dDescriptor.wellFormed (d : H2dDescriptor) : Bool := d.addr % 32 == 0 && d.next % 32 == 0

/-- Addresses fit their protocol; a datagram's bytes fit one datagram of 9,000 bytes (Table 18.3). -/
def EthFrame.wellFormed (f : EthFrame) : Bool :=
  match f.body with
  | .arp _ a b => decide (a < 2 ^ 32) && decide (b < 2 ^ 32)
  | .neighbour _ a b => decide (a < 2 ^ 128) && decide (b < 2 ^ 128)
  | .echo v6 a => decide (a < if v6 then 2 ^ 128 else 2 ^ 32)
  | .lease a => decide (a < 2 ^ 32)
  | .udp v6 a b _ data => decide (a < if v6 then 2 ^ 128 else 2 ^ 32) && decide (b < if v6 then 2 ^ 128 else 2 ^ 32) && decide (data.length ≤ 9000)
  | _ => true

/-- A PTP message: a source port identity of 80 bits, and device time of 64 (R274, R275). -/
def PtpMessage.wellFormed (m : PtpMessage) : Bool := decide (m.source < 2 ^ 80) && decide (m.sfd < 2 ^ 64)

/-- A strait word's point or location index lies within the longest row (R15). -/
def StraitWord.wellFormed : StraitWord → Bool
  | .traced _ _ _ _ index => decide (index < 81920)
  | _ => true

/-- The command's operands are such as the hardware can meet. -/
def Instr.wellFormed : Instr → Bool
  | .registerWrite _ off _ _ _ => off.val % 4 == 0
  | .mbInWrite _ _ _ ws _ => !ws.isEmpty && decide (ws.length ≤ 16)
  | .streamItemRead _ mem => mem.all D2hDescriptor.wellFormed
  | .streamFlushTimeout _ mem => mem.all D2hDescriptor.wellFormed
  | .streamBuffersAdded _ mem => mem.all D2hDescriptor.wellFormed
  | .h2dDescriptorRead _ d => d.wellFormed
  | .ethFrameReceived f => f.wellFormed
  | .ptpEventMessage m => m.wellFormed
  | .straitWordArrival w => w.wellFormed
  | .chainTransferDone din => decide (din.length ≤ 16)
  | .hdLoopUpdate m => m.length == 12
  | .tachEdge _ _ held stamp _ => decide (held < 2 ^ 64) && decide (stamp < 2 ^ 64)
  | .tiuGo one two => one.length == 16 && two.length == 16
  | .calibrateDone taps => taps.length == 12
  | .adcSelfCalibrationDone factors _ => factors.length == 12 && factors.all (fun f => f.length == 48)
  | _ => true

end Sys2Proof
end

