-- ==== Sys2Proof/Tests/Slice0.lean ====
section
/-! SUPPORT. Witnesses: for every claim, states and operands that meet its hypotheses, each clause at least once; an ill-formed operand for every check of
WellFormed; small tests of single steps, their results taken from the manual. -/

namespace Sys2Proof.Tests

set_option Elab.async false

open Sys2Proof.Machine

/-- Firmware runs, every room is powered, the device is in REST and no plan runs. -/
def awake : State := { State.reset with
  boot := { State.reset.boot with phase := .ready }
  power := { study := true, cellar := true, front := true, loft := true, hearth := true }
  fc := { State.reset.fc with watching := true }
  cellar := { State.reset.cellar with cfg := 3 } }

/-- The state with one request at the head of carrier c: its code and its words after the header. -/
def asks (c code : Nat) (ws : List Word) (s : State) : State := { s with
  fw := { s.fw with inbox := vset s.fw.inbox c [{ msg := headerWord ws.length 0 0 7 code :: ws }] } }

/-- The buffer of a bulk command (R362). -/
def bulkBuffer (code : Nat) (body : List Byte) : List Byte :=
  leBytes 2 0x4B42 ++ leBytes 2 code ++ leBytes 1 7 ++ leBytes 3 0 ++ leBytes 4 body.length ++ leBytes 4 (crc32c body) ++ body

/-- The same with a bulk payload that waits in its buffer. -/
def asksBulk (c code : Nat) (ws : List Word) (body : List Byte) (s : State) : State := { s with
  fw := { s.fw with
    inbox := vset s.fw.inbox c [{ msg := headerWord ws.length 0 1 7 code :: ws }]
    bulk := [bulkBuffer code body] } }

/-- The row's request gets as far as its own checks, and `ok` holds there. -/
def met (i : Instr) (s : State) (ok : Cmd → State → Bool) : Bool :=
  match requestRow s i with
  | some (c, sp) => match s.reach sp c.val with | some (r, b, t) => ok (r.cmd sp c.val b) t | none => false
  | none => false

/-- The same for a stamped command whose placement is found. -/
def metAt (i : Instr) (s : State) (places : Cmd → State → Nat → Bool) (ok : Cmd → State → Option (Nat × Nat) → Bool) : Bool :=
  met i s (fun cmd t => match t.place cmd (places cmd t) with
    | .ok at_ => decide (t.waitingChanges < 64) && ok cmd t at_
    | .error _ => false)

/-- The WATCH plan of the manual's worked example (chapter 3): 38.4 km on leg 0, T_f 400 µs, eight slots, leg 1 off. -/
def watchWords : List Word := [0x00227100, 14682, 0x0008080D, 48, 0x00149300, 0, 0x003200FF, 0x0008080C, 0, 0x00140040, 0, 0]
/-- The same with a frame of 500 µs, and a plan on no leg. -/
def wideWords : List Word := [0x00230D40, 14682, 0x0008080D, 48, 0x00149300, 0, 0x003200FF, 0x0008080C, 0, 0x00140040, 0, 0]
def noLegWords : List Word := [0x00227100, 14682, 0x0008080C, 0, 0x00140040, 0, 0, 0x0008080C, 0, 0x00140040, 0, 0]

/-- The bank that those words make. -/
def watchBank : Bank := match decodePlan watchWords [] with | .ok p => p.bank | .error _ => {}

/-- That plan runs, from device time 0; leg 0 is to launch frame 0. -/
def watching : State := { awake with
  fw := { awake.fw with mode := 2, startState := false, optical := .running }
  probe := awake.probe.begin_ ⟨watchBank, 2, 14682, none, awake.probe.tables⟩ 0 0 false 0 }

/-- Both legs are in replay. -/
def replayingBoth (s : State) : State := { s with halls := { s.halls with leg := Vector.replicate 2 { replay := { on := true } } } }
/-- Zone 255 is configured, with a page of 176 bytes. -/
def zoned (s : State) : State := { s with loft := { s.loft with zone := vset s.loft.zone 255 { configured := true, param := List.replicate 176 0 } } }
/-- Tach 0 runs, and zone 0 is bound to it. -/
def tachBound (s : State) : State := { s with
  tach := vset s.tach 0 { cfg := 0x00019001 }
  loft := { s.loft with zone := vset s.loft.zone 0 { cfg := fset (fset (fset 0x40020 F.ZONE_CFG.ENABLE 1) F.ZONE_CFG.TACH_EN 1) F.ZONE_CFG.TACH 0 } } }
/-- Source n is raised, its cause present or not. -/
def raised (n : Nat) (cond : Bool) (s : State) : State := s.setSource n { s.source n with raised := true, cond }
/-- A long operation runs. -/
def busyWith (code : Nat) (s : State) : State := { s with fw := { s.fw with long := some { code, tag := 1, carrier := 4, udp := none, lock := none } } }
/-- A program image of one word (NOP), with a table. -/
def anImage (table : List Byte) : List Byte :=
  leBytes 4 0x4C434C46 ++ leBytes 2 1 ++ leBytes 2 0 ++ leBytes 4 1 ++ leBytes 4 0 ++ leBytes 4 0 ++ leBytes 4 1000 ++ leBytes 4 0 ++ leBytes 4 table.length ++
    leBytes 4 (crc32c (List.replicate 8 0 ++ table)) ++ List.replicate 28 0 ++ List.replicate 8 0 ++ table
/-- An image without code. -/
def emptyImage : List Byte :=
  leBytes 4 0x4C434C46 ++ leBytes 2 1 ++ leBytes 2 0 ++ List.replicate 24 0 ++ leBytes 4 (crc32c []) ++ List.replicate 28 0
/-- Pool 0 is on and bound to an image. -/
def pooled (n : Nat) (s : State) : State := s.withLoft { s.loft with pool := vset s.loft.pool 0 { cfg := w32 (1 + 16 * n) } }
/-- Unit 0 is a ring unit, of a device that is not the master. -/
def ringUnit (s : State) : State := { s with trig := { s.trig with units := vset s.trig.units 0 { c := { cfg := fset 0x24 F.TRIG_CFG.RING 1 } } } }
/-- Stream 1 runs with the record unit 0, and is ending. -/
def streamOne (s : State) : State := { s with streams := { s.streams with
  str := vset s.streams.str 1 { cfg := 0x0000A683, sel := 1, stat := fset 0 F.STR_STAT.RUNNING 1, ending := some 1 } } }

/-- Values to instantiate the claims with. -/
def aRow : StoredRow :=
  { leg := 0, slot := 0, trace := 0, stamp := 0, frame := 0, boundary := 0, tF := 160000, header := List.replicate 64 0, values := [], quality := [], reason := 0, tach := Vector.replicate 8 0 }
def aRequest : Request := { msg := [headerWord 0 0 0 7 0x001] }
def aPlan : PendingPlan := ⟨watchBank, 2, 14682, none, awake.probe.tables⟩
def aRecord : Record :=
  { key := 0, unit := 0, c := {}, fireFrame := 10, fireTime := 0, fireTrace := #v[0, 0], firstTime := 0, pre := 0, post := 1, cause := 2, flags := 8, early := 0
    rearms := 0, vector := [], need := 640 }
def aJob : Job :=
  { work := .zone, leg := 0, item := 0, image := 16, budget := 100, inBase := 0, tabBase := 0, pageBase := 0, trace := 0, frame := 0, input := [], tab := [] }
def aLaunch : Launch :=
  { leg := 0, slot := 0, trace := 0, frame := 0, boundary := 0, index := 0, stamp := 0, late := false, tach := Vector.replicate 8 0, bank := watchBank.legBank 0
    detail := false, tF := 160000, planTrace := 0, table := {}, survey := false, base := 0, replay := false }
/-- Port 1 of the Ethernet is enabled, its link is up, and it owns an IPv4 address. -/
def online (s : State) : State := { s with porch := { s.porch with eth := { s.porch.eth with
  port := vset s.porch.eth.port 1 { cfg := 0x8D000109, stat := fset 0 F.ETH_STAT.LINK 1, ip4 := 0xC0A80001 } } } }
/-- Channel c holds words in its inbound queue. -/
def pushed (c : Nat) (ws : List Word) (s : State) : State := s.setChan c { s.chan c with inq := ws }
/-- Training is under way, short or full, with settings recorded by an earlier one. -/
def training (full : Bool) (s : State) : State := { s with
  boot := { s.boot with training := some (s.time.up, full) }
  larder := { s.larder with dramTrain := some ⟨4, Vector.replicate 4 {}⟩ } }
/-- A BIST run is under way. -/
def testing (used : Nat) (s : State) : State := { busyWith 0x090 s with boot := { s.boot with bist := { running := true, budgetMs := 40, usedMs := used } } }
/-- A chunk of FW_STAGE is being written. -/
def writing (a : Nat) (bs : List Byte) (s : State) : State := { busyWith 0x088 s with porch := { s.porch with flashWrite := some (a, bs) } }
/-- One index entry of the decimated and of the full ring, of frame 10, whose row is still there. -/
def indexed (s : State) : State :=
  let r (x : Ring) : Ring := { x with pos := 64, entries := 1, index := [⟨10, 1000, 0, 160000, false⟩], rows := [⟨0, 64, 0, 0, 10, 0, 10, 1000, 160000, false, Vector.replicate 8 0⟩] }
  { s with cellar := { s.cellar with full := r s.cellar.full, dec := r s.cellar.dec } }
/-- REST after a plan: the bank stays. -/
def resting : State := { awake with probe := { watching.probe with running := false } }
/-- A plan with a table in slot 0 of leg 0. -/
def tablePlan : PendingPlan := { aPlan with bank := { watchBank with leg := vmod watchBank.leg 0 (fun b => { b with slot := vmod b.slot 0 (fun w => vset w 0 (fset (vget w 0 0) F.SLOT_W0.SOURCE 1)) }) } }
/-- A change to `code` on leg `leg` waits for frame f. -/
def changing (code leg f : Nat) (s : State) : State := { s with fw := { s.fw with
  stamped := [{ code, tag := 1, leg, eff := none, frame := some f, held := false, words := [w32 leg], bulk := [] }] } }
/-- A merged trace of a frame's first place. -/
def aMerged (place : Nat) : Merged :=
  { slot := 0, trace := 0, stamp := 0, frame := 0, boundary := 0, place, values := [0], quality := [0], reason := 0, bank := watchBank.legBank 0, detail := false
    tF := 160000, tach := Vector.replicate 8 0, opens := true }
def chained (place : Nat) (s : State) : State := { s with halls := { s.halls with leg := vset s.halls.leg 0 { chain := { input := [aMerged place] } } } }
/-- A launch on a bank of 16 points. -/
def shortLaunch : Launch := { aLaunch with index := 100, bank := { aLaunch.bank with w := vmod aLaunch.bank.w 2 (fun w => fset w F.LEG_W2.L 16) } }
def zeroWord : CohWord := { xi := 0, xq := 0, yi := 0, yq := 0, ovr := false, gap := false, step := false, gain := 0 }
/-- It waits, with all its words. -/
def arrived (s : State) : State := { s with halls := { s.halls with
  launches := [shortLaunch]
  leg := vset s.halls.leg 0 { samples := (List.range 2200).map (fun n => (n, some zeroWord)) } } }
/-- Lanes of leg 1 run. -/
def lanesOn (n : Option Nat) (s : State) : State := { s with
  thr := { s.thr with leg := vset s.thr.leg 1 { cfg := 0xE3 } }
  halls := { s.halls with leg := vset s.halls.leg 1 { nextIndex := n } } }
def trimmed (t : Trim) (s : State) : State := { s with thr := { s.thr with trim := t } }
def gained (t : ThrLeg) (s : State) : State := { s with thr := { s.thr with leg := vset s.thr.leg 0 t } }
/-- CALIBRATE or a self-calibration runs, with these bits of THR_STAT. -/
def calibrating (w : Word) (s : State) : State := { s with thr := { s.thr with calUp := some 0, stat := w } }
def sweeping (s : State) : State := { s with thr := { s.thr with hk := { s.thr.hk with cfg := 0x2F, next := 23 } } }
def driven (ch : DriveChannel) (s : State) : State := { s with hearth := { s.hearth with hd := Vector.replicate 8 ch, hs := Vector.replicate 4 ch } }
def enabled : DriveChannel := { cfg := fset 0x07D0FF0E F.HD_CFG.ENABLE 1 }
def pulsed : DriveChannel := { cfg := fset (fset (fset 0x07D0FF0E F.HD_CFG.ENABLE 1) F.HD_CFG.PWM 1) F.HD_CFG.DET_EN 1, pwmOn := 16 }
/-- The chain port, enabled, BUSY and PENDING as given, with VERIFY. -/
def chainPort (busy pend verify : Nat) : ChainPort :=
  { cfg := fset (fset 0x00004F20 F.HCHAIN_CFG.ENABLE 1) F.HCHAIN_CFG.VERIFY verify
    stat := fset (fset 0 F.HCHAIN_STAT.BUSY busy) F.HCHAIN_STAT.PENDING pend }
def shifting (busy pend verify : Nat) (s : State) : State := { s with hearth := { s.hearth with chain := chainPort busy pend verify } }
/-- TEC 1 runs; its housekeeping entry has a result, or none. -/
def cooling (l : TecLoop) (res : Word) (s : State) : State := { s with
  hearth := { s.hearth with tec := vset s.hearth.tec 1 l, tecOn := true }
  thr := { s.thr with hk := { s.thr.hk with res := Vector.replicate 24 res } } }
def cooler : TecLoop := { cfg := 0x000CCC01 }
def oneTach (k : Nat) (t : Tach) (s : State) : State := { s with tach := vset s.tach k t }
def quadTach : Tach := { cfg := fset 0x00019001 F.TACH_CFG.QUAD 1 }
/-- The TIU is enabled, in the given phase, with K1 and K2 1,280 apart. -/
def interval (p : TiuPhase) (start : Nat) (s : State) : State := { s with tiu := { s.tiu with
  cfg := fset 0 F.TIU_CFG.ENABLE 1, cal := fset 0 F.TIU_CAL.K2 1280, phase := p, startCount := start } }
/-- Mailboxes are available. -/
def opened (s : State) : State := { s with mb := { s.mb with avail := 0 } }
def copying (w : Word) (s : State) : State := { s with host := { s.host with wide := Vector.replicate 3 { stat := w } } }
def linked (s : State) : State := { s with porch := { s.porch with pcie := { link := true, perst := false }, h2d := Vector.replicate 3 { waiting := false } } }
/-- Unit 15 holds one version and these settings. -/
def versioned (x : TrigUnit) (frame : Nat) (s : State) : State := { s with trig := { s.trig with
  units := vset s.trig.units 15 { x with queue := [⟨frame, 0, List.replicate 64 0⟩] } } }
def unitOn (ring : Nat) : TrigConfig := { cfg := fset (fset (fset 0x24 F.TRIG_CFG.ENABLE 1) F.TRIG_CFG.RING ring) F.TRIG_CFG.LEGS 1 }
/-- A record fired; taken by the copier or not. -/
def copyOf (seq : Option Nat) (room : Nat) : Record := { aRecord with c := unitOn 0, seq, room }
def recording (r : Record) (s : State) : State := { s with trig := { s.trig with fired := [r] } }
def later (n : Nat) (s : State) : State := { s with time := { s.time with up := n } }
def unitZero (x : TrigUnit) (s : State) : State := { s with trig := { s.trig with units := vset s.trig.units 0 x } }
def committing (f : Nat) (s : State) : State := { s with loft := { s.loft with vec := { next := some f } } }
/-- A library zone is on, from frame 0, on the map of leg 0. -/
def zoneOn (s : State) : State := { s with loft := { s.loft with
  zone := vset s.loft.zone 0 { cfg := fset 0x40020 F.ZONE_CFG.ENABLE 1, from_ := some 0 }
  map := vset s.loft.map 0 { cfg := fset 0x10004 F.MAP_CFG.ON 1, base := some (0, watchBank.legBank 0, false, 160000) } } }
/-- Stream n runs with these registers and contents. -/
def streaming (n : Nat) (t : Stream) (s : State) : State := { s with streams := { s.streams with
  cfg := fset 0 F.COMP_CFG.ENABLE 1
  str := vset s.streams.str n { t with cfg := fset 0x0000A682 F.STR_CFG.ENABLE 1, sel := 1, stat := fset t.stat F.STR_STAT.RUNNING 1 } } }
def aDesc : D2hDescriptor := { addr := 64, bufAddr := 0, bufLen := 69632, own := true, int := true, next := 0 }
def aBlock : Block := { bytes := [1], type := 0, ends := [] }
def destined (s : State) : State := { s with porch := { s.porch with eth := { s.porch.eth with
  dest := vset s.porch.eth.dest 0 { set := true, port := 1, streams := true, resolved := true } } } }
/-- Leg 0 replays the block. -/
def replaying (bs : List Byte) (next : Option Nat) (s : State) : State := { s with halls := { s.halls with
  leg := vset s.halls.leg 0 { replay := { on := true, blocks := [bs], next } } } }
/-- A replay block of 256 cycles from index 0, with n side records of zeros. -/
def replayOf (n : Nat) : List Byte :=
  let body : List Byte := List.replicate (40 + 16 * n + 9 * 256) 0
  leBytes 2 1 ++ [0, 0] ++ leBytes 4 256 ++ leBytes 8 0 ++ leBytes 2 n ++ [0, 0] ++ leBytes 4 (crc32c body) ++ body
def rowAt0 (s : State) : State := { s with halls := { s.halls with out0 := [aRow] } }
def celled (c : Cellar) (s : State) : State := { s with cellar := c }
def portWith (p : Nat) (x : CellarPort) (c : Cellar) : Cellar := { c with port := vset c.port p x }
def aWrite (n : Nat) : PortRequest := { addr := 0, bytes := n, write := true }
/-- A user image of one word in the Landing, and cell 71 at that word. -/
def working (w : Nat) (s : State) : State := { s with loft := { s.loft with
  images := vset s.loft.images 16 (some { at_ := 0, complex := true, codeWords := 8, initBytes := 0, entry := 0, budget := 100, pageBytes := 0, tableBytes := 0, check := 0 })
  landing := Mem.writeN 0 [] 0 (leBytes 8 w)
  cell := vset s.loft.cell 71 { job := some aJob, prog := [BitVec.ofNat 64 w] } } }
def cellWith (c : Cell) (s : State) : State := { s with loft := { s.loft with cell := vset s.loft.cell 71 c } }
def loftOn (w : Word) (s : State) : State := { s with loft := { s.loft with cfg := w } }
/-- A leg bank with eight slots in use, as plain words. -/
def plainBank : LegBank := { w := #v[0x0008080D, 0, 0x00140040, 0], slot := Vector.replicate 8 #v[0x9, 0, 0, 0, 0, 0x640, 0x7333, 0x640] }
/-- Block 1 of the map of leg 0 has all its rows in the history, which begins `past` bytes after them. -/
def blockReady (past : Nat) (s : State) : State :=
  let b := plainBank
  { s with
    time := { s.time with up := 10 ^ 12 }
    loft := { s.loft with
      cfg := fset 2 F.LOFT_CFG.ENABLE 1
      map := vset s.loft.map 0 { cfg := fset 0x10004 F.MAP_CFG.ON 1, base := some (0, b, false, 160000) } }
    cellar := { s.cellar with full := { s.cellar.full with
      pos := past
      rows := (List.range 256).map (fun i =>
        ⟨64 * i, 64, 0, i % 8, 0, 0, 32 + i / 8, 1000, 160000, false, Vector.replicate 8 0⟩) } } }
/-- The Causeway runs on both ports, in a ring of this device and the one of serial 5. -/
def wired (c : Causeway) (s : State) : State := { s with cw := { c with cfg := 0x7 } }
def aRing : Causeway := { stable := true, ring := [0, 5] }
def member (n : Nat) : Member := { serial := n, strap := false, locked := true, port := 0, hops := 1, lastUp := 0 }
def portsUp : Vector Word 2 := Vector.replicate 2 (fset 0 F.CW_ERR.UP 1)
def phased (p : BootPhase) (s : State) : State := { s with boot := { s.boot with phase := p } }

/-- One ill-formed command per check of WellFormed. -/
theorem test_ill_formed :
    Instr.wellFormed (.registerWrite .hostMap 0x202 .pcie 15 0) = false ∧
    Instr.wellFormed (.mbInWrite .pcie 0 0 [] true) = false ∧
    Instr.wellFormed (.mbInWrite .pcie 0 0 (List.replicate 17 0) true) = false ∧
    Instr.wellFormed (.streamItemRead 0 [{ aDesc with addr := 65 }]) = false ∧
    Instr.wellFormed (.streamItemRead 0 [{ aDesc with bufAddr := 32 }]) = false ∧
    Instr.wellFormed (.streamFlushTimeout 0 [{ aDesc with bufLen := 65536 }]) = false ∧
    Instr.wellFormed (.streamFlushTimeout 0 [{ aDesc with bufLen := 16781312 }]) = false ∧
    Instr.wellFormed (.streamBuffersAdded 0 [{ aDesc with bufLen := 69633 }]) = false ∧
    Instr.wellFormed (.streamBuffersAdded 0 [{ aDesc with next := 1 }]) = false ∧
    Instr.wellFormed (.h2dDescriptorRead 0 { addr := 1, own := true, next := 0, data := [] }) = false ∧
    Instr.wellFormed (.h2dDescriptorRead 0 { addr := 0, own := true, next := 16, data := [] }) = false ∧
    Instr.wellFormed (.ethFrameReceived { port := 0, vid := none, body := .arp true 0 (2 ^ 32) }) = false ∧
    Instr.wellFormed (.ethFrameReceived { port := 0, vid := none, body := .neighbour true (2 ^ 128) 0 }) = false ∧
    Instr.wellFormed (.ethFrameReceived { port := 0, vid := none, body := .echo false (2 ^ 32) }) = false ∧
    Instr.wellFormed (.ethFrameReceived { port := 0, vid := none, body := .lease (2 ^ 32) }) = false ∧
    Instr.wellFormed (.ethFrameReceived { port := 0, vid := none, body := .udp false 0 (2 ^ 32) 0 [] }) = false ∧
    Instr.wellFormed (.ethFrameReceived { port := 0, vid := none, body := .udp true 0 0 0 (List.replicate 9001 0) }) = false ∧
    Instr.wellFormed (.ptpEventMessage ⟨0, 0, 2 ^ 80, 0, 0, 0, .managementGet⟩) = false ∧
    Instr.wellFormed (.ptpEventMessage ⟨0, 0, 0, 0, 0, 2 ^ 64, .managementGet⟩) = false ∧
    Instr.wellFormed (.straitWordArrival (.traced .fullRow 0 0 0 81920)) = false ∧
    Instr.wellFormed (.chainTransferDone (List.replicate 17 0)) = false ∧
    Instr.wellFormed (.hdLoopUpdate []) = false ∧
    Instr.wellFormed (.tachEdge 0 true (2 ^ 64) 0 false) = false ∧
    Instr.wellFormed (.tachEdge 0 true 0 (2 ^ 64) false) = false ∧
    Instr.wellFormed (.tiuGo (List.replicate 15 0) (List.replicate 16 0)) = false ∧
    Instr.wellFormed (.tiuGo (List.replicate 16 0) []) = false ∧
    Instr.wellFormed (.calibrateDone (List.replicate 11 0)) = false ∧
    Instr.wellFormed (.adcSelfCalibrationDone [] []) = false ∧
    Instr.wellFormed (.adcSelfCalibrationDone (List.replicate 12 [0]) []) = false := by decide +kernel
/-- The same commands, well formed. -/
theorem test_well_formed :
    Instr.wellFormed (.registerWrite .hostMap 0x200 .pcie 15 0) = true ∧ Instr.wellFormed (.mbInWrite .pcie 0 0 (List.replicate 16 0) true) = true ∧
    Instr.wellFormed (.streamItemRead 0 [aDesc]) = true ∧ Instr.wellFormed (.tiuGo (List.replicate 16 0) (List.replicate 16 0)) = true ∧
    Instr.wellFormed (.ptpEventMessage ⟨0, 0, 2 ^ 80 - 1, 0, 0, 2 ^ 64 - 1, .managementGet⟩) = true ∧ Instr.wellFormed (.straitWordArrival (.traced .fullRow 0 0 0 81919)) = true ∧
    Instr.wellFormed (.calibrateDone (List.replicate 12 0)) = true ∧ Instr.wellFormed (.adcSelfCalibrationDone (List.replicate 12 (List.replicate 48 0)) []) = true := by
  decide +kernel

/-- The state a command leaves. -/
def after (i : Instr) (s : State) : State := match exec i s with | .next t => t | _ => s

/-- Chapter 3, worked WATCH plan: it meets R31. -/
theorem test_watch_plan_feasible : (match decodePlan watchWords [] with | .ok p => p.failed | .error _ => some (0, 0)) = none := by decide +kernel
/-- The same: chirp of slot 0. -/
theorem test_watch_plan_chirp :
    let w := vget (watchBank.legBank 0).slot 0 (Vector.replicate 8 0)
    (sx 48 ((vget w 1 0).toNat + 2 ^ 32 * (vget w 2 0).toNat), (vget w 3 0).toNat + 2 ^ 32 * (vget w 4 0).toNat, vget w 5 0) = (-54887620458578, 7036874418, 1600) := by
  decide +kernel
/-- Chapter 2, worked example: 62.3 km take REACH with S = 4 and 800 µs, 11.0 km SPEED with S = 8 and 125 µs. -/
theorem test_plan_suggest : suggestPlan 62300 14682 = some [modeReach, 4, 320000, 61056, 8000] ∧ suggestPlan 11000 14682 = some [modeSpeed, 8, 50000, 10816, 1600] := by
  decide +kernel
/-- Chapter 15, worked TIU measurement. -/
theorem test_tiu_stop :
    let s : State := { awake with tiu := { awake.tiu with
      cfg := fset 0 F.TIU_CFG.ENABLE 1, cal := fset (fset 0 F.TIU_CAL.K1 1130) F.TIU_CAL.K2 2410, phase := .running, startCount := 7, startCode := 610 } }
    vget (after (.tiuStopEvent 0 80 300) s).tiu.res 0 0 = 187500 := by decide +kernel
/-- Chapter 15, worked tach snapshot, with the next pulse late. -/
theorem test_tach_snapshot :
    let t : Tach := { trail := [(10000000, true, 5000000), (10000000 - 2454400, true, 4999999)] }
    t.snapshot 10800000 = 327680021361 ∧ t.snapshot (10000000 + 2454400) = 327680065535 := by decide +kernel
/-- Chapter 18, worked hop delay. -/
theorem test_hop_delay : hopDelay (List.replicate 64 (1312768 - 1105920)) = 103424 := by decide +kernel
/-- Chapter 19, worked lock example: both read in one cycle; a wrong release; release and read in one cycle. -/
theorem test_lock_race :
    let host : LockAccess := { path := .pcie, secure := false }
    let spi : LockAccess := { path := .spi, secure := false }
    let a := after (.lockRead 5 [host, spi] []) awake
    let b := after (.lockWrite 5 spi 4) a
    let c := after (.lockRead 5 [spi] [(host, 1)]) b
    a.lockOwner 5 = 1 ∧ vget a.host.readBack 4 [] = [1] ∧ fbit b.mb.lockStat F.LOCK_STAT.BAD_RELEASE = true ∧ fget b.mb.lockStat F.LOCK_STAT.LOCK = 5 ∧
      fget b.mb.lockStat F.LOCK_STAT.REQ = 4 ∧ b.lockOwner 5 = 1 ∧ c.lockOwner 5 = 4 ∧ vget c.host.readBack 4 [] = [0] := by decide +kernel
/-- Chapter 21, worked example: HINT_CFG written while ENABLE is set. -/
theorem test_hint_cfg_ignored :
    let s := after (.registerWrite .hostMap 0x200 .pcie 15 0x65) awake
    s.host.hintCfg = 1 ∧ fbit s.host.wiStat F.WI_STAT.HINT = true ∧ fget s.host.wiCapt F.WI_CAPT.OFFSET = 0x200 ∧ fget s.host.wiCapt F.WI_CAPT.REQ = 1 ∧
      s.host.wiData = 0x65 := by decide +kernel
/-- The same, ENABLE cleared first by its alias word. -/
theorem test_hint_cfg_taken :
    (after (.registerWrite .hostMap 0x200 .pcie 15 0x64) (after (.registerWrite .hostMap 0xC000 .pcie 15 0) awake)).host.hintCfg = 0x64 := by decide +kernel
/-- Chapter 21, worked example: the current trace of leg 0, slot row 3. -/
theorem test_wide_trace :
    let s : State := { watching with probe := { watching.probe with trace := vset watching.probe.trace 0 (Vector.replicate 8 1234601) } }
    let t := after (.wideCaptureDone .pcie) (after (.wideSelWrite .pcie 0x13) s)
    (vget t.host.wide 0 {}).stat = 0x1301 ∧ vget (vget t.host.wide 0 {}).data 0 0 = 0x0012D6A8 ∧ vget (vget t.host.wide 0 {}).data 1 0 = 0 := by decide +kernel
/-- Chapter 14, worked record: HOLD and body bytes. -/
theorem test_record_size :
    let c : TrigConfig := TrigConfig.ofWords [fset (fset (fset 0 F.TRIG_CFG.ENABLE 1) F.TRIG_CFG.SRC_PAT 1) F.TRIG_CFG.LEGS 1, 2500, 1250, 1, 19072, 1024, 0x100, 1] []
    c.bodyBytes watchBank watching.legR = 71040000 ∧ watching.holdMin c watchBank = 1363 := by decide +kernel
/-- Chapter 22, Sequence 22.1: the fifth occurrence within 10 s of the third raises HK_OPEN. -/
theorem test_hk_open :
    let f0 := State.reset.source srcHkOpen
    let occ (t : Nat) (f : FaultSource) : FaultSource := (f.occur t 23 false).1
    let f4 := occ 18100 (occ 15000 (occ 4200 (occ 0 f0)))
    f4.raised = false ∧ fget f4.cnt F.FC_CNT.TRANSIENT = 4 ∧ (occ 21900 f4).raised = true := by decide +kernel
/-- Chapter 20, worked example: the swap to NOTCH 3, accepted while trace 1,000,000 is held. -/
theorem test_chain_set_response :
    let s : State := { watching with
      time := { watching.time with up := 1000001 * 1600000 }
      probe := { watching.probe with frame := #v[1000001, 0], trace := vset watching.probe.trace 0 (Vector.replicate 8 1000001) }
      halls := { watching.halls with leg := vset watching.halls.leg 0 { chain := { cfg := 0x201, resp := 0x148B, now := 0x148B, m := 8000000 } } }
      fw := { watching.fw with inbox := vset watching.fw.inbox 0 [{ msg := [0x10203A06, 0, 0, 0, 0, 0x201, 0x168B] }] } }
    (vget (after (.chainSet 0) s).fw.out 0 []).map (·.msg) = [[0x10203A14, 0, 1000008, 0, 0]] := by decide +kernel
/-- Chapter 15, R275: device time 0 in the PTP timescale, in 2^-16 ns, and a frame 1.25 ns later. -/
theorem test_ptp_time : ptpTime 0 = 946684800 * 10 ^ 9 * 65536 ∧ ptpTime 5 - ptpTime 0 = 81920 := by decide +kernel
/-- Chapter 23, R417: spare column 1 for bit 7, spare row 0 for row 91. -/
theorem test_bist_spares :
    allocateSpares [(3, 12, 7), (3, 40, 7), (3, 91, 3)] [⟨3, 0, 5, false, 0⟩] = [⟨3, 0, 5, false, 0⟩, ⟨3, 12, 7, false, 1⟩, ⟨3, 91, 3, true, 0⟩] := by decide +kernel
/-- A step with nothing pending is one cycle of the always-on clock, 40 ns (DESIGN CHOICE, log entry 40). -/
theorem test_idle_step : (match step State.reset with | .next t => decide (t.time.up = 160 ∧ t.pending = []) | _ => false) = true := by decide +kernel

/-! ### A witness for every claim

Each theorem names its claim. Each line binds the operands and the state, and shows that they meet the hypotheses of one of its clauses. -/

theorem witness_StepRunsTheFrontCommand :
    (let s : State := { awake with pending := [.status 4] }; (match s.pending with | _ :: _ => (true) | _ => false)) = true := by
  decide +kernel

theorem witness_StepConsumesOneCommand :
    (let s : State := awake; decide (s.pending = [])) = true ∧
    (let s : State := awake; decide (s.Sound) && (match step s with | .next _ => (true) | _ => false)) = true := by
  decide +kernel

theorem witness_EveryCommandAnswers :
    (let a : Nat := awake.cellar.capacity; let s : State := awake;
      decide (fbit s.cellar.cfg F.CELLAR_CFG.ENABLE = true) && decide (s.cellar.capacity ≤ a)) = true ∧
    (let p5 : Bool := false; let n : Nat := 1; let s : State := { awake with cellar := { awake.cellar with full := { awake.cellar.full with base := awake.cellar.capacity } }, halls := { awake.halls with out0 := [aRow] } };
      (match s.halls.front p5 with | some row => (let r := s.cellar.ring p5; let p := if p5 then 5 else 0; let fits := min (min n (row.bytes.length - r.taken)) (portBuffer p - (s.cellar.portOf p).level); decide (r.dropping = false) && decide (0 < fits) && decide (s.cellar.capacity < r.addr (r.pos + r.taken) 0 + fits) && decide (s.cellar.capacity < r.base + r.size)) | _ => false)) = true := by
  decide +kernel

theorem witness_StepKeepsSound :
    (let s : State := awake; decide (s.Sound) && (match step s with | .next _ => (true) | _ => false)) = true := by
  decide +kernel

theorem witness_ResetLeavesTheStatedValues :
    (let n := (0 : Nat); decide (n < 128)) = true ∧
    (let k := (0 : Nat); decide (k < 32)) = true ∧
    (let c := (0 : Nat); decide (c < 8)) = true := by
  decide +kernel

theorem witness_UptimeNeverRunsBack :
    (let s : State := awake;
      decide (s.Sound) && decide ((s.pending.head? ≠ some .resetNLow)) && decide ((∀ torn, s.pending.head? ≠ some (.railRemoval torn))) && (match step s with | .next _ => (true) | _ => false)) = true := by
  decide +kernel

theorem witness_RequestsAreCheckedInOrder :
    (let i : Instr := .status 4; let s : State := awake;
      (match requestRow s i with | some (c, _) => (decide (vget s.fw.inbox c.val [] = [])) | _ => false)) = true ∧
    (let i : Instr := .timeRead 4; let s : State := asks 4 0x001 [] awake;
      (match requestRow s i with | some (c, sp) => ((match vget s.fw.inbox c.val [] with | r :: _ => (decide ((s.fwReady = false ∨ headerErr r.msg ≠ none ∨ msgCode r.msg ≠ sp.code))) | _ => false)) | _ => false)) = true ∧
    (let i : Instr := .identify 4; let s : State := asks 4 0x001 [0] awake;
      (match requestRow s i with | some (c, sp) => ((match vget s.fw.inbox c.val [] with | r :: _ => (decide (s.fwReady = true) && decide (headerErr r.msg = none) && decide (msgCode r.msg = sp.code) && decide (r.waitUp = none) && (match s.firstRefusal sp r c.val with | some _ => (true) | _ => false)) | _ => false)) | _ => false)) = true ∧
    (let i : Instr := .cellLoad 8; let s : State := { awake with fw := { awake.fw with inbox := vset awake.fw.inbox 8 [{ msg := headerWord 1 0 1 7 0x030 :: [16], bulk := [1] }] } };
      (match requestRow s i with | some (c, sp) => ((match vget s.fw.inbox c.val [] with | r :: _ => (decide (s.fwReady = true) && decide (headerErr r.msg = none) && decide (msgCode r.msg = sp.code) && decide ((r.waitUp ≠ none ∨ s.firstRefusal sp r c.val = none)) && decide (msgBulk r.msg = true) && decide (c.val = 8) && decide (bulkOf sp.code (msgTag r.msg) r.bulk = none)) | _ => false)) | _ => false)) = true ∧
    (let i : Instr := .cellLoad 4; let s : State := { awake with fw := { awake.fw with inbox := vset awake.fw.inbox 4 [{ msg := headerWord 1 0 1 7 0x030 :: [16] }] } };
      (match requestRow s i with | some (c, sp) => ((match vget s.fw.inbox c.val [] with | r :: _ => (decide (s.fwReady = true) && decide (headerErr r.msg = none) && decide (msgCode r.msg = sp.code) && decide ((r.waitUp ≠ none ∨ s.firstRefusal sp r c.val = none)) && decide (msgBulk r.msg = true) && decide (c.val ≠ 8) && decide ((s.fw.bulk = [] ∨ s.bulkTurn c.val (r.waitUp.getD s.time.up) = false))) | _ => false)) | _ => false)) = true ∧
    (let i : Instr := .cellLoad 4; let s : State := { asksBulk 4 0x030 [16] [] awake with fw := { (asksBulk 4 0x030 [16] [] awake).fw with bulk := [[1]] } };
      (match requestRow s i with | some (c, sp) => ((match vget s.fw.inbox c.val [] with | r :: _ => (decide (s.fwReady = true) && decide (headerErr r.msg = none) && decide (msgCode r.msg = sp.code) && decide ((r.waitUp ≠ none ∨ s.firstRefusal sp r c.val = none)) && decide (msgBulk r.msg = true) && decide (c.val ≠ 8) && (match s.fw.bulk with | bs :: _ => (decide (s.bulkTurn c.val (r.waitUp.getD s.time.up) = true) && decide (bulkOf sp.code (msgTag r.msg) bs = none)) | _ => false)) | _ => false)) | _ => false)) = true ∧
    (let i : Instr := .gainSet 4; let s : State := asks 4 0x018 [3, 0, 0, 0, 0xE2, 7] watching;
      (match requestRow s i with | some (c, sp) => ((match s.arrives sp c.val with | some (r, b, t) => (decide (sp.s = true) && decide (t.badAt sp.code (r.cmd sp c.val b) = true)) | _ => false)) | _ => false)) = true := by
  decide +kernel

theorem witness_AnswersChangeTheirCarrierAlone :
    (let c : Nat := 0; let d := 8; decide (d ≠ c)) = true := by
  decide +kernel

theorem witness_ResponseLayout :
    (let c : Nat := 0; decide (c < 8)) = true ∧
    (let kind : Nat := 3; let code : Nat := 4095; let tag : Nat := 255; let w : Word := 0; let ws : List Word := List.replicate 20 1; let m : Msg := (mkSeries 3 4095 255 ((0 : Word) :: List.replicate 20 1)).headD [];
      decide (kind < 4) && decide (code < 4096) && decide (tag < 256) && decide (m ∈ mkSeries kind code tag (w :: ws))) = true ∧
    (let kind : Nat := 0; let code : Nat := 0; let tag : Nat := 0; decide (kind < 4) && decide (code < 4096) && decide (tag < 256)) = true ∧
    (let st : Nat := 0; let detail : Nat := 0; let index : Nat := 0;
      decide (st < 65536) && decide (detail < 256) && decide (index < 256)) = true := by
  decide +kernel

theorem witness_QueriesAnswer :
    (met (.identify 4) (asks 4 0x001 [] awake) (fun _ _ => decide (True))) = true ∧
    (met (.status 4) (asks 4 0x002 [] awake) (fun _ _ => decide (True))) = true ∧
    (met (.progress 4) (asks 4 0x003 [] awake) (fun _ _ => decide (True))) = true ∧
    (met (.timeRead 4) (asks 4 0x06D [] awake) (fun _ _ => decide (True))) = true ∧
    (met (.tachStatus 4) (asks 4 0x06C [7] awake) (fun cmd _ => decide (cmd.p 0 < 8))) = true ∧
    (met (.zoneRead 4) (asks 4 0x03B [255] awake) (fun cmd _ => decide (cmd.p 0 < 256))) = true ∧
    (met (.recordList 4) (asks 4 0x044 [0, 0, 64] awake) (fun cmd _ => decide (1 ≤ cmd.p 2 ∧ cmd.p 2 ≤ 64))) = true ∧
    (met (.surveyRead 4) (asks 4 0x060 [1, 0, 0, 1] { awake with fw := { awake.fw with survey := #v[{}, { on := true, length := 37632 }] } }) (fun cmd t => decide (cmd.p 0 < 2 ∧ cmd.p 1 < 4 ∧ (match t.surveyItem (cmd.p 0) (cmd.p 1) with | some l => decide ((((l.drop (cmd.p 2)).take (cmd.p 3)).flatten).length ≤ 3839) | none => false) = true))) = true ∧
    (met (.faultRead 4) (asks 4 0x070 [96, 32] awake) (fun cmd _ => decide (cmd.p 0 ≤ 127 ∧ 1 ≤ cmd.p 1 ∧ cmd.p 1 ≤ 32 ∧ cmd.p 0 + cmd.p 1 ≤ 128))) = true ∧
    (met (.logRead 4) (asks 4 0x073 [0, 64] awake) (fun cmd _ => decide (1 ≤ cmd.p 1 ∧ cmd.p 1 ≤ 64))) = true ∧
    (met (.planCheck 4) (asks 4 0x011 watchWords awake) (fun cmd _ => decide ((match decodePlan cmd.w cmd.bulk with | .ok p => p.failed == none | .error _ => false) = true))) = true ∧
    (met (.planSuggest 4) (asks 4 0x012 [38400, 0, 14682] awake) (fun cmd _ => decide (14400 ≤ cmd.p 2 ∧ cmd.p 2 ≤ 14900 ∧ 0 < max (cmd.p 0) (cmd.p 1) ∧ (suggestPlan (max (cmd.p 0) (cmd.p 1)) (cmd.p 2)).isSome = true))) = true := by
  decide +kernel

theorem witness_PlanCheckNamesTheFailedCondition :
    (met (.planCheck 4) (asks 4 0x011 noLegWords awake) (fun cmd _ => decide ((match decodePlan cmd.w cmd.bulk with | .ok p => (match p.failed with | some e => e.2 == 0xFF | none => false) | .error _ => false) = true))) = true ∧
    (let c : Fin 9 := 4; let s : State := asks 4 0x011 noLegWords awake;
      (match requestRow s (.planCheck c) with | some (c_, sp) => (decide (c_ = c) && (match s.reach sp c.val with | some (r, b, _) => ((match decodePlan (r.cmd sp c.val b).w b with | .ok p => ((match p.failed with | some _ => (true) | _ => false)) | _ => false)) | _ => false)) | _ => false)) = true ∧
    (let p : PlanWords := ⟨2, 14682, { watchBank with tF := 16 }⟩;
      (match p.failed with | some (n, _) => (decide (p.mode ≠ 0) && (let m : Nat := 1; let k : Nat := 0; decide (1 ≤ m) && decide (m < n) && decide (k < 2) && decide ((p.bank.legBank k).on = true))) | _ => false)) = true ∧
    (let p : PlanWords := ⟨2, 14682, watchBank⟩;
      decide (p.failed = none) && decide (p.mode ≠ 0) && (let m : Nat := 9; let k : Nat := 0; decide (1 ≤ m) && decide (m ≤ 9) && decide (k < 2) && decide ((p.bank.legBank k).on = true))) = true := by
  decide +kernel

theorem witness_StampedSettings :
    (metAt (.gainSet 4) (asks 4 0x018 [0, 0, 0, 1, 0xE2, 7] awake) (fun _ _ => anyTrace) (fun cmd _ _ => decide (cmd.p 0 < 2 ∧ badImage F.LEG_CFG.kind (wat cmd.w 1) = false ∧ cmd.p 2 % 2 ^ 31 < 8 ∧ fget (wat cmd.w 1) F.LEG_CFG.GAIN_MIN ≤ fget (wat cmd.w 1) F.LEG_CFG.GAIN_MAX))) = true ∧
    (metAt (.chainSet 4) (asks 4 0x020 [0, 0, 0, 0, 0x201, 0x168B] watching) (fun cmd t f => !t.chainSwaps (cmd.p 0) cmd.w f || t.outputBoundary (cmd.p 0) (respR (cmd.p 2)) f) (fun cmd t at_ => decide (cmd.p 0 < 2 ∧ badImage F.CHAIN_CFG.kind (wat cmd.w 1) = false ∧ badImage F.CHAIN_RESP.kind (wat cmd.w 2) = false ∧ 16 ≤ fget (wat cmd.w 1) F.CHAIN_CFG.FADE_LEN ∧ fget (wat cmd.w 1) F.CHAIN_CFG.FADE_LEN ≤ 4096 ∧ respLegal (cmd.p 2) = true ∧ (match at_ with | some a => decide (t.rateAhead (cmd.p 0) a.1 = some (respRate (cmd.p 2))) | none => true) = true))) = true ∧
    (metAt (.mapSet 4) (asks 4 0x028 [0, 0, 0, 0, 0x00010000, 16, 32, 64, 128, 256, 512, 1024] awake) (fun _ _ => anyTrace) (fun cmd _ _ => decide (cmd.p 0 < 2 ∧ badImage F.MAP_CFG.kind (wat cmd.w 1) = false ∧ ((List.range 7).all (fun i => !badImage F.MAP_EDGE.kind (wat cmd.w (2 + i))) = true) ∧ fget (wat cmd.w 1) F.MAP_CFG.EDGE8 ≤ 128 ∧ rising (mapEdges cmd.w) = true))) = true ∧
    (metAt (.tempCal 4) (asks 4 0x051 [0, 0, 0, 0, 3, 41517056, 0, 0, 0, 0, 10] awake) (fun _ _ => anyTrace) (fun cmd t _ => decide (cmd.p 0 < 2 ∧ cmd.p 1 < 4 ∧ 26214400 ≤ cmd.p 2 ∧ cmd.p 2 ≤ 58982400 ∧ (sx 64 (wat64 cmd.w 3)).natAbs ≤ 2 ^ 30 ∧ (sx 64 (wat64 cmd.w 5)).natAbs ≤ 2 ^ 45 ∧ 1 ≤ cmd.p 7 ∧ cmd.p 7 ≤ 255 ∧ ((cmd.hasBulk = false ∧ cmd.p 1 = 3) ∨ (cmd.hasBulk = true ∧ cmd.bulk.length = 160 ∧ t.badSection cmd.bulk 0 = false ∧ t.badSection cmd.bulk 80 = false ∧ sectionsOverlap cmd.bulk = false ∧ (t.unplanned = true ∨ (t.legBank (cmd.p 0)).on = false ∨ refsBeyond cmd.bulk (t.legBank (cmd.p 0)).len = false)))))) = true ∧
    (metAt (.replayStart 4) (asks 4 0x080 [0, 0, 0, 1] awake) (fun _ _ => anyTrace) (fun cmd t _ => decide (cmd.p 0 < 2 ∧ t.replayLatest (cmd.p 0) = false))) = true ∧
    (metAt (.replayStop 4) (asks 4 0x081 [0, 0, 0, 1] (replayingBoth awake)) (fun _ _ => anyTrace) (fun cmd t _ => decide (cmd.p 0 < 2 ∧ t.replayLatest (cmd.p 0) = true))) = true ∧
    (metAt (.frontSet 4) (asks 4 0x019 [0, 0, 0, 0, 0x00A00041, 0xCCD, 5] awake) (fun _ _ => anyTrace) (fun cmd t _ => decide (cmd.p 0 < 2 ∧ badImage F.FRONT_CFG.kind (wat cmd.w 1) = false ∧ badImage F.FRONT_REL.kind (wat cmd.w 2) = false ∧ badImage F.PHASE_CFG.kind (wat cmd.w 3) = false ∧ fget (wat cmd.w 1) F.FRONT_CFG.RX_WIN ≤ 3 ∧ fget (wat cmd.w 1) F.FRONT_CFG.COMB_HALF ≤ 32 ∧ fget (wat cmd.w 1) F.FRONT_CFG.FADE_MUL ≠ 0 ∧ 1 ≤ cmd.p 3 % 128 ∧ cmd.p 3 % 128 ≤ 100 ∧ (fbit (wat cmd.w 1) F.FRONT_CFG.FADE_REF = true → (vget t.fw.surveyDone (cmd.p 0) {}).complete = true ∧ t.detail = false) ∧ ((fget (wat cmd.w 1) F.FRONT_CFG.RX_WIN ≠ fget (t.frontLatest (cmd.p 0)) F.FRONT_CFG.RX_WIN ∨ fget (wat cmd.w 1) F.FRONT_CFG.COMB_HALF ≠ fget (t.frontLatest (cmd.p 0)) F.FRONT_CFG.COMB_HALF) → t.probe.pending = none ∨ t.measuring = false)))) = true ∧
    (metAt (.chainReset 4) (asks 4 0x021 [0, 0, 0, 3] awake) (fun _ _ => anyTrace) (fun cmd _ _ => decide (1 ≤ cmd.p 0 ∧ cmd.p 0 ≤ 3))) = true ∧
    (metAt (.tempSet 4) (asks 4 0x050 [0, 0, 0, 0, 1, 30, 0, 0, 0, 3, 3] awake) (fun _ _ => anyTrace) (fun cmd t at_ => decide (cmd.p 0 < 2 ∧ cmd.p 1 ≤ 1 ∧ 10 ≤ cmd.p 2 ∧ cmd.p 2 ≤ 600 ∧ cmd.p 3 ≤ 4 ∧ cmd.p 4 ≤ 80000 ∧ cmd.p 5 ≤ 1023 ∧ cmd.p 6 ≤ 7 ∧ cmd.p 7 ≤ 7 ∧ (t.tempStarts (cmd.p 0) cmd.w = true → t.tempStartWaits (cmd.p 0) (at_.map (·.1)) = false) ∧ (match at_ with | some a => decide (cmd.p 1 = 1 → (t.planAhead (cmd.p 0) a.1).1.on = true → ramanFits ((t.planAhead (cmd.p 0) a.1).1.withTemp cmd.w) (t.planAhead (cmd.p 0) a.1).2.1 (t.planAhead (cmd.p 0) a.1).2.2 = true) | none => true) = true))) = true := by
  decide +kernel

set_option maxRecDepth 16000 in
theorem witness_StampedCommandsOfTheLoft :
    (metAt (.poolSet 4) (asks 4 0x031 [0, 0, 0, 7, 0, 0, 0, 0] awake) (fun _ _ => anyTrace) (fun cmd t _ => decide (cmd.p 0 < 8 ∧ badImage F.POOL_CFG.kind (wat cmd.w 1) = false ∧ (poolOfWords cmd.w).work ≤ 2 ∧ (poolOfWords cmd.w).mixed = false ∧ cellTwice (vset t.poolsLatest (cmd.p 0) (poolOfWords cmd.w)).toList = false ∧ t.poolMissing (vset t.poolsLatest (cmd.p 0) (poolOfWords cmd.w)).toList = false))) = true ∧
    (metAt (.zoneParam 4) (asksBulk 4 0x039 [0, 0, 0, 255] (List.replicate 176 0) (zoned awake)) (fun _ _ => anyTrace) (fun cmd t _ => decide (cmd.p 0 < 256 ∧ (match t.zoneLatest (cmd.p 0) with | some w => decide (ZoneWant.pageBad { w with param := cmd.bulk } = false ∧ cmd.bulk.length = w.param.length ∧ ZoneWant.stateLen { w with param := cmd.bulk } t.loft = w.stateLen t.loft) | none => false) = true))) = true ∧
    (metAt (.zoneEnable 4) (asks 4 0x03A [0, 0, 0, 0, 255, 0] awake) (fun _ _ => anyTrace) (fun cmd t at_ => decide (cmd.p 0 ≤ cmd.p 1 ∧ cmd.p 1 ≤ 255 ∧ cmd.p 2 ≤ 1 ∧ (cmd.p 2 = 1 → t.enableError ((List.range (cmd.p 1 + 1 - cmd.p 0)).map (cmd.p 0 + ·)) at_ = none)))) = true ∧
    (metAt (.zoneSet 4) (asksBulk 4 0x038 [0, 0, 0, 0, 0x40020, 0x20000, 0xB, 0] (List.replicate 176 0) awake) (fun _ _ => anyTrace) (fun cmd t at_ => let n := fget (wat cmd.w 1) F.ZONE_CFG.N_DET; let page := if cmd.hasBulk then cmd.bulk else bytesOfWords (cmd.w.drop (5 + n)); let w : ZoneWant := { pages := 0, cfg := wat cmd.w 1, span := wat cmd.w 2, out := wat cmd.w 3, param := page }; decide (5 + n ≤ cmd.w.length ∧ (cmd.hasBulk = true → cmd.w.length = 5 + n) ∧ zoneRangeBad cmd = false ∧ t.zoneError (cmd.p 0) w at_ (fbit w.cfg F.ZONE_CFG.ENABLE) = none))) = true ∧
    (metAt (.trigSet 4) (asksBulk 4 0x040 [0, 0, 0, 15, 0x624, 0, 1, 1, 0, 4, 0x100, 1] (List.replicate 512 0) awake) (fun _ _ => anyTrace) (fun cmd t at_ => let n := TrigConfig.ofWords (cmd.w.drop 1) cmd.bulk; let b := t.bankAhead ((at_.map (·.1)).getD 0); decide (cmd.bulk.length = 512 ∧ trigRangeBad cmd = false ∧ (fbit n.cfg F.TRIG_CFG.SRC_PAT = true → n.care.all (· == 0) = false) ∧ (at_.isSome = true → t.trigSpanBad n b = false ∧ t.holdBad n b = false) ∧ (at_ = none → t.trigSpanBad n {} = false)))) = true ∧
    (metAt (.arm 4) (asks 4 0x041 [0, 0, 0, 0xFFFF] awake) (fun _ _ => anyTrace) (fun cmd t _ => decide (cmd.p 0 < 2 ^ 16 ∧ t.notMaster (cmd.p 0) = false))) = true ∧
    (metAt (.disarm 4) (asks 4 0x042 [0, 0, 0, 0xFFFF] awake) (fun _ _ => anyTrace) (fun cmd t _ => decide (cmd.p 0 < 2 ^ 16 ∧ t.notMaster (cmd.p 0) = false))) = true ∧
    (metAt (.fire 4) (asks 4 0x043 [0, 0, 0, 0] { watching with trig := { watching.trig with units := vset watching.trig.units 0 { state := .armed } } }) (fun _ _ => anyTrace) (fun cmd t _ => decide (cmd.p 0 < 16 ∧ t.inRest = false ∧ (t.unit (cmd.p 0)).state ≠ .idle))) = true ∧
    (let c : Fin 9 := 4; let s : State := asks 4 0x043 [0, 0, 0, 0, 1000, 0] (indexed resting);
      (match requestRow s (.fire c) with | some (c_, sp) => (decide (c_ = c) && (match s.reach sp c.val with | some (r, b, t) => (decide ((r.cmd sp c.val b).p 0 < 16) && decide (t.inRest = true) && (match t.fireRetained ((r.cmd sp c.val b).p 0) (wat64 (r.cmd sp c.val b).w 1) with | .ok (_, _) => (true) | _ => false)) | _ => false)) | _ => false)) = true ∧
    (let n : Nat := 0; let time : Nat := 1000; let s : State := indexed resting;
      (match s.fireRetained n time with | .ok (_, _) => (true) | _ => false)) = true := by
  decide +kernel

theorem witness_StreamCommands :
    (met (.streamSet 4) (asks 4 0x048 [0, 0x0000A682, 0, 0, 0, 0, 0x00204000] awake) (fun cmd t => decide (t.streamRangeBad cmd.w = false ∧ t.streamSelBad (cmd.p 0) ((t.stream (cmd.p 0)).define (cmd.w.drop 1)) t.bankNow = false))) = true ∧
    (metAt (.streamStart 4) (asks 4 0x049 [0, 0, 0, 0] { awake with streams := { awake.streams with str := vset awake.streams.str 0 { cfg := 0x0000A682 } } }) (fun _ _ => anyTrace) (fun cmd t at_ => decide (cmd.p 0 ≤ 7 ∧ (t.stream (cmd.p 0)).running = false ∧ t.startWaits (cmd.p 0) = false ∧ (t.stream (cmd.p 0)).source ≠ 0 ∧ t.streamSelBad (cmd.p 0) (t.stream (cmd.p 0)) (at_.map (fun a => t.bankAhead a.1)) = false))) = true ∧
    (metAt (.streamStop 4) (asks 4 0x04A [0, 0, 0, 7] awake) (fun _ _ => anyTrace) (fun cmd t _ => decide (cmd.p 0 ≤ 7 ∧ ((t.stream (cmd.p 0)).running = true → (t.stream (cmd.p 0)).ending = none)))) = true := by
  decide +kernel

theorem witness_SettingsAtOnce :
    (met (.tableLoad 4) (asksBulk 4 0x013 [1, 7, 2] [0, 0, 0xFF, 0xFF, 0, 0, 0xFF, 0x1F] awake) (fun cmd _ => decide (cmd.p 0 < 2 ∧ cmd.p 1 < 8 ∧ 1 ≤ cmd.p 2 ∧ cmd.p 2 ≤ 8192 ∧ cmd.bulk.length = 4 * cmd.p 2 ∧ (tableLane cmd.bulk 0 (cmd.p 2) ++ tableLane cmd.bulk (2 * cmd.p 2) (cmd.p 2)).all tableEntryOk = true))) = true ∧
    (met (.recordDelete 4) (asks 4 0x045 [0, 0, 0, 0] awake) (fun _ _ => decide (True))) = true ∧
    (met (.retrimDefer 4) (asks 4 0x059 [600] awake) (fun cmd _ => decide (cmd.p 0 ≤ 600))) = true ∧
    (met (.trimSet 4) (asks 4 0x05A [0x40] awake) (fun cmd t => decide (badImage F.TRIM_CFG.kind (wat cmd.w 0) = false ∧ 8 ≤ fget (wat cmd.w 0) F.TRIM_CFG.TH ∧ fget (wat cmd.w 0) F.TRIM_CFG.TH ≤ 128 ∧ (fbit (wat cmd.w 0) F.TRIM_CFG.ENABLE = true → t.thr.hk.coversDie = true)))) = true ∧
    (met (.timeCfg 4) (asks 4 0x068 [0x000E1001, 0, 0, 0, 0, 1, 3, 0] awake) (fun cmd _ => decide (timeCfgBad cmd = false))) = true ∧
    (met (.timeSet 4) (asks 4 0x069 [0, 0] awake) (fun _ t => decide (t.planRuns = false))) = true ∧
    (met (.tiuMeasure 4) (asks 4 0x06A [1, 0] awake) (fun cmd t => decide (badImage F.TIU_CFG.kind (wat cmd.w 0) = false ∧ fbit (wat cmd.w 0) F.TIU_CFG.ENABLE = true ∧ tiuSourceBad (wat cmd.w 0) (wat cmd.w 1) = false ∧ t.tiu.phase = .idle ∧ t.tiu.asker = none))) = true ∧
    (met (.tachCfg 4) (asks 4 0x06B [7, 0x00019000, 0x7D0, 0] { awake with power := { awake.power with front := false } }) (fun cmd t => decide ((cmd.p 0 < 8 ∧ badImage (tachCfgKind (cmd.p 0)) (wat cmd.w 1) = false ∧ fget (wat cmd.w 1) F.TACH_CFG.EDGE ≠ 3 ∧ 1 ≤ cmd.p 2 ∧ cmd.p 2 ≤ 65535 ∧ (cmd.p 0 % 2 = 1 → fbit (t.tachOf (cmd.p 0 - 1)).cfgCopy F.TACH_CFG.QUAD = true → fbit (wat cmd.w 1) F.TACH_CFG.ENABLE = false)) ∧ t.power.front = false))) = true ∧
    (met (.tachCfg 4) (asks 4 0x06B [7, 0x00019000, 0x7D0, 0] awake) (fun cmd t => decide ((cmd.p 0 < 8 ∧ badImage (tachCfgKind (cmd.p 0)) (wat cmd.w 1) = false ∧ fget (wat cmd.w 1) F.TACH_CFG.EDGE ≠ 3 ∧ 1 ≤ cmd.p 2 ∧ cmd.p 2 ≤ 65535 ∧ (cmd.p 0 % 2 = 1 → fbit (t.tachOf (cmd.p 0 - 1)).cfgCopy F.TACH_CFG.QUAD = true → fbit (wat cmd.w 1) F.TACH_CFG.ENABLE = false)) ∧ t.power.front = true ∧ t.tachRestarts cmd = false))) = true ∧
    (met (.tachCfg 4) (asks 4 0x06B [0, 0x00019001, 0x7D1, 0] (tachBound watching)) (fun cmd t => decide ((cmd.p 0 < 8 ∧ badImage (tachCfgKind (cmd.p 0)) (wat cmd.w 1) = false ∧ fget (wat cmd.w 1) F.TACH_CFG.EDGE ≠ 3 ∧ 1 ≤ cmd.p 2 ∧ cmd.p 2 ≤ 65535 ∧ (cmd.p 0 % 2 = 1 → fbit (t.tachOf (cmd.p 0 - 1)).cfgCopy F.TACH_CFG.QUAD = true → fbit (wat cmd.w 1) F.TACH_CFG.ENABLE = false)) ∧ t.power.front = true ∧ t.tachRestarts cmd = true))) = true := by
  decide +kernel

theorem witness_FaultCommands :
    (met (.faultClear 4) (asks 4 0x071 [2, 0, 0, 0] (raised 1 false awake)) (fun cmd t => decide (∀ n ∈ maskSources cmd.w, (t.source n).raised = true → t.causePresent n = false))) = true ∧
    (met (.faultClear 4) (asks 4 0x071 [2, 0, 0, 0] (raised 1 true awake)) (fun cmd t => decide ((((maskSources cmd.w).filter (fun n => (t.source n).raised)).find? t.causePresent).isSome = true))) = true ∧
    (met (.faultCfg 4) (asks 4 0x072 [1, 3, 1, 15, 0x3FFFF] awake) (fun cmd _ => decide (cmd.p 0 ≤ 127 ∧ sourceListed (cmd.p 0) = true ∧ cmd.p 0 ≠ srcCollectorCfg ∧ cmd.p 1 ≤ 3 ∧ cmd.p 2 ≤ 63 ∧ 1 ≤ cmd.p 3 ∧ cmd.p 3 ≤ 15 ∧ cmd.p 4 < 2 ^ 19 ∧ cmd.p 4 % 2 ^ 18 ≠ 0))) = true := by
  decide +kernel

theorem witness_SecureCommands :
    (met (.secChallenge 4) (asks 4 0x0A0 [] awake) (fun _ _ => decide (True))) = true ∧
    (met (.secUnlock 4) (asksBulk 4 0x0A1 [] (List.replicate 64 0) { awake with fw := { awake.fw with sec := { lockUntil := some 1 } } }) (fun cmd t => decide (cmd.bulk.length = 64 ∧ (match t.fw.sec.lockUntil with | some u => decide (t.time.up < u) | none => false) = true))) = true ∧
    (met (.secUnlock 4) (asksBulk 4 0x0A1 [] (List.replicate 64 0) { awake with fw := { awake.fw with sec := { refusals := [0, 0] } } }) (fun cmd t => decide (cmd.bulk.length = 64 ∧ (match t.fw.sec.lockUntil with | some u => decide (u ≤ t.time.up) | none => true) = true ∧ t.unlocks cmd.bulk = false ∧ ((t.fw.sec.refusals.filter (fun u => t.time.up < u + 60 * sec)).length = 2)))) = true ∧
    (met (.secRevoke 4) (asks 4 0x0A2 [] awake) (fun _ _ => decide (True))) = true ∧
    (met (.secKey 6) (asks 6 0x0A3 [1, 2, 3, 4, 5, 6, 7, 8] awake) (fun cmd _ => decide (cmd.carrier = 6))) = true ∧
    (met (.memMap 4) (asks 4 0x079 [192, 64, 64, 0] awake) (fun cmd t => decide (cmd.p 0 ≠ 0 ∧ cmd.p 1 ≠ 0 ∧ cmd.p 2 ≠ 0 ∧ 128 + cmd.p 0 + cmd.p 1 + cmd.p 2 ≤ t.cellar.capacity / 2 ^ 24 ∧ cmd.p 3 ≤ 63 ∧ (match t.takeLock (wat cmd.w 3) with | .ok _ => true | .error _ => false) = true))) = true := by
  decide +kernel

theorem witness_NetSettingsAndPorts :
    (met (.netSet 4) (asks 4 0x078 [0, 1, 0x8D000109, 0x0A000001, 0, 0, 0, 0] awake) (fun cmd _ => decide (cmd.p 0 = 0 ∧ cmd.w.length = 8 ∧ cmd.p 1 ≤ 1 ∧ ethCfgBad (wat cmd.w 2) = false))) = true ∧
    (met (.netSet 4) (asks 4 0x078 [1, 15, 31, 0, 0, 0, 0, 0, 0, 0, 0, 0] awake) (fun cmd _ => decide (cmd.p 0 = 1 ∧ cmd.w.length = 12 ∧ cmd.p 1 ≤ 15 ∧ cmd.p 2 ≤ 31))) = true ∧
    (met (.netSet 4) (asks 4 0x078 [2, 3, 1, 0, 0, 0, 0] awake) (fun cmd _ => decide (cmd.p 0 = 2 ∧ cmd.w.length = 7 ∧ cmd.p 1 ≤ 3 ∧ cmd.p 2 ≤ 1))) = true ∧
    (met (.netSet 4) (asks 4 0x078 [3, 1024] awake) (fun cmd _ => decide (cmd.p 0 = 3 ∧ cmd.w.length = 2 ∧ 1024 ≤ cmd.p 1 ∧ cmd.p 1 ≤ 65535))) = true ∧
    (met (.netSet 4) (asks 4 0x078 [4, 1, 1, 0x200] awake) (fun cmd _ => decide (cmd.p 0 = 4 ∧ cmd.w.length = 4 ∧ cmd.p 1 ≤ 1 ∧ wat64 cmd.w 2 < 2 ^ 48 ∧ (wat64 cmd.w 2 = 0 ∨ (nbit (wat64 cmd.w 2) 41 = true ∧ nbit (wat64 cmd.w 2) 40 = false))))) = true ∧
    (let f : EthFrame := { port := 1, vid := some 5, body := .other }; let s : State := online awake; let x := s.ethPort f.port.val;
      decide (fbit x.cfg F.ETH_CFG.ENABLE = true) && decide (fbit x.stat F.ETH_STAT.LINK = true) && decide (x.takesVid (f.vid.map (·.val)) = false)) = true ∧
    (let f : EthFrame := { port := 1, vid := none, body := .arp true 5 0xC0A80001 }; let s : State := online awake; let x := s.ethPort f.port.val;
      decide (fbit x.cfg F.ETH_CFG.ENABLE = true) && decide (fbit x.stat F.ETH_STAT.LINK = true) && decide (x.takesVid (f.vid.map (·.val)) = true) && (match f.body with | .arp true _ _ => (true) | _ => false)) = true ∧
    (let f : EthFrame := { port := 1, vid := none, body := .arp false 5 0xC0A80001 }; let s : State := online awake; let x := s.ethPort f.port.val;
      decide (fbit x.cfg F.ETH_CFG.ENABLE = true) && decide (fbit x.stat F.ETH_STAT.LINK = true) && decide (x.takesVid (f.vid.map (·.val)) = true) && (match f.body with | .arp false _ _ => (true) | _ => false)) = true ∧
    (let f : EthFrame := { port := 1, vid := none, body := .neighbour true 5 6 }; let s : State := online awake; let x := s.ethPort f.port.val;
      decide (fbit x.cfg F.ETH_CFG.ENABLE = true) && decide (fbit x.stat F.ETH_STAT.LINK = true) && decide (x.takesVid (f.vid.map (·.val)) = true) && (match f.body with | .neighbour true _ _ => (true) | _ => false)) = true ∧
    (let f : EthFrame := { port := 1, vid := none, body := .echo false 0xC0A80001 }; let s : State := online awake; let x := s.ethPort f.port.val;
      decide (fbit x.cfg F.ETH_CFG.ENABLE = true) && decide (fbit x.stat F.ETH_STAT.LINK = true) && decide (x.takesVid (f.vid.map (·.val)) = true) && (match f.body with | .echo _ _ => (true) | _ => false)) = true ∧
    (let f : EthFrame := { port := 1, vid := none, body := .udp false 5 0xC0A80001 50865 [] }; let s : State := online awake; let x := s.ethPort f.port.val;
      decide (fbit x.cfg F.ETH_CFG.ENABLE = true) && decide (fbit x.stat F.ETH_STAT.LINK = true) && decide (x.takesVid (f.vid.map (·.val)) = true) && (match f.body with | .udp v6 _ dst port _ => (decide (x.owns v6 dst = true) && decide (port.val = s.porch.eth.ctlPort)) | _ => false)) = true ∧
    (let f : EthFrame := { port := 1, vid := none, body := .udp false 5 6 50865 [] }; let s : State := online awake; let x := s.ethPort f.port.val;
      decide (fbit x.cfg F.ETH_CFG.ENABLE = true) && decide (fbit x.stat F.ETH_STAT.LINK = true) && decide (x.takesVid (f.vid.map (·.val)) = true) && (match f.body with | .udp v6 _ dst port _ => (decide ((x.owns v6 dst = false ∨ port.val ≠ s.porch.eth.ctlPort))) | _ => false)) = true ∧
    (let f : EthFrame := { port := 1, vid := none, body := .other }; let s : State := online awake; let x := s.ethPort f.port.val;
      decide (fbit x.cfg F.ETH_CFG.ENABLE = true) && decide (fbit x.stat F.ETH_STAT.LINK = true) && decide (x.takesVid (f.vid.map (·.val)) = true) && decide (f.body = .other)) = true ∧
    (let f : EthFrame := { port := 1, vid := none, body := .other }; let s : State := awake;
      decide (fbit (s.ethPort f.port.val).cfg F.ETH_CFG.ENABLE = false ∨ fbit (s.ethPort f.port.val).stat F.ETH_STAT.LINK = false)) = true ∧
    (let p : Nat := 0; decide (p < 2)) = true ∧
    (let b : Fin 3 := 1; let pages : Option (List Byte × List Byte) := some ([1], [2]);
      (match pages with | some _ => (decide (b.val < 2)) | _ => false)) = true ∧
    (let b : Fin 3 := 1; decide (b.val < 2)) = true := by
  decide +kernel

theorem witness_ProgramImageIsLoaded :
    (met (.cellLoad 4) (asksBulk 4 0x030 [16] (anImage []) awake) (fun cmd t => decide ((16 ≤ cmd.p 0 ∧ cmd.p 0 ≤ 63 ∧ imageWrong cmd.bulk = false ∧ imageTooBig cmd.bulk = false ∧ imageOdd cmd.bulk = false ∧ t.imageBound (cmd.p 0) = false) ∧ imgAt cmd.bulk 28 4 = 0 ∧ (t.imagePlace cmd).isSome = true))) = true ∧
    (met (.cellLoad 4) (asksBulk 4 0x030 [63] (anImage (List.replicate 16 0)) awake) (fun cmd t => decide ((16 ≤ cmd.p 0 ∧ cmd.p 0 ≤ 63 ∧ imageWrong cmd.bulk = false ∧ imageTooBig cmd.bulk = false ∧ imageOdd cmd.bulk = false ∧ t.imageBound (cmd.p 0) = false) ∧ imgAt cmd.bulk 28 4 ≠ 0 ∧ (match t.imagePlace cmd with | some (l, _) => decide ((t.withLoft l).pageTotal [] + imgAt cmd.bulk 28 4 ≤ pageArea) | none => false) = true))) = true ∧
    (let i : Nat := 0; decide (i < 64)) = true := by
  decide +kernel

theorem witness_LongOperationsBegin :
    (met (.calibrate 4) (asks 4 0x058 [63] awake) (fun cmd t => decide (t.fw.optical = .idle ∧ cmd.p 0 ≤ 63 ∧ (nbit (wat cmd.w 0).toNat 5 = true → t.lockOwner ((wat cmd.w 0).toNat % 32) = 0 ∨ t.lockOwner ((wat cmd.w 0).toNat % 32) = 3)))) = true ∧
    (met (.fwStage 4) (asksBulk 4 0x088 [1, 0xFFFFFE, 0] [1, 2] awake) (fun cmd t => decide (cmd.p 0 < 2 ∧ cmd.p 2 ≤ 63 ∧ cmd.p 1 + cmd.bulk.length ≤ slotSize ∧ 0 < cmd.bulk.length ∧ cmd.bulk.length ≤ 2 ^ 20 ∧ (nbit (wat cmd.w 2).toNat 5 = true → t.lockOwner ((wat cmd.w 2).toNat % 32) = 0 ∨ t.lockOwner ((wat cmd.w 2).toNat % 32) = 3)))) = true ∧
    (met (.bist 4) (asks 4 0x090 [20, 0] awake) (fun cmd t => decide (cmd.p 1 ≤ 63 ∧ 20 ≤ cmd.p 0 ∧ (nbit (wat cmd.w 1).toNat 5 = true → t.lockOwner ((wat cmd.w 1).toNat % 32) = 0 ∨ t.lockOwner ((wat cmd.w 1).toNat % 32) = 3)))) = true ∧
    (met (.bist 4) (asks 4 0x090 [19, 32] awake) (fun cmd t => decide (cmd.p 1 ≤ 63 ∧ cmd.p 0 < 20 ∧ (nbit (wat cmd.w 1).toNat 5 = true → t.lockOwner ((wat cmd.w 1).toNat % 32) = 0 ∨ t.lockOwner ((wat cmd.w 1).toNat % 32) = 3)))) = true ∧
    (met (.train 4) (asks 4 0x091 [1] awake) (fun cmd t => decide (cmd.p 0 ≤ 1 ∧ memDescListed t.cellar.memDesc = true))) = true ∧
    (met (.shutdown 4) (asks 4 0x098 [30000] awake) (fun cmd t => decide (cmd.p 0 ≤ 30000 ∧ t.fw.down = none ∧ t.fw.long = none))) = true ∧
    (met (.shutdown 4) (asks 4 0x098 [0] (busyWith cModeSet awake)) (fun cmd t => decide (cmd.p 0 ≤ 30000 ∧ t.fw.down = none ∧ (t.fw.long.map (·.code)) = some cModeSet))) = true ∧
    (met (.shutdown 4) (asks 4 0x098 [0] (busyWith 0x090 awake)) (fun cmd t => decide (cmd.p 0 ≤ 30000 ∧ t.fw.down = none ∧ (match t.fw.long with | some op => op.code != cModeSet | none => false) = true))) = true ∧
    (met (.calibrate 4) (asks 4 0x058 [63] (awake.setLock 31 1)) (fun cmd t => decide (t.fw.optical = .idle ∧ cmd.p 0 ≤ 63 ∧ ¬ (nbit (wat cmd.w 0).toNat 5 = true → t.lockOwner ((wat cmd.w 0).toNat % 32) = 0 ∨ t.lockOwner ((wat cmd.w 0).toNat % 32) = 3)))) = true ∧
    (met (.bist 4) (asks 4 0x090 [20, 32] (awake.setLock 0 5)) (fun cmd t => decide (cmd.p 1 ≤ 63 ∧ ¬ (nbit (wat cmd.w 1).toNat 5 = true → t.lockOwner ((wat cmd.w 1).toNat % 32) = 0 ∨ t.lockOwner ((wat cmd.w 1).toNat % 32) = 3)))) = true ∧
    (met (.fwStage 4) (asksBulk 4 0x088 [0, 0, 33] [1, 2] (awake.setLock 1 2)) (fun cmd t => decide (cmd.p 0 < 2 ∧ cmd.p 2 ≤ 63 ∧ cmd.p 1 + cmd.bulk.length ≤ slotSize ∧ 0 < cmd.bulk.length ∧ cmd.bulk.length ≤ 2 ^ 20 ∧ ¬ (nbit (wat cmd.w 2).toNat 5 = true → t.lockOwner ((wat cmd.w 2).toNat % 32) = 0 ∨ t.lockOwner ((wat cmd.w 2).toNat % 32) = 3)))) = true ∧
    (met (.memMap 4) (asks 4 0x079 [192, 64, 64, 34] (awake.setLock 2 4)) (fun cmd t => decide (cmd.p 0 ≠ 0 ∧ cmd.p 1 ≠ 0 ∧ cmd.p 2 ≠ 0 ∧ 128 + cmd.p 0 + cmd.p 1 + cmd.p 2 ≤ t.cellar.capacity / 2 ^ 24 ∧ cmd.p 3 ≤ 63 ∧ ¬ (nbit (wat cmd.w 3).toNat 5 = true → t.lockOwner ((wat cmd.w 3).toNat % 32) = 0 ∨ t.lockOwner ((wat cmd.w 3).toNat % 32) = 3)))) = true := by
  decide +kernel

theorem witness_ModeSetAnswers :
    (met (.modeSet 4) (asks 4 0x010 ([0, 0, 0] ++ watchWords) { awake with fw := { awake.fw with startState := false } }) (fun cmd t => decide (((match decodePlan cmd.w cmd.bulk with | .ok q => let p := q.surveyed; decide (q.failed = none ∧ t.atOff cmd = false ∧ t.changeWaits = false ∧ t.planRefused p.bank (t.planFrame cmd) = none ∧ p.mode ≠ 0) | .error _ => false) = true ∧ t.probe.running = false ∧ t.fw.optical = .idle ∧ t.fw.startState = false)))) = true ∧
    (met (.modeSet 4) (asks 4 0x010 ([0, 0, 0] ++ watchWords) awake) (fun cmd t => decide (((match decodePlan cmd.w cmd.bulk with | .ok q => let p := q.surveyed; decide (q.failed = none ∧ t.atOff cmd = false ∧ t.changeWaits = false ∧ t.planRefused p.bank (t.planFrame cmd) = none ∧ p.mode ≠ 0) | .error _ => false) = true ∧ t.probe.running = false ∧ t.fw.optical = .idle ∧ t.fw.startState = true)))) = true ∧
    (met (.modeSet 4) (asks 4 0x010 ([0, 0, 0] ++ wideWords) watching) (fun cmd t => decide (((match decodePlan cmd.w cmd.bulk with | .ok q => let p := q.surveyed; decide (q.failed = none ∧ t.atOff cmd = false ∧ t.changeWaits = false ∧ t.planRefused p.bank (t.planFrame cmd) = none ∧ p.mode ≠ 0 ∧ p.mode ≠ modeSurvey ∧ t.samePlan p = false) | .error _ => false) = true ∧ t.probe.running = true ∧ (match t.placeAt cmd anyTrace with | .ok _ => true | .error _ => false) = true)))) = true ∧
    (met (.modeSet 4) (asks 4 0x010 ([0, 0, 0] ++ watchWords) watching) (fun cmd t => decide (((match decodePlan cmd.w cmd.bulk with | .ok q => let p := q.surveyed; decide (q.failed = none ∧ t.atOff cmd = false ∧ t.changeWaits = false ∧ t.planRefused p.bank (t.planFrame cmd) = none ∧ p.mode ≠ 0 ∧ p.mode ≠ modeSurvey ∧ t.samePlan p = true) | .error _ => false) = true ∧ t.probe.running = true ∧ (match t.placeAt cmd anyTrace with | .ok _ => true | .error _ => false) = true)))) = true ∧
    (met (.modeSet 4) (asks 4 0x010 [0, 0, 0, 0, 14682] { awake with fw := { awake.fw with startState := false } }) (fun cmd t => decide (planMode (wat cmd.w 0) = 0 ∧ t.probe.running = false ∧ t.fw.optical ≠ .surveyDone ∧ t.fw.startState = false))) = true ∧
    (met (.modeSet 4) (asks 4 0x010 [0, 0, 0, 0, 14682] awake) (fun cmd t => decide (planMode (wat cmd.w 0) = 0 ∧ t.probe.running = false ∧ t.fw.optical ≠ .surveyDone ∧ t.fw.startState = true))) = true ∧
    (met (.modeSet 4) (asks 4 0x010 [0, 0, 0, 0, 14682] watching) (fun cmd t => decide (planMode (wat cmd.w 0) = 0 ∧ t.probe.running = true ∧ t.probe.pending = none ∧ t.atOff cmd = false ∧ (match t.placeAt cmd anyTrace with | .ok _ => true | .error _ => false) = true))) = true ∧
    (let c : Fin 9 := 4; let s : State := asks 4 0x010 ([0, 0, 0] ++ noLegWords) awake;
      (match requestRow s (.modeSet c) with | some (c_, sp) => (decide (c_ = c) && (match s.reach sp c.val with | some (r, b, _) => ((match decodePlan (r.cmd sp c.val b).w b with | .ok p => ((match p.failed with | some _ => (true) | _ => false)) | _ => false)) | _ => false)) | _ => false)) = true ∧
    (let c : Fin 9 := 4; let s : State := asks 4 0x010 ([0, 0, 0] ++ wideWords) { watching with probe := { watching.probe with pending := some aPlan } };
      (match requestRow s (.modeSet c) with | some (c_, sp) => (decide (c_ = c) && (match s.reach sp c.val with | some (r, b, t) => ((match decodePlan (r.cmd sp c.val b).w b with | .ok p => (decide (p.failed = none) && decide (t.atOff (r.cmd sp c.val b) = false) && decide (t.probe.running = true) && decide (t.probe.pending.isSome = true)) | _ => false)) | _ => false)) | _ => false)) = true ∧
    (let c : Fin 9 := 4; let s : State := asks 4 0x010 ([0, 0, 0] ++ watchWords) { awake with cellar := { awake.cellar with cfg := 2 } };
      (match requestRow s (.modeSet c) with | some (c_, sp) => (decide (c_ = c) && (match s.reach sp c.val with | some (r, b, t) => ((match decodePlan (r.cmd sp c.val b).w b with | .ok p => (decide (p.failed = none) && decide (t.atOff (r.cmd sp c.val b) = false) && decide (t.changeWaits = false) && decide (p.mode ≠ 0) && (match t.planRefused p.surveyed.bank (t.planFrame (r.cmd sp c.val b)) with | some e => (decide (e.index = 0xFF)) | _ => false)) | _ => false)) | _ => false)) | _ => false)) = true ∧
    (met (.modeSet 4) (asks 4 0x010 ([0, 0, 0] ++ watchWords) { awake with fw := { awake.fw with optical := .fadeOut } }) (fun cmd t => decide (((match decodePlan cmd.w cmd.bulk with | .ok q => let p := q.surveyed; decide (q.failed = none ∧ t.atOff cmd = false ∧ t.changeWaits = false ∧ t.planRefused p.bank (t.planFrame cmd) = none ∧ p.mode ≠ 0) | .error _ => false) = true ∧ t.probe.running = false ∧ t.fw.optical = .fadeOut)))) = true := by
  decide +kernel

theorem witness_ParametersOutOfRangeAreRefused :
    (met (.zoneRead 4) (asks 4 0x03B [256] awake) (fun cmd _ => decide (256 ≤ cmd.p 0))) = true ∧
    (met (.recordList 4) (asks 4 0x044 [0, 0, 65] awake) (fun cmd _ => decide (cmd.p 2 = 0 ∨ 64 < cmd.p 2))) = true ∧
    (met (.surveyRead 4) (asks 4 0x060 [2, 0, 0, 1] awake) (fun cmd _ => decide (2 ≤ cmd.p 0 ∨ 4 ≤ cmd.p 1))) = true ∧
    (met (.tachStatus 4) (asks 4 0x06C [8] awake) (fun cmd _ => decide (8 ≤ cmd.p 0))) = true ∧
    (met (.faultRead 4) (asks 4 0x070 [128, 1] awake) (fun cmd _ => decide (127 < cmd.p 0 ∨ cmd.p 1 = 0 ∨ 32 < cmd.p 1 ∨ 128 < cmd.p 0 + cmd.p 1))) = true ∧
    (met (.logRead 4) (asks 4 0x073 [0, 65] awake) (fun cmd _ => decide (cmd.p 1 = 0 ∨ 64 < cmd.p 1))) = true ∧
    (met (.planSuggest 4) (asks 4 0x012 [38400, 0, 14901] awake) (fun cmd _ => decide (cmd.p 2 < 14400 ∨ 14900 < cmd.p 2))) = true ∧
    (met (.tableLoad 4) (asksBulk 4 0x013 [2, 0, 1] [0, 0, 0, 0] awake) (fun cmd _ => decide (2 ≤ cmd.p 0 ∨ 8 ≤ cmd.p 1 ∨ cmd.p 2 = 0 ∨ 8192 < cmd.p 2))) = true ∧
    (met (.gainSet 4) (asks 4 0x018 [0, 0, 0, 2, 0xE2, 3] awake) (fun cmd _ => decide (2 ≤ cmd.p 0 ∨ badImage F.LEG_CFG.kind (wat cmd.w 1) = true ∨ 8 ≤ cmd.p 2 % 2 ^ 31 ∨ fget (wat cmd.w 1) F.LEG_CFG.GAIN_MAX < fget (wat cmd.w 1) F.LEG_CFG.GAIN_MIN))) = true ∧
    (met (.chainReset 4) (asks 4 0x021 [0, 0, 0, 4] awake) (fun cmd _ => decide (cmd.p 0 = 0 ∨ 3 < cmd.p 0))) = true ∧
    (met (.mapSet 4) (asks 4 0x028 [0, 0, 0, 0, 0x00010000, 16, 16, 64, 128, 256, 512, 1024] awake) (fun cmd _ => decide (2 ≤ cmd.p 0 ∨ 128 < fget (wat cmd.w 1) F.MAP_CFG.EDGE8 ∨ rising (mapEdges cmd.w) = false))) = true ∧
    (met (.poolSet 4) (asks 4 0x031 [0, 0, 0, 8, 0, 0, 0, 0] awake) (fun cmd _ => decide (8 ≤ cmd.p 0 ∨ badImage F.POOL_CFG.kind (wat cmd.w 1) = true ∨ 2 < (poolOfWords cmd.w).work))) = true ∧
    (met (.zoneParam 4) (asksBulk 4 0x039 [0, 0, 0, 256] [1] awake) (fun cmd _ => decide (256 ≤ cmd.p 0))) = true ∧
    (met (.zoneEnable 4) (asks 4 0x03A [0, 0, 0, 0, 256, 0] awake) (fun cmd _ => decide (255 < cmd.p 0 ∨ 255 < cmd.p 1 ∨ cmd.p 1 < cmd.p 0 ∨ 1 < cmd.p 2))) = true ∧
    (met (.arm 4) (asks 4 0x041 [0, 0, 0, 0x10000] awake) (fun cmd _ => decide (2 ^ 16 ≤ cmd.p 0))) = true ∧
    (met (.disarm 4) (asks 4 0x042 [0, 0, 0, 0x10000] awake) (fun cmd _ => decide (2 ^ 16 ≤ cmd.p 0))) = true ∧
    (met (.fire 4) (asks 4 0x043 [0, 0, 0, 16, 0, 0] awake) (fun cmd _ => decide (16 ≤ cmd.p 0))) = true ∧
    (met (.streamSet 4) (asks 4 0x048 [8, 0, 0, 0, 0, 0, 0x00204000] awake) (fun cmd t => decide (t.streamRangeBad cmd.w = true))) = true ∧
    (met (.streamStart 4) (asks 4 0x049 [0, 0, 0, 8] awake) (fun cmd t => decide (7 < cmd.p 0 ∨ (t.stream (cmd.p 0)).running = true ∨ t.startWaits (cmd.p 0) = true))) = true ∧
    (met (.streamStop 4) (asks 4 0x04A [0, 0, 0, 8] awake) (fun cmd _ => decide (7 < cmd.p 0))) = true ∧
    (met (.calibrate 4) (asks 4 0x058 [64] awake) (fun cmd t => decide (t.fw.optical = .idle ∧ 63 < cmd.p 0))) = true ∧
    (met (.retrimDefer 4) (asks 4 0x059 [601] awake) (fun cmd _ => decide (600 < cmd.p 0))) = true ∧
    (met (.trimSet 4) (asks 4 0x05A [0x0E] awake) (fun cmd _ => decide (fget (wat cmd.w 0) F.TRIM_CFG.TH < 8 ∨ 128 < fget (wat cmd.w 0) F.TRIM_CFG.TH))) = true ∧
    (met (.timeCfg 4) (asks 4 0x068 [0x000E100F, 0, 0, 0, 0, 1, 3, 0] awake) (fun cmd _ => decide (timeCfgBad cmd = true))) = true ∧
    (met (.tachCfg 4) (asks 4 0x06B [8, 0x00019000, 0x7D0, 0] awake) (fun cmd _ => decide (8 ≤ cmd.p 0 ∨ fget (wat cmd.w 1) F.TACH_CFG.EDGE = 3 ∨ cmd.p 2 = 0 ∨ 65535 < cmd.p 2))) = true ∧
    (met (.faultCfg 4) (asks 4 0x072 [128, 3, 1, 15, 0x3FFFF] awake) (fun cmd _ => decide (127 < cmd.p 0 ∨ sourceListed (cmd.p 0) = false ∨ cmd.p 0 = srcCollectorCfg ∨ 3 < cmd.p 1 ∨ 63 < cmd.p 2 ∨ cmd.p 3 = 0 ∨ 15 < cmd.p 3))) = true ∧
    (met (.netSet 4) (asks 4 0x078 [5, 0] awake) (fun cmd _ => decide (4 < cmd.p 0))) = true ∧
    (met (.replayStart 4) (asks 4 0x080 [0, 0, 0, 2] awake) (fun cmd _ => decide (2 ≤ cmd.p 0))) = true ∧
    (met (.replayStop 4) (asks 4 0x081 [0, 0, 0, 2] awake) (fun cmd t => decide (2 ≤ cmd.p 0 ∨ t.replayLatest (cmd.p 0) = false))) = true ∧
    (met (.fwActivate 4) (asks 4 0x089 [2] awake) (fun cmd _ => decide (2 ≤ cmd.p 0))) = true ∧
    (met (.bist 4) (asks 4 0x090 [20, 64] awake) (fun cmd _ => decide (63 < cmd.p 1))) = true ∧
    (met (.train 4) (asks 4 0x091 [2] awake) (fun cmd _ => decide (1 < cmd.p 0))) = true ∧
    (met (.shutdown 4) (asks 4 0x098 [30001] awake) (fun cmd _ => decide (30000 < cmd.p 0))) = true := by
  decide +kernel

set_option maxRecDepth 16000 in
theorem witness_CommandsRefuseWithTheirErrors :
    (met (.surveyRead 4) (asks 4 0x060 [0, 3, 0, 1] awake) (fun cmd t => decide (cmd.p 0 < 2 ∧ cmd.p 1 < 4 ∧ t.surveyItem (cmd.p 0) (cmd.p 1) = none))) = true ∧
    (met (.tableLoad 4) (asksBulk 4 0x013 [0, 0, 1] [0, 0x20, 0, 0] awake) (fun cmd _ => decide (cmd.p 0 < 2 ∧ cmd.p 1 < 8 ∧ 1 ≤ cmd.p 2 ∧ cmd.p 2 ≤ 8192 ∧ cmd.bulk.length = 4 * cmd.p 2 ∧ (tableLane cmd.bulk 0 (cmd.p 2) ++ tableLane cmd.bulk (2 * cmd.p 2) (cmd.p 2)).all tableEntryOk = false))) = true ∧
    (met (.cellLoad 4) (asksBulk 4 0x030 [16] [1] awake) (fun cmd _ => decide (16 ≤ cmd.p 0 ∧ cmd.p 0 ≤ 63 ∧ imageWrong cmd.bulk = true))) = true ∧
    (met (.cellLoad 4) (asksBulk 4 0x030 [16] emptyImage awake) (fun cmd _ => decide (16 ≤ cmd.p 0 ∧ cmd.p 0 ≤ 63 ∧ imageWrong cmd.bulk = false ∧ imageTooBig cmd.bulk = true))) = true ∧
    (met (.cellLoad 4) (asksBulk 4 0x030 [16] (anImage []) (pooled 16 awake)) (fun cmd t => decide (16 ≤ cmd.p 0 ∧ cmd.p 0 ≤ 63 ∧ imageWrong cmd.bulk = false ∧ imageTooBig cmd.bulk = false ∧ imageOdd cmd.bulk = false ∧ t.imageBound (cmd.p 0) = true))) = true ∧
    (met (.poolSet 4) (asks 4 0x031 [0, 0, 0, 0, 1, 1, 0, 1] awake) (fun cmd t => decide (cmd.p 0 < 8 ∧ badImage F.POOL_CFG.kind (wat cmd.w 1) = false ∧ (poolOfWords cmd.w).work ≤ 2 ∧ ((poolOfWords cmd.w).mixed = true ∨ cellTwice (vset t.poolsLatest (cmd.p 0) (poolOfWords cmd.w)).toList = true ∨ t.poolMissing (vset t.poolsLatest (cmd.p 0) (poolOfWords cmd.w)).toList = true)))) = true ∧
    (met (.zoneParam 4) (asksBulk 4 0x039 [0, 0, 0, 0] [1] awake) (fun cmd t => decide (cmd.p 0 < 256 ∧ t.zoneLatest (cmd.p 0) = none))) = true ∧
    (met (.trigSet 4) (asksBulk 4 0x040 [0, 0, 0, 15, 0x626, 0, 1, 1, 0, 4, 0x100, 1] (List.replicate 512 0) awake) (fun cmd _ => decide (cmd.bulk.length = 512 ∧ trigRangeBad cmd = false ∧ fbit (TrigConfig.ofWords (cmd.w.drop 1) cmd.bulk).cfg F.TRIG_CFG.SRC_PAT = true ∧ (TrigConfig.ofWords (cmd.w.drop 1) cmd.bulk).care.all (· == 0) = true))) = true ∧
    (met (.arm 4) (asks 4 0x041 [0, 0, 0, 1] (ringUnit awake)) (fun cmd t => decide (cmd.p 0 < 2 ^ 16 ∧ t.notMaster (cmd.p 0) = true))) = true ∧
    (met (.disarm 4) (asks 4 0x042 [0, 0, 0, 1] (ringUnit awake)) (fun cmd t => decide (cmd.p 0 < 2 ^ 16 ∧ t.notMaster (cmd.p 0) = true))) = true ∧
    (met (.fire 4) (asks 4 0x043 [0, 0, 0, 0] watching) (fun cmd t => decide (cmd.p 0 < 16 ∧ t.inRest = false ∧ (t.unit (cmd.p 0)).state = .idle))) = true ∧
    (met (.streamSet 4) (asks 4 0x048 [0, 0x0000A682, 0, 1, 0, 0, 0x00204000] (streamOne awake)) (fun cmd t => decide (t.streamRangeBad cmd.w = false ∧ t.streamSelBad (cmd.p 0) ((t.stream (cmd.p 0)).define (cmd.w.drop 1)) t.bankNow = true))) = true ∧
    (met (.streamStop 4) (asks 4 0x04A [0, 0, 0, 1] (streamOne awake)) (fun cmd t => decide (cmd.p 0 ≤ 7 ∧ (t.stream (cmd.p 0)).running = true ∧ (t.stream (cmd.p 0)).ending.isSome = true))) = true ∧
    (met (.timeSet 4) (asks 4 0x069 [0, 0] watching) (fun _ t => decide (t.planRuns = true))) = true ∧
    (met (.replayStart 4) (asks 4 0x080 [0, 0, 0, 0] (replayingBoth awake)) (fun cmd t => decide (cmd.p 0 < 2 ∧ t.replayLatest (cmd.p 0) = true))) = true ∧
    (met (.fwActivate 4) (asks 4 0x089 [0] awake) (fun cmd t => decide (cmd.p 0 < 2 ∧ t.imageSigned (cmd.p 0) = false))) = true ∧
    (met (.train 4) (asks 4 0x091 [0] { awake with cellar := { awake.cellar with memDesc := 0xFFFFFFFF } }) (fun cmd t => decide (cmd.p 0 ≤ 1 ∧ memDescListed t.cellar.memDesc = false))) = true ∧
    (met (.secKey 4) (asks 4 0x0A3 [1, 2, 3, 4, 5, 6, 7, 8] awake) (fun cmd _ => decide (cmd.carrier ≠ 6))) = true ∧
    (met (.calibrate 4) (asks 4 0x058 [63] { awake with fw := { awake.fw with optical := .fadeOut } }) (fun _ t => decide (t.fw.optical ≠ .idle))) = true := by
  decide +kernel

theorem witness_MessagesPassThroughFirmware :
    (let s : State := { awake with mb := { awake.mb with avail := 0 } }; decide (s.fwReady = true) && decide (s.mbAvailable = true)) = true ∧
    (let s : State := awake; decide (s.fwReady = false ∨ s.mbAvailable = false)) = true ∧
    (let c : Nat := 7; let s : State := pushed 7 [headerWord 0 0 0 7 0x001] awake;
      decide (c < 8) && decide ((s.chan c).inFull = true) && decide ((vget s.fw.inbox c []).length < 64) && (let d := 0; decide (d ≠ c))) = true ∧
    (let c : Nat := 7; let s : State := pushed 7 [headerWord 0 0 0 7 0x001] awake;
      decide (c < 8) && decide ((s.chan c).inFull = true) && decide ((vget s.fw.inbox c []).length < 64) && decide (headerErr (s.chan c).inq = none) && decide ((∀ r ∈ vget s.fw.inbox c [], headerErr r.msg = none))) = true ∧
    (let c : Nat := 0; let s : State := awake; decide ((s.chan c).inFull = false ∨ 64 ≤ (vget s.fw.inbox c []).length)) = true ∧
    (let s : State := awake; decide (s.fwReady = true) && decide (s.mbAvailable = false)) = true ∧
    (let s : State := State.reset; decide (s.fwReady = false)) = true ∧
    (let c : Nat := 0; let s : State := { awake with mb := { awake.mb with chan := vset awake.mb.chan 0 { outq := [1] } } };
      decide ((s.chan c).outFull = true)) = true ∧
    (let c : Nat := 7; let s : State := { awake with fw := { awake.fw with out := vset awake.fw.out 7 [⟨0, [1]⟩] } };
      decide (c < 8) && decide ((s.chan c).outFull = false) && (match s.nextOut c with | some (_, _) => (true) | _ => false)) = true ∧
    (let c : Nat := 7; let s : State := { awake with fw := { awake.fw with out := vset awake.fw.out 7 [⟨0, [1]⟩] } };
      decide (c < 8) && (match vget s.fw.out c [] with | ⟨_, _⟩ :: _ => (decide (eventQueueOf c = none)) | _ => false)) = true ∧
    (let c : Nat := 6; let s : State := { awake with fw := { awake.fw with events := vset awake.fw.events 1 [⟨0x101, 0, [], 0, none⟩] } };
      decide (c < 8) && (match eventQueueOf c with | some q => ((match s.takeEvent q with | some (_, _ :: _, _) => (decide (vget s.fw.out c [] = [])) | _ => false)) | _ => false)) = true := by
  decide +kernel

theorem witness_LongWorkEnds :
    (let c : Fin 9 := 4; let s : State := { awake with fw := { awake.fw with inbox := vset awake.fw.inbox 4 [{ msg := [1], waitUp := some 0 }] } };
      (match vget s.fw.inbox c.val [] with | r :: _ => ((match r.waitUp with | some _ => (true) | _ => false)) | _ => false)) = true ∧
    (let s : State := { busyWith 0x090 awake with mb := { awake.mb with dbH2d := 0x100 } };
      decide (s.fwReady = true) && decide (nbit s.mb.dbH2d.toNat 8 = true) && (match s.fw.long with | some op => (decide (abortable.contains op.code = true)) | _ => false)) = true ∧
    (let s : State := { awake with mb := { awake.mb with dbH2d := 0x100 } };
      decide (s.fwReady = true) && decide (nbit s.mb.dbH2d.toNat 8 = true) && decide (s.fw.long = none)) = true ∧
    (let s : State := awake; decide (nbit s.mb.dbH2d.toNat 8 = false)) = true ∧
    (let fail : Option (Fin 2 × Fin 2 × Fin 72) := none; let s : State := training false awake;
      (match s.boot.training with | some (_, full) => (decide (s.trainAborts = false) && decide (full = false) && decide (fail = none) && (match s.larder.dramTrain with | some _ => (true) | _ => false)) | _ => false)) = true ∧
    (let fail : Option (Fin 2 × Fin 2 × Fin 72) := some (0, 0, 0); let s : State := training false awake;
      (match s.boot.training with | some (_, full) => (decide (s.trainAborts = false) && decide (full = false) && decide ((fail ≠ none ∨ s.larder.dramTrain = none))) | _ => false)) = true ∧
    (let fail : Option (Fin 2 × Fin 2 × Fin 72) := none; let s : State := training true awake;
      (match s.boot.training with | some (_, full) => (decide (s.trainAborts = false) && decide (full = true) && decide (fail = none)) | _ => false)) = true ∧
    (let fail : Option (Fin 2 × Fin 2 × Fin 72) := some (1, 1, 71); let s : State := training true awake;
      (match s.boot.training with | some (_, full) => (decide (s.trainAborts = false) && decide (full = true) && (match fail with | some _ => (true) | _ => false)) | _ => false)) = true ∧
    (let fails : List FailingBit := []; let s : State := testing 0 awake;
      (match s.fw.long with | some op => (decide (s.boot.bist.running = true) && decide (op.code ≠ 0x098) && (let s1 := (s.pass (20 * ms)).slice fails; let b := s1.boot.bist; decide (b.usedMs + 20 ≤ b.budgetMs) && decide (op.abort = false))) | _ => false)) = true ∧
    (let fails : List FailingBit := []; let s : State := testing 40 awake;
      (match s.fw.long with | some op => (decide (s.boot.bist.running = true) && decide (op.code ≠ 0x098) && (let s1 := (s.pass (20 * ms)).slice fails; let b := s1.boot.bist; decide ((b.budgetMs < b.usedMs + 20 ∨ op.abort = true)))) | _ => false)) = true ∧
    (let s : State := { busyWith 0x098 awake with fw := { (busyWith 0x098 awake).fw with optical := .draining } };
      (match s.fw.long with | some op => (decide (op.code = 0x098) && decide (s.fw.optical = .draining)) | _ => false)) = true ∧
    (let s : State := awake; decide (s.fw.optical ≠ .draining)) = true ∧
    (let s : State := writing 0xFE [1, 2] awake;
      (match s.porch.flashWrite with | some (a, bs) => ((match s.fw.long with | some op => (decide (op.code = 0x088) && decide (op.abort = false) && (let rest := bs.drop (pageRoom a); decide (rest = []))) | _ => false)) | _ => false)) = true ∧
    (let s : State := writing 0xFF [1, 2] awake;
      (match s.porch.flashWrite with | some (a, bs) => ((match s.fw.long with | some op => (decide (op.code = 0x088) && decide (op.abort = false) && (let rest := bs.drop (pageRoom a); decide (rest ≠ []))) | _ => false)) | _ => false)) = true ∧
    (let s : State := awake; decide (s.porch.flashWrite = none)) = true := by
  decide +kernel

theorem witness_LaunchesAndSurveyWindows :
    (let leg : Fin 2 := 0; let s : State := watching; let k : Nat := 0; let j : Nat := 0;
      decide (s.upcoming leg.val = some (0, 0, 0)) && decide (s.power.front = true) && decide (s.launchTurn leg.val k j = true) && (let s0 := if j = 0 then s.replaySwitch leg.val (s.globalFrame k) else s; decide (s0.replaying leg.val = false))) = true ∧
    (let leg : Fin 2 := 0; let j : Nat := 6; let s : State := watching; decide (j + 1 < (s.legBank leg.val).count)) = true ∧
    (let leg : Fin 2 := 1; let j : Nat := 0; let s : State := awake; decide ((s.legBank leg.val).count ≤ j + 1)) = true ∧
    (let leg : Fin 2 := 0; let s : State := { watching with fw := { watching.fw with mode := modeSurvey, survey := #v[{ on := true, traces := 2048 }, {}] } };
      decide (s.fw.mode = modeSurvey) && decide (s.legOn leg.val = true) && decide ((vget s.fw.survey leg.val {}).complete = false) && decide (surveyTraces ≤ (vget s.fw.survey leg.val {}).traces)) = true ∧
    (let v : SurveyLeg := { gain := 3, traces := 2047 }; let q : HallPoint := { z := ⟨0, 0⟩, power := 0, marks := 4, bars := false, firstClean := true, affected := false, saturated := false }; let own := (([q].drop (1024 * v.windows)).take 1024);
      decide (v.complete = false) && decide (v.traces < surveyTraces) && own.all (fun p => !nbit p.marks reGainStep) && own.any (fun p => nbit p.marks reOverload) && decide (0 < v.gain)) = true ∧
    (let v : SurveyLeg := { gain := 3, traces := 2047 }; let q : HallPoint := { z := ⟨0, 0⟩, power := 0, marks := 0, bars := false, firstClean := true, affected := false, saturated := false }; let own := (([q].drop (1024 * v.windows)).take 1024);
      decide (v.complete = false) && decide (v.traces < surveyTraces) && own.all (fun p => !nbit p.marks reGainStep) && own.all (fun p => !nbit p.marks reOverload)) = true := by
  decide +kernel

theorem witness_PlansBeginAndEnd :
    (let s : State := { watching with probe := { watching.probe with pending := some { aPlan with atFrame := some 0 } } };
      (match s.probe.pending with | some q => ((match q.atFrame with | some k => (decide (s.probe.running = true) && decide (q.mode ≠ 0) && decide (s.legsReached k = true)) | _ => false)) | _ => false)) = true ∧
    (let s : State := { awake with fw := { awake.fw with optical := .fadeIn }, probe := { awake.probe with pending := some aPlan } };
      (match s.probe.pending with | some q => (decide (s.fw.optical = .fadeIn) && decide (s.hearth.fading = false) && decide (s.safe = false) && decide (q.mode ≠ modeSurvey)) | _ => false)) = true ∧
    (let s : State := { awake with fw := { awake.fw with optical := .fadeIn }, probe := { awake.probe with pending := some { aPlan with mode := modeSurvey } } };
      (match s.probe.pending with | some q => (decide (s.fw.optical = .fadeIn) && decide (s.hearth.fading = false) && decide (s.safe = false) && decide (q.mode = modeSurvey)) | _ => false)) = true ∧
    (let s : State := { awake with fw := { awake.fw with journal := some aPlan }, boot := { awake.boot with restartPlan := true } };
      (match s.fw.journal with | some _ => (decide (s.boot.restartPlan = true) && decide (s.boot.phase = .ready) && decide (s.safe = false) && decide (s.power.front = true)) | _ => false)) = true ∧
    (let s : State := { awake with fw := { awake.fw with optical := .tecWait } }; decide (s.fw.optical = .tecWait)) = true ∧
    (let s : State := { awake with fw := { awake.fw with optical := .fadeOut } };
      decide (s.fw.optical = .fadeOut) && decide (s.restWaits = false) && decide (s.shuttingDown = false) && decide (s.runsCalibrate = false) && decide (s.probe.pending = none)) = true ∧
    (let leg := (0 : Nat); decide (leg < 2)) = true ∧
    (let q : PendingPlan := tablePlan; let leg := 0; let slot := 0;
      decide (leg < 2) && decide (slot < 8) && decide ((q.bank.legBank leg).isTable slot = true)) = true ∧
    (let s : State := { awake with fw := { awake.fw with optical := .fadeOut }, probe := { awake.probe with pending := some aPlan } };
      decide (s.fw.optical = .fadeOut) && decide (s.restWaits = false) && decide (s.shuttingDown = false) && decide (s.runsCalibrate = false) && decide (s.probe.pending.isSome = true)) = true ∧
    (let s : State := watching; decide (s.probe.running = true)) = true := by
  decide +kernel

theorem witness_StampedChangesApply :
    (let k : Nat := 0; let s : State := changing cZoneSet 0 5 watching;
      (match s.fw.stamped[k]? with | some p => ((match p.frame with | some f => (decide (s.isleFrame p < f)) | _ => false)) | _ => false)) = true ∧
    (let k : Nat := 0; let s : State := changing cZoneEnable 0 0 watching;
      (match s.fw.stamped[k]? with | some p => ((match p.frame with | some f => (decide (s.probe.running = true) && decide (f ≤ s.isleFrame p) && decide (p.code ∈ [cZoneSet, cZoneParam, cZoneEnable])) | _ => false)) | _ => false)) = true ∧
    (let k : Nat := 0; let s : State := changing cFire 0 0 watching;
      (match s.fw.stamped[k]? with | some p => ((match p.frame with | some f => (decide (s.probe.running = true) && decide (f ≤ s.isleFrame p) && decide (p.code ∈ [cTrigSet, cArm, cDisarm, cFire])) | _ => false)) | _ => false)) = true ∧
    (let k : Nat := 0; let s : State := changing cStreamStart 0 0 watching;
      (match s.fw.stamped[k]? with | some p => ((match p.frame with | some f => (decide (s.probe.running = true) && decide (f ≤ s.isleFrame p) && decide (p.code = cStreamStart)) | _ => false)) | _ => false)) = true ∧
    (let k : Nat := 0; let s : State := changing cFrontSet 0 0 watching;
      (match s.fw.stamped[k]? with | some p => ((match p.frame with | some f => (decide (s.probe.running = true) && decide (f ≤ s.isleFrame p) && decide (p.code = cFrontSet) && decide ((s.legBank p.item).on = true)) | _ => false)) | _ => false)) = true ∧
    (let k : Nat := 0; let s : State := changing cChainSet 0 0 (chained 0 watching);
      (match s.fw.stamped[k]? with | some p => ((match p.frame with | some f => (decide (s.probe.running = true) && decide (f ≤ s.isleFrame p) && decide (p.code = cChainSet) && (match (s.chain p.item).input with | _ :: _ => (true) | _ => false)) | _ => false)) | _ => false)) = true ∧
    (let k : Nat := 0; let s : State := changing cChainReset 0 0 (chained 0 watching);
      (match s.fw.stamped[k]? with | some p => ((match p.frame with | some f => (decide (s.probe.running = true) && decide (f ≤ s.isleFrame p) && decide (p.code = cChainReset) && (match (s.chain p.leg).input with | _ :: _ => (true) | _ => false)) | _ => false)) | _ => false)) = true ∧
    (let k : Nat := 0; let s : State := changing cReplayStop 1 0 watching;
      (match s.fw.stamped[k]? with | some p => ((match p.frame with | some f => (decide (s.probe.running = true) && decide (f ≤ s.isleFrame p) && decide (p.code ∈ [cGainSet, cMapSet, cTempSet, cTempCal, cReplayStart, cReplayStop]) && decide ((s.legBank p.item).on = false)) | _ => false)) | _ => false)) = true := by
  decide +kernel

theorem witness_TracesAreProcessed :
    (let leg : Fin 2 := 0; let s : State := arrived watching;
      (match s.nextLaunch leg.val with | some l => (decide (s.power.front = true) && (match (s.hall leg.val).run l with | some _ => (true) | _ => false)) | _ => false)) = true ∧
    (let leg : Fin 2 := 0; let s : State := { watching with halls := { watching.halls with launches := [shortLaunch] } };
      (match s.nextLaunch leg.val with | some l => (decide ((s.hall leg.val).run l = none)) | _ => false)) = true ∧
    (let s : State := watching; let l : Launch := shortLaunch; decide (s.fw.mode ≠ modeSurvey) && decide (l.survey = false) && decide (l.leg < 2)) = true ∧
    (let leg : Fin 2 := 0; let s : State := chained 0 watching;
      (match (s.chain leg.val).input with | x :: _ => (decide (x.place = 0)) | _ => false)) = true ∧
    (let leg : Fin 2 := 0; let s : State := chained 1 watching;
      (match (s.chain leg.val).input with | x :: _ => (decide (x.place ≠ 0)) | _ => false)) = true ∧
    (let leg : Fin 2 := 0; let s : State := chained 1 watching;
      (match (s.chain leg.val).input with | x :: _ => (decide (s.power.front = true) && decide (s.chainTurn leg.val x = true)) | _ => false)) = true ∧
    (let leg : Fin 2 := 0; let s : State := { watching with halls := { watching.halls with leg := vset watching.halls.leg 0 { raman := { starting := some {} } } } };
      (match (s.raman leg.val).starting with | some _ => (true) | _ => false)) = true ∧
    (let leg : Fin 2 := 0; let s : State := { watching with halls := { watching.halls with leg := vset watching.halls.leg 0 { raman := { cfg := fset 2 F.RAMAN_CFG.ENABLE 1, span := 4, stat := fset 0 F.RAMAN_STAT.RUNNING 1, lastIndex := some 10000000, run := { index := some 0, tF := 160000 } } } } };
      decide (fbit (s.raman leg.val).stat F.RAMAN_STAT.RUNNING = true) && decide (fbit (s.raman leg.val).cfg F.RAMAN_CFG.ENABLE = true) && decide (s.frameArrived leg.val (s.raman leg.val).snapFrame = true)) = true ∧
    (let leg : Fin 2 := 1; let s : State := awake; decide (fbit (s.raman leg.val).cfg F.RAMAN_CFG.ENABLE = false) && decide ((s.raman leg.val).starting = none)) = true ∧
    (let leg : Nat := 0; let s : State := awake; decide (leg < 2) && decide ((s.raman leg).snapNext % 4 ≠ 3)) = true := by
  decide +kernel

theorem witness_WordsArePlacedByTag :
    (let leg : Fin 2 := 1; let tag : Fin 65536 := 65535; let s : State := lanesOn (some 65535) awake;
      decide (s.lanesLive leg.val = true) && (match (s.hall leg.val).nextIndex with | some m => (decide (tag.val = m % 65536)) | _ => false)) = true ∧
    (let leg : Fin 2 := 1; let tag : Fin 65536 := 0; let s : State := lanesOn (some 65535) awake;
      decide (s.lanesLive leg.val = true) && (match (s.hall leg.val).nextIndex with | some m => (decide (tag.val ≠ m % 65536)) | _ => false)) = true ∧
    (let leg : Fin 2 := 1; let s : State := lanesOn none awake;
      decide (s.lanesLive leg.val = true) && decide ((s.hall leg.val).nextIndex = none)) = true ∧
    (let leg : Fin 2 := 1; let s : State := awake; decide (s.lanesLive leg.val = false)) = true ∧
    (let leg : Nat := 0; decide (leg < 2)) = true ∧
    (let tag : Nat := 0; decide (tag < 65536)) = true ∧
    (let leg : Fin 2 := 1; let s : State := lanesOn none awake; decide (s.lanesLive leg.val = true)) = true ∧
    (let s : State := watching; let key : Traced × Nat × Nat := (.chainRow, 0, 7); decide (s.power.loft = true) && decide (s.halls.tags.find? (fun e => e.1 == key) = none)) = true ∧
    (let kind : Traced := .ringToken; let key : Traced × Nat × Nat := (kind, 1, 7); let s : State := { watching with halls := { watching.halls with tags := [(key, 65536, 3)] } };
      (match s.halls.tags.find? (fun e => e.1 == key) with | some _ => decide (lone kind = true) | none => false)) = true ∧
    (let kind : Traced := .fullRow; let leg : Fin 2 := 0; let slot : Fin 8 := 0; let tag : Fin 65536 := 1; let key : Traced × Nat × Nat := (kind, 0, 0); let s : State := { watching with halls := { watching.halls with tags := [(key, 1, 0)] } };
      (match s.halls.tags.find? (fun e => e.1 == key) with | some (_, m, j) => decide (lone kind = false) && decide (inSequence m j (extendNear (s.probe.nextTrace leg.val slot.val) tag.val) 1 = true) | none => false)) = true ∧
    (let kind : Traced := .fullRow; let leg : Fin 2 := 0; let slot : Fin 8 := 0; let tag : Fin 65536 := 0; let key : Traced × Nat × Nat := (kind, 0, 0); let s : State := { watching with halls := { watching.halls with tags := [(key, 1, 5)] } };
      (match s.halls.tags.find? (fun e => e.1 == key) with | some (_, m, j) => decide (lone kind = false) && decide (inSequence m j (extendNear (s.probe.nextTrace leg.val slot.val) tag.val) 5 = false) | none => false)) = true ∧
    (let cur : Nat := 40000; let tag : Nat := 65535; decide (tag < 65536) && decide (65536 ≤ extendTag (cur + 65536) tag)) = true := by
  decide +kernel

theorem witness_GainChangesAtItsIndex :
    (let s : State := awake; decide (s.power.front = true)) = true ∧
    (let leg : Fin 2 := 0; let s : State := gained { pending := some { index := 5, coh := some 7 } } watching;
      (match (s.thrLeg leg.val).pending with | some r => (decide (s.gainIndex r.index = r.index)) | _ => false)) = true ∧
    (let leg : Fin 2 := 0; let s : State := gained { pending := some { index := 5, coh := some 7 } } (trimmed { gap := some ⟨0, 0⟩ } watching);
      (match (s.thrLeg leg.val).pending with | some r => (decide (s.gainIndex r.index ≠ r.index)) | _ => false)) = true ∧
    (let leg : Fin 2 := 0; let s : State := gained { direct := some { index := 5, dir := some (3, 0) } } watching;
      (match (s.thrLeg leg.val).direct with | some r => (decide (s.gainIndex r.index = r.index) && decide (r.coh = none) && decide (r.dir = some (3, 0))) | _ => false)) = true ∧
    (let leg : Fin 2 := 0; let s : State := gained { direct := some { index := 5, dir := some (3, 0) } } (trimmed { gap := some ⟨0, 0⟩ } watching);
      (match (s.thrLeg leg.val).direct with | some r => (decide (s.gainIndex r.index ≠ r.index)) | _ => false)) = true ∧
    (let leg : Fin 2 := 0; let s : State := { watching with probe := { watching.probe with frame := #v[64, 0] } };
      decide (s.legOn leg.val = true) && decide (64 ≤ s.windowFrames leg.val)) = true := by
  decide +kernel

theorem witness_RetrimsRunInTheirGap :
    (let w : Word := fset 0 F.TRIM_CTRL.REQ 1; let s : State := awake;
      decide (fbit w F.TRIM_CTRL.REQ = true) && decide (s.power.front = true)) = true ∧
    (let w : Word := 0; decide (fbit w F.TRIM_CTRL.REQ = false)) = true ∧
    (let s : State := awake; decide (s.trim.seconds = 0)) = true ∧
    (let s : State := trimmed { defer := fset 0 F.TRIM_DEFER.SECONDS 600 } awake; decide (s.trim.seconds ≠ 0)) = true ∧
    (let s : State := trimmed { due := some 0 } watching; (match s.gapBoundary s.now with | some t => decide (s.gapMayStart t = true) | none => false)) = true ∧
    (let s : State := awake; decide (s.gapBoundary s.now = none)) = true ∧
    (let s : State := watching; (match s.gapBoundary s.now with | some t => decide (s.gapMayStart t = false) | none => false)) = true ∧
    (let e : Nat := 0; let s : State := { watching with probe := { watching.probe with pending := some { aPlan with atFrame := some 0 } } };
      (match s.probe.pending with | some p => decide (s.probe.running = true) && decide (p.atFrame = some e) && decide (p.mode ≠ 0) && decide (s.frameAhead s.now = s.globalFrame e) | none => false)) = true ∧
    (let s : State := trimmed { gap := some ⟨0, 0⟩ } watching;
      (match s.trim.gap with | some _ => (let k := 11; decide (k < 12)) | _ => false)) = true := by
  decide +kernel

theorem witness_SelfCalibrationAndSweep :
    (let s : State := calibrating 0 awake;
      (match s.thr.calUp with | some _ => (decide (fbit s.thr.stat F.THR_STAT.ADC_CAL_DONE = false)) | _ => false)) = true ∧
    (let s : State := calibrating (fset 0 F.THR_STAT.ADC_CAL_DONE 1) awake;
      (match s.thr.calUp with | some _ => (decide (fbit s.thr.stat F.THR_STAT.ADC_CAL_DONE = true) && decide (fbit s.thr.stat F.THR_STAT.HK_CAL_DONE = false)) | _ => false)) = true ∧
    (let s : State := busyWith 0x058 (calibrating (fset 0 F.THR_STAT.HK_CAL_DONE 1) awake);
      decide (s.runsCalibrate = true) && decide (fbit s.thr.stat F.THR_STAT.HK_CAL_DONE = true) && decide (s.abortCalibrate = none)) = true ∧
    (let codes : List (Fin 4096) := List.replicate (2 ^ fget (vget (sweeping awake).thr.hk.ent 23 0) F.HK_ENT.AVG) 0; let s : State := sweeping awake;
      decide (s.power.front = true) && decide (fbit s.thr.hk.cfg F.HK_CFG.ENABLE = true) && decide (s.thr.hk.next < 24) && decide (codes.length = 2 ^ fget (vget s.thr.hk.ent s.thr.hk.next 0) F.HK_ENT.AVG) && (let i := 23; decide (i < 24))) = true := by
  decide +kernel

theorem witness_CurrentsFadeAndAreJudged :
    (let s : State := awake; decide (s.power.hearth = true)) = true ∧
    (let ch : Fin 12 := 11; let s : State := awake; decide (s.power.hearth = true) && decide ((s.hearth.drive ch.val).drives = false)) = true ∧
    (let ch : Fin 12 := 11; let s : State := driven enabled awake;
      decide (s.power.hearth = true) && decide ((s.hearth.drive ch.val).drives = true)) = true ∧
    (let c : DriveChannel := enabled; let w : Word := 0x7FFFFFFF;
      decide (c.drives = true) && decide (nbit w.toNat 31 = false) && decide (fget c.cfg F.HD_CFG.FADE_MS ≠ 0)) = true ∧
    (let old : DriveChannel := {}; let c : DriveChannel := enabled;
      decide (fbit old.cfg F.HD_CFG.ENABLE = false) && decide (fbit c.cfg F.HD_CFG.ENABLE = true) && decide (fget c.cfg F.HD_CFG.FADE_MS ≠ 0)) = true ∧
    (let old : DriveChannel := enabled; let c : DriveChannel := {};
      decide (fbit old.cfg F.HD_CFG.ENABLE = true) && decide (fbit c.cfg F.HD_CFG.ENABLE = false)) = true ∧
    (let s : State := awake; decide (s.power.hearth = true) && (let ch := (0 : Nat); decide (ch < 12))) = true ∧
    (let f : Fade := ⟨0, 100, 0, 50⟩; let t : Nat := 0;
      decide (f.from_ < 65536) && decide (f.to_ < 65536) && decide (0 < f.total) && decide (t ≤ f.total)) = true ∧
    (let c : DriveChannel := { fade := some ⟨0, 65535, 0, 1⟩ };
      (match c.fade with | some f => (decide (f.to_ < 65536) && decide (f.total ≤ f.elapsed + 1)) | _ => false)) = true ∧
    (let c : DriveChannel := {}; let q : Nat := 0; decide ((q ≤ c.openRun ∨ q ≤ c.shortRun)) && decide (q ≤ c.openRun)) = true ∧
    (let c : DriveChannel := {}; let q : Nat := 0; decide ((q ≤ c.openRun ∨ q ≤ c.shortRun)) && decide (q ≤ c.shortRun)) = true ∧
    (let c : DriveChannel := {}; let q : Nat := 1; decide (c.openRun < q) && decide (c.shortRun < q)) = true ∧
    (let n : Fin 4 := 3; let s : State := driven pulsed awake; let c := s.hearth.hs[n];
      decide (s.power.hearth = true) && decide (c.drives = true) && decide (fbit c.cfg F.HD_CFG.PWM = true) && decide (fbit c.cfg F.HD_CFG.DET_EN = true) && decide (16 ≤ c.pwmOn.toNat)) = true ∧
    (let n : Fin 4 := 3; let s : State := awake;
      decide (fbit (s.hearth.hs[n]).cfg F.HD_CFG.PWM = false ∨ (s.hearth.hs[n]).pwmOn.toNat < 16)) = true ∧
    (let s : State := awake; decide (s.power.hearth = true) && decide (s.setpointsWait = false)) = true ∧
    (let s : State := watching; decide (s.power.hearth = true) && decide (s.setpointsWait = true)) = true ∧
    (let x : SetWait := ⟨0, 0, 1⟩; let s : State := { watching with hearth := { watching.hearth with waits := [⟨0, 0, 1⟩] } };
      decide (s.hearth.waits.filter (fun y => decide (s.boundaryAhead y.frame ≤ s.now)) = [x]) && decide (x.ch < 12) && (let ch := (11 : Nat); decide (ch < 12) && decide (ch ≠ x.ch))) = true ∧
    (let ch : Nat := 11; let w : Word := 0; let s : State := awake; decide (ch < 12) && decide ((s.hearth.drive ch).refuses (ch < 8) w = true)) = true := by
  decide +kernel

theorem witness_InterlockAndChainPort :
    (let s : State := awake; decide (s.fw.optical = .idle)) = true ∧
    (let s : State := { awake with fw := { awake.fw with optical := .fadeIn } }; decide (s.fw.optical = .fadeIn)) = true ∧
    (let h : Hearth := awake.hearth; let ch := (0 : Nat); decide (ch < 12) && decide (fbit (h.drive ch).cfg F.HD_CFG.KILL = true)) = true ∧
    (let h : Hearth := { awake.hearth with hd := vset awake.hearth.hd 0 { cfg := 0 } }; let ch := 0;
      decide (ch < 12) && decide (fbit (h.drive ch).cfg F.HD_CFG.KILL = false)) = true ∧
    (let g := (0 : Nat); decide (g < 2)) = true ∧
    (let s : State := awake; decide (s.power.hearth = true)) = true ∧
    (let c : ChainPort := chainPort 0 0 0;
      decide (fbit c.cfg F.HCHAIN_CFG.ENABLE = true) && decide (fbit c.stat F.HCHAIN_STAT.BUSY = false)) = true ∧
    (let c : ChainPort := chainPort 1 1 0;
      decide (fbit c.cfg F.HCHAIN_CFG.ENABLE = true) && decide (fbit c.stat F.HCHAIN_STAT.BUSY = true)) = true ∧
    (let din : List Word := []; let s : State := shifting 1 0 1 awake;
      decide (s.power.hearth = true) && decide (fbit s.hearth.chain.stat F.HCHAIN_STAT.BUSY = true) && (let c := s.hearth.chain; decide ((fbit c.cfg F.HCHAIN_CFG.VERIFY = false ∨ (List.range c.length).all (fun i => wat din i == vget c.data i 0) = true)) && (let i := 0; decide (i < c.length)))) = true ∧
    (let din : List Word := [1]; let s : State := shifting 1 0 1 awake;
      decide (s.power.hearth = true) && decide (fbit s.hearth.chain.stat F.HCHAIN_STAT.BUSY = true) && (let c := s.hearth.chain; decide (¬ (fbit c.cfg F.HCHAIN_CFG.VERIFY = false ∨ (List.range c.length).all (fun i => wat din i == vget c.data i 0) = true)))) = true ∧
    (let s : State := shifting 1 0 1 awake;
      decide (s.power.hearth = true) && decide (fbit s.hearth.chain.stat F.HCHAIN_STAT.BUSY = true) && (let c := s.hearth.chain; let i := 0; decide (i < c.length))) = true ∧
    (let s : State := shifting 1 0 1 awake;
      decide (s.power.hearth = true) && decide (fbit s.hearth.chain.stat F.HCHAIN_STAT.BUSY = true) && (let c := s.hearth.chain; decide (fbit c.stat F.HCHAIN_STAT.PENDING = false))) = true ∧
    (let s : State := shifting 1 1 1 awake;
      decide (s.power.hearth = true) && decide (fbit s.hearth.chain.stat F.HCHAIN_STAT.BUSY = true) && (let c := s.hearth.chain; decide (fbit c.stat F.HCHAIN_STAT.PENDING = true))) = true ∧
    (let s : State := { awake with fc := { awake.fc with stat := fset awake.fc.stat F.FC_STAT.SAFE 1 } }; decide (s.power.hearth = true) && decide (s.safe = true)) = true ∧
    (let s : State := awake; decide (s.power.hearth = true) && decide (s.safe = false)) = true ∧
    (let din : List Word := []; let s : State := shifting 1 0 0 { awake with fc := { awake.fc with stat := fset awake.fc.stat F.FC_STAT.SAFE 1 } };
      decide (s.power.hearth = true) && decide (fbit s.hearth.chain.stat F.HCHAIN_STAT.BUSY = true) && (let c := s.hearth.chain; decide (fbit c.cfg F.HCHAIN_CFG.VERIFY = false) && decide (s.safe = true) && decide (din = []))) = true := by
  decide +kernel

theorem witness_TecLoopRegulates :
    (let t : Fin 2 := 1; let s : State := cooling cooler 0 awake; let l := s.hearth.tec[t]; let sel := fget l.cfg F.TEC_CFG.HK_SEL; let r := vget s.thr.hk.res sel 0; let sw := fget r F.HK_RES.SWEEP; let l1 : TecLoop := { l with sweep := sw, staleMs := if sw = l.sweep then l.staleMs + 1 else 0 };
      decide (s.power.hearth = true) && decide (fbit l.cfg F.TEC_CFG.ENABLE = true) && decide (s.safe = false) && decide (s.hearth.tecOn = true) && decide (s.tecSensorBad sel l1.staleMs = true)) = true ∧
    (let t : Fin 2 := 1; let s : State := cooling cooler (fset 0 F.HK_RES.VALID 1) awake; let l := s.hearth.tec[t]; let sel := fget l.cfg F.TEC_CFG.HK_SEL; let r := vget s.thr.hk.res sel 0; let sw := fget r F.HK_RES.SWEEP; let l1 : TecLoop := { l with sweep := sw, staleMs := if sw = l.sweep then l.staleMs + 1 else 0 };
      decide (s.power.hearth = true) && decide (fbit l.cfg F.TEC_CFG.ENABLE = true) && decide (s.safe = false) && decide (s.hearth.tecOn = true) && decide (s.tecSensorBad sel l1.staleMs = false) && decide (l.faulted = false) && decide ((vget s.hearth.tec (1 - t.val) {}).bad = false)) = true ∧
    (let l : TecLoop := {}; let code : Nat := fget ({} : TecLoop).tgt F.TEC_TGT.TARGET; let e0 : Int := (fget l.tgt F.TEC_TGT.TARGET : Int) - code; let e := if fbit l.cfg F.TEC_CFG.SIGN then -e0 else e0; let x := nbits l.gains.toNat 0 16 * e + nbits l.gains.toNat 16 16 * (l.update code).acc;
      decide (x.natAbs < 256 * fget l.cfg F.TEC_CFG.DUTY_MAX)) = true ∧
    (let l : TecLoop := {}; let code : Nat := 0; let e0 : Int := (fget l.tgt F.TEC_TGT.TARGET : Int) - code; let e := if fbit l.cfg F.TEC_CFG.SIGN then -e0 else e0;
      decide (fget l.tgt F.TEC_TGT.BAND < e.natAbs)) = true ∧
    (let l : TecLoop := { settledMs := 1999 }; let code : Nat := fget ({} : TecLoop).tgt F.TEC_TGT.TARGET; let e0 : Int := (fget l.tgt F.TEC_TGT.TARGET : Int) - code; let e := if fbit l.cfg F.TEC_CFG.SIGN then -e0 else e0;
      decide (e.natAbs ≤ fget l.tgt F.TEC_TGT.BAND) && decide (1999 ≤ l.settledMs)) = true ∧
    (let t : Fin 2 := 1; let s : State := cooling { cooler with stat := fset 0 F.TEC_STAT.DUTY (fget cooler.cfg F.TEC_CFG.DUTY_MAX) } 0 awake; let l := s.hearth.tec[t];
      decide (s.power.hearth = true) && decide (fbit l.cfg F.TEC_CFG.ENABLE = true) && decide (l.duty.natAbs = fget l.cfg F.TEC_CFG.DUTY_MAX)) = true := by
  decide +kernel

theorem witness_TachAndTiuMeasure :
    (let k : Fin 8 := 7; let held : Nat := 0; let s : State := awake;
      decide (s.power.front = true) && decide (held ≤ fget (s.tachOf ((s.quadOf k.val).getD k.val)).cfg F.TACH_CFG.FILT)) = true ∧
    (let k : Fin 8 := 7; let level : Bool := true; let held : Nat := 1000000; let s : State := awake;
      decide (s.power.front = true) && decide (s.quadOf k.val = none) && decide ((s.tachOf k.val).level ≠ level) && decide (fget (s.tachOf k.val).cfg F.TACH_CFG.FILT < held)) = true ∧
    (let k : Fin 8 := 7; let level : Bool := true; let held : Nat := 1000000; let s : State := oneTach 6 quadTach awake;
      decide (s.power.front = true) && (match s.quadOf k.val with | some e => (decide ((s.tachOf k.val).level ≠ level) && decide (fget (s.tachOf e).cfg F.TACH_CFG.FILT < held) && decide (fbit (s.tachOf e).cfg F.TACH_CFG.ENABLE = true)) | _ => false)) = true ∧
    (let t : Nat := 1; let keep : Nat := 0; decide (keep < t)) = true ∧
    (let th : Tach := { trail := [(10, true, 6), (5, true, 5)] }; let t : Nat := 12;
      (match th.trail with | (e1, true, c) :: (e0, true, _) :: _ => (decide (e0 < e1) && decide (e1 ≤ t) && decide (c < 2 ^ 48)) | _ => false)) = true ∧
    (let k : Fin 8 := 7; let s : State := oneTach 7 { cfg := 0x00019001 } awake;
      decide (s.power.front = true) && decide (fbit (s.tachOf k.val).cfg F.TACH_CFG.ENABLE = true)) = true ∧
    (let s : State := awake; decide (s.power.front = true)) = true ∧
    (let one : List Int := [0]; let two : List Int := [999]; let s : State := interval .idle 0 awake;
      decide (fbit s.tiu.cfg F.TIU_CFG.ENABLE = true) && decide (s.tiu.phase = .idle) && decide ((tiuMean two - tiuMean one < 1000 ∨ 1600 < tiuMean two - tiuMean one))) = true ∧
    (let one : List Int := [0]; let two : List Int := [1600]; let s : State := interval .idle 0 awake;
      decide (fbit s.tiu.cfg F.TIU_CFG.ENABLE = true) && decide (s.tiu.phase = .idle) && decide (1000 ≤ tiuMean two - tiuMean one) && decide (tiuMean two - tiuMean one ≤ 1600)) = true ∧
    (let s : State := awake; decide (fbit s.tiu.cfg F.TIU_CFG.ENABLE = false ∨ s.tiu.phase ≠ .idle)) = true ∧
    (let s : State := interval .armed 0 awake;
      decide (s.tiu.phase = .armed) && decide (s.tiuSourceLive (fget s.tiu.cfg F.TIU_CFG.START) = true)) = true ∧
    (let j : Fin 8 := 0; let count : Nat := 1; let code : Int := 0; let s : State := interval .running 0 awake;
      decide (s.tiu.phase = .running) && decide (j.val < s.tiu.stops) && decide (nbit (fget s.tiu.stat F.TIU_STAT.SEEN) j.val = false) && decide (s.tiuSourceLive (nbits s.tiu.stopSel.toNat (4 * j.val) 4) = true) && (let r : Int := ((count : Int) - s.tiu.startCount) * 2560 + s.tiu.tau s.tiu.startCode - s.tiu.tau code; decide (0 ≤ r) && decide (r < 2 ^ 32) && decide (¬ (r = 0 ∧ nbits s.tiu.stopSel.toNat (4 * j.val) 4 = fget s.tiu.cfg F.TIU_CFG.START)) && (let i := 7; decide (i ≠ j.val)))) = true ∧
    (let j : Fin 8 := 0; let count : Nat := 0; let code : Int := 0; let s : State := interval .running 1 awake;
      decide (s.tiu.phase = .running) && decide (j.val < s.tiu.stops) && decide (nbit (fget s.tiu.stat F.TIU_STAT.SEEN) j.val = false) && decide (s.tiuSourceLive (nbits s.tiu.stopSel.toNat (4 * j.val) 4) = true) && (let r : Int := ((count : Int) - s.tiu.startCount) * 2560 + s.tiu.tau s.tiu.startCode - s.tiu.tau code; decide ((r < 0 ∨ 2 ^ 32 ≤ r)))) = true ∧
    (let j : Fin 8 := 0; let count : Nat := 0; let code : Int := 0; let s : State := interval .running 0 awake;
      decide (s.tiu.phase = .running) && decide (j.val < s.tiu.stops) && (let r : Int := ((count : Int) - s.tiu.startCount) * 2560 + s.tiu.tau s.tiu.startCode - s.tiu.tau code; decide (r = 0 ∧ nbits s.tiu.stopSel.toNat (4 * j.val) 4 = fget s.tiu.cfg F.TIU_CFG.START))) = true ∧
    (let s : State := interval .running 0 awake; decide (s.tiu.phase = .running)) = true ∧
    (let s : State := interval .armed 0 awake; decide (s.tiu.phase = .armed)) = true := by
  decide +kernel

/-- The time base has source `src`, TIME_STAT `w` and ENABLE. -/
def timed (src : Nat) (w : Word) : State := { awake with time := { awake.time with cfg := fset (fset 0x000E1000 F.TB_CFG.ENABLE 1) F.TB_CFG.SRC src, timeStat := w } }
def aClock : PtpClock := ⟨128, 6, 0, 0, 128, 1, 0⟩
def aMessage (b : PtpBody) : PtpMessage := { port := 0, domain := 0, source := 9, seq := 65535, correction := 0, sfd := 7, body := b }
/-- Ethernet port 0 is enabled and its link is up; the PTP port is p. -/
def ptpOn (p : PtpPort) : State := { awake with
  time := { awake.time with ptp := p }
  porch := { awake.porch with eth := { awake.porch.eth with port := vset awake.porch.eth.port 0 { cfg := 0x8D000109, stat := fset 0 F.ETH_STAT.LINK 1 } } } }
/-- The message reaches the port, is supported and of its domain. -/
def ptpTaken (m : PtpMessage) (s : State) : Bool :=
  decide (m.port.val = s.time.ptp.port) && fbit (s.ethPort m.port.val).cfg F.ETH_CFG.ENABLE && fbit (s.ethPort m.port.val).stat F.ETH_STAT.LINK &&
    !s.time.ptp.unsupported m && decide (m.domain.val = s.time.ptp.domain)

theorem witness_TimeFollowsItsReferences :
    (let stamp : Nat := 4001; let u : State := (timed 2 (fset 0 F.TIME_STAT.LOCKED 1)).untilTime stamp; let edges := (stamp :: u.time.ppsEdges).take 3;
      decide (u.usesPps = true) && decide (fbit u.time.timeStat F.TIME_STAT.LOCKED = true) && decide (4000 < (secondError stamp).natAbs) && decide (edgesAgree edges = false)) = true ∧
    (let stamp : Nat := 4000; let u : State := (timed 2 (fset 0 F.TIME_STAT.LOCKED 1)).untilTime stamp;
      decide (u.usesPps = true) && decide (fbit u.time.timeStat F.TIME_STAT.LOCKED = true) && decide ((secondError stamp).natAbs ≤ 4000)) = true ∧
    (let s : State := { awake with time := { awake.time with timeStat := fset 0 F.TIME_STAT.PPS_PRESENT 1 } };
      decide (fbit s.time.timeStat F.TIME_STAT.PPS_PRESENT = true)) = true ∧
    (let ppb : Int := 0; decide (ppb.natAbs ≤ 20000)) = true ∧
    (let ppb : Int := 20001; decide (20000 < ppb.natAbs)) = true ∧
    (let s : State := awake; decide (s.time.holdUp = none)) = true ∧
    (let s : State := { awake with time := { awake.time with holdUp := some 0 } };
      (match s.time.holdUp with | some _ => (true) | _ => false)) = true ∧
    (let s : State := { awake with time := { awake.time with cfg := fset (fset 0x000E1000 F.TB_CFG.ENABLE 1) F.TB_CFG.SRC 2 } };
      decide (fbit s.time.cfg F.TB_CFG.ENABLE = true) && decide (s.srcInUse ≠ 0) && decide (s.srcInUse ≠ 7) && decide (s.time.holdUp = none) && decide (s.time.freqEst.natAbs ≤ ppm50.natAbs)) = true ∧
    (let s : State := watching; decide (s.planRuns = true)) = true ∧
    (let s : State := awake; decide (s.planRuns = false)) = true ∧
    (let s : State := awake; decide (s.now + sec < 2 ^ 64)) = true ∧
    (let s : State := timed 2 0; decide (fbit s.time.cfg F.TB_CFG.ENABLE = true) && decide (s.time.holdUp = none) && decide (s.time.freqLog = [])) = true ∧
    (let s : State := { awake with time := { awake.time with cfg := 0x000E1000, freqLog := [(0, 5)] } }; decide (fbit s.time.cfg F.TB_CFG.ENABLE = false) && decide (s.time.holdUp = none) && decide (s.time.freqLog ≠ [])) = true ∧
    (let s : State := timed 2 0; decide (s.srcInUse = 2)) = true ∧
    (let m : PtpMessage := aMessage .unsupported; let s : State := awake; decide (¬ fbit (s.ethPort m.port.val).stat F.ETH_STAT.LINK = true)) = true ∧
    (let m : PtpMessage := aMessage .unsupported; let s : State := ptpOn {}; decide (m.port.val = s.time.ptp.port) && fbit (s.ethPort m.port.val).cfg F.ETH_CFG.ENABLE && fbit (s.ethPort m.port.val).stat F.ETH_STAT.LINK && s.time.ptp.unsupported m) = true ∧
    (let m : PtpMessage := { aMessage .delayReq with domain := 127 }; let s : State := ptpOn {}; decide (m.port.val = s.time.ptp.port) && fbit (s.ethPort m.port.val).cfg F.ETH_CFG.ENABLE && fbit (s.ethPort m.port.val).stat F.ETH_STAT.LINK && !s.time.ptp.unsupported m && decide (m.domain.val ≠ s.time.ptp.domain)) = true ∧
    (let m : PtpMessage := aMessage (.announce aClock 37); let s : State := ptpOn {}; ptpTaken m s && decide (s.time.ptp.heard = []) && decide (s.time.ptp.master = none)) = true ∧
    (let m : PtpMessage := aMessage (.announce aClock 37); let s : State := ptpOn { heard := [(9, awake.time.up)] }; ptpTaken m s && (let x := (9, awake.time.up); decide (x ∈ s.time.ptp.heard) && decide (x.1 = m.source) && decide ((s.untilTime m.sfd).time.up ≤ x.2 + 4 * ptpInterval s.time.ptp.logAnnounce)) && decide (s.time.ptp.master = none) && decide (aClock.steps < 255) && decide (s.time.ptp.role = 0)) = true ∧
    (let m : PtpMessage := aMessage (.announce { aClock with priority1 := 255 } 37); let s : State := ptpOn { master := some (8, aClock) }; ptpTaken m s && decide (8 ≠ m.source) && decide (clockBefore { aClock with priority1 := 255 } aClock = false)) = true ∧
    (let m : PtpMessage := aMessage (.sync false 5); let s : State := ptpOn { master := some (9, aClock) }; ptpTaken m s && decide (9 = m.source)) = true ∧
    (let m : PtpMessage := aMessage (.sync true 5); let s : State := ptpOn {}; ptpTaken m s && decide (s.time.ptp.master = none)) = true ∧
    (let m : PtpMessage := aMessage (.followUp 5); let s : State := ptpOn { master := some (9, aClock), begun := some (65535, 3) }; ptpTaken m s && decide (9 = m.source) && decide (s.time.ptp.begun = some (m.seq.val, 3))) = true ∧
    (let m : PtpMessage := aMessage .managementGet; let s : State := ptpOn {}; ptpTaken m s) = true ∧
    (let s : State := ptpOn { delay := some 7 }; decide (s.time.ptp.delay = some 7)) = true := by
  decide +kernel

theorem witness_MailboxQueues :
    (let s : State := awake; decide (s.mbAvailable = false)) = true ∧
    (let p : Path := .pcie; let c : Fin 8 := 7; let s : State := opened awake;
      decide (s.mbAvailable = true) && decide (s.carrierAllowed p c.val = false)) = true ∧
    (let p : Path := .debug; let c : Fin 8 := 7; let s : State := opened awake;
      decide (s.mbAvailable = true) && decide (s.carrierAllowed p c.val = true)) = true ∧
    (let p : Path := .debug; let c : Fin 8 := 7; let n : Fin 17 := 0; let m : Fin 17 := 16; let s : State := opened awake;
      decide (s.mbAvailable = true) && decide (s.carrierAllowed p c.val = true) && decide ((s.chan c.val).outq.length < min m.val (16 - n.val))) = true ∧
    (let p : Path := .debug; let c : Fin 8 := 7; let s : State := opened awake;
      decide (s.mbAvailable = true) && decide (s.carrierAllowed p c.val = true) && (let d := 0; decide (d ≠ c.val))) = true ∧
    (let c : Nat := 7; let s : State := pushed 7 [headerWord 0 0 0 7 0x001] awake; decide (c < 8) && decide ((s.chan c).inFull = true)) = true ∧
    (let c : Nat := 0; let w : Word := 0; let s : State := awake;
      decide (c < 8) && decide ((s.chan c).inFull = false) && decide (((s.pushWord c w).chan c).inFull = true)) = true ∧
    (let c : Nat := 7; let w : Word := 1; let s : State := awake;
      decide (c < 8) && decide ((s.chan c).inFull = false) && decide (((s.pushWord c w).chan c).inFull = false)) = true ∧
    (let c : Nat := 7; decide (c < 8) && (let d := 0; decide (d ≠ c))) = true ∧
    (let c : Fin 8 := 7; let s : State := { awake with mb := { awake.mb with chan := vset awake.mb.chan 7 { stallUp := some 0 } } };
      (match (s.chan c.val).stallUp with | some _ => (true) | _ => false)) = true ∧
    (let s : State := opened awake;
      decide (s.mbAvailable = true) && decide (s.inRest = true) && decide (s.mb.quiet = true) && decide (s.boot.phase = .ready)) = true ∧
    (let s : State := awake; decide (s.mbAvailable = false ∨ s.inRest = false ∨ s.mb.quiet = false)) = true ∧
    (let w : Word := 1; let s : State := { awake with mb := { awake.mb with avail := fset 0 F.MB_AVAIL.STATE 2 } };
      decide (w &&& 0x07FFFFFF ≠ 0)) = true := by
  decide +kernel

theorem witness_DoorbellsSendTheirMessages :
    (let b : Nat := 0; let s : State := awake;
      decide (b < 32) && decide ((nbit s.mb.dbD2h.toNat b = true ∨ nbit s.mb.dbMask.toNat b = true))) = true ∧
    (let b : Nat := 31; let s : State := { awake with mb := { awake.mb with dbMask := 0 } };
      decide (b < 32) && decide (nbit s.mb.dbD2h.toNat b = false) && decide (nbit s.mb.dbMask.toNat b = false)) = true ∧
    (let v : Nat := 31; let s : State := { awake with host := { awake.host with hintCfg := fset 0 F.HINT_CFG.HOLDOFF_US 100 }, msix := { awake.msix with lastUp := [(31, 0)], owed := [31] }, time := { awake.time with up := 0 } };
      decide (v < 32) && decide (fbit s.host.hintCfg F.HINT_CFG.ENABLE = false)) = true ∧
    (let v : Nat := 0; let s : State := awake;
      decide (v < 32) && decide (fbit s.host.hintCfg F.HINT_CFG.ENABLE = true) && decide (s.msix.lastUp.find? (fun p => p.1 == v) = none)) = true ∧
    (let v : Nat := 31; let s : State := { awake with host := { awake.host with hintCfg := fset 1 F.HINT_CFG.HOLDOFF_US 100 }, msix := { awake.msix with lastUp := [(31, 0)], owed := [31] }, time := { awake.time with up := 100 * us } };
      decide (v < 32) && decide (fbit s.host.hintCfg F.HINT_CFG.ENABLE = true) && (let p := ((31, 0) : Nat × Nat); decide (s.msix.lastUp.find? (fun p => p.1 == v) = some p) && decide (p.2 + s.holdoff ≤ s.time.up))) = true ∧
    (let v : Nat := 31; let s : State := { awake with host := { awake.host with hintCfg := fset 1 F.HINT_CFG.HOLDOFF_US 100 }, msix := { awake.msix with lastUp := [(31, 0)], owed := [31] }, time := { awake.time with up := 0 } };
      decide (v < 32) && decide (fbit s.host.hintCfg F.HINT_CFG.ENABLE = true) && (let p := ((31, 0) : Nat × Nat); decide (s.msix.lastUp.find? (fun p => p.1 == v) = some p) && decide (s.time.up < p.2 + s.holdoff))) = true ∧
    (let v : Nat := 31; let s : State := { awake with msix := { awake.msix with tableMask := 0x80000000 } };
      decide (v < 32) && decide (nbit s.msix.tableMask.toNat v = true)) = true ∧
    (let v : Nat := 0; let s : State := awake; decide (v < 32) && decide (nbit s.msix.tableMask.toNat v = false)) = true ∧
    (let v : Fin 32 := 31; let s : State := { awake with host := { awake.host with hintCfg := fset 1 F.HINT_CFG.HOLDOFF_US 100 }, msix := { awake.msix with lastUp := [(31, 0)], owed := [31] }, time := { awake.time with up := 0 } };
      decide (s.msix.owed.contains v.val = true)) = true ∧
    (let s : State := { awake with host := { awake.host with hintCfg := fset 0 F.HINT_CFG.HOLDOFF_US 100 }, msix := { awake.msix with lastUp := [(31, 0)], owed := [31] }, time := { awake.time with up := 0 } };
      decide (fbit s.host.hintCfg F.HINT_CFG.ENABLE = false)) = true := by
  decide +kernel

theorem witness_LocksExclude :
    (let k : Fin 32 := 31; let a : LockAccess := { path := .pcie, secure := false }; let s : State := awake;
      decide (s.lockRefused a = false) && decide (s.lockOwner k.val = 0)) = true ∧
    (let k : Fin 32 := 31; let a : LockAccess := { path := .pcie, secure := false }; let s : State := awake.setLock 31 1;
      decide (s.lockRefused a = false) && decide (s.lockOwner k.val ≠ 0)) = true ∧
    (let k : Fin 32 := 31; let a : LockAccess := { path := .pcie, secure := false }; let s : State := awake;
      decide (s.lockRefused a = false) && (let j := (0 : Nat); decide (j ≠ k.val))) = true ∧
    (let a : LockAccess := { path := .pcie, secure := true }; let s : State := awake; decide (s.lockRefused a = true)) = true ∧
    (let k : Fin 32 := 31; let a : LockAccess := { path := .pcie, secure := false }; let w : Word := 1; let s : State := awake.setLock 31 1;
      decide (s.lockRefused a = false) && decide (s.lockOwner k.val ≠ 0) && decide (nbits w.toNat 0 3 = s.lockOwner k.val) && decide (lockReq a = s.lockOwner k.val) && (let j := 0; decide (j ≠ k.val))) = true ∧
    (let k : Fin 32 := 31; let a : LockAccess := { path := .pcie, secure := false }; let w : Word := 0; let s : State := awake;
      decide (s.lockRefused a = false) && decide ((s.lockOwner k.val = 0 ∨ nbits w.toNat 0 3 ≠ s.lockOwner k.val ∨ lockReq a ≠ s.lockOwner k.val))) = true ∧
    (let k : Fin 32 := 31; let reads : List LockAccess := []; let writes : List (LockAccess × Word) := [({ path := .spi, secure := false }, 1)]; let s : State := awake.setLock 31 1;
      (match exec (.lockRead k reads writes) s with | .next _ => (decide (s.lockOwner k.val ≠ 0) && decide ((∀ x ∈ writes, lockReq x.1 ≠ s.lockOwner k.val))) | _ => false)) = true ∧
    (let k : Fin 32 := 31; let reads : List LockAccess := [{ path := .spi, secure := false }]; let writes : List (LockAccess × Word) := []; let s : State := awake;
      (match exec (.lockRead k reads writes) s with | .next _ => (decide (s.lockOwner k.val = 0) && decide (writes = []) && (let a := ({ path := .spi, secure := false } : LockAccess); decide (a ∈ reads) && decide (s.lockRefused a = false) && decide ((∀ b ∈ reads, s.lockRefused b = false → lockReq a ≤ lockReq b)))) | _ => false)) = true ∧
    (let k : Fin 32 := 31; let reads : List LockAccess := []; let writes : List (LockAccess × Word) := []; let s : State := awake;
      (match exec (.lockRead k reads writes) s with | .next _ => (let j := (0 : Nat); decide (j ≠ k.val)) | _ => false)) = true := by
  decide +kernel

theorem witness_SnapshotsAreWhole :
    (let p : Path := .pcie; let s : State := copying (fset 0 F.WIDE_STAT.BUSY 1) awake;
      (match wideCopy p with | some i => (decide (fbit (vget s.host.wide i {}).stat F.WIDE_STAT.BUSY = true) && (let index := fget (vget s.host.wide i {}).sel F.WIDE_SEL.INDEX; (match s.wideValue index with | some (some _) => (let j := 3; decide (j < 4)) | _ => false))) | _ => false)) = true ∧
    (let p : Path := .study; decide (wideCopy p = none)) = true ∧
    (let p : Path := Path.pcie; (match wideCopy p with | some _ => (true) | _ => false)) = true ∧
    (let i : Nat := 2; decide (i < 3) && (let j := 0; decide (j ≠ i))) = true ∧
    (let s : State := awake; decide (s.power.loft = true)) = true ∧
    (let s : State := awake; decide (s.power.cellar = true)) = true ∧
    (let s : State := State.reset; decide (s.power.loft = false)) = true ∧
    (let p : Path := Path.pcie; let q := Path.spi; decide (pathReq q ≠ pathReq p)) = true := by
  decide +kernel

theorem witness_WideSelectStartsOrAnswers :
    (let p : Path := Path.pcie; let index : Fin 256 := 255; let s : State := awake;
      (match wideCopy p with | some _ => (let err := 1; decide (((s.wideValue index.val = none ∧ err = 1) ∨ (s.wideValue index.val = some none ∧ err = 2))) && (let j := 3; decide (j < 4))) | _ => false)) = true ∧
    (let p : Path := Path.pcie; let index : Fin 256 := 0x37; let s : State := awake;
      (match wideCopy p with | some _ => ((match s.wideValue index.val with | some (some _) => (true) | _ => false)) | _ => false)) = true ∧
    (let s : State := awake; (match exec .flr s with | .next _ => (true) | _ => false)) = true ∧
    (let p : Path := .study; decide (wideCopy p = none)) = true := by
  decide +kernel

theorem witness_RegistersByTypeAndAlias :
    (let k : RegKind := { rw := 1, w1c := 2, w1s := 4, keep := 8, rwe := 16 }; let b : Nat := 0;
      decide (b < 32) && decide (nbit k.w1c.toNat b = false) && decide (nbit k.w1s.toNat b = false)) = true ∧
    (let k : RegKind := { rw := 1, w1c := 2, w1s := 4, keep := 8, rwe := 16 }; let b : Nat := 1;
      decide (b < 32) && decide (nbit k.w1c.toNat b = true) && decide (nbit k.w1s.toNat b = false) && decide (nbit k.rw.toNat b = false) && decide (nbit k.rwe.toNat b = false) && decide (nbit k.keep.toNat b = false)) = true ∧
    (let k : RegKind := { rw := 1, w1c := 2, w1s := 4, keep := 8, rwe := 16 }; let b : Nat := 2;
      decide (b < 32) && decide (nbit k.w1s.toNat b = true) && decide (nbit k.w1c.toNat b = false) && decide (nbit k.rw.toNat b = false) && decide (nbit k.rwe.toNat b = false) && decide (nbit k.keep.toNat b = false)) = true ∧
    (let off : Fin 65536 := 0; let be : Fin 16 := 0;
      decide (be.val ≠ 15) && decide (¬ (0x400 ≤ off.val / 4 * 4 ∧ off.val / 4 * 4 < 0x800))) = true ∧
    (let a : AliasAccess := { path := .pcie, word := 0, bit := 31, v := true }; let b : AliasAccess := { path := .spi, word := 0, bit := 31, v := true };
      decide (a.path = .pcie) && decide (b.path = .spi)) = true ∧
    (let a : AliasAccess := { path := .pcie, word := 3, bit := 31, v := true };
      decide (a.word.val = 3) && (let b := (0 : Nat); decide (b ≠ a.bit.val) && decide (b ≠ F.ID_STAT.KEEP_ALTERED.lo))) = true ∧
    (let a : AliasAccess := { path := .pcie, word := 0, bit := 31, v := true }; decide (a.word.val ≠ 3) && decide (a.word.val ≠ 0x80)) = true := by
  decide +kernel

theorem witness_SpiAndDebugAccess :
    (let bytes : List Byte := [2, 0x20, 0, 1] ++ List.replicate 5 0;
      decide (4 ≤ bytes.length) && decide (leAt bytes 0 1 = 2) && (let n := leAt bytes 3 1; let off := leAt bytes 1 2 / 4 * 4; decide (1 ≤ n) && decide (n ≤ 16) && decide (off + 4 * n ≤ 0x10000) && decide (bytes.length = 5 + 4 * n))) = true ∧
    (let bytes : List Byte := [1, 0xFC, 0xFF, 1] ++ List.replicate 6 0;
      decide (4 ≤ bytes.length) && decide (leAt bytes 0 1 = 1) && (let n := leAt bytes 3 1; let off := leAt bytes 1 2 / 4 * 4; decide (1 ≤ n) && decide (n ≤ 16) && decide (off + 4 * n ≤ 0x10000) && decide (bytes.length = 6 + 4 * n))) = true ∧
    (let bytes : List Byte := [9, 0, 0, 0]; decide (4 ≤ bytes.length) && decide (leAt bytes 0 1 ≠ 1) && decide (leAt bytes 0 1 ≠ 2)) = true ∧
    (let bytes : List Byte := [1, 0, 0, 0];
      decide (4 ≤ bytes.length) && decide ((leAt bytes 0 1 = 1 ∨ leAt bytes 0 1 = 2)) && decide ((leAt bytes 3 1 = 0 ∨ 16 < leAt bytes 3 1 ∨ 0x10000 < leAt bytes 1 2 / 4 * 4 + 4 * leAt bytes 3 1))) = true ∧
    (let reg : BitVec 52 := 0x2000000000000; decide (nbit reg.toNat 49 = true)) = true ∧
    (let reg : BitVec 52 := 0; decide (nbit reg.toNat 49 = false)) = true ∧
    (let k := (0 : Nat); decide (k < 32)) = true := by
  decide +kernel

theorem witness_PcieResetsAndDescriptors :
    (let c := (0 : Nat); decide (c < 6)) = true ∧
    (let c := 6; decide (6 ≤ c)) = true ∧
    (let k := (0 : Nat); decide (k < 32)) = true ∧
    (let ch := (0 : Nat); decide (ch < 3)) = true ∧
    (let ch : Fin 3 := 2; let d : H2dDescriptor := { addr := 0, own := true, next := 32, data := [] }; let s : State := linked awake;
      decide (s.porch.pcie.alive = true) && decide ((vget s.porch.h2d ch.val {}).waiting = false) && decide (((vget s.porch.h2d ch.val {}).next = 0 ∨ (vget s.porch.h2d ch.val {}).next = d.addr)) && decide ((2 ≤ ch.val ∨ (s.hall ch.val).replay.held < 131072)) && decide (d.own = true)) = true ∧
    (let ch : Fin 3 := 2; let d : H2dDescriptor := { addr := 0, own := false, next := 32, data := [] }; let s : State := linked awake;
      decide (s.porch.pcie.alive = true) && decide ((vget s.porch.h2d ch.val {}).waiting = false) && decide (((vget s.porch.h2d ch.val {}).next = 0 ∨ (vget s.porch.h2d ch.val {}).next = d.addr)) && decide ((2 ≤ ch.val ∨ (s.hall ch.val).replay.held < 131072)) && decide (d.own = false)) = true ∧
    (let ch : Fin 3 := 2; let s : State := awake; decide (s.porch.pcie.alive = false ∨ (vget s.porch.h2d ch.val {}).waiting = true)) = true ∧
    (let ch : Fin 3 := 2; let s : State := { awake with mb := { awake.mb with dbH2d := 0x04000000 } };
      decide (nbit s.mb.dbH2d.toNat (24 + ch.val) = true) && (let b := (0 : Nat); decide (b ≠ 24 + ch.val))) = true ∧
    (let ch : Fin 3 := 0; let s : State := (fun (t : State) => { t with porch := { t.porch with h2d := Vector.replicate 3 { waiting := false, rest := [1], back := some ⟨64, 1, 1, []⟩ } } }) (linked awake);
      decide (s.porch.pcie.alive = true) && (match (vget s.porch.h2d ch.val {}).back with | some _ => decide ((vget s.porch.h2d ch.val {}).rest.length ≤ 131072 - (s.hall ch.val).replay.held) | none => false)) = true ∧
    (let ch : Nat := 1; decide (ch < 2)) = true := by
  decide +kernel

theorem witness_TriggersFireAndRecordsAreCopied :
    (let u : Fin 16 := 15; let s : State := versioned { c := unitOn 1 } 1000 awake;
      (match (s.unit u.val).queue with | v :: _ => (let y := (s.unit u.val).advance v.frame; let missing := y.c.on && y.c.ring && (s.awaits v.time).any (fun d => (s.verdictOf d v.time).isNone); decide (missing = true)) | _ => false)) = true ∧
    (let u : Fin 16 := 15; let s : State := recording aRecord (versioned { c := unitOn 0, state := .rearm, lastRecord := some 0, stat := 0 } 1000 awake);
      (match (s.unit u.val).queue with | v :: _ => (let y := (s.unit u.val).advance v.frame; let missing := y.c.on && y.c.ring && (s.awaits v.time).any (fun d => (s.verdictOf d v.time).isNone); let waits := y.c.on && y.waitsAt v.frame && !s.copied y; decide (missing = false) && decide (waits = true)) | _ => false)) = true ∧
    (let u : Fin 16 := 15; let s : State := recording aRecord (versioned { c := unitOn 0, state := .rearm, lastRecord := some 0, stat := fset 0 F.TRIG_STAT.WAITING 1 } 1000 awake);
      (match (s.unit u.val).queue with | v :: _ => (let y := (s.unit u.val).advance v.frame; let missing := y.c.on && y.c.ring && (s.awaits v.time).any (fun d => (s.verdictOf d v.time).isNone); let waits := y.c.on && y.waitsAt v.frame && !s.copied y; decide (missing = false) && decide (waits = true)) | _ => false)) = true ∧
    (let u : Fin 16 := 15; let s : State := versioned { c := unitOn 0 } 1000 awake;
      (match (s.unit u.val).queue with | v :: _ => (let y := (s.unit u.val).advance v.frame; let missing := y.c.on && y.c.ring && (s.awaits v.time).any (fun d => (s.verdictOf d v.time).isNone); let waits := y.c.on && y.waitsAt v.frame && !s.copied y; decide (missing = false) && decide (waits = false)) | _ => false)) = true ∧
    (let u : Fin 16 := 15; let s : State := awake; decide ((s.unit u.val).queue = []) && decide ((s.unit u.val).due = [])) = true ∧
    (let u : Nat := 0; let v : Version := { frame := 0, time := 0, vector := [] }; let held : Bool := false; let s : State := awake;
      decide (u < 16) && (let x := (s.unit u).turn v.frame; let own := x.sources v.frame v.vector x.prevMatch; decide ((own = 0 ∧ held = false)))) = true ∧
    (let u : Nat := 0; let v : Version := { frame := 0, time := 0, vector := [] }; let held : Bool := true; let s : State := awake;
      decide (u < 16) && (let x := (s.unit u).turn v.frame; let own := x.sources v.frame v.vector x.prevMatch; decide ((own ≠ 0 ∨ held = true)) && decide (x.state = .idle))) = true ∧
    (let u : Nat := 0; let v : Version := { frame := 0, time := 0, vector := [] }; let held : Bool := true; let s : State := unitZero { state := .filling, armFrame := 10 } awake;
      decide (u < 16) && (let x := (s.unit u).turn v.frame; let own := x.sources v.frame v.vector x.prevMatch; decide ((own ≠ 0 ∨ held = true)) && decide (x.state = .filling))) = true ∧
    (let u : Nat := 0; let v : Version := { frame := 0, time := 0, vector := [] }; let held : Bool := true; let s : State := unitZero { state := .rearm, fireFrame := 10 } awake;
      decide (u < 16) && (let x := (s.unit u).turn v.frame; let own := x.sources v.frame v.vector x.prevMatch; decide ((own ≠ 0 ∨ held = true)) && decide (x.state = .rearm))) = true ∧
    (let u : Nat := 0; let v : Version := { frame := 0, time := 0, vector := [] }; let held : Bool := true; let s : State := unitZero { state := .armed } awake;
      decide (u < 16) && (let x := (s.unit u).turn v.frame; let own := x.sources v.frame v.vector x.prevMatch; decide ((own ≠ 0 ∨ held = true)) && decide (x.state = .armed))) = true ∧
    (let u : Nat := 0; decide (u < 16) && (let w := 1; decide (w ≠ u))) = true ∧
    (let x : TrigUnit := { state := .filling }; let f : Nat := 0; decide (x.state = .filling) && decide (x.armFrame + x.c.preN ≤ f)) = true ∧
    (let x : TrigUnit := { state := .rearm }; let f : Nat := 2;
      decide (x.state = .rearm) && decide (x.fireFrame + x.c.postN + x.c.holdN ≤ f)) = true ∧
    (let x : TrigUnit := {}; decide (x.state = .armed ∨ x.state = .idle)) = true ∧
    (let s : State := awake; decide (s.missingTime = none)) = true ∧
    (let s : State := versioned { c := unitOn 1 } 1000 awake; (match s.missingTime with | some _ => (true) | _ => false)) = true ∧
    (let s : State := recording (copyOf (some 0) 4096) (indexed watching);
      (match s.trig.fired with | r :: _ => (decide (s.power.cellar = true) && decide ((s.cellar.portOf 2).queue = []) && decide (r.seq ≠ none) && decide (r.room ≠ 0) && (let n := 512 + r.nextBytes (s.cellar.nextRow r).isSome; let grown := s.trig.grow (s.cellar.regionBase 8) (s.cellar.regionSize 8) r n; decide (n ≤ r.room))) | _ => false)) = true ∧
    (let s : State := recording { copyOf (some 0) 1 with base := 2 ^ 50 } (indexed watching);
      (match s.trig.fired with | r :: _ => (decide (s.power.cellar = true) && decide ((s.cellar.portOf 2).queue = []) && decide (r.seq ≠ none) && decide (r.room ≠ 0) && (let n := 512 + r.nextBytes (s.cellar.nextRow r).isSome; let grown := s.trig.grow (s.cellar.regionBase 8) (s.cellar.regionSize 8) r n; decide (grown = none))) | _ => false)) = true ∧
    (let s : State := later (10 * sec) (recording (copyOf (some 0) 1) (indexed watching));
      (match s.trig.fired with | r :: _ => (decide (s.power.cellar = true) && decide ((s.cellar.portOf 2).queue = []) && decide (r.seq ≠ none) && decide (r.room ≠ 0) && (let n := 512 + r.nextBytes (s.cellar.nextRow r).isSome; let grown := s.trig.grow (s.cellar.regionBase 8) (s.cellar.regionSize 8) r n; (match grown with | some r2 => (match s.cellar.nextRow r with | some x => decide (r2.room = n ∧ x.boundary + sec / 2 + 10 * x.tF ≤ s.now) | _ => false) | none => false))) | _ => false)) = true ∧
    (let s : State := recording (copyOf (some 0) 1) (indexed watching);
      (match s.trig.fired with | r :: _ => (decide (s.power.cellar = true) && decide ((s.cellar.portOf 2).queue = []) && decide (r.seq ≠ none) && decide (r.room ≠ 0) && (let n := 512 + r.nextBytes (s.cellar.nextRow r).isSome; let grown := s.trig.grow (s.cellar.regionBase 8) (s.cellar.regionSize 8) r n; (match grown with | some r2 => (match s.cellar.nextRow r with | some x => decide (s.now < x.boundary + sec / 2 + 10 * x.tF) | _ => false) | none => false))) | _ => false)) = true ∧
    (let s : State := recording (copyOf (some 0) 1) watching;
      (match s.trig.fired with | r :: _ => (decide (s.power.cellar = true) && decide ((s.cellar.portOf 2).queue = []) && decide (r.seq ≠ none) && decide (r.room ≠ 0) && (let n := 512 + r.nextBytes (s.cellar.nextRow r).isSome; let grown := s.trig.grow (s.cellar.regionBase 8) (s.cellar.regionSize 8) r n; (match grown with | some r2 => (decide (s.cellar.nextRow r = none) && decide (s.rowsDue r2 = true)) | none => false))) | _ => false)) = true ∧
    (let s : State := recording (copyOf (some 0) 1) awake;
      (match s.trig.fired with | r :: _ => (decide (s.power.cellar = true) && decide ((s.cellar.portOf 2).queue = []) && decide (r.seq ≠ none) && decide (r.room ≠ 0) && (let n := 512 + r.nextBytes (s.cellar.nextRow r).isSome; let grown := s.trig.grow (s.cellar.regionBase 8) (s.cellar.regionSize 8) r n; (match grown with | some r2 => (decide (s.cellar.nextRow r = none) && decide (s.rowsDue r2 = false)) | none => false))) | _ => false)) = true ∧
    (let s : State := { awake with cellar := portWith 2 { awake.cellar.portOf 2 with queue := [aWrite 64] } awake.cellar }; decide ((s.cellar.portOf 2).queue ≠ [])) = true ∧
    (let s : State := recording (copyOf none 0) (versioned {} 0 awake);
      (match s.trig.fired with | r :: _ => (decide (r.seq = none) && decide (s.mayTake r = false)) | _ => false)) = true ∧
    (let r : Record := copyOf none 0; let n : Nat := 640; let s : State := watching;
      decide (r.seq = none) && decide (r.room = 0) && decide (n = r.need) && (match s.trig.findRoom (s.cellar.regionBase 8) (s.cellar.regionSize 8) n with | some _ => (true) | _ => false)) = true ∧
    (let s : State := zoneOn (committing 100000 watching);
      (match s.loft.vec.next with | some f => (decide (s.power.loft = true) && decide (s.probe.running = true) && (let s2 := (List.range 256).foldl (fun t z => t.advanceZone z f) ((s.distribute f).distributeTrig f); decide (s2.delivered f = false))) | _ => false)) = true ∧
    (let s : State := committing 0 watching;
      (match s.loft.vec.next with | some f => (decide (s.power.loft = true) && decide (s.probe.running = true) && (let s2 := (List.range 256).foldl (fun t z => t.advanceZone z f) ((s.distribute f).distributeTrig f); decide (s2.delivered f = true) && decide (s2.queueFull = false))) | _ => false)) = true ∧
    (let s : State := awake; decide (s.loft.vec.next = none)) = true ∧
    (let s : State := committing 100000 awake;
      (match s.loft.vec.next with | some f => (decide (s.power.loft = true) && decide (s.probe.running = false) && decide (s.probe.frontier ≤ f)) | _ => false)) = true := by
  decide +kernel

/-- The version queue of every unit is full. -/
def allFull : Vector TrigUnit 16 := Vector.replicate 16 { c := unitOn 0, queue := List.replicate 65536 ⟨0, 0, []⟩ }
def queuesFull (held : Bool) (s : State) : State := { s with
  trig := { s.trig with units := allFull }
  loft := { s.loft with vec := { next := some 0, held } } }

set_option maxRecDepth 100000 in
theorem witness_VersionQueueIsFull (held : Bool) :
    let s : State := queuesFull held watching
    let s2 := (List.range 256).foldl (fun t z => t.advanceZone z 0) ((s.distribute 0).distributeTrig 0)
    s.loft.vec.next = some 0 ∧ s.loft.vec.held = held ∧ s.power.loft = true ∧ s.probe.running = true ∧ s.boundaryTime 0 ≤ s.now ∧ s2.delivered 0 = true ∧
      s2.queueFull = true := by
  have h : ((List.range 256).foldl (fun t z => State.advanceZone z 0 t) ((State.distribute 0 (queuesFull held watching)).distributeTrig 0)).trig.units = allFull := by
    cases held <;> rfl
  refine ⟨rfl, rfl, by cases held <;> decide +kernel, by cases held <;> decide +kernel, by cases held <;> decide +kernel, by cases held <;> decide +kernel, ?_⟩
  unfold State.queueFull
  rw [h]
  simp only [allFull, Vector.toList_replicate, List.any_replicate, List.length_replicate]
  decide +kernel

set_option maxRecDepth 16000 in
theorem witness_StreamsAndReplay :
    (let n : Fin 8 := 7; let s : State := awake; let s0 := s.streamStarts; let live := (s0.stream n.val).running && fbit s0.streams.cfg F.COMP_CFG.ENABLE && fbit (s0.stream n.val).cfg F.STR_CFG.ENABLE;
      decide (live = false)) = true ∧
    (let n : Fin 8 := 1; let mem : List D2hDescriptor := []; let s : State := streaming 1 { endMade := true } awake; let s0 := s.streamStarts; let s1 := (s0.setStream n.val (s0.pushStart n.val (s0.stream n.val))).serveAll n.val mem false; let live := (s0.stream n.val).running && fbit s0.streams.cfg F.COMP_CFG.ENABLE && fbit (s0.stream n.val).cfg F.STR_CFG.ENABLE;
      decide (live = true) && decide (((s1.stream n.val).running = false ∨ (s1.stream n.val).endMade = true))) = true ∧
    (let n : Fin 8 := 1; let mem : List D2hDescriptor := []; let s : State := streaming 1 { ending := some 1 } awake; let s0 := s.streamStarts; let s1 := (s0.setStream n.val (s0.pushStart n.val (s0.stream n.val))).serveAll n.val mem false; let live := (s0.stream n.val).running && fbit s0.streams.cfg F.COMP_CFG.ENABLE && fbit (s0.stream n.val).cfg F.STR_CFG.ENABLE;
      decide (live = true) && decide ((s1.stream n.val).running = true) && decide ((s1.stream n.val).endMade = false) && (match (s1.stream n.val).ending with | some _ => (true) | _ => false)) = true ∧
    (let n : Fin 8 := 1; let mem : List D2hDescriptor := []; let s : State := streaming 1 { ready := [aBlock] } awake; let s0 := s.streamStarts; let s1 := (s0.setStream n.val (s0.pushStart n.val (s0.stream n.val))).serveAll n.val mem false; let live := (s0.stream n.val).running && fbit s0.streams.cfg F.COMP_CFG.ENABLE && fbit (s0.stream n.val).cfg F.STR_CFG.ENABLE;
      decide (live = true) && decide ((s1.stream n.val).running = true) && decide ((s1.stream n.val).endMade = false) && decide ((s1.stream n.val).ending = none) && decide ((fbit (s1.stream n.val).stat F.STR_STAT.AWAIT_BUFFER = true ∨ (s1.stream n.val).ready ≠ [] ∨ (s1.cellar.portOf 3).queue ≠ []))) = true ∧
    (let n : Fin 8 := 1; let mem : List D2hDescriptor := []; let s : State := streaming 1 {} awake; let s0 := s.streamStarts; let s1 := (s0.setStream n.val (s0.pushStart n.val (s0.stream n.val))).serveAll n.val mem false; let live := (s0.stream n.val).running && fbit s0.streams.cfg F.COMP_CFG.ENABLE && fbit (s0.stream n.val).cfg F.STR_CFG.ENABLE;
      decide (live = true) && decide ((s1.stream n.val).running = true) && decide ((s1.stream n.val).endMade = false) && decide ((s1.stream n.val).ending = none) && decide (fbit (s1.stream n.val).stat F.STR_STAT.AWAIT_BUFFER = false) && decide ((s1.stream n.val).ready = []) && decide ((s1.cellar.portOf 3).queue = [])) = true ∧
    (let n : Fin 8 := 1; let s : State := streaming 1 { cur := some aDesc, data := [1] } (linked awake);
      (match (s.stream n.val).cur with | some _ => (decide ((s.stream n.val).data ≠ []) && decide (s.porch.pcie.alive = true)) | _ => false)) = true ∧
    (let n : Fin 8 := 7; let s : State := awake; decide (((s.stream n.val).cur = none ∨ (s.stream n.val).data = []))) = true ∧
    (let n : Fin 8 := 7; let s : State := { awake with mb := { awake.mb with dbH2d := 0x00800000 } };
      decide (nbit s.mb.dbH2d.toNat (16 + n.val) = true)) = true ∧
    (let n : Fin 8 := 7; let s : State := awake; decide (nbit s.mb.dbH2d.toNat (16 + n.val) = false)) = true ∧
    (let n : Nat := 7; let s : State := streaming 7 { cur := some aDesc, data := [1] } (linked awake);
      decide (n < 8) && (match (s.stream n).cur with | some _ => (let m := 0; decide (m ≠ n)) | _ => false)) = true ∧
    (let n : Nat := 7; let mem : List D2hDescriptor := [aDesc]; let fresh : Bool := true; let fuel : Nat := 5; let s : State := streaming 7 { ready := [aBlock], headLo := 64 } (linked awake);
      decide (n < 8) && decide ((s.stream n).cur = none) && (match ((s.serve n mem fresh fuel).stream n).cur with | some _ => (true) | _ => false)) = true ∧
    (let n : Fin 8 := 7; let s : State := streaming 7 { staged := [aBlock], udp := fset 0x00204000 F.STR_UDP.DEST 0 } (destined (online awake));
      (match (s.stream n.val).staged with | b :: _ => (decide (s.destReady (fget (s.stream n.val).udp F.STR_UDP.DEST) = true) && decide ((vget s.porch.eth.dest (fget (s.stream n.val).udp F.STR_UDP.DEST) {}).streams = true) && (let parts := fragments (max 1 ((s.stream n.val).dgram - 16)) (b.bytes.length + 1) b.bytes; let x := ([1] : List Byte); decide (x ∈ parts))) | _ => false)) = true ∧
    (let n : Fin 8 := 7; let s : State := streaming 7 { staged := [aBlock], udp := fset 0x00204000 F.STR_UDP.DEST 0 } (destined (online awake));
      (match (s.stream n.val).staged with | _ :: _ => (decide (s.destReady (fget (s.stream n.val).udp F.STR_UDP.DEST) = true) && decide ((vget s.porch.eth.dest (fget (s.stream n.val).udp F.STR_UDP.DEST) {}).streams = true)) | _ => false)) = true ∧
    (let n : Fin 8 := 7; let s : State := awake; decide ((s.stream n.val).staged = [])) = true ∧
    (let leg : Fin 2 := 1; let s : State := awake; decide ((s.hall leg.val).replay.blocks = [])) = true ∧
    (let leg : Fin 2 := 0; let s : State := replaying [] none watching; let r := (s.hall leg.val).replay;
      (match r.blocks with | bs :: _ => (decide (s.power.front = true) && decide (r.on = true) && decide (s.upcoming leg.val ≠ none) && decide (blockHeader leg.val bs = none)) | _ => false)) = true ∧
    (let leg : Fin 2 := 0; let s : State := replaying (replayOf 0) (some 4) watching; let r := (s.hall leg.val).replay;
      (match r.blocks with | bs :: _ => (decide (s.power.front = true) && decide (r.on = true) && decide (s.upcoming leg.val ≠ none) && (match blockHeader leg.val bs with | some h => ((match r.next with | some n => (decide (n ≠ h.first)) | _ => false)) | _ => false)) | _ => false)) = true ∧
    (let leg : Fin 2 := 0; let s : State := replaying (replayOf 1) none watching; let r := (s.hall leg.val).replay;
      (match r.blocks with | bs :: _ => (decide (s.power.front = true) && decide (r.on = true) && decide (s.upcoming leg.val ≠ none) && (match blockHeader leg.val bs with | some h => (decide ((sideRecords h bs).all SideRecord.admitted = false)) | _ => false)) | _ => false)) = true ∧
    (let leg : Fin 2 := 0; let s : State := replaying (replayOf 0) (some 0) watching; let r := (s.hall leg.val).replay;
      (match r.blocks with | bs :: _ => (decide (s.power.front = true) && decide (r.on = true) && decide (s.upcoming leg.val ≠ none) && (match blockHeader leg.val bs with | some h => (decide ((r.next = none ∨ r.next = some h.first)) && decide ((sideRecords h bs).all SideRecord.admitted = true) && decide (launchesPlaced (s.legBank leg.val) s.probe.active.tF h { k := vget s.probe.frame leg.val 0, j := vget s.probe.next leg.val 0, origin := r.origin } (sideRecords h bs) = true)) | _ => false)) | _ => false)) = true ∧
    (let leg : Nat := 0; decide (leg < 2)) = true := by
  decide +kernel

theorem witness_DramHoldsWhatWasWritten :
    (let c : Cellar := awake.cellar; let a : Nat := 0; let bs : List Byte := [];
      decide (Mem.wf 0 c.mem = true) && (let b := (0 : Nat); let n := (0 : Nat); decide (b + n ≤ a ∨ a + bs.length ≤ b))) = true ∧
    (let c : Cellar := awake.cellar; let a : Nat := 16; let bs : List Byte := List.replicate 16 0;
      decide (Mem.wf 0 c.mem = true) && (let w := 1; decide (16 * w + 16 ≤ a + bs.length) && decide (a ≤ 16 * w))) = true ∧
    (let c : Cellar := awake.cellar; let d : Cellar := awake.cellar;
      decide (Mem.wf 0 c.mem = true) && decide (Mem.wf 0 d.mem = true) && decide (c = d)) = true := by
  decide +kernel

theorem witness_CellarMovesAndCorrects :
    (let p5 : Bool := false; let n : Nat := 1; let s : State := rowAt0 awake;
      (match s.halls.front p5 with | some row => (decide (0 < n) && decide ((s.cellar.ring p5).base + (s.cellar.ring p5).size ≤ s.cellar.capacity) && (let r := s.cellar.ring p5; let p := if p5 then 5 else 0; decide (r.dropping = false) && decide (r.taken + n < row.bytes.length) && decide ((s.cellar.portOf p).level + n ≤ portBuffer p))) | _ => false)) = true ∧
    (let p5 : Bool := false; let n : Nat := 1; let s : State := celled (portWith 0 { cfg := 0, queue := [aWrite 524288] } awake.cellar) (rowAt0 awake);
      (match s.halls.front p5 with | some row => (decide (0 < n) && decide ((s.cellar.ring p5).base + (s.cellar.ring p5).size ≤ s.cellar.capacity) && (let r := s.cellar.ring p5; let p := if p5 then 5 else 0; decide (r.dropping = false) && decide (r.taken + n < row.bytes.length) && decide (portBuffer p < (s.cellar.portOf p).level + n))) | _ => false)) = true ∧
    (let p5 : Bool := false; let n : Nat := 64; let s : State := rowAt0 awake;
      (match s.halls.front p5 with | some row => (decide ((s.cellar.ring p5).base + (s.cellar.ring p5).size ≤ s.cellar.capacity) && decide ((s.cellar.ring p5).taken < row.bytes.length) && decide (row.bytes.length ≤ (s.cellar.ring p5).taken + n)) | _ => false)) = true ∧
    (let p5 : Bool := true; let n : Nat := 0; let s : State := awake; decide (s.halls.front p5 = none ∨ n = 0)) = true ∧
    (let c : Cellar := { awake.cellar with dec := { awake.cellar.dec with dropping := true } }; let p5 : Bool := true;
      decide ((c.ring p5).dropping = true)) = true ∧
    (let c : Cellar := awake.cellar; let p5 : Bool := true; decide ((c.ring p5).dropping = false)) = true ∧
    (let p : Fin 6 := 5; let blocked : Bool := true; let s : State := celled (portWith 5 { cfg := 0, queue := [aWrite 64] } awake.cellar) awake;
      (match (s.cellar.portOf p.val).queue with | _ :: _ => (decide (s.cellar.mayGrant p.val blocked = true)) | _ => false)) = true ∧
    (let p : Fin 6 := 5; let blocked : Bool := true; let s : State := awake; decide (s.cellar.mayGrant p.val blocked = false)) = true ∧
    (let c : Cellar := portWith 0 { cfg := 0, panic := true } (portWith 1 { cfg := 0, queue := [aWrite 64] } awake.cellar); let p : Nat := 1; let blocked : Bool := true;
      decide (c.panic = true) && decide ((c.portOf p).panic = false) && decide (c.mayGrant p blocked = true)) = true ∧
    (let a : Nat := 0; let k : ReadCheck := ReadCheck.clean; let s : State := awake;
      decide (fbit s.cellar.cfg F.CELLAR_CFG.ENABLE = true) && decide (a < s.cellar.capacity) && decide (s.cellar.check a k = .clean)) = true ∧
    (let a : Nat := awake.cellar.capacity - 16; let k : ReadCheck := .symbol 17; let s : State := awake;
      decide (fbit s.cellar.cfg F.CELLAR_CFG.ENABLE = true) && decide (a < s.cellar.capacity) && (match s.cellar.check a k with | .symbol _ => (true) | _ => false)) = true ∧
    (let a : Nat := awake.cellar.capacity - 16; let k : ReadCheck := .beyond 65535; let s : State := awake;
      decide (fbit s.cellar.cfg F.CELLAR_CFG.ENABLE = true) && decide (a < s.cellar.capacity) && (match s.cellar.check a k with | .beyond _ => (true) | _ => false)) = true ∧
    (let k : ReadCheck := ReadCheck.clean; let s : State := awake;
      decide (fbit s.cellar.cfg F.CELLAR_CFG.ENABLE = true) && decide (fbit s.cellar.cfg F.CELLAR_CFG.SCRUB_EN = true) && decide (s.cellar.panic = false) && (let a := 16 * s.cellar.scrubNext; decide (s.cellar.check a k = .clean))) = true ∧
    (let k : ReadCheck := .symbol 17; let s : State := celled { awake.cellar with cfg := fset 3 F.CELLAR_CFG.SCRUB_EN 1 } awake;
      decide (fbit s.cellar.cfg F.CELLAR_CFG.ENABLE = true) && decide (fbit s.cellar.cfg F.CELLAR_CFG.SCRUB_EN = true) && decide (s.cellar.panic = false) && (let a := 16 * s.cellar.scrubNext; (match s.cellar.check a k with | .symbol _ => (true) | _ => false))) = true ∧
    (let k : ReadCheck := .beyond 65535; let s : State := celled { awake.cellar with cfg := fset 3 F.CELLAR_CFG.SCRUB_EN 1 } awake;
      decide (fbit s.cellar.cfg F.CELLAR_CFG.ENABLE = true) && decide (fbit s.cellar.cfg F.CELLAR_CFG.SCRUB_EN = true) && decide (s.cellar.panic = false) && (let a := 16 * s.cellar.scrubNext; (match s.cellar.check a k with | .beyond _ => (true) | _ => false))) = true ∧
    (let s : State := celled { awake.cellar with cfg := fset 3 F.CELLAR_CFG.SCRUB_EN 0 } awake;
      decide (fbit s.cellar.cfg F.CELLAR_CFG.SCRUB_EN = false ∨ s.cellar.panic = true)) = true ∧
    (let c : Cellar := awake.cellar; decide (c.scrubNext + 1 < c.codewords)) = true ∧
    (let c : Cellar := { awake.cellar with scrubNext := 2 ^ 34 - 1 }; decide (c.codewords ≤ c.scrubNext + 1)) = true ∧
    (let rank : Fin 4 := 2; let s : State := celled (portWith 0 { cfg := 0, panic := true } { awake.cellar with owed := Vector.replicate 4 7 }) awake;
      decide (fbit s.cellar.cfg F.CELLAR_CFG.ENABLE = true) && decide (rank.val % 2 ≤ fget s.cellar.memDesc F.MEM_DESC.RANKS) && decide (s.cellar.panic = true) && decide (vget s.cellar.owed rank.val 0 < s.cellar.postponeMax)) = true ∧
    (let rank : Fin 4 := 2; let s : State := awake;
      decide (fbit s.cellar.cfg F.CELLAR_CFG.ENABLE = true) && decide (rank.val % 2 ≤ fget s.cellar.memDesc F.MEM_DESC.RANKS) && decide ((s.cellar.panic = false ∨ s.cellar.postponeMax ≤ vget s.cellar.owed rank.val 0))) = true ∧
    (let rank : Fin 4 := 2; let s : State := celled (portWith 0 { cfg := 0, panic := true } { awake.cellar with owed := Vector.replicate 4 8 }) awake;
      decide (fbit s.cellar.cfg F.CELLAR_CFG.ENABLE = true) && decide (rank.val % 2 ≤ fget s.cellar.memDesc F.MEM_DESC.RANKS) && decide (s.cellar.panic = true) && decide (s.cellar.postponeMax ≤ vget s.cellar.owed rank.val 0)) = true ∧
    (let s : State := celled { awake.cellar with trnCfg := fset 0 F.TRN_CFG.ENABLE 1 } awake;
      decide (s.power.cellar = true) && decide (fbit s.cellar.trnCfg F.TRN_CFG.ENABLE = true) && decide (fbit s.cellar.trnStat F.TRN_STAT.BUSY = false)) = true ∧
    (let s : State := awake;
      decide (s.power.cellar = false ∨ fbit s.cellar.trnCfg F.TRN_CFG.ENABLE = false ∨ fbit s.cellar.trnStat F.TRN_STAT.BUSY = true)) = true ∧
    (let s : State := celled { awake.cellar with trnStat := fset 0 F.TRN_STAT.BUSY 1 } awake;
      decide (fbit s.cellar.trnStat F.TRN_STAT.BUSY = true)) = true := by
  decide +kernel

theorem witness_CellsIssueTheirWords :
    (let i : Instr := .nop 71; let s : State := working 0 awake;
      (match cellRow i with | some (c, here, k) => ((match s.atWord c.val with | some (j, m, w) => (decide (here w = true) && decide (beyondRepair k = false) && (match (s.cell c.val).issue (s.windows c.val j m) m.complex w with | .cell _ _ => (true) | _ => false)) | _ => false)) | _ => false)) = true ∧
    (let i : Instr := .nop 71; let s : State := working (0x3F * 2 ^ 58) awake;
      (match cellRow i with | some (c, here, k) => ((match s.atWord c.val with | some (j, m, w) => (decide (here w = true) && decide (beyondRepair k = false) && (match (s.cell c.val).issue (s.windows c.val j m) m.complex w with | .trap _ => (true) | _ => false)) | _ => false)) | _ => false)) = true ∧
    (let i : Instr := .nop 71; let s : State := working (0x13 * 2 ^ 26) awake;
      (match cellRow i with | some (c, here, k) => ((match s.atWord c.val with | some (j, m, w) => (decide (here w = true) && decide (beyondRepair k = false) && (match (s.cell c.val).issue (s.windows c.val j m) m.complex w with | .halted _ => (true) | _ => false)) | _ => false)) | _ => false)) = true ∧
    (let i : Instr := .add 71; let s : State := working 0 awake;
      (match cellRow i with | some (c, here, _) => ((match s.atWord c.val with | some (_, _, w) => (decide (here w = false)) | _ => false)) | _ => false)) = true ∧
    (let i : Instr := .ldl 71 (.beyond 5); let s : State := working (0x05 * 2 ^ 26) awake;
      (match cellRow i with | some (c, here, k) => ((match s.atWord c.val with | some (_, _, w) => (decide (here w = true) && decide (beyondRepair k = true)) | _ => false)) | _ => false)) = true ∧
    (let i : Instr := .mac 71; let s : State := awake;
      (match cellRow i with | some (c, _, _) => (decide ((s.cell c.val).job = none)) | _ => false)) = true ∧
    (let i : Instr := .mac 71; let s : State := cellWith { job := some aJob, dropped := true } awake;
      (match cellRow i with | some (c, _, _) => (decide ((s.cell c.val).job ≠ none) && decide ((s.cell c.val).dropped = true)) | _ => false)) = true ∧
    (let i : Instr := .mac 71; let s : State := cellWith { job := some aJob, issued := 100 } awake;
      (match cellRow i with | some (c, _, _) => ((match (s.cell c.val).job with | some j => (decide ((s.cell c.val).dropped = false) && decide (j.budget ≤ (s.cell c.val).issued)) | _ => false)) | _ => false)) = true ∧
    (let c : Fin 72 := 71; let s : State := cellWith { job := some { aJob with image := 15 } } awake;
      (match (s.cell c.val).job with | some j => (decide (isLibrary j.image = true) && decide ((s.cell c.val).dropped = false) && decide ((s.cell c.val).issued < j.budget)) | _ => false)) = true ∧
    (let c : Fin 72 := 71; let s : State := working (0x13 * 2 ^ 26) awake;
      (match s.atWord c.val with | some (j, m, w) => (decide (isLibrary j.image = false) && decide (hasB 0x13 w = true) && (match (s.cell c.val).issue (s.windows c.val j m) m.complex w with | .halted _ => (true) | _ => false)) | _ => false)) = true ∧
    (let c : Nat := 71; let k : Nat := 7; let s : State := cellWith { job := some aJob } awake;
      decide (c < 72) && decide (k < 8) && (match (s.cell c).job with | some _ => (let d := 70; decide (d ≠ c)) | _ => false)) = true ∧
    (let c : Nat := 71; let s : State := cellWith { job := some aJob } awake;
      decide (c < 72) && (match (s.cell c).job with | some _ => (let d := 70; decide (d ≠ c)) | _ => false)) = true ∧
    (let c : Fin 72 := 71; let s : State := cellWith { job := some { aJob with image := 15 }, issued := 100 } awake;
      (match (s.cell c.val).job with | some j => (decide (isLibrary j.image = true) && decide (j.budget ≤ (s.cell c.val).issued)) | _ => false)) = true ∧
    (let i : Instr := .ldl 71 (.beyond 5); let s : State := cellWith { job := some { aJob with image := 15 } } awake;
      (match cellRow i with | some (c, _, k) => ((match (s.cell c.val).job with | some j => (decide (isLibrary j.image = true ∧ (s.cell c.val).dropped = false ∧ (s.cell c.val).issued < j.budget ∧ beyondRepair k = true)) | _ => false)) | _ => false)) = true ∧
    (let i : Instr := .mac 71; let s : State := cellWith { job := some { aJob with image := 15 } } awake;
      (match cellRow i with | some (c, _, k) => ((match (s.cell c.val).job with | some j => (decide (isLibrary j.image = true ∧ (s.cell c.val).dropped = false ∧ (s.cell c.val).issued < j.budget ∧ beyondRepair k = false)) | _ => false)) | _ => false)) = true ∧
    (let c : Nat := 71; let s : State := cellWith { job := some { aJob with slot := some 3, toCopy := [0] } } awake;
      decide (c < 72) && (match (s.cell c).job with | some j => (decide (j.slot = some 3) && decide (j.toCopy ≠ [])) | _ => false)) = true ∧
    (let c : Nat := 71; let s : State := cellWith { job := some { aJob with slot := some 3 } } awake;
      decide (c < 72) && (match (s.cell c).job with | some j => (decide (j.slot = some 3) && decide (j.toCopy = [])) | _ => false)) = true := by
  decide +kernel

theorem witness_SlotAComputes :
    (let x : Cell := {}; let w : Windows := { read := fun _ => some (List.replicate 16 0), spoiled := fun _ => false, writable := fun _ => true, codeWords := 2048, special := fun _ => 0 }; let complex : Bool := true; let sa : Nat := 0x00 * 2 ^ 26;
      decide (sa < 2 ^ 32) && (match x.issue w complex (sa * 2 ^ 32) with | .cell _ _ => (decide (aOp sa = 0x00)) | _ => false)) = true ∧
    (let x : Cell := {}; let w : Windows := { read := fun _ => some (List.replicate 16 0), spoiled := fun _ => false, writable := fun _ => true, codeWords := 2048, special := fun _ => 0 }; let complex : Bool := true; let sa : Nat := 0x01 * 2 ^ 26;
      decide (sa < 2 ^ 32) && (match x.issue w complex (sa * 2 ^ 32) with | .cell _ _ => (decide (aOp sa = 0x01) && (let i := 3; decide (i < 4))) | _ => false)) = true ∧
    (let x : Cell := {}; let w : Windows := { read := fun _ => some (List.replicate 16 0), spoiled := fun _ => false, writable := fun _ => true, codeWords := 2048, special := fun _ => 0 }; let complex : Bool := true; let sa : Nat := 0x02 * 2 ^ 26;
      decide (sa < 2 ^ 32) && (match x.issue w complex (sa * 2 ^ 32) with | .cell _ _ => (decide (aOp sa = 0x02) && (let i := 3; decide (i < 4))) | _ => false)) = true ∧
    (let x : Cell := {}; let w : Windows := { read := fun _ => some (List.replicate 16 0), spoiled := fun _ => false, writable := fun _ => true, codeWords := 2048, special := fun _ => 0 }; let complex : Bool := true; let sa : Nat := 0x03 * 2 ^ 26;
      decide (sa < 2 ^ 32) && (match x.issue w complex (sa * 2 ^ 32) with | .cell _ _ => (decide (aOp sa = 0x03) && (let i := 3; decide (i < 4))) | _ => false)) = true ∧
    (let x : Cell := {}; let w : Windows := { read := fun _ => some (List.replicate 16 0), spoiled := fun _ => false, writable := fun _ => true, codeWords := 2048, special := fun _ => 0 }; let complex : Bool := true; let sa : Nat := 0x04 * 2 ^ 26;
      decide (sa < 2 ^ 32) && (match x.issue w complex (sa * 2 ^ 32) with | .cell _ _ => (decide (aOp sa = 0x04) && (let i := 3; decide (i < 4))) | _ => false)) = true ∧
    (let x : Cell := {}; let w : Windows := { read := fun _ => some (List.replicate 16 0), spoiled := fun _ => false, writable := fun _ => true, codeWords := 2048, special := fun _ => 0 }; let complex : Bool := true; let sa : Nat := 0x05 * 2 ^ 26;
      decide (sa < 2 ^ 32) && (match x.issue w complex (sa * 2 ^ 32) with | .cell _ _ => (decide (aOp sa = 0x05) && (let i := 3; decide (i < 4))) | _ => false)) = true ∧
    (let x : Cell := {}; let w : Windows := { read := fun _ => some (List.replicate 16 0), spoiled := fun _ => false, writable := fun _ => true, codeWords := 2048, special := fun _ => 0 }; let complex : Bool := true; let sa : Nat := 0x06 * 2 ^ 26;
      decide (sa < 2 ^ 32) && (match x.issue w complex (sa * 2 ^ 32) with | .cell _ _ => (decide (aOp sa = 0x06) && (let i := 3; decide (i < 4))) | _ => false)) = true ∧
    (let x : Cell := {}; let w : Windows := { read := fun _ => some (List.replicate 16 0), spoiled := fun _ => false, writable := fun _ => true, codeWords := 2048, special := fun _ => 0 }; let complex : Bool := true; let sa : Nat := 0x07 * 2 ^ 26;
      decide (sa < 2 ^ 32) && (match x.issue w complex (sa * 2 ^ 32) with | .cell _ _ => (decide (aOp sa = 0x07) && (let i := 3; decide (i < 4))) | _ => false)) = true ∧
    (let x : Cell := {}; let w : Windows := { read := fun _ => some (List.replicate 16 0), spoiled := fun _ => false, writable := fun _ => true, codeWords := 2048, special := fun _ => 0 }; let complex : Bool := true; let sa : Nat := 0x08 * 2 ^ 26;
      decide (sa < 2 ^ 32) && (match x.issue w complex (sa * 2 ^ 32) with | .cell _ _ => (decide (aOp sa = 0x08) && (let i := 3; decide (i < 4))) | _ => false)) = true ∧
    (let x : Cell := {}; let w : Windows := { read := fun _ => some (List.replicate 16 0), spoiled := fun _ => false, writable := fun _ => true, codeWords := 2048, special := fun _ => 0 }; let complex : Bool := true; let sa : Nat := 0x09 * 2 ^ 26;
      decide (sa < 2 ^ 32) && (match x.issue w complex (sa * 2 ^ 32) with | .cell _ _ => (decide (aOp sa = 0x09) && (let i := 3; decide (i < 4))) | _ => false)) = true ∧
    (let x : Cell := {}; let w : Windows := { read := fun _ => some (List.replicate 16 0), spoiled := fun _ => false, writable := fun _ => true, codeWords := 2048, special := fun _ => 0 }; let complex : Bool := true; let sa : Nat := 0x0A * 2 ^ 26;
      decide (sa < 2 ^ 32) && (match x.issue w complex (sa * 2 ^ 32) with | .cell _ _ => (decide (aOp sa = 0x0A) && (let i := 3; decide (i < 4))) | _ => false)) = true ∧
    (let x : Cell := {}; let w : Windows := { read := fun _ => some (List.replicate 16 0), spoiled := fun _ => false, writable := fun _ => true, codeWords := 2048, special := fun _ => 0 }; let complex : Bool := true; let sa : Nat := 0x0B * 2 ^ 26;
      decide (sa < 2 ^ 32) && (match x.issue w complex (sa * 2 ^ 32) with | .cell _ _ => (decide (aOp sa = 0x0B) && (let i := 3; let j := (0 : Nat); decide (i < 4) && decide (j < 4))) | _ => false)) = true ∧
    (let x : Cell := {}; let w : Windows := { read := fun _ => some (List.replicate 16 0), spoiled := fun _ => false, writable := fun _ => true, codeWords := 2048, special := fun _ => 0 }; let complex : Bool := true; let sa : Nat := 0x10 * 2 ^ 26;
      decide (sa < 2 ^ 32) && (match x.issue w complex (sa * 2 ^ 32) with | .cell _ _ => (decide (aOp sa = 0x10) && (let i := 3; decide (i < 4))) | _ => false)) = true ∧
    (let x : Cell := {}; let w : Windows := { read := fun _ => some (List.replicate 16 0), spoiled := fun _ => false, writable := fun _ => true, codeWords := 2048, special := fun _ => 0 }; let complex : Bool := true; let sa : Nat := 0x11 * 2 ^ 26;
      decide (sa < 2 ^ 32) && (match x.issue w complex (sa * 2 ^ 32) with | .cell _ _ => (decide (aOp sa = 0x11) && (let i := 3; decide (i < 4))) | _ => false)) = true ∧
    (let x : Cell := {}; let w : Windows := { read := fun _ => some (List.replicate 16 0), spoiled := fun _ => false, writable := fun _ => true, codeWords := 2048, special := fun _ => 0 }; let complex : Bool := true; let sa : Nat := 0x12 * 2 ^ 26;
      decide (sa < 2 ^ 32) && (match x.issue w complex (sa * 2 ^ 32) with | .cell _ _ => (decide (aOp sa = 0x12) && (let i := 3; decide (i < 4))) | _ => false)) = true ∧
    (let x : Cell := {}; let w : Windows := { read := fun _ => some (List.replicate 16 0), spoiled := fun _ => false, writable := fun _ => true, codeWords := 2048, special := fun _ => 0 }; let complex : Bool := true; let sa : Nat := 0x13 * 2 ^ 26;
      decide (sa < 2 ^ 32) && (match x.issue w complex (sa * 2 ^ 32) with | .cell _ _ => (decide (aOp sa = 0x13) && (let i := 3; decide (i < 4))) | _ => false)) = true ∧
    (let x : Cell := {}; let w : Windows := { read := fun _ => some (List.replicate 16 0), spoiled := fun _ => false, writable := fun _ => true, codeWords := 2048, special := fun _ => 0 }; let complex : Bool := true; let sa : Nat := 0x18 * 2 ^ 26;
      decide (sa < 2 ^ 32) && (match x.issue w complex (sa * 2 ^ 32) with | .cell _ _ => (decide (aOp sa = 0x18) && (let i := 3; decide (i < 4) && decide (i / 2 ≠ pairX sa))) | _ => false)) = true ∧
    (let x : Cell := {}; let w : Windows := { read := fun _ => some (List.replicate 16 0), spoiled := fun _ => false, writable := fun _ => true, codeWords := 2048, special := fun _ => 0 }; let complex : Bool := true; let sa : Nat := 0x19 * 2 ^ 26;
      decide (sa < 2 ^ 32) && (match x.issue w complex (sa * 2 ^ 32) with | .cell _ _ => (decide (aOp sa = 0x19) && (let i := 3; decide (i < 4) && decide (i / 2 ≠ pairX sa))) | _ => false)) = true ∧
    (let x : Cell := {}; let w : Windows := { read := fun _ => some (List.replicate 16 0), spoiled := fun _ => false, writable := fun _ => true, codeWords := 2048, special := fun _ => 0 }; let complex : Bool := true; let sa : Nat := 0x1A * 2 ^ 26;
      decide (sa < 2 ^ 32) && (match x.issue w complex (sa * 2 ^ 32) with | .cell _ _ => (decide (aOp sa = 0x1A) && (let i := 1; decide (i < 2))) | _ => false)) = true ∧
    (let x : Cell := {}; let w : Windows := { read := fun _ => some (List.replicate 16 0), spoiled := fun _ => false, writable := fun _ => true, codeWords := 2048, special := fun _ => 0 }; let complex : Bool := true; let sa : Nat := 0x01 * 2 ^ 26;
      decide (sa < 2 ^ 32) && (match x.issue w complex (sa * 2 ^ 32) with | .cell _ _ => (decide (aOp sa ∈ ([0x01, 0x02, 0x04, 0x05, 0x06, 0x07, 0x08, 0x09, 0x0A, 0x12, 0x1A] : List Nat)) && (let r := 5; decide (r ≠ aDD sa))) | _ => false)) = true ∧
    (let x : Cell := {}; let w : Windows := { read := fun _ => some (List.replicate 16 0), spoiled := fun _ => false, writable := fun _ => true, codeWords := 2048, special := fun _ => 0 }; let complex : Bool := true; let sa : Nat := 0x10 * 2 ^ 26;
      decide (sa < 2 ^ 32) && (match x.issue w complex (sa * 2 ^ 32) with | .cell _ _ => (decide (aOp sa ∈ ([0x10, 0x11, 0x13, 0x18, 0x19] : List Nat)) && (let r := 5; decide (r ≠ aAX sa))) | _ => false)) = true ∧
    (let x : Cell := {}; let w : Windows := { read := fun _ => some (List.replicate 16 0), spoiled := fun _ => false, writable := fun _ => true, codeWords := 2048, special := fun _ => 0 }; let complex : Bool := true; let sa : Nat := 0x03 * 2 ^ 26;
      decide (sa < 2 ^ 32) && (match x.issue w complex (sa * 2 ^ 32) with | .cell _ _ => (decide (aOp sa = 0x03) && (let r := 5; decide (r ≠ aDD sa) && decide (r ≠ aDD sa + 1))) | _ => false)) = true ∧
    (let z : Int := 0; decide (-131072 ≤ z ∧ z ≤ 131071)) = true ∧
    (let z : Int := -131073; decide (z < -131072)) = true ∧
    (let z : Int := 131072; decide (131071 < z)) = true ∧
    (let z : Int := 0; decide (-(2 ^ 47) ≤ z ∧ z ≤ 2 ^ 47 - 1)) = true ∧
    (let z : Int := -(2 ^ 47) - 1; decide (z < -(2 ^ 47))) = true ∧
    (let z : Int := 2 ^ 47; decide (2 ^ 47 - 1 < z)) = true ∧
    (let z : Int := 0; decide (0 ≤ z)) = true := by
  decide +kernel

theorem witness_SlotBComputes :
    (let x : Cell := {}; let w : Windows := { read := fun _ => some (List.replicate 16 0), spoiled := fun _ => false, writable := fun _ => true, codeWords := 2048, special := fun _ => 0 }; let complex : Bool := true; let sb : Nat := 0;
      decide (sb < 2 ^ 32) && decide (Mem.wf 0 x.mem = true) && (match x.issue w complex sb with | .cell _ _ => (decide (bOp sb ≠ 0x01)) | _ => false)) = true ∧
    (let x : Cell := {}; let w : Windows := { read := fun _ => some (List.replicate 16 0), spoiled := fun _ => false, writable := fun _ => true, codeWords := 2048, special := fun _ => 0 }; let complex : Bool := true; let sb : Nat := 0;
      decide (sb < 2 ^ 32) && decide (Mem.wf 0 x.mem = true) && (match x.issue w complex sb with | .cell _ _ => (decide (bOp sb ≠ 0x06)) | _ => false)) = true ∧
    (let x : Cell := {}; let w : Windows := { read := fun _ => some (List.replicate 16 0), spoiled := fun _ => false, writable := fun _ => true, codeWords := 2048, special := fun _ => 0 }; let complex : Bool := true; let sb : Nat := 0;
      decide (sb < 2 ^ 32) && decide (Mem.wf 0 x.mem = true) && (match x.issue w complex sb with | .cell _ _ => (decide (bOp sb ∉ ([0x02, 0x04, 0x05, 0x07] : List Nat))) | _ => false)) = true ∧
    (let x : Cell := {}; let w : Windows := { read := fun _ => some (List.replicate 16 0), spoiled := fun _ => false, writable := fun _ => true, codeWords := 2048, special := fun _ => 0 }; let complex : Bool := true; let sb : Nat := 0x00 * 2 ^ 26;
      decide (sb < 2 ^ 32) && decide (Mem.wf 0 x.mem = true) && (match x.issue w complex sb with | .cell _ _ => (decide (bOp sb ∈ ([0x00, 0x01, 0x02, 0x04, 0x07, 0x08, 0x0F, 0x10, 0x11, 0x12] : List Nat))) | _ => false)) = true ∧
    (let x : Cell := {}; let w : Windows := { read := fun _ => some (List.replicate 16 0), spoiled := fun _ => false, writable := fun _ => true, codeWords := 2048, special := fun _ => 0 }; let complex : Bool := true; let sb : Nat := 0x01 * 2 ^ 26;
      decide (sb < 2 ^ 32) && decide (Mem.wf 0 x.mem = true) && (match x.issue w complex sb with | .cell _ _ => (decide (bOp sb ∈ ([0x01, 0x02, 0x03, 0x04, 0x05, 0x06] : List Nat)) && (let k := (3 : Nat); decide (k ≠ bGK sb))) | _ => false)) = true ∧
    (let x : Cell := {}; let w : Windows := { read := fun _ => some (List.replicate 16 0), spoiled := fun _ => false, writable := fun _ => true, codeWords := 2048, special := fun _ => 0 }; let complex : Bool := true; let sb : Nat := 0x01 * 2 ^ 26;
      decide (sb < 2 ^ 32) && decide (Mem.wf 0 x.mem = true) && (match x.issue w complex sb with | .cell _ _ => (decide (bOp sb = 0x01) && (let i := (0 : Nat); decide (i < 4))) | _ => false)) = true ∧
    (let x : Cell := {}; let w : Windows := { read := fun _ => some (List.replicate 16 0), spoiled := fun _ => false, writable := fun _ => true, codeWords := 2048, special := fun _ => 0 }; let complex : Bool := true; let sb : Nat := 0x01 * 2 ^ 26;
      decide (sb < 2 ^ 32) && decide (Mem.wf 0 x.mem = true) && (match x.issue w complex sb with | .cell _ _ => (decide (bOp sb = 0x01) && (let r := 5; decide (r ≠ bDR sb))) | _ => false)) = true ∧
    (let x : Cell := {}; let w : Windows := { read := fun _ => some (List.replicate 16 0), spoiled := fun _ => false, writable := fun _ => true, codeWords := 2048, special := fun _ => 0 }; let complex : Bool := true; let sb : Nat := 0x02 * 2 ^ 26;
      decide (sb < 2 ^ 32) && decide (Mem.wf 0 x.mem = true) && (match x.issue w complex sb with | .cell _ _ => (decide (bOp sb = 0x02) && (let i := (0 : Nat); decide (i < 4))) | _ => false)) = true ∧
    (let x : Cell := {}; let w : Windows := { read := fun _ => some (List.replicate 16 0), spoiled := fun _ => false, writable := fun _ => true, codeWords := 2048, special := fun _ => 0 }; let complex : Bool := true; let sb : Nat := 0x02 * 2 ^ 26;
      decide (sb < 2 ^ 32) && decide (Mem.wf 0 x.mem = true) && (match x.issue w complex sb with | .cell _ _ => (let g := x.gen (bGK sb); let at_ := g.addr; decide (bOp sb = 0x02) && (let a := (100 : Nat); decide (a < 0x8000) && decide ((List.range 4).all (fun i => a != (at_ + i) % 0x8000) = true))) | _ => false)) = true ∧
    (let x : Cell := {}; let w : Windows := { read := fun _ => some (List.replicate 16 0), spoiled := fun _ => false, writable := fun _ => true, codeWords := 2048, special := fun _ => 0 }; let complex : Bool := true; let sb : Nat := 0x03 * 2 ^ 26;
      decide (sb < 2 ^ 32) && decide (Mem.wf 0 x.mem = true) && (match x.issue w complex sb with | .cell _ _ => (decide (bOp sb = 0x03)) | _ => false)) = true ∧
    (let x : Cell := {}; let w : Windows := { read := fun _ => some (List.replicate 16 0), spoiled := fun _ => false, writable := fun _ => true, codeWords := 2048, special := fun _ => 0 }; let complex : Bool := true; let sb : Nat := 0x04 * 2 ^ 26 + 2 ^ 16;
      decide (sb < 2 ^ 32) && decide (Mem.wf 0 x.mem = true) && (match x.issue w complex sb with | .cell _ _ => (decide (bOp sb = 0x04) && decide (bWide sb = true)) | _ => false)) = true ∧
    (let x : Cell := {}; let w : Windows := { read := fun _ => some (List.replicate 16 0), spoiled := fun _ => false, writable := fun _ => true, codeWords := 2048, special := fun _ => 0 }; let complex : Bool := true; let sb : Nat := 0x05 * 2 ^ 26;
      decide (sb < 2 ^ 32) && decide (Mem.wf 0 x.mem = true) && (match x.issue w complex sb with | .cell _ _ => (decide (bOp sb = 0x05) && (let i := (0 : Nat); decide (i < 8))) | _ => false)) = true ∧
    (let x : Cell := {}; let w : Windows := { read := fun _ => some (List.replicate 16 0), spoiled := fun _ => false, writable := fun _ => true, codeWords := 2048, special := fun _ => 0 }; let complex : Bool := true; let sb : Nat := 0x06 * 2 ^ 26;
      decide (sb < 2 ^ 32) && decide (Mem.wf 0 x.mem = true) && (match x.issue w complex sb with | .cell _ _ => (decide (bOp sb = 0x06)) | _ => false)) = true ∧
    (let x : Cell := {}; let w : Windows := { read := fun _ => some (List.replicate 16 0), spoiled := fun _ => false, writable := fun _ => true, codeWords := 2048, special := fun _ => 0 }; let complex : Bool := true; let sb : Nat := 0x05 * 2 ^ 26;
      decide (sb < 2 ^ 32) && decide (Mem.wf 0 x.mem = true) && (match x.issue w complex sb with | .cell _ _ => (decide (bOp sb ∈ ([0x05, 0x06] : List Nat))) | _ => false)) = true ∧
    (let x : Cell := {}; let w : Windows := { read := fun _ => some (List.replicate 16 0), spoiled := fun _ => false, writable := fun _ => true, codeWords := 2048, special := fun _ => 0 }; let complex : Bool := true; let sb : Nat := 0x09 * 2 ^ 26;
      decide (sb < 2 ^ 32) && decide (Mem.wf 0 x.mem = true) && (match x.issue w complex sb with | .cell _ _ => (decide (bOp sb = 0x09)) | _ => false)) = true ∧
    (let x : Cell := {}; let w : Windows := { read := fun _ => some (List.replicate 16 0), spoiled := fun _ => false, writable := fun _ => true, codeWords := 2048, special := fun _ => 0 }; let complex : Bool := true; let sb : Nat := 0x0A * 2 ^ 26;
      decide (sb < 2 ^ 32) && decide (Mem.wf 0 x.mem = true) && (match x.issue w complex sb with | .cell _ _ => (decide (bOp sb = 0x0A)) | _ => false)) = true ∧
    (let x : Cell := {}; let w : Windows := { read := fun _ => some (List.replicate 16 0), spoiled := fun _ => false, writable := fun _ => true, codeWords := 2048, special := fun _ => 0 }; let complex : Bool := true; let sb : Nat := 0x0B * 2 ^ 26;
      decide (sb < 2 ^ 32) && decide (Mem.wf 0 x.mem = true) && (match x.issue w complex sb with | .cell _ _ => (decide (bOp sb = 0x0B)) | _ => false)) = true ∧
    (let x : Cell := {}; let w : Windows := { read := fun _ => some (List.replicate 16 0), spoiled := fun _ => false, writable := fun _ => true, codeWords := 2048, special := fun _ => 0 }; let complex : Bool := true; let sb : Nat := 0x0C * 2 ^ 26;
      decide (sb < 2 ^ 32) && decide (Mem.wf 0 x.mem = true) && (match x.issue w complex sb with | .cell _ _ => (decide (bOp sb = 0x0C)) | _ => false)) = true ∧
    (let x : Cell := {}; let w : Windows := { read := fun _ => some (List.replicate 16 0), spoiled := fun _ => false, writable := fun _ => true, codeWords := 2048, special := fun _ => 0 }; let complex : Bool := true; let sb : Nat := 0x0F * 2 ^ 26;
      decide (sb < 2 ^ 32) && decide (Mem.wf 0 x.mem = true) && (match x.issue w complex sb with | .cell _ _ => (decide (bOp sb = 0x0F)) | _ => false)) = true ∧
    (let x : Cell := {}; let w : Windows := { read := fun _ => some (List.replicate 16 0), spoiled := fun _ => false, writable := fun _ => true, codeWords := 2048, special := fun _ => 0 }; let complex : Bool := true; let sb : Nat := 0x12 * 2 ^ 26;
      decide (sb < 2 ^ 32) && decide (Mem.wf 0 x.mem = true) && (match x.issue w complex sb with | .cell _ _ => (decide (bOp sb = 0x12)) | _ => false)) = true ∧
    (let x : Cell := {}; let w : Windows := { read := fun _ => some (List.replicate 16 0), spoiled := fun _ => false, writable := fun _ => true, codeWords := 2048, special := fun _ => 0 }; let complex : Bool := true; let sb : Nat := 0x07 * 2 ^ 26;
      decide (sb < 2 ^ 32) && decide (Mem.wf 0 x.mem = true) && (match x.issue w complex sb with | .cell _ _ => (decide (bOp sb = 0x07) && decide (scaleShift x.peak = 0)) | _ => false)) = true ∧
    (let x : Cell := { peak := 65535, g := Vector.replicate 4 { len := 4 } }; let w : Windows := { read := fun _ => some (List.replicate 16 0), spoiled := fun _ => false, writable := fun _ => true, codeWords := 2048, special := fun _ => 0 }; let complex : Bool := true; let sb : Nat := 0x07 * 2 ^ 26;
      decide (sb < 2 ^ 32) && decide (Mem.wf 0 x.mem = true) && (match x.issue w complex sb with | .cell _ _ => (decide (bOp sb = 0x07) && decide (scaleShift x.peak ≠ 0)) | _ => false)) = true ∧
    (let x : Cell := {}; let w : Windows := { read := fun _ => some (List.replicate 16 0), spoiled := fun _ => false, writable := fun _ => true, codeWords := 2048, special := fun _ => 0 }; let complex : Bool := true; let sb : Nat := 0x03 * 2 ^ 26;
      decide (sb < 2 ^ 32) && decide (Mem.wf 0 x.mem = true) && (match x.issue w complex sb with | .cell _ _ => (decide (bOp sb ∈ ([0x03, 0x09, 0x0A, 0x0B, 0x0D, 0x0E] : List Nat)) && (let r := 5; decide (r ≠ bSR sb))) | _ => false)) = true ∧
    (let x : Cell := {}; let w : Windows := { read := fun _ => some (List.replicate 16 0), spoiled := fun _ => false, writable := fun _ => true, codeWords := 2048, special := fun _ => 0 }; let complex : Bool := true; let sb : Nat := 0x11 * 2 ^ 26;
      decide (sb < 2 ^ 32) && decide (Mem.wf 0 x.mem = true) && (match x.issue w complex sb with | .cell _ _ => (decide (bOp sb = 0x11) && decide ((nbits sb 23 3 = 0 ∨ (nbits sb 23 3 = 1 ∧ x.sReg (bSA sb) = 0) ∨ (nbits sb 23 3 = 2 ∧ x.sReg (bSA sb) ≠ 0) ∨ (nbits sb 23 3 = 3 ∧ (x.sReg (bSA sb)).toInt < 0) ∨ (nbits sb 23 3 = 4 ∧ 0 ≤ (x.sReg (bSA sb)).toInt)))) | _ => false)) = true := by
  decide +kernel

theorem witness_DivisionStepsDivide :
    (let sb : Nat := 0x0C * 2 ^ 26; decide (bOp sb = 0x0C)) = true ∧
    (let sb : Nat := 0x0C * 2 ^ 26; decide (bOp sb = 0x0C) && decide (bSR sb % 2 = 0)) = true ∧
    (let r : Nat := 0; let q : Nat := 0; let v : Nat := 0;
      decide (r < 2 ^ 32) && decide (q < 2 ^ 32) && decide (v < 2 ^ 32) && (let t := 2 * (r * 2 ^ 32 + q); decide (v ≤ t / 2 ^ 32))) = true ∧
    (let r : Nat := 0; let q : Nat := 0; let v : Nat := 1;
      decide (r < 2 ^ 32) && decide (q < 2 ^ 32) && decide (v < 2 ^ 32) && (let t := 2 * (r * 2 ^ 32 + q); decide (t / 2 ^ 32 < v))) = true ∧
    (let r : Nat := 0; let q : Nat := 0; let v : Nat := 1; decide (r < v) && decide (q < 2 ^ 32) && decide (v < 2 ^ 32)) = true ∧
    (let r : Nat := 0; let q : Nat := 0; decide (r < 2 ^ 32) && decide (q < 2 ^ 32)) = true := by
  decide +kernel

theorem witness_LoftJobsAndMemories :
    (let l : Loft := awake.loft; let a : Nat := 0; let bs : List Byte := [];
      decide (Mem.wf 0 l.landing = true) && (let b := (0 : Nat); let n := (0 : Nat); decide (b + n ≤ a ∨ a + bs.length ≤ b))) = true ∧
    (let s : State := loftOn (fset (fset 2 F.LOFT_CFG.ENABLE 1) F.LOFT_CFG.SCRUB_EN 1) awake;
      decide (s.power.loft = true) && decide (fbit s.loft.cfg F.LOFT_CFG.ENABLE = true)) = true ∧
    (let s : State := awake; decide (s.power.loft = false ∨ fbit s.loft.cfg F.LOFT_CFG.ENABLE = false)) = true ∧
    (let leg : Nat := 0; let group : Nat := 0; let j : Job := { aJob with work := .map }; let s : State := { awake with loft := { awake.loft with jobs := [{ aJob with work := .map }] } };
      decide (s.loft.jobs.find? (fun j => j.leg == leg && j.item == group) = some j) && (match s.loft.poolFor .map none j.frame with | some (_, _) => (decide (s.loft.streamIdle j = true)) | _ => false)) = true ∧
    (let p : Pool := { cplx := 0x80 }; let s : State := cellWith { job := some aJob } awake;
      decide ((∀ c ∈ p.cells, (s.cell c).job.isNone = false))) = true ∧
    (let p : Pool := { cplx := 0x80 }; let k : ReadCheck := ReadCheck.clean; let s : State := awake; let c := (71 : Nat);
      decide (p.cells.find? (fun c => (s.cell c).job.isNone) = some c) && decide (beyondRepair k = false)) = true ∧
    (let s : State := awake; decide (s.loft.vec.next = none)) = true ∧
    (let s : State := committing 0 watching; (match s.loft.vec.next with | some _ => (true) | _ => false)) = true ∧
    (let s : State := State.reset; decide (s.power.loft = false ∨ fbit s.loft.cfg F.LOFT_CFG.SCRUB_EN = false)) = true ∧
    (let s : State := awake; decide (s.power.loft = true) && decide (fbit s.loft.cfg F.LOFT_CFG.SCRUB_EN = true)) = true ∧
    (let s : State := loftOn (fset (fset 2 F.LOFT_CFG.ENABLE 1) F.LOFT_CFG.SCRUB_EN 1) awake;
      decide (s.power.loft = true) && decide (fbit s.loft.cfg F.LOFT_CFG.SCRUB_EN = true) && (let k := ReadCheck.beyond 5; decide (beyondRepair k = true))) = true ∧
    (let leg : Fin 2 := 1; let s : State := awake; decide ((s.mapLeg leg.val).base = none)) = true ∧
    (let leg : Fin 2 := 0; let base : Nat := 0; let tF : Nat := 160000; let detail : Bool := false; let bank : LegBank := plainBank; let s : State := blockReady (2 ^ 40) watching;
      decide ((s.mapLeg leg.val).base = some (base, bank, detail, tF)) && (let v := s.applyDue (pickLeg cMapSet leg.val) (if fbit (s.mapLeg leg.val).cfg F.MAP_CFG.ON then (if (s.mapLeg leg.val).group = 0 then sampleFrame base bank.count (256 * (s.mapLeg leg.val).block) else 0) else s.globalFrame (s.frameAt s.now)) State.applyMapSet; let m := v.mapLeg leg.val; let found := v.cellar.blockRows leg.val base m.block bank; let rows := found.filterMap id; decide (v.power.loft = true) && decide (fbit v.loft.cfg F.LOFT_CFG.ENABLE = true) && decide (fbit m.cfg F.MAP_CFG.ON = true) && decide (bank.on = true) && decide (found.all Option.isSome = true) && (match rows.getLast? with | some last => (decide (last.boundary + sec / 2 + 10 * tF ≤ v.now) && decide (rows.any (fun r => r.p + v.cellar.full.size < v.cellar.full.pos + v.cellar.full.taken + v.guardBytes) = true)) | _ => false))) = true ∧
    (let leg : Fin 2 := 0; let base : Nat := 0; let tF : Nat := 160000; let detail : Bool := false; let bank : LegBank := plainBank; let s : State := blockReady 0 watching;
      decide ((s.mapLeg leg.val).base = some (base, bank, detail, tF)) && (let v := s.applyDue (pickLeg cMapSet leg.val) (if fbit (s.mapLeg leg.val).cfg F.MAP_CFG.ON then (if (s.mapLeg leg.val).group = 0 then sampleFrame base bank.count (256 * (s.mapLeg leg.val).block) else 0) else s.globalFrame (s.frameAt s.now)) State.applyMapSet; let m := v.mapLeg leg.val; let found := v.cellar.blockRows leg.val base m.block bank; let rows := found.filterMap id; decide (v.power.loft = true) && decide (fbit v.loft.cfg F.LOFT_CFG.ENABLE = true) && decide (fbit m.cfg F.MAP_CFG.ON = true) && decide (bank.on = true) && decide (found.all Option.isSome = true) && (match rows.getLast? with | some last => (decide (last.boundary + sec / 2 + 10 * tF ≤ v.now) && decide (rows.any (fun r => r.p + v.cellar.full.size < v.cellar.full.pos + v.cellar.full.taken + v.guardBytes) = false) && decide (rows.any (fun r => v.cellar.ringSpoiled false (r.p + 64 + 64 * m.group) 64 || v.cellar.ringSpoiled false (r.p + 64 + 2 * bank.len + 8 * m.group) 8) = false) && (let i := (0 : Nat); decide ((List.range 48).find? (fun i => !v.loft.slots.contains i) = some i))) | _ => false))) = true := by
  decide +kernel

theorem witness_FloodedFramesAreTakenOnce :
    (let h : CwHeader := { port := 0, src := 1, hops := 7, seq := 1, good := false }; let s : State := wired aRing awake;
      decide (s.cw.runs h.port.val = true) && decide (h.good = false)) = true ∧
    (let h : CwHeader := { port := 0, src := 1, hops := 7, seq := 1, good := true }; let type : Nat := 0; let own : Bool := false; let payload : List Byte := []; let s : State := wired aRing awake;
      decide ((s.cwFlood h type own payload).2 = true)) = true ∧
    (let h : CwHeader := { port := 0, src := 1, hops := 7, seq := 1, good := true }; let type : Nat := 0; let own : Bool := true; let s : State := awake;
      decide (h.good = true) && decide ((own = true ∨ h.hops.val = 0 ∨ (h.src.val, type, h.seq.val) ∈ s.cw.taken))) = true ∧
    (let h : CwHeader := { port := 0, src := 1, hops := 7, seq := 1, good := true }; let time : Fin (2 ^ 64) := 0; let groups : Fin 16 := 15; let s : State := awake; let a := s.cwFlood h cwVerdict (s.cwOwn h) (leBytes 8 time.val ++ leBytes 1 groups.val);
      decide (a.2 = false)) = true ∧
    (let h : CwHeader := { port := 0, src := 1, hops := 7, seq := 1, good := true }; let time : Fin (2 ^ 64) := 0; let groups : Fin 16 := 15; let s : State := wired aRing awake; let a := s.cwFlood h cwVerdict (s.cwOwn h) (leBytes 8 time.val ++ leBytes 1 groups.val);
      decide (a.2 = true) && (match a.1.cw.ring[h.src.val]? with | some d => (decide (a.1.verdictOf d time.val = none)) | _ => false)) = true ∧
    (let h : CwHeader := { port := 0, src := 1, hops := 7, seq := 1, good := true }; let time : Fin (2 ^ 64) := 0; let groups : Fin 16 := 15; let s : State := wired aRing { awake with trig := { awake.trig with verdicts := [⟨0, 5, 0, false⟩] } }; let a := s.cwFlood h cwVerdict (s.cwOwn h) (leBytes 8 time.val ++ leBytes 1 groups.val);
      decide (a.2 = true) && (match a.1.cw.ring[h.src.val]? with | some d => ((match a.1.verdictOf d time.val with | some _ => (true) | _ => false)) | _ => false)) = true ∧
    (let h : CwHeader := { port := 0, src := 1, hops := 7, seq := 1, good := true }; let time : Fin (2 ^ 64) := 0; let s : State := awake; let a := s.cwFlood h cwReset (s.cwOwn h) (leBytes 8 time.val);
      decide (a.2 = false)) = true ∧
    (let h : CwHeader := { port := 0, src := 1, hops := 7, seq := 1, good := true }; let time : Fin (2 ^ 64) := 0; let s : State := wired aRing awake; let a := s.cwFlood h cwReset (s.cwOwn h) (leBytes 8 time.val);
      decide (a.2 = true) && (let leg := (0 : Nat); decide (leg < 2))) = true ∧
    (let c : Causeway := (wired aRing awake).cw; let p : Nat := 0; decide (c.runs p = true)) = true := by
  decide +kernel

theorem witness_RingFollowsItsMembers :
    (let s : State := wired aRing awake; decide (s.cwLive = true)) = true ∧
    (let s : State := awake; decide (s.cwLive = false)) = true ∧
    (let h : CwHeader := { port := 0, src := 1, hops := 7, seq := 1, good := true }; let s : State := wired aRing awake;
      decide (s.cw.runs h.port.val = true) && decide (h.good = true)) = true ∧
    (let m : Member := { serial := 9, strap := false, locked := true, port := 0, hops := 1, lastUp := 0 }; let s : State := awake;
      decide (m.serial ∉ s.cw.members.map (·.serial)) && decide ((s.cwRing && s.planRuns) = false)) = true ∧
    (let s : State := wired { members := [member 1, member 2, member 3, member 4, member 5, member 6, member 7, member 8] } awake;
      decide (s.cwLive = true) && decide ((s.cw.stable = false ∨ s.cw.rejoin = true)) && decide (8 < s.cwSerials.length)) = true ∧
    (let s : State := wired { members := [member 1, member 2, member 3, member 4, member 5, member 6, member 7] } awake;
      decide (s.cwLive = true) && decide (s.cw.stable = false) && decide (s.cw.rejoin = false) && decide (s.cwSerials.length ≤ 8)) = true ∧
    (let s : State := { awake with power := { awake.power with masterSel := true } }; let ring : List Nat := [0, 5];
      decide (ring.Pairwise (· < ·)) && decide (ring ≠ []) && decide ((∃ n ∈ ring, s.cwStrap n = true)) && (let n := (0 : Nat); decide (n ∈ ring) && decide (s.cwStrap n = true))) = true ∧
    (let s : State := awake; let ring : List Nat := [0, 5];
      decide (ring.Pairwise (· < ·)) && decide (ring ≠ []) && decide ((∀ n ∈ ring, s.cwStrap n = false)) && (let n := (0 : Nat); decide (n ∈ ring))) = true ∧
    (let p : Fin 2 := 1; let s : State := wired { aRing with err := portsUp } awake;
      decide (s.cw.runs p.val = true) && decide (fbit (vget s.cw.err p.val 0) F.CW_ERR.UP = true)) = true ∧
    (let p : Fin 2 := 1; let s : State := wired { aRing with fallen := Vector.replicate 2 true } awake;
      decide (s.cw.runs p.val = true) && decide (vget s.cw.fallen p.val false = true) && decide (s.cw.ring ≠ [])) = true ∧
    (let s : State := wired { aRing with stat := fset 0 F.CW_STAT.LINE 1, members := [member 5] } awake;
      decide (s.cwRing = true) && decide (fbit s.cw.stat F.CW_STAT.LINE = true) && (match s.cw.members.filter (fun m => (s.cw.segment.getD s.cw.ring).contains m.serial) with | _ :: _ => (true) | _ => false)) = true ∧
    (let s : State := awake; decide (s.cwRing = false ∨ fbit s.cw.stat F.CW_STAT.LINE = false)) = true ∧
    (let p : Fin 2 := 1; let s : State := wired { aRing with err := portsUp, exchanges := Vector.replicate 2 (List.replicate 63 0) } awake;
      decide (s.cwRing = true) && decide (fbit (vget s.cw.err p.val 0) F.CW_ERR.UP = true) && decide ((vget s.cw.exchanges p.val []).length < 64)) = true ∧
    (let p : Fin 2 := 1; let s : State := wired { aRing with err := portsUp, exchanges := Vector.replicate 2 (List.replicate 64 0) } awake;
      decide (s.cwRing = true) && decide (fbit (vget s.cw.err p.val 0) F.CW_ERR.UP = true) && decide (64 ≤ (vget s.cw.exchanges p.val []).length)) = true ∧
    (let p : Fin 2 := 1; let s : State := awake; decide (s.cwRing = false ∨ fbit (vget s.cw.err p.val 0) F.CW_ERR.UP = false)) = true ∧
    (let h : CwHeader := ({ port := 0, src := 1, hops := 7, seq := 1, good := true } : CwHeader); let s : State := wired { aRing with err := portsUp, exchanges := Vector.replicate 2 (List.replicate 63 0) } awake;
      decide (s.cw.runs h.port.val = true) && decide (h.good = true) && decide ((vget s.cw.exchanges h.port.val []).length < 64)) = true ∧
    (let h : CwHeader := ({ port := 0, src := 1, hops := 7, seq := 1, good := true } : CwHeader); let s : State := wired { aRing with err := portsUp, exchanges := Vector.replicate 2 (List.replicate 64 0) } awake;
      decide (s.cw.runs h.port.val = true) && decide (h.good = true) && decide (64 ≤ (vget s.cw.exchanges h.port.val []).length)) = true ∧
    (let s : State := wired { aRing with stat := fset 0 F.CW_STAT.MASTER 1 } awake;
      decide (s.cwLive = true) && decide (s.cwRing = true) && decide (s.cwMaster = true)) = true ∧
    (let s : State := awake; decide (s.cwLive = false ∨ s.cwRing = false ∨ s.cwMaster = false)) = true ∧
    (let h : CwHeader := ({ port := 0, src := 1, hops := 7, seq := 1, good := true } : CwHeader); let hops : Fin 256 := 255; let s : State := wired aRing awake;
      decide (s.cw.runs h.port.val = true) && decide (h.good = true) && decide (s.cwRing = true) && decide (s.cwMaster = false) && (let u := { s with cw := { s.cw with timeHops := vset s.cw.timeHops h.port.val (some hops.val) } }; let d := vget s.cw.hop h.port.val 0; decide ((u.cw.neighbour ≠ some h.port.val ∨ d = 0xFFFFFFFF)))) = true ∧
    (let h : CwHeader := ({ port := 0, src := 1, hops := 7, seq := 1, good := true } : CwHeader); let hops : Fin 256 := 255; let s : State := wired { aRing with err := portsUp, hop := #v[5, 5] } awake;
      decide (s.cw.runs h.port.val = true) && decide (h.good = true) && decide (s.cwRing = true) && decide (s.cwMaster = false) && (let u := { s with cw := { s.cw with timeHops := vset s.cw.timeHops h.port.val (some hops.val) } }; let d := vget s.cw.hop h.port.val 0; decide (u.cw.neighbour = some h.port.val) && decide (d ≠ 0xFFFFFFFF))) = true ∧
    (let h : CwHeader := ({ port := 0, src := 1, hops := 7, seq := 1, good := true } : CwHeader); let hops : Fin 256 := 255; let s : State := wired {} awake;
      decide (s.cw.runs h.port.val = true) && decide (h.good = true) && decide ((s.cwRing = false ∨ s.cwMaster = true))) = true := by
  decide +kernel

theorem witness_CollectorRaisesItsSources :
    (let f : FaultSource := { raised := true }; decide (f.raised = true)) = true ∧
    (let f : FaultSource := {}; let always : Bool := false;
      decide (f.raised = false) && decide (fbit f.src F.FC_SRC.EN = false) && decide (always = false)) = true ∧
    (let f : FaultSource := { src := fset 0 F.FC_SRC.EN 1 }; let always : Bool := false;
      decide (f.raised = false) && decide ((fbit f.src F.FC_SRC.EN = true ∨ always = true)) && decide (always = false)) = true ∧
    (let f : FaultSource := {}; let always : Bool := true; decide (f.raised = false) && decide (always = true)) = true ∧
    (let f : FaultSource := {}; let t : Nat := 0; let detail : Nat := 0; let always : Bool := true; let e := f.occur t detail always;
      decide (e.2 = true)) = true ∧
    (let f : FaultSource := {}; let t : Nat := 0; let detail : Nat := 0; let always : Bool := false; let e := f.occur t detail always;
      decide (f.raised = false) && decide (e.2 = false)) = true ∧
    (let n : Nat := 127; decide (n < 128) && (let m := 0; decide (m ≠ n))) = true ∧
    (let n : Nat := 127; decide (sourceListed n = false)) = true ∧
    (let r : FaultReport := { source := ⟨srcIlock, by decide⟩, detail := 0, holds := true, record := .other };
      decide (levelSources.contains r.source.val = true) && (let m := (0 : Nat); decide (m ≠ r.source.val))) = true ∧
    (let s : State := awake; decide (s.fc.watching = true)) = true ∧
    (let s : State := awake; decide ((s.boot.phase = .firmware ∨ s.boot.phase = .ready))) = true ∧
    (let s : State := State.reset; decide (s.boot.phase ≠ .firmware) && decide (s.boot.phase ≠ .ready)) = true := by
  decide +kernel

theorem witness_StartUpFollowsItsSequence :
    (let s : State := awake; (match exec .resetNLow s with | .next _ => (true) | _ => false)) = true ∧
    (let s : State := { State.reset with larder := { State.reset.larder with torn := true } };
      decide (s.boot.phase = .off) && decide (s.boot.railsGood = true) && decide (s.larder.torn = true)) = true ∧
    (let s : State := awake; decide (s.boot.phase ≠ .off ∨ s.boot.railsGood = false)) = true ∧
    (let s : State := phased .rom State.reset;
      decide (s.boot.phase = .rom) && (let p := s.preferred; decide (s.imageGood p = false) && decide (s.imageGood (1 - p) = false))) = true ∧
    (let s : State := awake; decide (s.boot.phase ≠ .rom)) = true ∧
    (let s : State := phased .firmware State.reset;
      decide (s.boot.phase = .firmware) && decide (s.thr.calUp = none) && decide (s.boot.training = none) && decide (s.boot.activate = none)) = true ∧
    (let s : State := phased .firmware { State.reset with boot := { State.reset.boot with activate := some 1 } };
      decide (s.boot.phase = .firmware) && decide (s.thr.calUp = none) && decide (s.boot.training = none) && (match s.boot.activate with | some _ => (true) | _ => false)) = true ∧
    (let s : State := awake; decide (s.boot.phase ≠ .firmware ∨ s.thr.calUp ≠ none ∨ s.boot.training ≠ none)) = true := by
  decide +kernel

/-- A firmware image in slot `slot`: magic, version 1, a rollback count of 5, a body of one byte (Table 23.2). -/
def flashed (slot : Nat) (s : State) : State := { s with porch := { s.porch with
  flash := Mem.writeN 0xFF [] (slotBase slot) (leBytes 4 0x4F4E4657 ++ leBytes 4 1 ++ leBytes 4 5 ++ leBytes 4 1) } }
/-- A key is set and a challenge is out. -/
def challenged (s : State) : State := { s with fw := { s.fw with sec := { key := some (List.replicate 8 0), nonce := some (List.replicate 4 0) } } }

/-- Where a hypothesis asks for a valid signature, all but the signature is shown: Ed25519 is not evaluated in the model (DESIGN CHOICE, log entry 9). -/
theorem witness_signed_image (h : ∀ m g, Config.ed25519 Config.vendorKey m g = true) (s : State) : (flashed 0 s).imageSigned 0 = true := by
  have h1 : (flashed 0 s).imageField 0 0 4 = 0x4F4E4657 := (by decide +kernel : (flashed 0 awake).imageField 0 0 4 = 0x4F4E4657)
  have h2 : (flashed 0 s).imageField 0 12 4 = 1 := (by decide +kernel : (flashed 0 awake).imageField 0 12 4 = 1)
  simp [State.imageSigned, h1, h2, h]
/-- FW_ACTIVATE: what its begin and its rollback refusal ask for beside the signature. -/
theorem witness_fwActivate :
    met (.fwActivate 4) (flashed 0 (asks 4 0x089 [0] awake)) (fun cmd t => decide (cmd.p 0 < 2 ∧ t.larder.rollback ≤ t.imageRollback (cmd.p 0))) = true ∧
    met (.fwActivate 4) (flashed 0 (asks 4 0x089 [0] { awake with larder := { awake.larder with rollback := 6 } }))
      (fun cmd t => decide (cmd.p 0 < 2 ∧ t.imageRollback (cmd.p 0) < t.larder.rollback)) = true := by decide +kernel
/-- SEC_UNLOCK answers: a valid signature in time. -/
theorem witness_secUnlock (h : ∀ k m g, Config.ed25519 k m g = true) : (challenged awake).unlocks (List.replicate 64 0) = true := by
  have h1 : (challenged awake).time.up ≤ (challenged awake).fw.sec.nonceUp + 10 * sec := by decide +kernel
  have h2 : (challenged awake).fw.sec.key = some (List.replicate 8 0) := rfl
  have h3 : (challenged awake).fw.sec.nonce = some (List.replicate 4 0) := rfl
  simp [State.unlocks, h1, h2, h3, h]
/-- The same: what it asks for beside the signature. -/
theorem witness_secUnlock_request :
    met (.secUnlock 4) (asksBulk 4 0x0A1 [] (List.replicate 64 0) (challenged awake))
      (fun cmd t => decide (cmd.bulk.length = 64) && (match t.fw.sec.lockUntil with | some u => decide (u ≤ t.time.up) | none => true)) = true := by decide +kernel
/-- BOOT_IMAGE_LOADED: the preferred slot's image is good; the other alone is. -/
theorem witness_boot_images (h : ∀ m g, Config.ed25519 Config.vendorKey m g = true) :
    (flashed 0 (phased .rom State.reset)).imageGood (flashed 0 (phased .rom State.reset)).preferred = true ∧
    (flashed 1 (phased .rom State.reset)).imageGood (flashed 1 (phased .rom State.reset)).preferred = false ∧
    (flashed 1 (phased .rom State.reset)).imageGood (1 - (flashed 1 (phased .rom State.reset)).preferred) = true := by
  have p0 : (flashed 0 (phased .rom State.reset)).preferred = 0 := by decide +kernel
  have p1 : (flashed 1 (phased .rom State.reset)).preferred = 0 := by decide +kernel
  have a1 : (flashed 0 (phased .rom State.reset)).imageField 0 0 4 = 0x4F4E4657 := by decide +kernel
  have a2 : (flashed 0 (phased .rom State.reset)).imageField 0 12 4 = 1 := by decide +kernel
  have a3 : (flashed 0 (phased .rom State.reset)).imageRollback 0 = 5 := by decide +kernel
  have b1 : (flashed 1 (phased .rom State.reset)).imageField 1 0 4 = 0x4F4E4657 := by decide +kernel
  have b2 : (flashed 1 (phased .rom State.reset)).imageField 1 12 4 = 1 := by decide +kernel
  have b3 : (flashed 1 (phased .rom State.reset)).imageRollback 1 = 5 := by decide +kernel
  have c1 : (flashed 1 (phased .rom State.reset)).imageField 0 0 4 = 0xFFFFFFFF := by decide +kernel
  have r0 : (flashed 0 (phased .rom State.reset)).larder.rollback = 0 := rfl
  have r1 : (flashed 1 (phased .rom State.reset)).larder.rollback = 0 := rfl
  refine ⟨?_, ?_, ?_⟩
  · rw [p0]; simp [State.imageGood, State.imageFault, State.imageSigned, a1, a2, a3, r0, h]
  · rw [p1]; simp [State.imageGood, State.imageFault, State.imageSigned, c1]
  · rw [p1]; simp [State.imageGood, State.imageFault, State.imageSigned, b1, b2, b3, r1, h]

end Sys2Proof.Tests
end

/-! SUPPORT. The interlock and the chain port of the Hearth (R75 to R80): what a cut, a GO and the end of a transfer leave of a record.
A lemma here names the new STAT word by an `∃`: what the word is, is told by its fields, and no proof compares it with the old one. -/

namespace Sys2Proof.Machine

/-! ### Vectors of registers -/

theorem vget_map {α β : Type} {n i : Nat} {v : Vector α n} {f : α → β} {d : α} {e : β} (h : i < n) : vget (v.map f) i e = f (vget v i d) := by
  simp [vget, h]

/-- The first `k` elements come from the list, the others stay. -/
theorem vget_fillVec {n i : Nat} {v : Vector Word n} {ws : List Word} {d : Word} (k : Nat) (h : i < n) :
    vget (fillVec v ws k) i d = if i < k then wat ws i else vget v i d := by
  induction k with
  | zero => rfl
  | succ k ih =>
    have hstep : fillVec v ws (k + 1) = vset (fillVec v ws k) k (wat ws k) := by simp [fillVec, List.range_succ]
    rw [hstep]
    rcases Nat.lt_trichotomy i k with hlt | rfl | hgt
    · rw [vget_vset_ne (by omega), ih, if_pos hlt, if_pos (by omega)]
    · rw [vget_vset_self h, if_pos (by omega)]
    · rw [vget_vset_ne (by omega), ih, if_neg (by omega), if_neg (by omega)]

/-! ### Cuts (R69, R78) -/

theorem DriveChannel.zero_eq (c : DriveChannel) : ∃ w, c.zero = { c with stat := w, fade := none } ∧ fget w F.HD_STAT.OUT = 0 :=
  ⟨_, rfl, (fget_fsetB_ne (by decide) (by decide)).trans (fget_fset (by decide))⟩

theorem DriveChannel.cut_eq (c : DriveChannel) : ∃ w,
    c.cut = { c with stat := w, fade := none, openRun := 0, shortRun := 0 } ∧ fget w F.HD_STAT.OUT = 0 ∧ fbit w F.HD_STAT.CUT = true := by
  obtain ⟨w, hzero, hout⟩ := c.zero_eq
  rw [DriveChannel.cut, hzero]
  exact ⟨_, rfl, (fget_fset_ne (by decide) (by decide)).trans hout, fbit_fset (by decide)⟩

theorem DriveChannel.cut_fields (c : DriveChannel) : c.cut.out = 0 ∧ c.cut.fade = none ∧ c.cut.drives = false ∧ c.cut.set = c.set := by
  obtain ⟨w, hcut, hout, hbit⟩ := c.cut_eq
  rw [hcut]
  exact ⟨hout, rfl, by simp [DriveChannel.drives, hbit], rfl⟩

theorem GateChannel.cut_drives (g : GateChannel) : g.cut.drives = false := by
  have hbit : fbit g.cut.stat F.HD_STAT.CUT = true := fbit_fset (by decide)
  simp [GateChannel.drives, hbit]

/-! ### The interlock (R78, R79) -/

/-- What a fall of ILOCK_N does to one channel: KILL = 1 cuts it. -/
def DriveChannel.killed (c : DriveChannel) : DriveChannel := if fbit c.cfg F.HD_CFG.KILL then c.cut else c

theorem Hearth.interlock_eq (h : Hearth) : ∃ w,
    h.interlock = { h with hd := h.hd.map DriveChannel.killed, hs := h.hs.map DriveChannel.killed, gate := h.gate.map GateChannel.cut, stat := w } ∧
      fbit w F.HEARTH_STAT.ILOCK_LATCHED = true ∧ fbit w F.HEARTH_STAT.ILOCK_LEVEL = false :=
  ⟨_, rfl, fbit_fset (by decide), (fbit_fset_ne (by decide) (by decide)).trans (fbit_fset (by decide))⟩

theorem Hearth.drive_interlock (h : Hearth) {ch : Nat} (hch : ch < 12) : h.interlock.drive ch = (h.drive ch).killed := by
  obtain ⟨w, hcut, -⟩ := h.interlock_eq
  rw [hcut]
  unfold Hearth.drive
  by_cases h8 : ch < 8
  · rw [if_pos h8, if_pos h8]; exact vget_map h8
  · rw [if_neg h8, if_neg h8]; exact vget_map (by omega)

/-- A fall of ILOCK_N cuts the gates and the channels with KILL = 1, and leaves every other channel as it was. -/
theorem Hearth.interlock_cuts (h : Hearth) :
    (∀ ch, ch < 12 → fbit (h.drive ch).cfg F.HD_CFG.KILL = true →
      (h.interlock.drive ch).out = 0 ∧ (h.interlock.drive ch).fade = none ∧ (h.interlock.drive ch).drives = false ∧
        (h.interlock.drive ch).set = (h.drive ch).set) ∧
    (∀ ch, ch < 12 → fbit (h.drive ch).cfg F.HD_CFG.KILL = false → h.interlock.drive ch = h.drive ch) ∧
    (∀ g, g < 2 → (vget h.interlock.gate g {}).drives = false) := by
  refine ⟨fun ch hch hkill => ?_, fun ch hch hkill => ?_, fun g hg => ?_⟩
  · rw [h.drive_interlock hch, DriveChannel.killed, if_pos hkill]
    exact DriveChannel.cut_fields _
  · rw [h.drive_interlock hch, DriveChannel.killed, if_neg (by simp [hkill])]
  · have hgate : vget h.interlock.gate g {} = (vget h.gate g {}).cut := vget_map hg
    rw [hgate]
    exact GateChannel.cut_drives _

theorem Hearth.interlock_fields (h : Hearth) :
    fbit h.interlock.stat F.HEARTH_STAT.ILOCK_LATCHED = true ∧ h.interlock.ilockLow = true ∧
      h.interlock.tec = h.tec ∧ h.interlock.chain = h.chain := by
  obtain ⟨w, hcut, hlatched, hlevel⟩ := h.interlock_eq
  rw [hcut]
  exact ⟨hlatched, by simp [Hearth.ilockLow, hlevel], rfl, rfl⟩

/-- The optics start, so a fall of ILOCK_N is kept in FLAGS[0] (R412). -/
def State.opticsStart (s : State) : Bool := s.fw.optical = .selfCal || s.fw.optical = .tecWait || s.fw.optical = .fadeIn

/-- FLAGS after a fall of ILOCK_N. -/
def State.flagsAfterFall (s : State) : Nat := if s.opticsStart then s.fw.flags ||| 1 else s.fw.flags

theorem exec_ilockFall (s : State) : exec .ilockFall s =
    .next (({ s with hearth := s.hearth.interlock, fw := { s.fw with flags := s.flagsAfterFall } }).setCondition srcIlock true 0) := by
  refine congrArg (fun t : State => Host.Outcome.next (t.setCondition srcIlock true 0)) (?_ : _ = _)
  unfold State.flagsAfterFall
  by_cases hstart : s.opticsStart = true
  · rw [if_pos hstart]; exact if_pos hstart
  · rw [if_neg hstart]; exact if_neg hstart

theorem State.flagsAfterFall_of_idle {s : State} (h : s.fw.optical = .idle) : s.flagsAfterFall = s.fw.flags := by
  simp [State.flagsAfterFall, State.opticsStart, h]

theorem State.flagsAfterFall_of_fadeIn {s : State} (h : s.fw.optical = .fadeIn) : nbit s.flagsAfterFall 0 = true := by
  simp [State.flagsAfterFall, State.opticsStart, h, nbit]

theorem exec_ilockNRise (s : State) : ∃ w,
    exec .ilockNRise s = .next (({ s with hearth := { s.hearth with stat := w } }).setCondition srcIlock false 0) ∧
      fbit w F.HEARTH_STAT.ILOCK_LEVEL = true ∧ fbit w F.HEARTH_STAT.ILOCK_LATCHED = fbit s.hearth.stat F.HEARTH_STAT.ILOCK_LATCHED :=
  ⟨_, rfl, fbit_fset (by decide), fbit_fset_ne (by decide) (by decide)⟩

/-! ### A GO of the chain port (R77) -/

variable {c : ChainPort}

theorem ChainPort.start_eq (c : ChainPort) : ∃ w, c.start = { c with shift := c.data, stat := w } ∧
    fbit w F.HCHAIN_STAT.BUSY = true ∧ fbit w F.HCHAIN_STAT.PENDING = false ∧
    fbit w F.HCHAIN_STAT.MISMATCH = fbit c.stat F.HCHAIN_STAT.MISMATCH :=
  ⟨_, rfl, (fbit_fset_ne (by decide) (by decide)).trans (fbit_fset (by decide)), fbit_fset (by decide),
    (fbit_fset_ne (by decide) (by decide)).trans (fbit_fset_ne (by decide) (by decide))⟩

theorem ChainPort.go_of_idle (he : fbit c.cfg F.HCHAIN_CFG.ENABLE = true) (hb : fbit c.stat F.HCHAIN_STAT.BUSY = false) : c.go = c.start := by
  simp [ChainPort.go, he, hb]

/-- A GO during a transfer changes STAT alone: one GO is pending, and one that it replaces is counted. -/
theorem ChainPort.go_of_busy (he : fbit c.cfg F.HCHAIN_CFG.ENABLE = true) (hb : fbit c.stat F.HCHAIN_STAT.BUSY = true) : ∃ w,
    c.go = { c with stat := w } ∧ fbit w F.HCHAIN_STAT.PENDING = true ∧
      fget w F.HCHAIN_STAT.COALESCED = (fget c.stat F.HCHAIN_STAT.COALESCED + (fbit c.stat F.HCHAIN_STAT.PENDING).toNat) % 256 := by
  cases hp : fbit c.stat F.HCHAIN_STAT.PENDING with
  | true =>
    have hkept : fbit (finc c.stat F.HCHAIN_STAT.COALESCED) F.HCHAIN_STAT.PENDING = true := (fbit_finc_ne (by decide) (by decide)).trans hp
    exact ⟨finc c.stat F.HCHAIN_STAT.COALESCED, by simp [ChainPort.go, he, hb, hp], hkept, fget_finc (by decide)⟩
  | false =>
    have hlt : fget c.stat F.HCHAIN_STAT.COALESCED < 256 := fget_lt
    exact ⟨fset c.stat F.HCHAIN_STAT.PENDING 1, by simp [ChainPort.go, he, hb, hp], fbit_fset (by decide),
      (fget_fset_ne (by decide) (by decide)).trans (Nat.mod_eq_of_lt hlt).symm⟩

theorem exec_chainGo {s : State} (hp : s.power.hearth = true) :
    exec .chainGo s = .next (if s.safe = true then s else { s with hearth := { s.hearth with chain := s.hearth.chain.go } }) := by
  change execChainGo s = _
  cases hs : s.safe <;> simp [execChainGo, hp, hs, State.withHearth]

/-! ### The end of a transfer (R75 to R77) -/

variable {din : List Word} {latch : Bool}

/-- The returned words need no check, or agree with CHAIN_DATA (R76). -/
def ChainPort.frameGood (c : ChainPort) (din : List Word) : Bool :=
  !fbit c.cfg F.HCHAIN_CFG.VERIFY || (List.range c.length).all (fun i => wat din i == vget c.data i 0)

/-- The expanders' outputs after a transfer: a good frame is latched where `latch` allows it (R76, R80). -/
def ChainPort.outputs (c : ChainPort) (din : List Word) (latch : Bool) : Vector Word 16 :=
  if c.frameGood din && latch then fillVec c.latched c.shift.toList c.length else c.latched

theorem ChainPort.frameGood_iff :
    c.frameGood din = true ↔ fbit c.cfg F.HCHAIN_CFG.VERIFY = false ∨ ∀ i, i < c.length → wat din i = vget c.data i 0 := by
  simp [ChainPort.frameGood]

theorem ChainPort.length_le : c.length ≤ 16 := Nat.succ_le_of_lt fget_lt

theorem ChainPort.vget_fillVec_of_lt {v : Vector Word 16} {ws : List Word} {i : Nat} (hi : i < c.length) :
    vget (fillVec v ws c.length) i 0 = wat ws i :=
  (vget_fillVec _ (hi.trans_le ChainPort.length_le)).trans (if_pos hi)

theorem ChainPort.outputs_latched (hg : c.frameGood din = true) (hl : latch = true) {i : Nat} (hi : i < c.length) :
    vget (c.outputs din latch) i 0 = vget c.shift i 0 := by
  rw [ChainPort.outputs, hg, hl]
  exact ChainPort.vget_fillVec_of_lt hi

theorem ChainPort.outputs_kept (h : c.frameGood din = false ∨ latch = false) : c.outputs din latch = c.latched := by
  rcases h with h | h <;> simp [ChainPort.outputs, h]

/-- A transfer that ends is no longer BUSY, a bad frame sets MISMATCH, and then a GO that is pending starts. -/
theorem ChainPort.done_eq (c : ChainPort) (din : List Word) (latch : Bool) : ∃ w,
    (let e : ChainPort := { c with ret := fillVec c.ret din c.length, latched := c.outputs din latch, stat := w }
     c.done din latch = (if fbit c.stat F.HCHAIN_STAT.PENDING = true then e.start else e, c.frameGood din)) ∧
    fbit w F.HCHAIN_STAT.BUSY = false ∧ (c.frameGood din = false → fbit w F.HCHAIN_STAT.MISMATCH = true) := by
  have hbusy : fbit (fset c.stat F.HCHAIN_STAT.BUSY 0) F.HCHAIN_STAT.BUSY = false := fbit_fset (by decide)
  have hpend : fbit (fset c.stat F.HCHAIN_STAT.BUSY 0) F.HCHAIN_STAT.PENDING = fbit c.stat F.HCHAIN_STAT.PENDING :=
    fbit_fset_ne (by decide) (by decide)
  cases hg : c.frameGood din with
  | true =>
    refine ⟨fset c.stat F.HCHAIN_STAT.BUSY 0, ?_, hbusy, fun h => nomatch h⟩
    rw [← hpend]
    rw [ChainPort.frameGood] at hg
    cases latch <;> simp only [ChainPort.done, ChainPort.outputs, ChainPort.frameGood, hg] <;> rfl
  | false =>
    refine ⟨fset (fset c.stat F.HCHAIN_STAT.BUSY 0) F.HCHAIN_STAT.MISMATCH 1, ?_,
      (fbit_fset_ne (by decide) (by decide)).trans hbusy, fun _ => fbit_fset (by decide)⟩
    have hpend' : fbit (fset (fset c.stat F.HCHAIN_STAT.BUSY 0) F.HCHAIN_STAT.MISMATCH 1) F.HCHAIN_STAT.PENDING =
        fbit c.stat F.HCHAIN_STAT.PENDING := (fbit_fset_ne (by decide) (by decide)).trans hpend
    rw [← hpend']
    rw [ChainPort.frameGood] at hg
    simp only [ChainPort.done, ChainPort.outputs, ChainPort.frameGood, hg]
    rfl

/-- The port after the end of a transfer, field by field: a GO that was pending has started with CHAIN_DATA as it stands. -/
theorem ChainPort.done_port (c : ChainPort) (din : List Word) (latch : Bool) : ∃ v w,
    (c.done din latch).1 = { c with ret := fillVec c.ret din c.length, latched := c.outputs din latch, shift := v, stat := w } ∧
    (c.frameGood din = false → fbit w F.HCHAIN_STAT.MISMATCH = true) ∧
    (fbit c.stat F.HCHAIN_STAT.PENDING = false → fbit w F.HCHAIN_STAT.BUSY = false) ∧
    (fbit c.stat F.HCHAIN_STAT.PENDING = true → fbit w F.HCHAIN_STAT.BUSY = true ∧ fbit w F.HCHAIN_STAT.PENDING = false ∧ v = c.data) := by
  obtain ⟨w, hdone, hbusy, hmismatch⟩ := c.done_eq din latch
  rw [hdone]
  cases hp : fbit c.stat F.HCHAIN_STAT.PENDING with
  | false => exact ⟨c.shift, w, rfl, hmismatch, fun _ => hbusy, fun h => nomatch h⟩
  | true =>
    obtain ⟨w', hstart, hbusy', hpend', hmismatch'⟩ :=
      ChainPort.start_eq { c with ret := fillVec c.ret din c.length, latched := c.outputs din latch, stat := w }
    exact ⟨c.data, w', hstart, fun h => hmismatch'.trans (hmismatch h), (fun h => nomatch h), fun _ => ⟨hbusy', hpend', rfl⟩⟩

theorem ChainPort.done_good : (c.done din latch).2 = c.frameGood din := by
  obtain ⟨w, hdone, -⟩ := c.done_eq din latch
  rw [hdone]

/-- A transfer that runs ends; a bad frame is reported as CHAIN_VERIFY. -/
theorem exec_chainTransferDone {s : State} (hp : s.power.hearth = true) (hb : fbit s.hearth.chain.stat F.HCHAIN_STAT.BUSY = true) :
    exec (.chainTransferDone din) s =
      .next (if s.hearth.chain.frameGood din = true then s.withHearth { s.hearth with chain := (s.hearth.chain.done din (!s.safe)).1 }
        else (s.withHearth { s.hearth with chain := (s.hearth.chain.done din (!s.safe)).1 }).report srcChainVerify 0) := by
  change execChainTransferDone din s = _
  simp [execChainTransferDone, hp, hb, ChainPort.done_good]

/-! ### The claim -/

/-- Settles O35: one lemma each for the fall of ILOCK_N, its rise, a GO and the end of a transfer. -/
theorem interlockAndChainPort : Obligations.InterlockAndChainPort := by
  unfold Obligations.InterlockAndChainPort
  refine ⟨⟨fun s => ?fall, fun h => ?cut, fun s => ?rise⟩, fun s hp hs => ?goSafe, fun s hp hs => ?go, fun c he => ?goPort, fun din s hp hb => ?done⟩
  case fall => exact ⟨s.flagsAfterFall, exec_ilockFall s, State.flagsAfterFall_of_idle, State.flagsAfterFall_of_fadeIn⟩
  case cut =>
    obtain ⟨hkill, hkeep, hgate⟩ := h.interlock_cuts
    exact ⟨hkill, hkeep, hgate, h.interlock_fields⟩
  case rise =>
    obtain ⟨w, hexec, hlevel, hlatched⟩ := exec_ilockNRise s
    exact ⟨{ s.hearth with stat := w }, hexec, by simp [Hearth.ilockLow, hlevel], rfl, rfl, rfl, hlatched⟩
  case goSafe => rw [exec_chainGo hp, if_pos hs]
  case go => rw [exec_chainGo hp, if_neg (by simp [hs])]
  case goPort =>
    refine ⟨fun hb => ?_, fun hb => ?_⟩
    · obtain ⟨w, hstart, hbusy, -⟩ := c.start_eq
      rw [ChainPort.go_of_idle he hb, hstart]
      exact ⟨rfl, hbusy, rfl⟩
    · obtain ⟨w, hgo, hpend, hcount⟩ := ChainPort.go_of_busy he hb
      rw [hgo]
      exact ⟨rfl, hpend, hcount⟩
  case done =>
    intro c good
    obtain ⟨v, w, hport, hmismatch, hidle, hnext⟩ := c.done_port din (!s.safe)
    have hexec := exec_chainTransferDone (din := din) hp hb
    refine ⟨(c.done din (!s.safe)).1, ?_⟩
    rw [hport] at hexec ⊢
    refine ⟨fun hg => ?_, fun hg => ?_, fun i hi => ChainPort.vget_fillVec_of_lt hi, rfl, hidle, hnext⟩
    · have hgood : c.frameGood din = true := ChainPort.frameGood_iff.2 hg
      exact ⟨hexec.trans (congrArg _ (if_pos hgood)), fun hs i hi => ChainPort.outputs_latched hgood (by simp [hs]) hi,
        fun hs => ChainPort.outputs_kept (.inr (by simp [hs]))⟩
    · have hbad : c.frameGood din = false := Bool.eq_false_iff.2 (mt ChainPort.frameGood_iff.1 hg)
      exact ⟨hexec.trans (congrArg _ (if_neg (Bool.eq_false_iff.1 hbad))), ChainPort.outputs_kept (.inl hbad), hmismatch hbad⟩

end Sys2Proof.Machine

/-! SUPPORT. The unsigned division of a cell (R224): what one step does, what any number of steps leaves, and the SDIV word. -/

namespace Sys2Proof.Machine

/-! ### One step -/

section
variable {r q v : Nat}

/-- The upper 33 bits of the shifted r:q are `2 * r + q / 2 ^ 31`: where the divisor fits, it is taken from them and bit 0 of q is set. -/
theorem divStep_of_le (h : v ≤ 2 * r + q / 2 ^ 31) : divStep r q v = ((2 * r + q / 2 ^ 31 - v) % 2 ^ 32, 2 * (q % 2 ^ 31) + 1) := by
  have hfits : v ≤ (r * 2 ^ 32 + q) * 2 / 2 ^ 32 := by omega
  simp only [divStep, if_pos hfits, Prod.mk.injEq]
  omega

/-- Where the divisor does not fit, the step only shifts. -/
theorem divStep_of_lt (h : 2 * r + q / 2 ^ 31 < v) : divStep r q v = ((2 * r + q / 2 ^ 31) % 2 ^ 32, 2 * (q % 2 ^ 31)) := by
  have hfits : ¬ v ≤ (r * 2 ^ 32 + q) * 2 / 2 ^ 32 := by omega
  simp only [divStep, if_neg hfits, Prod.mk.injEq]
  omega

theorem divStep_fst_lt : (divStep r q v).1 < 2 ^ 32 := Nat.mod_lt _ (by decide)
theorem divStep_snd_lt : (divStep r q v).2 < 2 ^ 32 := Nat.mod_lt _ (by decide)

/-- The pair that a step leaves, read as one 64-bit number. -/
theorem divStep_joined : (divStep r q v).1 * 2 ^ 32 + (divStep r q v).2 =
    (if v ≤ 2 * (r * 2 ^ 32 + q) / 2 ^ 32 then 2 * (r * 2 ^ 32 + q) - v * 2 ^ 32 + 1 else 2 * (r * 2 ^ 32 + q)) % 2 ^ 64 := by
  have hjoin (t : Nat) : t / 2 ^ 32 % 2 ^ 32 * 2 ^ 32 + t % 2 ^ 32 = t % 2 ^ 64 := by omega
  rw [Nat.mul_comm 2]
  exact hjoin _

/-- From r < v a step is one digit of long division: bit 31 of q is brought down behind r, what is left of it is the new r, and the digit enters q. -/
theorem divStep_digit (hr : r < v) (hq : q < 2 ^ 32) (hv : v < 2 ^ 32) :
    divStep r q v = ((2 * r + q / 2 ^ 31) % v, 2 * (q % 2 ^ 31) + (2 * r + q / 2 ^ 31) / v) := by
  rcases Nat.lt_or_ge (2 * r + q / 2 ^ 31) v with hlt | hge
  · rw [divStep_of_lt hlt, Nat.mod_eq_of_lt hlt, Nat.div_eq_of_lt hlt, Nat.mod_eq_of_lt (hlt.trans hv), Nat.add_zero]
  · have hrest : 2 * r + q / 2 ^ 31 - v < v := by omega
    rw [divStep_of_le hge, Nat.mod_eq_of_lt (hrest.trans hv), Nat.mod_eq_sub_mod hge, Nat.mod_eq_of_lt hrest,
      Nat.div_eq_sub_div (by omega) hge, Nat.div_eq_of_lt hrest]

/-- A divisor of 0 always fits: a 1 enters q. -/
theorem divStep_zero_snd : (divStep r q 0).2 = 2 * (q % 2 ^ 31) + 1 := by
  rw [divStep_of_le (Nat.zero_le _)]

end

/-! ### Many steps -/

/-- `n` steps with divisor `v` from the pair `e`. -/
def divSteps (v n : Nat) (e : Nat × Nat) : Nat × Nat := (List.range n).foldl (fun (e : Nat × Nat) _ => divStep e.1 e.2 v) e

theorem divSteps_succ (v n : Nat) (e : Nat × Nat) : divSteps v (n + 1) e = divStep (divSteps v n e).1 (divSteps v n e).2 v := by
  simp [divSteps, List.range_succ]

/-- Long division of `N` by `v` with `n` bits of the quotient found and `j` bits of `N` still to bring down: the remainder of the bits above
those `j`, and the `j` bits above the quotient's. -/
def longDivision (N v n j : Nat) : Nat × Nat := (N / 2 ^ j % v, N % 2 ^ j * 2 ^ n + N / 2 ^ j / v)

/-- Dividing `2 * m + b` goes on from the remainder and the quotient of `m`. -/
theorem div_mod_bringDown {m b v : Nat} (hv : 0 < v) :
    (2 * m + b) % v = (2 * (m % v) + b) % v ∧ (2 * m + b) / v = 2 * (m / v) + (2 * (m % v) + b) / v := by
  have hm : 2 * m + b = 2 * (m % v) + b + v * (2 * (m / v)) := by
    conv_lhs => rw [← Nat.mod_add_div m v]
    ring
  rw [hm, Nat.add_mul_mod_self_left, Nat.add_mul_div_left _ _ hv, Nat.add_comm (2 * (m / v))]
  exact ⟨rfl, rfl⟩

/-- The low word of `longDivision`, one bit before: the next bit of `N` stands in bit 31, below it the rest and the quotient. -/
theorem longDivision_snd {N v n j : Nat} (hN : N < v * 2 ^ 32) (hj : n + j = 31) :
    (longDivision N v n (j + 1)).2 / 2 ^ 31 = N / 2 ^ j % 2 ∧ (longDivision N v n (j + 1)).2 % 2 ^ 31 = N % 2 ^ j * 2 ^ n + N / 2 ^ (j + 1) / v := by
  have hpow : 2 ^ j * 2 ^ n = 2 ^ 31 := by rw [← Nat.pow_add, Nat.add_comm, hj]
  have hquot : N / 2 ^ (j + 1) / v < 2 ^ n := by
    rw [Nat.div_div_eq_div_mul]
    apply Nat.div_lt_of_lt_mul
    calc N < v * (2 * 2 ^ 31) := hN
      _ = 2 ^ (j + 1) * v * 2 ^ n := by rw [← hpow]; ring
  have hrest : N % 2 ^ j * 2 ^ n + N / 2 ^ (j + 1) / v < 2 ^ 31 :=
    calc _ < N % 2 ^ j * 2 ^ n + 2 ^ n := by omega
      _ = (N % 2 ^ j + 1) * 2 ^ n := by ring
      _ ≤ 2 ^ j * 2 ^ n := Nat.mul_le_mul_right _ (Nat.mod_lt _ (by positivity))
      _ = 2 ^ 31 := hpow
  have hword : N % 2 ^ j * 2 ^ n + N / 2 ^ (j + 1) / v + 2 ^ 31 * (N / 2 ^ j % 2) = (longDivision N v n (j + 1)).2 := by
    rw [longDivision, Nat.mod_pow_succ, ← hpow]
    ring
  exact (Nat.div_mod_unique (by decide)).2 ⟨hword, hrest⟩

/-- A step brings down the next bit. -/
theorem divStep_longDivision {N v n j : Nat} (hN : N < v * 2 ^ 32) (hv : v < 2 ^ 32) (hj : n + j = 31) :
    divStep (longDivision N v n (j + 1)).1 (longDivision N v n (j + 1)).2 v = longDivision N v (n + 1) j := by
  have hpos : 0 < v := by omega
  obtain ⟨hbit, hlow⟩ := longDivision_snd hN hj
  have hupper : N / 2 ^ j = 2 * (N / 2 ^ (j + 1)) + N / 2 ^ j % 2 := by
    rw [Nat.pow_succ, ← Nat.div_div_eq_div_mul]
    omega
  obtain ⟨hrem, hquot⟩ := div_mod_bringDown (m := N / 2 ^ (j + 1)) (b := N / 2 ^ j % 2) hpos
  rw [← hupper] at hrem hquot
  have hr : (longDivision N v n (j + 1)).1 < v := Nat.mod_lt _ hpos
  rw [divStep_digit hr (by omega) hv, hbit, hlow]
  simp only [longDivision, hrem, hquot, Nat.pow_succ, Prod.mk.injEq, true_and]
  ring

/-- `n` steps find the first `n` bits of the quotient. -/
theorem divSteps_longDivision {N v : Nat} (hN : N < v * 2 ^ 32) (hv : v < 2 ^ 32) {n : Nat} (hn : n ≤ 32) :
    divSteps v n (longDivision N v 0 32) = longDivision N v n (32 - n) := by
  induction n with
  | zero => rfl
  | succ n ih =>
    have hj : 32 - n = 32 - (n + 1) + 1 := by omega
    rw [divSteps_succ, ih (by omega), hj, divStep_longDivision hN hv (by omega)]

theorem longDivision_start {r q v : Nat} (hr : r < v) (hq : q < 2 ^ 32) : longDivision (r * 2 ^ 32 + q) v 0 32 = (r, q) := by
  have hhigh : (r * 2 ^ 32 + q) / 2 ^ 32 = r := by omega
  have hlow : (r * 2 ^ 32 + q) % 2 ^ 32 = q := by omega
  simp only [longDivision, hhigh, hlow, Nat.mod_eq_of_lt hr, Nat.div_eq_of_lt hr, Nat.pow_zero, Nat.mul_one, Nat.add_zero]

theorem longDivision_end (N v n : Nat) : longDivision N v n 0 = (N % v, N / v) := by
  simp [longDivision, Nat.mod_one]

/-- R224: thirty-two steps from r < v divide r:q by v. -/
theorem divSteps_divides {r q v : Nat} (hr : r < v) (hq : q < 2 ^ 32) (hv : v < 2 ^ 32) :
    divSteps v 32 (r, q) = ((r * 2 ^ 32 + q) % v, (r * 2 ^ 32 + q) / v) := by
  have hN : r * 2 ^ 32 + q < v * 2 ^ 32 := by omega
  rw [← longDivision_start hr hq, divSteps_longDivision hN hv le_rfl, Nat.sub_self, longDivision_end]

/-- By a divisor of 0, `n` steps set the `n` bits of the quotient. -/
theorem divSteps_zero_snd_mod (e : Nat × Nat) {n : Nat} (hn : n ≤ 32) : (divSteps 0 n e).2 % 2 ^ n = 2 ^ n - 1 := by
  induction n with
  | zero => exact Nat.mod_one _
  | succ n ih =>
    have hdvd : 2 ^ n ∣ 2 ^ 31 := Nat.pow_dvd_pow 2 (by omega)
    have hlow : (divSteps 0 n e).2 % 2 ^ 31 % 2 ^ n = 2 ^ n - 1 := by rw [Nat.mod_mod_of_dvd _ hdvd, ih (by omega)]
    have hshift : (2 * ((divSteps 0 n e).2 % 2 ^ 31) + 1) / 2 = (divSteps 0 n e).2 % 2 ^ 31 := by omega
    have hpos := Nat.two_pow_pos n
    rw [divSteps_succ, divStep_zero_snd, pow_succ' 2 n, Nat.mod_mul, hshift, hlow]
    omega

/-! ### The SDIV word -/

theorem bSR_lt (sb : Nat) : bSR sb < 8 := Nat.mod_lt _ (by decide)

theorem Cell.sReg_setS_self {c : Cell} {i : Nat} {w : Word} (h : i < 8) : (c.setS i w).sReg i = w := vget_vset_self h
theorem Cell.sReg_setS_ne {c : Cell} {i j : Nat} {w : Word} (h : i ≠ j) : (c.setS i w).sReg j = c.sReg j := vget_vset_ne h

theorem toNat_w32 {n : Nat} (h : n < 2 ^ 32) : (w32 n).toNat = n := by
  rw [w32, BitVec.toNat_ofNat, Nat.mod_eq_of_lt h]

theorem slotB_sdiv (w : Windows) (x : Cell) {sb : Nat} (h : bOp sb = 0x0C) : slotB w x sb = some (opSdiv x sb) := by
  simp only [slotB, h]

/-- The division step that an SDIV word makes, on its register pair by its divisor's register. -/
def Cell.sdivStep (x : Cell) (sb : Nat) : Nat × Nat := divStep (x.sReg (bSR sb)).toNat (x.sReg (bSR sb + 1)).toNat (x.sReg (bSA sb)).toNat

theorem opSdiv_cell (x : Cell) (sb : Nat) :
    (opSdiv x sb).cell = (x.setS (bSR sb) (w32 (x.sdivStep sb).1)).setS (bSR sb + 1) (w32 (x.sdivStep sb).2) := rfl

theorem even_of_opSdiv_ok {x : Cell} {sb : Nat} (h : (opSdiv x sb).ok = true) : bSR sb % 2 = 0 := by
  have hok : (onlyBits sb (mOP ||| 0x03F00000) && bSR sb % 2 == 0) = true := h
  simpa using (Bool.and_eq_true_iff.1 hok).2

/-- An SDIV word on an even register leaves the step's pair in its register and the next. -/
theorem opSdiv_pair (x : Cell) {sb : Nat} (h : bSR sb % 2 = 0) :
    ((opSdiv x sb).cell.sReg (bSR sb)).toNat = (x.sdivStep sb).1 ∧ ((opSdiv x sb).cell.sReg (bSR sb + 1)).toNat = (x.sdivStep sb).2 := by
  have hlt := bSR_lt sb
  rw [opSdiv_cell, Cell.sReg_setS_ne (by omega), Cell.sReg_setS_self hlt, Cell.sReg_setS_self (by omega)]
  exact ⟨toNat_w32 divStep_fst_lt, toNat_w32 divStep_snd_lt⟩

/-! ### The claim -/

/-- Settles O55: a step is one digit of long division, so thirty-two steps from r < v find the quotient's thirty-two bits; by 0 each of them is 1. -/
theorem divisionStepsDivide : Obligations.DivisionStepsDivide := by
  unfold Obligations.DivisionStepsDivide
  refine ⟨fun x w sb hop => ?word, fun r q v _ _ _ => ?step, fun r q v hr hq hv => ?divides, fun r q _ _ => ?byZero⟩
  case word => exact ⟨opSdiv x sb, slotB_sdiv w x hop, rfl, rfl, rfl, even_of_opSdiv_ok, opSdiv_pair x⟩
  case step =>
    refine ⟨fun hle => ?_, fun hlt => ?_, divStep_fst_lt, divStep_snd_lt⟩
    · rw [divStep_joined, if_pos hle]
    · rw [divStep_joined, if_neg (Nat.not_le.2 hlt)]
  case divides => exact divSteps_divides hr hq hv
  case byZero =>
    have hlt : (divSteps 0 32 (r, q)).2 < 2 ^ 32 := by rw [divSteps_succ]; exact divStep_snd_lt
    change (divSteps 0 32 (r, q)).2 = _
    rw [← Nat.mod_eq_of_lt hlt]
    exact divSteps_zero_snd_mod (r, q) le_rfl

end Sys2Proof.Machine

/-! SUPPORT. The locks (R354 to R356): what one read and one write do to the owners, the order of the reads of one cycle, and which of them takes
a free lock. -/

namespace Sys2Proof.Machine

variable {s : State} {a : LockAccess} {w : Word} {k j req : Nat}

/-! ### Requesters and owners (R354) -/

theorem lockReq_pos (a : LockAccess) : 0 < lockReq a := by
  obtain ⟨path, secure⟩ := a
  cases path <;> cases secure <;> decide

theorem lockReq_lt (a : LockAccess) : lockReq a < 6 := by
  obtain ⟨path, secure⟩ := a
  cases path <;> cases secure <;> decide

@[simp] theorem State.lockOwner_returned (p : Path) (ws : List Word) : (s.returned p ws).lockOwner j = s.lockOwner j := rfl
@[simp] theorem State.lockOwner_countDenied : s.countDenied.lockOwner j = s.lockOwner j := rfl

theorem State.lockOwner_setLock_self (hk : k < 32) (hr : req < 6) : (s.setLock k req).lockOwner k = req := by
  simp [State.lockOwner, State.setLock, hk, hr]

theorem State.lockOwner_setLock_ne (h : j ≠ k) : (s.setLock k req).lockOwner j = s.lockOwner j :=
  congrArg Fin.val (vget_vset_ne h.symm)

theorem State.unlocked_countDenied : s.countDenied.unlocked = s.unlocked := fbit_finc_ne (by decide) (by decide)

/-- A refusal rests on the secure unlock alone. -/
theorem State.lockRefused_of_unlocked_eq {t : State} (h : t.unlocked = s.unlocked) : t.lockRefused a = s.lockRefused a := by
  rw [State.lockRefused, State.lockRefused, h]

/-! ### One read (R355) -/

theorem State.lockRead_of_refused (h : s.lockRefused a = true) : s.lockRead k a = s.countDenied.returned a.path [0xFF] := if_pos h

theorem State.lockRead_of_free (h : s.lockRefused a = false) (ho : s.lockOwner k = 0) :
    s.lockRead k a = (s.setLock k (lockReq a)).returned a.path [0] := by
  simp [State.lockRead, h, ho]

theorem State.lockRead_of_owned (h : s.lockRefused a = false) (ho : s.lockOwner k ≠ 0) :
    s.lockRead k a = s.returned a.path [w32 (s.lockOwner k)] := by
  simp [State.lockRead, h, ho]

theorem State.lockOwner_lockRead_self (hk : k < 32) (h : s.lockRefused a = false) (ho : s.lockOwner k = 0) :
    (s.lockRead k a).lockOwner k = lockReq a := by
  rw [State.lockRead_of_free h ho, State.lockOwner_returned, State.lockOwner_setLock_self hk (lockReq_lt a)]

/-- A read of an owned lock changes no lock, whoever reads. -/
theorem State.locks_lockRead_of_owned (ho : s.lockOwner k ≠ 0) : (s.lockRead k a).mb.locks = s.mb.locks := by
  cases h : s.lockRefused a with
  | true => rw [State.lockRead_of_refused h]; rfl
  | false => rw [State.lockRead_of_owned h ho]; rfl

theorem State.lockOwner_lockRead_of_owned (ho : s.lockOwner k ≠ 0) : (s.lockRead k a).lockOwner j = s.lockOwner j := by
  rw [State.lockOwner, State.lockOwner, State.locks_lockRead_of_owned ho]

theorem State.lockOwner_lockRead_ne (hj : j ≠ k) : (s.lockRead k a).lockOwner j = s.lockOwner j := by
  cases h : s.lockRefused a with
  | true => rw [State.lockRead_of_refused h]; rfl
  | false =>
    by_cases ho : s.lockOwner k = 0
    · rw [State.lockRead_of_free h ho, State.lockOwner_returned, State.lockOwner_setLock_ne hj]
    · exact State.lockOwner_lockRead_of_owned ho

/-- What an accepted read leaves: the owner of before is returned, a free lock is the reader's, an owned one stays its owner's. -/
theorem State.lockRead_accepted (hk : k < 32) (h : s.lockRefused a = false) :
    (s.lockRead k a).host = { s.host with readBack := vset s.host.readBack (pathReq a.path) [w32 (s.lockOwner k)] } ∧
    (s.lockOwner k = 0 → (s.lockRead k a).lockOwner k = lockReq a) ∧ (s.lockOwner k ≠ 0 → (s.lockRead k a).mb.locks = s.mb.locks) ∧
    (∀ j, j ≠ k → (s.lockRead k a).lockOwner j = s.lockOwner j) := by
  refine ⟨?_, State.lockOwner_lockRead_self hk h, State.locks_lockRead_of_owned, fun _ => State.lockOwner_lockRead_ne⟩
  by_cases ho : s.lockOwner k = 0
  · rw [State.lockRead_of_free h ho, ho]; rfl
  · rw [State.lockRead_of_owned h ho]; rfl

/-! ### One write (R355) -/

/-- The write is a valid release: it is not refused, the lock is owned, and its owner writes its own number. -/
def State.lockReleases (s : State) (k : Nat) (a : LockAccess) (w : Word) : Prop :=
  s.lockRefused a = false ∧ s.lockOwner k ≠ 0 ∧ nbits w.toNat 0 3 = s.lockOwner k ∧ lockReq a = s.lockOwner k

theorem State.lockWrite_of_refused (h : s.lockRefused a = true) : s.lockWrite k a w = s.countDenied := if_pos h

theorem State.lockWrite_of_releases (hr : s.lockReleases k a w) : s.lockWrite k a w = s.setLock k 0 := by
  obtain ⟨h, howned, hword, hreq⟩ := hr
  simp [State.lockWrite, h, howned, hword, hreq]

/-- Any other accepted write changes LOCK_STAT alone: BAD_RELEASE is set, the lock and its requester are loaded, BAD_COUNT is stepped. -/
theorem State.lockWrite_of_not_releases (h : s.lockRefused a = false) (hr : ¬ s.lockReleases k a w) : ∃ lockStat,
    s.lockWrite k a w = { s with mb := { s.mb with lockStat } } ∧ fbit lockStat F.LOCK_STAT.BAD_RELEASE = true ∧
      fget lockStat F.LOCK_STAT.LOCK = k % 32 ∧ fget lockStat F.LOCK_STAT.REQ = lockReq a ∧
      fget lockStat F.LOCK_STAT.BAD_COUNT = (fget s.mb.lockStat F.LOCK_STAT.BAD_COUNT + 1) % 2 ^ F.LOCK_STAT.BAD_COUNT.len := by
  have hwrite : ¬ (s.lockOwner k != 0 && nbits w.toNat 0 3 == s.lockOwner k && lockReq a == s.lockOwner k) = true := by
    simpa [State.lockReleases, h, and_assoc] using hr
  have hreq : lockReq a % 2 ^ F.LOCK_STAT.REQ.len = lockReq a := Nat.mod_eq_of_lt ((lockReq_lt a).trans (by decide))
  refine ⟨_, (if_neg (by simp [h])).trans (if_neg hwrite), ?_, ?_, ?_, ?_⟩
  · rw [fbit_finc_ne (by decide) (by decide), fbit_fset_ne (by decide) (by decide), fbit_fset_ne (by decide) (by decide), fbit_fset (by decide)]
    rfl
  · rw [fget_finc_ne (by decide) (by decide), fget_fset_ne (by decide) (by decide), fget_fset (by decide)]
    rfl
  · rw [fget_finc_ne (by decide) (by decide), fget_fset (by decide), hreq]
  · rw [fget_finc (by decide), fget_fset_ne (by decide) (by decide), fget_fset_ne (by decide) (by decide), fget_fset_ne (by decide) (by decide)]

/-- A write that is refused or is no release changes no owner. -/
theorem State.lockOwner_lockWrite_of_not_releases (hr : ¬ s.lockReleases k a w) : (s.lockWrite k a w).lockOwner j = s.lockOwner j := by
  cases h : s.lockRefused a with
  | true => rw [State.lockWrite_of_refused h, State.lockOwner_countDenied]
  | false =>
    obtain ⟨lockStat, hwrite, -⟩ := State.lockWrite_of_not_releases h hr
    rw [hwrite]
    rfl

theorem State.lockOwner_lockWrite_of_not_owner (hr : lockReq a ≠ s.lockOwner k) : (s.lockWrite k a w).lockOwner j = s.lockOwner j :=
  State.lockOwner_lockWrite_of_not_releases fun ⟨_, _, _, hreq⟩ => hr hreq

theorem State.lockOwner_lockWrite_ne (hj : j ≠ k) : (s.lockWrite k a w).lockOwner j = s.lockOwner j := by
  by_cases hr : s.lockReleases k a w
  · rw [State.lockWrite_of_releases hr, State.lockOwner_setLock_ne hj]
  · exact State.lockOwner_lockWrite_of_not_releases hr

/-! ### One cycle (R356) -/

/-- The reads of one cycle in the order in which they are taken: by rising requester number. -/
def lockOrder (reads : List LockAccess) : List LockAccess := (List.range 6).flatMap (fun r => reads.filter (fun a => lockReq a == r))

/-- Reads of one lock, one after the other. -/
def State.lockReads (k : Nat) (l : List LockAccess) (s : State) : State := l.foldl (fun t a => t.lockRead k a) s

/-- Writes of one lock, one after the other. -/
def State.lockWrites (k : Nat) (l : List (LockAccess × Word)) (s : State) : State := l.foldl (fun t x => t.lockWrite k x.1 x.2) s

theorem exec_lockRead (k : Fin 32) (reads : List LockAccess) (writes : List (LockAccess × Word)) (s : State) :
    exec (.lockRead k reads writes) s = .next ((s.lockWrites k.val writes).lockReads k.val (lockOrder reads)) := rfl

theorem exec_lockWrite (k : Fin 32) (a : LockAccess) (w : Word) (s : State) : exec (.lockWrite k a w) s = .next (s.lockWrite k.val a w) := rfl

theorem mem_lockOrder {reads : List LockAccess} : a ∈ lockOrder reads ↔ a ∈ reads := by
  simp [lockOrder, lockReq_lt]

theorem lockOrder_pairwise (reads : List LockAccess) : (lockOrder reads).Pairwise (fun a b => lockReq a ≤ lockReq b) := by
  refine List.pairwise_flatMap.2 ⟨fun r _ => ?same, List.pairwise_lt_range.imp fun {r q} hlt a ha b hb => ?rising⟩
  case same =>
    refine List.pairwise_of_forall_mem_list fun a ha b hb => ?_
    simp only [List.mem_filter, beq_iff_eq] at ha hb
    omega
  case rising =>
    simp only [List.mem_filter, beq_iff_eq] at ha hb
    omega

theorem lockOrder_singleton (a : LockAccess) : lockOrder [a] = [a] := by
  obtain ⟨path, secure⟩ := a
  cases path <;> cases secure <;> rfl

theorem exec_lockRead_singleton (k : Fin 32) (a : LockAccess) (s : State) : exec (.lockRead k [a] []) s = .next (s.lockRead k.val a) := by
  rw [exec_lockRead, lockOrder_singleton]
  rfl

theorem State.lockOwner_lockReads_of_owned (l : List LockAccess) (ho : s.lockOwner k ≠ 0) :
    (s.lockReads k l).lockOwner k = s.lockOwner k :=
  List.foldlRecOn (motive := fun t : State => t.lockOwner k = s.lockOwner k) l _ rfl fun _ ht _ _ =>
    (State.lockOwner_lockRead_of_owned (ht ▸ ho)).trans ht

/-- Of reads taken in rising order the first accepted one, so the one with the lowest number, takes a free lock; the later ones find it owned. -/
theorem State.lockOwner_lockReads_of_free (hk : k < 32) {l : List LockAccess} (hl : l.Pairwise (fun a b => lockReq a ≤ lockReq b)) (hmem : a ∈ l)
    (ho : s.lockOwner k = 0) (h : s.lockRefused a = false) (hmin : ∀ b ∈ l, s.lockRefused b = false → lockReq a ≤ lockReq b) :
    (s.lockReads k l).lockOwner k = lockReq a := by
  induction l generalizing s with
  | nil => nomatch hmem
  | cons b l ih =>
    obtain ⟨hle, hl⟩ := List.pairwise_cons.1 hl
    change ((s.lockRead k b).lockReads k l).lockOwner k = _
    cases hb : s.lockRefused b with
    | false =>
      have htaken : (s.lockRead k b).lockOwner k = lockReq b := State.lockOwner_lockRead_self hk hb ho
      have hfirst : lockReq b ≤ lockReq a := by
        rcases List.mem_cons.1 hmem with rfl | hmem
        · exact le_rfl
        · exact hle a hmem
      rw [State.lockOwner_lockReads_of_owned l (htaken ▸ (lockReq_pos b).ne'), htaken]
      exact hfirst.antisymm (hmin b List.mem_cons_self hb)
    | true =>
      have hrefused (c : LockAccess) : (s.lockRead k b).lockRefused c = s.lockRefused c := by
        rw [State.lockRead_of_refused hb]
        exact State.lockRefused_of_unlocked_eq State.unlocked_countDenied
      have hmem : a ∈ l := List.mem_of_ne_of_mem (fun hab => by simp [← hab, h] at hb) hmem
      refine ih hl hmem ?_ ((hrefused a).trans h) fun c hc hacc => hmin c (List.mem_cons_of_mem b hc) ((hrefused c).symm.trans hacc)
      rw [State.lockRead_of_refused hb, State.lockOwner_returned, State.lockOwner_countDenied, ho]

/-- No access to one lock changes the owner of another. -/
theorem State.lockOwner_cycle_ne (reads : List LockAccess) (writes : List (LockAccess × Word)) (hj : j ≠ k) :
    ((s.lockWrites k writes).lockReads k reads).lockOwner j = s.lockOwner j := by
  have hwrites : (s.lockWrites k writes).lockOwner j = s.lockOwner j :=
    List.foldlRecOn (motive := fun t : State => t.lockOwner j = s.lockOwner j) writes _ rfl fun _ ht _ _ =>
      (State.lockOwner_lockWrite_ne hj).trans ht
  exact List.foldlRecOn (motive := fun t : State => t.lockOwner j = s.lockOwner j) reads _ hwrites fun _ ht _ _ =>
    (State.lockOwner_lockRead_ne hj).trans ht

theorem State.lockOwner_lockWrites_of_not_owner {writes : List (LockAccess × Word)} (hw : ∀ x ∈ writes, lockReq x.1 ≠ s.lockOwner k) :
    (s.lockWrites k writes).lockOwner k = s.lockOwner k :=
  List.foldlRecOn (motive := fun t : State => t.lockOwner k = s.lockOwner k) writes _ rfl fun _ ht x hx =>
    (State.lockOwner_lockWrite_of_not_owner (ht ▸ hw x hx)).trans ht

/-! ### The claim -/

/-- Settles O41: one lemma each for a read, a refused access, a release, a write that is none, and the accesses of one cycle. -/
theorem locksExclude : Obligations.LocksExclude := by
  unfold Obligations.LocksExclude
  refine ⟨fun k a s h => ?read, fun k a s h => ?refused, fun k a w s h howned hword hreq => ?release, fun k a w s h hbad => ?badRelease,
    fun k reads writes s u hu => ?cycle⟩
  case read => exact ⟨_, exec_lockRead_singleton k a s, State.lockRead_accepted k.isLt h⟩
  case refused =>
    refine ⟨?_, fun w => ?_⟩
    · rw [exec_lockRead_singleton, State.lockRead_of_refused h]
    · rw [exec_lockWrite, State.lockWrite_of_refused h]
  case release =>
    have hwrite : s.lockWrite k.val a w = s.setLock k.val 0 := State.lockWrite_of_releases ⟨h, howned, hword, hreq⟩
    exact ⟨s.setLock k.val 0, (exec_lockWrite k a w s).trans (congrArg _ hwrite), State.lockOwner_setLock_self k.isLt (by decide), rfl,
      fun _ => State.lockOwner_setLock_ne⟩
  case badRelease =>
    have hr : ¬ s.lockReleases k.val a w := fun ⟨_, howned, hword, hreq⟩ => hbad.elim howned fun hne => hne.elim (· hword) (· hreq)
    obtain ⟨lockStat, hwrite, hbit, hlock, hrest⟩ := State.lockWrite_of_not_releases h hr
    exact ⟨lockStat, (exec_lockWrite k a w s).trans (congrArg _ hwrite), hbit, hlock.trans (Nat.mod_eq_of_lt k.isLt), hrest⟩
  case cycle =>
    rw [exec_lockRead] at hu
    cases hu
    refine ⟨fun howned hw => ?_, fun hfree hnil a ha h hmin => ?_, fun _ => State.lockOwner_cycle_ne _ _⟩
    · have hkept := State.lockOwner_lockWrites_of_not_owner hw
      rw [State.lockOwner_lockReads_of_owned _ (hkept ▸ howned), hkept]
    · subst hnil
      exact State.lockOwner_lockReads_of_free k.isLt (lockOrder_pairwise reads) (mem_lockOrder.2 ha) hfree h fun b hb => hmin b (mem_lockOrder.1 hb)

end Sys2Proof.Machine

/-! SUPPORT. The alias words (R378): the offset of a bit's alias, the word and the bit found again from it, and the accesses to the alias range. -/

namespace Sys2Proof.Machine

variable {off : Nat}

/-! ### The offset of an alias word (R378) -/

/-- The offset of the alias word of the bit that an access names: 0x8000 + 32 o + 4 b for bit b of the control-page word at o (R378). -/
def aliasOffset (a : AliasAccess) : Nat := 0x8000 + 32 * (4 * a.word.val) + 4 * a.bit.val

theorem le_aliasOffset (a : AliasAccess) : 0x8000 ≤ aliasOffset a := by
  unfold aliasOffset
  omega

theorem aliasOffset_word (a : AliasAccess) : (aliasOffset a - 0x8000) / 128 = a.word.val := by
  have := a.bit.isLt
  unfold aliasOffset
  omega

theorem aliasOffset_bit (a : AliasAccess) : (aliasOffset a - 0x8000) % 128 / 4 = a.bit.val := by
  have := a.bit.isLt
  unfold aliasOffset
  omega

/-! ### Accesses to the alias range -/

/-- The access that a write of `w` at an offset of the alias range stands for. -/
def aliasAccessAt (p : Path) (off : Nat) (w : Word) : AliasAccess :=
  { path := p, word := Fin.ofNat 256 ((off - 0x8000) / 128), bit := Fin.ofNat 32 ((off - 0x8000) % 128 / 4), v := nbit w.toNat 0 }

theorem aliasAccessAt_aliasOffset (a : AliasAccess) (w : Word) :
    aliasAccessAt a.path (aliasOffset a) w = { a with v := nbit w.toNat 0 } := by
  simp [aliasAccessAt, aliasOffset_word, aliasOffset_bit]

theorem nbits_one (v i : Nat) : nbits v i 1 = (nbit v i).toNat := by
  unfold nbits nbit
  rcases Nat.mod_two_eq_zero_or_one (v / 2 ^ i) with h | h <;> simp [h]

/-- An offset from 0x8000 upwards is past the ten ranges that the model tells apart below it (Table 21.1). -/
theorem State.hostWrite_of_alias (h : 0x8000 ≤ off) (p : Path) (w : Word) (s : State) :
    s.hostWrite p off w = s.aliasWrite (aliasAccessAt p off w) := by
  unfold State.hostWrite
  iterate 10 rw [if_neg (by omega)]
  rfl

theorem State.hostRead_of_alias (h : 0x8000 ≤ off) (p : Path) (s : State) :
    s.hostRead p off = s.returned p [w32 (nbit (s.controlWord ((off - 0x8000) / 128 * 4)).toNat ((off - 0x8000) % 128 / 4)).toNat] := by
  unfold State.hostRead
  iterate 10 rw [if_neg (by omega)]
  rw [nbits_one]

/-! ### The claim -/

/-- Settles O44: the offset of an alias word lies in the alias range, and its word and bit are found again from it. -/
theorem aliasWordsNameOneBit : Obligations.AliasWordsNameOneBit := by
  unfold Obligations.AliasWordsNameOneBit
  intro a w s
  change s.hostWrite a.path (aliasOffset a) w = _ ∧ s.hostRead a.path (aliasOffset a) = _
  constructor
  · rw [State.hostWrite_of_alias (le_aliasOffset a), aliasAccessAt_aliasOffset]
  · rw [State.hostRead_of_alias (le_aliasOffset a), aliasOffset_word, aliasOffset_bit, Nat.mul_comm]

end Sys2Proof.Machine

/-! SUPPORT. A step and its command: what a step keeps (Laws/KeepsStep.lean, for every command), the state after reset, and which commands can stop. -/

namespace Sys2Proof.Machine

/-! ### One step -/

section
variable {s s' : State} {c : Instr} {rest : List Instr}

theorem step_of_empty (hp : s.pending = []) : step s = .next s.idle := by
  unfold step
  split
  · rfl
  · next h => rw [hp] at h; cases h

theorem step_of_front (hp : s.pending = c :: rest) : step s = exec c { s with pending := rest } := by
  unfold step
  split
  · next h => rw [hp] at h; cases h
  · next h =>
    rw [hp] at h
    cases h
    rfl

/-- A step that answers was an idle cycle or a run of the front command. -/
theorem step_cases (h : step s = .next s') :
    (s.pending = [] ∧ s' = s.idle) ∨ ∃ c rest, s.pending = c :: rest ∧ exec c { s with pending := rest } = .next s' := by
  cases hp : s.pending with
  | nil =>
    rw [step_of_empty hp] at h
    exact .inl ⟨rfl, (Host.Outcome.next.inj h).symm⟩
  | cons c rest => exact .inr ⟨c, rest, rfl, (step_of_front hp).symm.trans h⟩

theorem Keeps.of_exec_next {u0 : Nat} {q0 : List Instr} (hk : ResKeeps u0 q0 (exec c s)) (h : exec c s = .next s') : Keeps u0 q0 s' := by
  rw [h] at hk
  exact hk

theorem State.Sound.keeps_rest (hs : s.Sound) (rest : List Instr) : Keeps s.time.up rest { s with pending := rest } := ⟨hs, le_rfl, rfl⟩

/-- A step keeps a state sound and leaves the tail of its queue. -/
theorem step_keeps (hs : s.Sound) (h : step s = .next s') : Keeps 0 s.pending.tail s' := by
  obtain ⟨hp, rfl⟩ | ⟨c, rest, hp, he⟩ := step_cases h
  · exact ⟨hs, Nat.zero_le _, by rw [hp]; exact hp⟩
  · rw [hp]
    exact .of_exec_next (exec_keeps_zero ((hs.keeps_rest rest).le (Nat.zero_le _)) c) he

end

/-- Settles O4: what every command keeps, every step keeps. -/
theorem stepKeepsSound : Obligations.StepKeepsSound := fun _ _ hs h => (step_keeps hs h).1

/-- Settles O2: the idle cycle, and the queue that every command leaves as it was. -/
theorem stepConsumesOneCommand : Obligations.StepConsumesOneCommand :=
  ⟨fun _ hp => step_of_empty hp, fun _ _ hs h => (step_keeps hs h).2.2⟩

/-- Settles O6: an idle cycle adds to the uptime, and of the commands only the two excluded ones can take from it. -/
theorem uptimeNeverRunsBack : Obligations.UptimeNeverRunsBack := by
  unfold Obligations.UptimeNeverRunsBack
  intro s s' hs hreset hrail h
  obtain ⟨-, rfl⟩ | ⟨c, rest, hp, he⟩ := step_cases h
  · exact Nat.le_add_right _ _
  · rw [hp] at hreset hrail
    have hk := exec_keeps (hs.keeps_rest rest) c (fun e => hreset (e ▸ rfl)) (fun torn e => hrail torn (e ▸ rfl))
    exact (Keeps.of_exec_next hk he).up

/-- Settles O1. -/
theorem stepRunsTheFrontCommand : Obligations.StepRunsTheFrontCommand := fun _ _ _ hp => step_of_front hp

/-! ### The state after reset -/

/-- A source that Table 22.1 lists is enabled by its reset word, a reserved one reads 0. -/
theorem State.source_reset_enabled : ∀ n, n < 128 → fbit (State.reset.source n).src F.FC_SRC.EN = sourceListed n := by decide +kernel

/-- Settles O5. -/
theorem resetLeavesTheStatedValues : Obligations.ResetLeavesTheStatedValues := by
  unfold Obligations.ResetLeavesTheStatedValues
  have hlocks : ∀ k, k < 32 → State.reset.lockOwner k = 0 := by decide +kernel
  have hqueues : ∀ c, c < 8 → (State.reset.chan c).inq = [] ∧ (State.reset.chan c).outq = [] := by decide +kernel
  exact ⟨⟨⟨rfl, rfl⟩, rfl, rfl, rfl⟩, rfl, rfl, rfl, rfl, rfl, rfl, State.source_reset_enabled, hlocks, hqueues, rfl, rfl, rfl⟩

/-! ### Every command answers -/

/-- A request row answers: running a command always does. -/
theorem exec_next_of_request {i : Instr} {k : Fin 9} {sp : Spec} {s : State} (h : requestRow s i = some (k, sp)) : ∃ t, exec i s = .next t := by
  obtain ⟨index, body, he⟩ := exec_request h
  rw [he]
  exact State.command_next

theorem next_ite {c : Prop} [Decidable c] {a b : Res} (ha : ∃ t, a = .next t) (hb : ∃ t, b = .next t) : ∃ t, (if c then a else b) = .next t := by
  split <;> assumption

/-- A command that names no DRAM address of its own answers a next state. -/
theorem exec_next_of_no_address (i : Instr) (s : State) (hw : ∀ p5 n, i ≠ .cellarPortWrite p5 n) (hr : ∀ p a k, i ≠ .cellarRead p a k) :
    ∃ t, exec i s = .next t := by
  cases i
  case cellarPortWrite => exact absurd rfl (hw _ _)
  case cellarRead => exact absurd rfl (hr _ _ _)
  case identify | status | progress | modeSet | planCheck | planSuggest | tableLoad | gainSet | frontSet | chainSet | chainReset | mapSet | cellLoad |
      poolSet | zoneSet | zoneParam | zoneEnable | zoneRead | trigSet | arm | disarm | fire | recordList | recordDelete | streamSet | streamStart |
      streamStop | tempSet | tempCal | calibrate | retrimDefer | trimSet | surveyRead | timeCfg | timeSet | tiuMeasure | tachCfg | tachStatus | timeRead |
      faultRead | faultClear | faultCfg | logRead | netSet | memMap | replayStart | replayStop | fwStage | fwActivate | bist | train | shutdown |
      secChallenge | secUnlock | secRevoke | secKey =>
    exact exec_next_of_request rfl
  case bulkTimeout | stampedChangeApply | launch | quietIntervalEnd | probeStart | tecSettleTimeout | restPowerDown | surveyWindowDone | straitWordArrival |
      gainChange | autoGainDecision | traceProcess | ramanSpanSnapshot | chainTrace | synchronisingReset | replayBlock | h2dDescriptorRead | cellarGrant |
      refreshDue | patrolScrub | blockDelivery | jobStart | loftScrub | zoneRestart | versionCommit | triggerVersion | verdictTimeout | streamItemRead |
      streamFlushTimeout | udpBlockSend | calibrationGapStart | calibrationGapEnd | hkEntryConversion | adcSelfCalibrationDone | hkSelfCalibrationDone |
      calibrateDone | gainReqArm | hdLoopUpdate | hdSetpointWrite | setpointStep | channelEnable | tecLoopUpdate | tecLimit | chainGo | chainTransferDone |
      tachStall | tachEnable | ppsEdge | ppsMissing | ref10mReturn | holdoverLimit | ptpEventMessage | disciplineUpdate | timeStep | tiuGo | tiuStartEvent |
      tiuStopEvent | tiuRangeEnd | tiuNoStart | firmwareTakeInbound | firmwareOutboundComplete | mbStallTimeout | mbSleep | mailboxWake | longOperationAbort
      | streamBuffersAdded | h2dChainExtended | msixHoldoffEnd | wideCaptureDone | vecFrameLoRead | trigFireLoRead | strHeadLoRead | registerWrite |
      spiTransaction | dbgUpdateDr | ethFrameReceived | cwHelloSend | cwHello | membershipStable | hopMeasurement | cwDelayResp | cwTimeSend | cwTime |
      cwVerdict | cwMember | cwPortDown | cwLinkReturn | journalledPlanRestart | collectorCfgCheck | watchdog | porRelease | bootImageLoaded | fwReady |
      trainingDone | bistSliceDone | shutdownDrainDone | trnCompareDone | hsPwmOnWindow | flashWriteDone =>
    dsimp -zeta only [exec, execBulkTimeout, execStampedChangeApply, execLaunch, execQuietIntervalEnd, execProbeStart, execTecSettleTimeout, execRestPowerDown,
      execSurveyWindowDone, execStraitWordArrival, execGainChange, execAutoGainDecision, execTraceProcess, execRamanSpanSnapshot, execChainTrace,
      execSynchronisingReset, execReplayBlock, execH2dDescriptorRead, execCellarGrant, execRefreshDue, execPatrolScrub, execBlockDelivery, execJobStart,
      execLoftScrub, execZoneRestart, execVersionCommit, execTriggerVersion, execVerdictTimeout, execStreamItemRead, execStreamFlushTimeout,
      execUdpBlockSend, execCalibrationGapStart, execCalibrationGapEnd, execHkEntryConversion, execAdcSelfCalibrationDone, execHkSelfCalibrationDone,
      execCalibrateDone, execGainReqArm, execHdLoopUpdate, execHdSetpointWrite, execSetpointStep, execChannelEnable, execTecLoopUpdate, execTecLimit,
      execChainGo, execChainTransferDone, execTachStall, execTachEnable, execPpsEdge, execPpsMissing, execRef10mReturn, execHoldoverLimit,
      execPtpEventMessage, execDisciplineUpdate, execTimeStep, execTiuGo, execTiuStartEvent, execTiuStopEvent, execTiuRangeEnd, execTiuNoStart,
      execFirmwareTakeInbound, execFirmwareOutboundComplete, execMbStallTimeout, execMbSleep, execMailboxWake, execLongOperationAbort,
      execStreamBuffersAdded, execH2dChainExtended, execMsixHoldoffEnd, execWideCaptureDone, execVecFrameLoRead, execTrigFireLoRead, execStrHeadLoRead,
      execRegisterWrite, execSpiTransaction, execDbgUpdateDr, execEthFrameReceived, execCwHelloSend, execCwHello, execMembershipStable, execHopMeasurement,
      execCwDelayResp, execCwTimeSend, execCwTime, execCwVerdict, execCwMember, execCwPortDown, execCwLinkReturn, execJournalledPlanRestart,
      execCollectorCfgCheck, execWatchdog, execPorRelease, execBootImageLoaded, execFwReady, execTrainingDone, execBistSliceDone, execShutdownDrainDone,
      execTrnCompareDone, execHsPwmOnWindow, execFlashWriteDone]
    repeat' (first | extract_lets | refine next_ite ?_ ?_ | exact ⟨_, rfl⟩ | split)
  case copyRow | tachEdge | ringSplit =>
    dsimp only [exec, execCopyRow, execTachEdge, execRingSplit]
    repeat' (first | exact ⟨_, rfl⟩ | split)
  all_goals exact ⟨_, rfl⟩

/-! ### The two rows that name an address of the Cellar -/

section
variable {s : State} {p5 : Bool} {n a : Nat} {row : StoredRow} {p : Fin 6} {k : ReadCheck}

/-- The bytes of the row at the front that a port write of `n` stores (R292). -/
def State.portFits (s : State) (p5 : Bool) (n : Nat) (row : StoredRow) : Nat :=
  if (s.cellar.ring p5).dropping then 0
  else min (min n (row.bytes.length - (s.cellar.ring p5).taken)) (portBuffer (if p5 then 5 else 0) - (s.cellar.portOf (if p5 then 5 else 0)).level)

/-- The end of the memory that `fits` bytes touch: past the end of the ring they go on at its start. -/
def Ring.writeEnd (r : Ring) (fits : Nat) : Nat :=
  if fits ≤ r.base + r.size - r.addr (r.pos + r.taken) 0 then r.addr (r.pos + r.taken) 0 + fits else r.base + r.size

theorem Ring.writeEnd_le {r : Ring} {fits : Nat} (h : 0 < fits) : r.writeEnd fits ≤ r.base + r.size := by
  unfold Ring.writeEnd
  split <;> omega

/-- A port write stops exactly where it stores something and the memory that this touches is not fitted. -/
theorem execCellarPortWrite_next (hf : s.halls.front p5 = some row)
    (h : ¬ (0 < s.portFits p5 n row ∧ s.cellar.capacity < (s.cellar.ring p5).writeEnd (s.portFits p5 n row))) :
    ∃ t, execCellarPortWrite p5 n s = .next t := by
  unfold execCellarPortWrite
  rw [hf]
  refine next_ite ⟨_, rfl⟩ ?_
  rw [if_neg (by rw [Bool.and_eq_true, decide_eq_true_eq, decide_eq_true_eq]; exact h)]
  exact next_ite ⟨_, rfl⟩ ⟨_, rfl⟩

theorem execCellarPortWrite_fault (hf : s.halls.front p5 = some row) (h0 : 0 < s.portFits p5 n row)
    (hc : s.cellar.capacity < (s.cellar.ring p5).writeEnd (s.portFits p5 n row)) : execCellarPortWrite p5 n s = .fault .noSuchDramAddress := by
  have hm : min n (row.bytes.length - (s.cellar.ring p5).taken) ≠ 0 := by
    unfold State.portFits at h0
    split at h0 <;> omega
  unfold execCellarPortWrite
  rw [hf]
  exact (if_neg hm).trans (if_pos (by rw [Bool.and_eq_true, decide_eq_true_eq, decide_eq_true_eq]; exact ⟨h0, hc⟩))

theorem execCellarPortWrite_cases (p5 : Bool) (n : Nat) (s : State) : (∃ t, execCellarPortWrite p5 n s = .next t) ∨
    execCellarPortWrite p5 n s = .fault .noSuchDramAddress ∧
      ∃ row, s.halls.front p5 = some row ∧ s.cellar.capacity < (s.cellar.ring p5).base + (s.cellar.ring p5).size := by
  cases hf : s.halls.front p5 with
  | none => exact .inl ⟨s, by unfold execCellarPortWrite; rw [hf]⟩
  | some row =>
    by_cases h : 0 < s.portFits p5 n row ∧ s.cellar.capacity < (s.cellar.ring p5).writeEnd (s.portFits p5 n row)
    · exact .inr ⟨execCellarPortWrite_fault hf h.1 h.2, row, rfl, h.2.trans_le (Ring.writeEnd_le h.1)⟩
    · exact .inl (execCellarPortWrite_next hf h)

theorem execCellarRead_fault (he : fbit s.cellar.cfg F.CELLAR_CFG.ENABLE = true) (ha : s.cellar.capacity ≤ a) :
    execCellarRead p a k s = .fault .noSuchDramAddress := by
  unfold execCellarRead
  exact (if_neg (by simp [he])).trans (if_pos ha)

theorem execCellarRead_cases (p : Fin 6) (a : Nat) (k : ReadCheck) (s : State) : (∃ t, execCellarRead p a k s = .next t) ∨
    execCellarRead p a k s = .fault .noSuchDramAddress ∧ s.cellar.capacity ≤ a := by
  by_cases h : fbit s.cellar.cfg F.CELLAR_CFG.ENABLE = true ∧ s.cellar.capacity ≤ a
  · exact .inr ⟨execCellarRead_fault h.1 h.2, h.2⟩
  · left
    unfold execCellarRead
    by_cases he : fbit s.cellar.cfg F.CELLAR_CFG.ENABLE = true
    · refine next_ite ⟨_, rfl⟩ ?_
      rw [if_neg (fun ha => h ⟨he, ha⟩)]
      cases s.cellar.check a k <;> exact ⟨_, rfl⟩
    · exact ⟨s, if_pos (by simpa using he)⟩

end

/-- Settles O3: only the two rows that name a Cellar address can stop, and each says where. -/
theorem everyCommandAnswers : Obligations.EveryCommandAnswers := by
  unfold Obligations.EveryCommandAnswers
  refine ⟨fun i s => ?_, fun p a k s => execCellarRead_fault, ?_⟩
  · by_cases hw : ∃ p5 n, i = .cellarPortWrite p5 n
    · obtain ⟨p5, n, rfl⟩ := hw
      refine (execCellarPortWrite_cases p5 n s).imp id (fun ⟨he, row, hf, hc⟩ => ⟨he, .inl ⟨p5, n, row, rfl, hf, hc⟩⟩)
    · by_cases hr : ∃ p a k, i = .cellarRead p a k
      · obtain ⟨p, a, k, rfl⟩ := hr
        exact (execCellarRead_cases p a k s).imp id (fun ⟨he, ha⟩ => ⟨he, .inr ⟨p, a, k, rfl, ha⟩⟩)
      · exact .inl (exec_next_of_no_address i s (fun p5 n e => hw ⟨p5, n, e⟩) (fun p a k e => hr ⟨p, a, k, e⟩))
  · intro p5 n s row hf r p fits hd h0 hc hs
    have hfits : s.portFits p5 n row = fits := if_neg (by simp [show (s.cellar.ring p5).dropping = false from hd])
    refine execCellarPortWrite_fault hf (hfits ▸ h0) ?_
    rw [hfits]
    unfold Ring.writeEnd
    split
    · exact hc
    · exact hs

end Sys2Proof.Machine

/-! SUPPORT. What is checked of a request before its own body runs, and in what order (R361, R362). -/

namespace Sys2Proof.Machine

section
variable {s t : State} {sp : Spec} {c : Nat} {r : Request} {rest : List Request} {b : List Byte} {index : Cmd → Nat} {body : Cmd → State → Reply}

/-- A request that its carrier's row does not run: firmware is not up, the head is malformed, or it names another command. -/
theorem State.command_stays (hin : vget s.fw.inbox c [] = r :: rest) (h : s.fwReady = false ∨ headerErr r.msg ≠ none ∨ msgCode r.msg ≠ sp.code) :
    s.command sp c index body = .next s := by
  have hskip : (!s.fwReady || (headerErr r.msg).isSome || msgCode r.msg != sp.code) = true := by
    rcases h with h | h | h
    · simp [h]
    · simp [Option.isSome_iff_ne_none.mpr h]
    · simp [h]
  unfold State.command
  rw [hin]
  exact if_pos hskip

/-- The head of carrier c is a request of this row, admitted by steps 3 to 7 of R361 now or before, and it announces a bulk payload. -/
structure State.Admitted (s : State) (sp : Spec) (c : Nat) (r : Request) (rest : List Request) : Prop where
  head : vget s.fw.inbox c [] = r :: rest
  ready : s.fwReady = true
  header : headerErr r.msg = none
  code : msgCode r.msg = sp.code
  checked : r.waitUp ≠ none ∨ s.firstRefusal sp r c = none
  bulk : msgBulk r.msg = true

theorem State.Admitted.command_eq (h : s.Admitted sp c r rest) : s.command sp c index body =
    if c = 8 then
      match bulkOf sp.code (msgTag r.msg) r.bulk with
      | none => .next (s.refuse c r { status := .bulk })
      | some b => .next (s.perform sp c r b index body)
    else
      match s.fw.bulk with
      | bs :: more =>
        if s.bulkTurn c (r.waitUp.getD s.time.up) then
          match bulkOf sp.code (msgTag r.msg) bs with
          | none => .next (({ s with fw := { s.fw with bulk := more } } : State).refuse c r { status := .bulk })
          | some b => .next (({ s with fw := { s.fw with bulk := more } } : State).perform sp c r b index body)
        else .next { s with fw := { s.fw with inbox := vset s.fw.inbox c ({ r with waitUp := some (r.waitUp.getD s.time.up) } :: rest) } }
      | [] => .next { s with fw := { s.fw with inbox := vset s.fw.inbox c ({ r with waitUp := some (r.waitUp.getD s.time.up) } :: rest) } } := by
  have hrun : ¬ (!s.fwReady || (headerErr r.msg).isSome || msgCode r.msg != sp.code) = true := by simp [h.ready, h.header, h.code]
  have hadm : (if r.waitUp.isSome = true then none else s.entryCheck sp r c) = none := by
    split
    · rfl
    · next hw =>
      rw [← State.firstRefusal_eq_entryCheck]
      exact h.checked.resolve_left (fun hne => hw (Option.isSome_iff_ne_none.mpr hne))
  unfold State.command
  rw [h.head]
  dsimp only
  rw [if_neg hrun, hadm]
  dsimp only
  rw [if_neg (by simp [h.bulk])] <;> rfl

/-- A UDP request whose payload does not match is refused with BULK. -/
theorem State.Admitted.command_badDatagram (h : s.Admitted sp c r rest) (hc : c = 8) (hb : bulkOf sp.code (msgTag r.msg) r.bulk = none) :
    s.command sp c index body = .next (s.refuse c r { status := .bulk }) := by
  rw [h.command_eq, if_pos hc, hb]

/-- Over PCIe the request waits while no buffer is there, or while an earlier one waits. -/
theorem State.Admitted.command_waits (h : s.Admitted sp c r rest) (hc : c ≠ 8)
    (hw : s.fw.bulk = [] ∨ s.bulkTurn c (r.waitUp.getD s.time.up) = false) :
    s.command sp c index body =
      .next { s with fw := { s.fw with inbox := vset s.fw.inbox c ({ r with waitUp := some (r.waitUp.getD s.time.up) } :: rest) } } := by
  rw [h.command_eq, if_neg hc]
  cases hbk : s.fw.bulk with
  | nil => rfl
  | cons bs more => exact if_neg (by simp [hw.resolve_left (by simp [hbk])])

/-- The buffer of its turn that does not match refuses it with BULK, and is used up. -/
theorem State.Admitted.command_badBuffer (h : s.Admitted sp c r rest) (hc : c ≠ 8) {bs : List Byte} {more : List (List Byte)} (hbk : s.fw.bulk = bs :: more)
    (ht : s.bulkTurn c (r.waitUp.getD s.time.up) = true) (hb : bulkOf sp.code (msgTag r.msg) bs = none) :
    s.command sp c index body = .next (({ s with fw := { s.fw with bulk := more } } : State).refuse c r { status := .bulk }) := by
  rw [h.command_eq, if_neg hc, hbk]
  dsimp only
  rw [if_pos ht, hb]

end

/-- Settles O7: each refusal of R361 and R362 is one lemma about running a command. -/
theorem requestsAreCheckedInOrder : Obligations.RequestsAreCheckedInOrder := by
  unfold Obligations.RequestsAreCheckedInOrder
  intro i c sp s hrow
  obtain ⟨index, body, he⟩ := exec_request hrow
  rw [he]
  refine ⟨State.command_empty, fun r rest hin => ⟨State.command_stays hin, fun hf hh hc hw e => State.command_refused hin hf hh hc hw, ?_⟩, ?_⟩
  · intro hf hh hc hadm hb
    have h : s.Admitted sp c r rest := ⟨hin, hf, hh, hc, hadm, hb⟩
    exact ⟨h.command_badDatagram, h.command_waits, fun h8 bs more => h.command_badBuffer h8⟩
  · intro r b t ha hs hb
    exact ⟨index (r.cmd sp c b), State.command_badAt ha hs hb⟩

end Sys2Proof.Machine

/-! SUPPORT. The layout of a response (R359, R360): its series, the header word of each message, the words behind the headers, and word 1. -/

namespace Sys2Proof.Machine

/-! ### Words -/

theorem w32_toNat_mod (n : Nat) : (w32 n).toNat = n % 2 ^ 32 := BitVec.toNat_ofNat n 32

/-- Word 1 as a number. -/
theorem statusWord_toNat {st detail index : Nat} (hs : st < 65536) (hd : detail < 256) (hi : index < 256) :
    (statusWord st detail index).toNat = st + 65536 * detail + 2 ^ 24 * index := by
  rw [statusWord, w32_toNat_mod]
  omega

/-- The header word as a number. -/
theorem headerWord_toNat {words kind more tag code : Nat} (hk : kind < 4) (hc : code < 4096) (ht : tag < 256) (hm : more < 2) :
    (headerWord words kind more tag code).toNat = words % 16 + 16 * kind + 64 * more + 256 * tag + 65536 * code + 2 ^ 28 := by
  rw [headerWord, w32_toNat_mod]
  omega

/-! ### One message -/

section
variable {kind code tag more : Nat} {p : List Word}

/-- A message of a series: its header and its words. -/
def seriesMsg (kind code tag more : Nat) (p : List Word) : Msg := headerWord p.length kind more tag code :: p

theorem msgHeader_seriesMsg (hk : kind < 4) (hc : code < 4096) (ht : tag < 256) (hm : more < 2) :
    msgHeader (seriesMsg kind code tag more p) = p.length % 16 + 16 * kind + 64 * more + 256 * tag + 65536 * code + 2 ^ 28 :=
  headerWord_toNat hk hc ht hm

/-- The header tells the fields of its message back. -/
theorem seriesMsg_fields (hk : kind < 4) (hc : code < 4096) (ht : tag < 256) (hm : more < 2) (hp : p.length ≤ 15) :
    msgKind (seriesMsg kind code tag more p) = kind ∧ msgCode (seriesMsg kind code tag more p) = code ∧
      msgTag (seriesMsg kind code tag more p) = tag ∧ msgMajor (seriesMsg kind code tag more p) = 1 ∧
      msgWords (seriesMsg kind code tag more p) = (seriesMsg kind code tag more p).length ∧ (seriesMsg kind code tag more p).length ≤ 16 := by
  have hlen : (seriesMsg kind code tag more p).length = p.length + 1 := rfl
  unfold msgKind msgCode msgTag msgMajor msgWords nbits
  rw [msgHeader_seriesMsg hk hc ht hm, hlen]
  omega

theorem msgBulk_seriesMsg (hk : kind < 4) (hc : code < 4096) (ht : tag < 256) (hm : more < 2) :
    msgBulk (seriesMsg kind code tag more p) = (more == 1) := by
  unfold msgBulk nbit
  rw [msgHeader_seriesMsg hk hc ht hm]
  congr 1
  omega

end

/-! ### The chunks of a series -/

theorem chunk15_length_le {fuel : Nat} {ws p : List Word} (hp : p ∈ chunk15 fuel ws) : p.length ≤ 15 := by
  induction fuel generalizing ws with
  | zero => simp [chunk15] at hp
  | succ fuel ih =>
    cases ws with
    | nil => simp [chunk15] at hp
    | cons w ws =>
      rcases List.mem_cons.mp hp with rfl | hp
      · simp
      · exact ih hp

/-- With fuel for every word the chunks are the words. -/
theorem chunk15_flatten {fuel : Nat} {ws : List Word} (h : ws.length < fuel) : (chunk15 fuel ws).flatten = ws := by
  induction fuel generalizing ws with
  | zero => omega
  | succ fuel ih =>
    cases ws with
    | nil => rfl
    | cons w ws =>
      have hrest : ((w :: ws).drop 15).length < fuel := by simp only [List.length_drop, List.length_cons] at h ⊢; omega
      rw [chunk15, List.flatten_cons, ih hrest, List.take_append_drop]
      simp

/-- The messages of a series: MORE in all but the last. -/
theorem mkSeries_eq (kind code tag : Nat) (ws : List Word) : mkSeries kind code tag ws =
    (chunk15 (ws.length + 1) ws).zipIdx.map
      (fun x => seriesMsg kind code tag (if x.2 + 1 < (chunk15 (ws.length + 1) ws).length then 1 else 0) x.1) := rfl

theorem mem_mkSeries {kind code tag : Nat} {ws : List Word} {m : Msg} (h : m ∈ mkSeries kind code tag ws) :
    ∃ more p, more < 2 ∧ p.length ≤ 15 ∧ m = seriesMsg kind code tag more p := by
  rw [mkSeries_eq] at h
  obtain ⟨x, hx, rfl⟩ := List.mem_map.mp h
  refine ⟨_, x.1, ?_, chunk15_length_le (List.fst_mem_of_mem_zipIdx hx), rfl⟩
  split <;> decide

/-- The words behind the headers of a series. -/
theorem mkSeries_words (kind code tag : Nat) (ws : List Word) : (mkSeries kind code tag ws).flatMap (fun m => m.drop 1) = ws := by
  rw [mkSeries_eq, List.flatMap_map]
  calc (chunk15 (ws.length + 1) ws).zipIdx.flatMap (fun x => x.1)
      = ((chunk15 (ws.length + 1) ws).zipIdx.map Prod.fst).flatten := rfl
    _ = (chunk15 (ws.length + 1) ws).flatten := by rw [List.zipIdx_map_fst]
    _ = ws := chunk15_flatten (Nat.lt_succ_self _)

section
variable {kind code tag : Nat} {ws : List Word}

/-- MORE of the message at a place of the series. -/
theorem msgBulk_mkSeries (hk : kind < 4) (hc : code < 4096) (ht : tag < 256) {i : Nat} (hi : i < (mkSeries kind code tag ws).length) :
    msgBulk (mkSeries kind code tag ws)[i] = decide (i + 1 < (mkSeries kind code tag ws).length) := by
  have hlen : (mkSeries kind code tag ws).length = (chunk15 (ws.length + 1) ws).length := by simp [mkSeries_eq]
  simp only [mkSeries_eq, List.getElem_map, List.getElem_zipIdx, List.length_map, List.length_zipIdx, Nat.zero_add]
  rw [msgBulk_seriesMsg hk hc ht (by split <;> decide)]
  split <;> simp [*]

theorem mkSeries_ne_nil (w : Word) : mkSeries kind code tag (w :: ws) ≠ [] := by
  intro h
  have := mkSeries_words kind code tag (w :: ws)
  rw [h] at this
  cases this

theorem mkSeries_dropLast_more (hk : kind < 4) (hc : code < 4096) (ht : tag < 256) : (mkSeries kind code tag ws).dropLast.all msgBulk = true := by
  rw [List.all_eq_true]
  intro m hm
  obtain ⟨i, hi, rfl⟩ := List.getElem_of_mem hm
  rw [List.getElem_dropLast, msgBulk_mkSeries hk hc ht, decide_eq_true_eq]
  rw [List.length_dropLast] at hi
  omega

theorem mkSeries_last_no_more (hk : kind < 4) (hc : code < 4096) (ht : tag < 256) (w : Word) :
    (mkSeries kind code tag (w :: ws)).getLast?.map msgBulk = some false := by
  have hne := mkSeries_ne_nil (kind := kind) (code := code) (tag := tag) (ws := ws) w
  have hpos := List.length_pos_iff.mpr hne
  rw [List.getLast?_eq_some_getLast hne, List.getLast_eq_getElem, Option.map_some, msgBulk_mkSeries hk hc ht]
  simp; omega

end

/-! ### The claim -/

/-- The series of a response joins the messages that wait for its mailbox channel. -/
theorem State.reply_out {c : Nat} (hc : c < 8) (udp : Option UdpTag) (code tag st detail index : Nat) (items : List Word) (s : State) :
    vget (s.reply c udp code tag st detail index items).fw.out c [] =
      vget s.fw.out c [] ++ (mkSeries 1 code tag (statusWord st detail index :: items)).map (fun m => ⟨s.fw.order, m⟩) := by
  unfold State.reply
  rw [if_pos hc]
  exact vget_vmod_self hc

/-- Settles O9: the series on its channel, the header of each message, MORE, the words behind the headers, and word 1. -/
theorem responseLayout : Obligations.ResponseLayout := by
  unfold Obligations.ResponseLayout
  refine ⟨fun c code tag st detail index items s hc => State.reply_out hc .., ?_, ?_, fun kind code tag w ws => mkSeries_words .., ?_⟩
  · intro kind code tag w ws m hk hc ht hm
    obtain ⟨more, p, hmore, hp, rfl⟩ := mem_mkSeries hm
    exact seriesMsg_fields hk hc ht hmore hp
  · exact fun kind code tag w ws hk hc ht => ⟨mkSeries_dropLast_more hk hc ht, mkSeries_last_no_more hk hc ht w⟩
  · exact fun st detail index => statusWord_toNat

end Sys2Proof.Machine

/-! SUPPORT. The query commands: each answers what its body gives in range (Table 20.3, Table 20.6, R30 to R32); the condition that PLAN_CHECK names. -/

namespace Sys2Proof.Machine

/-! ### Parameters in range -/

theorem Cmd.badItem_eq_false {cmd : Cmd} {i limit : Nat} (h : cmd.p i < limit) : cmd.badItem i limit = false := decide_eq_false (Nat.not_le.mpr h)

theorem Cmd.badItem_eq_true {cmd : Cmd} {i limit : Nat} (h : limit ≤ cmd.p i) : cmd.badItem i limit = true := decide_eq_true h

/-! ### The queries -/

/-- Settles O10: in range the body of each query is its answer. -/
theorem queriesAnswer : Obligations.QueriesAnswer := by
  unfold Obligations.QueriesAnswer
  refine ⟨⟨?_, ?_, ?_, ?_, ?_, ?_⟩, ?_, ?_, ?_, ?_, ?_, ?_⟩
  -- IDENTIFY, STATUS, PROGRESS and TIME_READ answer whatever the state.
  · exact answers_of _ (fun k s sp h => by cases h; rfl) (fun k cmd t _ => rfl)
  · exact answers_of _ (fun k s sp h => by cases h; rfl) (fun k cmd t _ => rfl)
  · exact answers_of _ (fun k s sp h => by cases h; rfl) (fun k cmd t _ => rfl)
  · refine answers_of _ (fun k s sp h => by cases h; rfl) (fun k cmd t _ => ?_)
    simp only [Bool.or_eq_true, decide_eq_true_eq]
    rfl
  -- TACH_STATUS and ZONE_READ check the item that they name.
  · refine answers_of _ (fun k s sp h => by cases h; rfl) (fun k cmd t hk => ?_)
    simp only [Cmd.badItem_eq_false hk]
    cases t.power.front <;> rfl
  · refine answers_of _ (fun k s sp h => by cases h; rfl) (fun k cmd t hk => ?_)
    exact if_neg (by simp [Cmd.badItem_eq_false hk])
  -- RECORD_LIST and SURVEY_READ.
  · refine answers_of _ (fun k s sp h => by cases h; rfl) (fun k cmd t hk => ?_)
    exact if_neg (by simp; omega)
  · refine answers_of _ (fun k s sp h => by cases h; rfl) (fun k cmd t hk => ?_)
    obtain ⟨hleg, hitem, l, hl, hlen⟩ := hk
    simp only [Cmd.badItem_eq_false hleg, Cmd.badItem_eq_false hitem, hl]
    exact if_neg (Nat.not_lt.mpr hlen)
  -- FAULT_READ and LOG_READ.
  · exact answers_of _ (fun k s sp h => by cases h; rfl) (fun k cmd t hk => if_neg (by simp; omega))
  · exact answers_of _ (fun k s sp h => by cases h; rfl) (fun k cmd t hk => if_neg (by simp; omega))
  -- PLAN_CHECK and PLAN_SUGGEST.
  · refine answers_of _ (fun k s sp h => by cases h; rfl) (fun k cmd t hk => ?_)
    obtain ⟨p, hp, hf⟩ := hk
    simp only [hp, PlanWords.infeasible, hf, Option.map_none]
  · refine answers_of _ (fun k s sp h => by cases h; rfl) (fun k cmd t hk => ?_)
    obtain ⟨hlo, hhi, hd, hs⟩ := hk
    obtain ⟨ws, hw⟩ := Option.isSome_iff_exists.mp hs
    refine (if_neg (by simp; omega)).trans ((if_neg (by omega)).trans ?_)
    simp only [hw, Option.getD_some]

/-! ### The first condition that fails (R31, R32) -/

section
variable {p : PlanWords} {n l : Nat}

/-- The first condition of R31 that a leg fails. -/
def PlanWords.legFailed (p : PlanWords) (l : Nat) : Option Nat := (List.range' 1 9).find? (fun c => !p.holds c l)

theorem PlanWords.legFailed_eq_some (h : p.legFailed l = some n) :
    1 ≤ n ∧ n ≤ 9 ∧ p.holds n l = false ∧ ∀ m, 1 ≤ m → m < n → p.holds m l = true := by
  obtain ⟨hn, hmem, hbefore⟩ := List.find?_range'_eq_some.mp h
  have := List.mem_range'_1.mp hmem
  exact ⟨by omega, by omega, by simpa using hn, fun m h1 hm => by simpa using hbefore m h1 hm⟩

theorem PlanWords.legFailed_eq_none (h : p.legFailed l = none) {m : Nat} (h1 : 1 ≤ m) (h9 : m ≤ 9) : p.holds m l = true := by
  have := List.find?_eq_none.mp h m (List.mem_range'_1.mpr (by omega))
  simpa using this

/-- The legs that are on, in their order. -/
def PlanWords.legsOn (p : PlanWords) : List Nat := [0, 1].filter (fun l => (p.bank.legBank l).on)

/-- The failure of a plan: the first leg that fails a condition, with that condition. -/
theorem PlanWords.failed_eq (hm : p.mode ≠ 0) : p.failed = if p.legsOn.isEmpty then some (1, 0xFF) else
    (p.legsOn.findSome? (fun l => (p.legFailed l).map (fun c => (c, l)))).map (fun e => (e.1, if e.1 = 2 then 0xFF else e.2)) := by
  unfold PlanWords.failed
  rw [if_neg hm]
  have hleg : ∀ l : Nat, (([1, 2, 3, 4, 5, 6, 7, 8, 9] : List Nat).map (fun c => (c, l))).find? (fun e => !p.holds e.1 e.2) =
      (p.legFailed l).map (fun c => (c, l)) := fun l => List.find?_map ..
  simp only [List.find?_flatMap, hleg]
  rfl

theorem PlanWords.mem_legsOn : l ∈ p.legsOn ↔ l < 2 ∧ (p.bank.legBank l).on = true := by
  unfold PlanWords.legsOn
  rw [List.mem_filter]
  refine and_congr_left fun _ => ?_
  simp
  omega

/-- The leg at which a search over the two legs stops: it is on, and legs before it that are on were passed. -/
theorem PlanWords.findSome?_legsOn {α : Type} {f : Nat → Option α} {x : α} (h : p.legsOn.findSome? f = some x) :
    ∃ k, k < 2 ∧ (p.bank.legBank k).on = true ∧ f k = some x ∧ ∀ j, j < k → (p.bank.legBank j).on = true → f j = none := by
  obtain ⟨before, k, after, hlegs, hk, hpassed⟩ := List.findSome?_eq_some_iff.mp h
  have hrising : (before ++ k :: after).Pairwise (· < ·) := hlegs ▸ List.Pairwise.filter _ (by decide)
  obtain ⟨-, hafter, -⟩ := List.pairwise_append.mp hrising
  obtain ⟨hk2, hon⟩ := PlanWords.mem_legsOn.mp (hlegs ▸ List.mem_append_right before (List.mem_cons_self (l := after)))
  refine ⟨k, hk2, hon, hk, fun j hj hjon => ?_⟩
  have hmem : j ∈ before ++ k :: after := hlegs ▸ PlanWords.mem_legsOn.mpr ⟨hj.trans hk2, hjon⟩
  rcases List.mem_append.mp hmem with hbefore | hrest
  · exact hpassed j hbefore
  · rcases List.mem_cons.mp hrest with rfl | hlater
    · exact absurd hj (lt_irrefl _)
    · exact absurd ((List.rel_of_pairwise_cons hafter hlater).trans hj) (lt_irrefl _)

theorem PlanWords.failed_some (hm : p.mode ≠ 0) (h : p.failed = some (n, l)) : 1 ≤ n ∧ n ≤ 9 ∧
    ((n = 1 ∧ l = 0xFF ∧ (p.bank.legBank 0).on = false ∧ (p.bank.legBank 1).on = false) ∨
      ∃ k, k < 2 ∧ (p.bank.legBank k).on = true ∧ p.holds n k = false ∧ l = (if n = 2 then 0xFF else k) ∧
        (∀ m, 1 ≤ m → m < n → p.holds m k = true) ∧
        (∀ j m : Nat, j < k → (p.bank.legBank j).on = true → 1 ≤ m → m ≤ 9 → p.holds m j = true)) := by
  rw [PlanWords.failed_eq hm] at h
  split at h
  · next hempty =>
    cases h
    have hoff : ∀ k, k < 2 → (p.bank.legBank k).on = false := fun k hk => by
      rw [← Bool.not_eq_true]
      intro hon
      have hmem := PlanWords.mem_legsOn.mpr ⟨hk, hon⟩
      rw [List.isEmpty_iff.mp hempty] at hmem
      cases hmem
    exact ⟨by omega, by omega, .inl ⟨rfl, rfl, hoff 0 (by omega), hoff 1 (by omega)⟩⟩
  · obtain ⟨e, he, hnl⟩ := Option.map_eq_some_iff.mp h
    obtain ⟨k, hk, hon, hfail, hbefore⟩ := PlanWords.findSome?_legsOn he
    obtain ⟨c, hc, rfl⟩ := Option.map_eq_some_iff.mp hfail
    cases hnl
    obtain ⟨h1, h9, hfalse, hfirst⟩ := PlanWords.legFailed_eq_some hc
    refine ⟨h1, h9, .inr ⟨k, hk, hon, hfalse, rfl, hfirst, fun j m hj hjon => ?_⟩⟩
    exact PlanWords.legFailed_eq_none (Option.map_eq_none_iff.mp (hbefore j hj hjon))

theorem PlanWords.failed_none (hm : p.mode ≠ 0) (h : p.failed = none) {m k : Nat} (h1 : 1 ≤ m) (h9 : m ≤ 9) (hk : k < 2)
    (hon : (p.bank.legBank k).on = true) : p.holds m k = true := by
  rw [PlanWords.failed_eq hm] at h
  split at h
  · cases h
  · have hnone := List.findSome?_eq_none_iff.mp (Option.map_eq_none_iff.mp h) k (PlanWords.mem_legsOn.mpr ⟨hk, hon⟩)
    exact PlanWords.legFailed_eq_none (Option.map_eq_none_iff.mp hnone) h1 h9

end

/-- The row of PLAN_CHECK runs its command. -/
theorem exec_planCheck_infeasible {c : Fin 9} {sp : Spec} {s t : State} {r : Request} {b : List Byte} {p : PlanWords} {e : Nat × Nat}
    (hrow : requestRow s (.planCheck c) = some (c, sp)) (hreach : s.reach sp c.val = some (r, b, t))
    (hp : decodePlan (r.cmd sp c.val b).w b = .ok p) (hf : p.failed = some e) :
    exec (.planCheck c) s = .next (t.refuse c.val r { status := .planInfeasible, detail := e.1, index := e.2 }) := by
  cases hrow
  have hbody := exec_refuse (i := .planCheck c) (e := { status := .planInfeasible, detail := e.1, index := e.2 }) rfl hreach
    (by rw [show (r.cmd _ c.val b).bulk = b from rfl, hp]; simp only [PlanWords.infeasible, hf, Option.map_some])
  rw [hbody]
  by_cases hi : e.2 = 0xFF <;> simp [noLeg, hi]

/-- Settles O11: the search stops at the first leg that fails, at its first condition. -/
theorem planCheckNamesTheFailedCondition : Obligations.PlanCheckNamesTheFailedCondition := by
  unfold Obligations.PlanCheckNamesTheFailedCondition
  refine ⟨?_, fun c sp s t r b p e => exec_planCheck_infeasible, fun p n l h hm => PlanWords.failed_some hm h,
    fun p h hm m k h1 h9 hk hon => PlanWords.failed_none hm h h1 h9 hk hon⟩
  refine refuses_of _ (fun k s sp h => by cases h; rfl) (fun k cmd t hk => ?_)
  obtain ⟨p, e, hp, hf, hleg⟩ := hk
  simp only [hp, PlanWords.infeasible, hf, Option.map_some, Option.getD_some, hleg]

end Sys2Proof.Machine

/-! SUPPORT. The stamped commands (R22, R364, R365): in range the change joins those that wait, and the answer names its effective trace. -/

namespace Sys2Proof.Machine

section
variable {t : State} {cmd : Cmd} {places : Nat → Bool} {at_ : Option (Nat × Nat)} {words : List Word} {bulk : List Byte} {rest : Option (Nat × Nat) → List Word}

/-- A stamped command that finds its placement and room among the changes that wait. -/
theorem State.stamped_of_place (hp : t.place cmd places = .ok at_) (hw : t.waitingChanges < 64) :
    t.stamped cmd places words bulk rest = .done (effWords at_ ++ rest at_) (t.stamp cmd at_ words bulk false) := by
  unfold State.stamped
  rw [hp]
  exact if_neg (Nat.not_le.mpr hw)

end

/-- Settles O12: each change of a leg passes its row's checks, finds its placement, and waits. -/
theorem stampedSettings : Obligations.StampedSettings := by
  unfold Obligations.StampedSettings
  refine ⟨⟨?_, ?_, ?_, ?_, ?_, ?_⟩, ?_, ?_, ?_⟩
  -- GAIN_SET
  · refine answersAt_of _ (fun k s sp h => by cases h; unfold exec execGainSet; rfl) (fun k cmd t at_ hp hw hok => ?_)
    obtain ⟨hleg, himg, hg, hmm⟩ := hok
    refine (if_neg (by simp [Cmd.badItem_eq_false hleg, himg]; omega)).trans ((State.stamped_of_place hp hw).trans ?_)
    cases at_ <;> rfl
  -- CHAIN_SET
  · refine answersAt_of _ (fun k s sp h => by cases h; unfold exec execChainSet; rfl) (fun k cmd t at_ hp hw hok => ?_)
    obtain ⟨hleg, hcfg, hresp, hlo, hhi, hlegal, hrate⟩ := hok
    refine (if_neg (by simp [Cmd.badItem_eq_false hleg, hcfg, hresp]; omega)).trans ((if_neg (by simp [hlegal])).trans ?_)
    rw [show t.place cmd (t.chainPlaces (cmd.p 0) cmd.w) = .ok at_ from hp]
    cases at_ with
    | none => exact (if_neg (by simp)).trans (if_neg (by omega))
    | some a => exact (if_neg (by simp [hrate a rfl])).trans (if_neg (by omega))
  -- MAP_SET
  · refine answersAt_of _ (fun k s sp h => by cases h; unfold exec execMapSet; rfl) (fun k cmd t at_ hp hw hok => ?_)
    obtain ⟨hleg, hcfg, hedges, h8, hrise⟩ := hok
    have hany : (List.range 7).any (fun i => badImage F.MAP_EDGE.kind (wat cmd.w (2 + i))) = false := by
      simpa [List.any_eq_false] using hedges
    exact (if_neg (by simp [Cmd.badItem_eq_false hleg, hcfg, hany, hrise]; omega)).trans (State.stamped_of_place hp hw)
  -- TEMP_CAL
  · refine answersAt_of _ (fun k s sp h => by cases h; unfold exec execTempCal; rfl) (fun k cmd t at_ hp hw hok => ?_)
    obtain ⟨hleg, hmode, hlo, hhi, hda, hlnc, h7lo, h7hi, hbulk⟩ := hok
    refine (if_neg (by simp [Cmd.badItem_eq_false hleg, Cmd.badItem_eq_false hmode]; omega)).trans ?_
    obtain ⟨hnone, h3⟩ | ⟨hsome, hlen, hfirst, hsecond, hover, hplan⟩ := hbulk
    · exact (if_neg (by simp [hnone])).trans ((if_neg (by simp [h3])).trans ((if_neg (by simp [hnone])).trans (State.stamped_of_place hp hw)))
    · refine (if_neg (by simp [hlen])).trans ((if_neg (by simp [hsome])).trans ((if_neg ?_).trans (State.stamped_of_place hp hw)))
      rcases hplan with h | h | h <;> simp [hfirst, hsecond, hover, h]
  -- REPLAY_START and REPLAY_STOP
  · refine answersAt_of _ (fun k s sp h => by cases h; unfold exec execReplayStart; rfl) (fun k cmd t at_ hp hw hok => ?_)
    exact (if_neg (by simp [Cmd.badItem_eq_false hok.1])).trans ((if_neg (by simp [hok.2])).trans (State.stamped_of_place hp hw))
  · refine answersAt_of _ (fun k s sp h => by cases h; unfold exec execReplayStop; rfl) (fun k cmd t at_ hp hw hok => ?_)
    refine (if_neg (by simp [Cmd.badItem_eq_false hok.1, hok.2])).trans ((State.stamped_of_place hp hw).trans ?_)
    cases at_ <;> rfl
  -- FRONT_SET
  · refine answersAt_of _ (fun k s sp h => by cases h; unfold exec execFrontSet; rfl) (fun k cmd t at_ hp hw hok => ?_)
    obtain ⟨hleg, hcfg, hrel, hphase, hrx, hcomb, hmul, htlo, hthi, href, hexc⟩ := hok
    refine (if_neg (by simp [Cmd.badItem_eq_false hleg, hcfg, hrel, hphase, hmul]; omega)).trans ?_
    refine (if_neg ?_).trans ((if_neg ?_).trans ?_)
    · simpa using href
    · simp only [Bool.and_eq_true, Bool.or_eq_true, bne_iff_ne, ne_eq]
      rintro ⟨⟨hch, hpend⟩, hmeas⟩
      rcases hexc hch with h | h
      · simp [h] at hpend
      · simp [h] at hmeas
    · rw [hp]
      refine (if_neg (by omega)).trans ?_
      cases at_ with
      | none => simp
      | some a => simp
  -- CHAIN_RESET
  · refine answersAt_of _ (fun k s sp h => by cases h; unfold exec execChainReset; rfl) (fun k cmd t at_ hp hw hok => ?_)
    refine (if_neg (by simp; omega)).trans ?_
    rw [hp]
    refine (if_neg (by omega)).trans ?_
    cases at_ with
    | none => simp [allOnes64]
    | some a => simp [allOnes64]
  -- TEMP_SET
  · refine answersAt_of _ (fun k s sp h => by cases h; unfold exec execTempSet; rfl) (fun k cmd t at_ hp hw hok => ?_)
    obtain ⟨hleg, hen, hlo, hhi, hlen, hoff, h5, h6, h7, hwait, hfit⟩ := hok
    refine (if_neg (by simp [Cmd.badItem_eq_false hleg]; omega)).trans ?_
    rw [hp]
    refine (if_neg (by simpa using hwait)).trans ?_
    cases at_ with
    | none => exact (if_neg (by omega)).trans (by simp; rfl)
    | some a =>
      have hfits := hfit a rfl
      dsimp only
      generalize t.planAhead (cmd.p 0) a.1 = plan at hfits ⊢
      generalize windowSpans (cmd.p 2) (10 * plan.2.2) = span
      refine (if_neg ?_).trans ((if_neg (by omega)).trans ?_)
      · simpa using hfits
      · simp [allOnes64]

end Sys2Proof.Machine

/-! SUPPORT. The stamped commands of the Loft and the trigger units (R364, R365), and FIRE into the retained ring (R261). -/

namespace Sys2Proof.Machine

/-! ### ARM and DISARM (R256, R260) -/

section
variable {t : State} {cmd : Cmd} {at_ : Option (Nat × Nat)}

/-- The state that an ARM or DISARM leaves: the change waits, and an ARM whose frame is known sends its tokens. -/
def State.armAnswered (t : State) (cmd : Cmd) (at_ : Option (Nat × Nat)) : State :=
  match at_ with
  | some a => if cmd.code = cArm then (t.stamp cmd at_ cmd.w [] false).armTokens (cmd.p 0) (t.boundaryAhead a.1 % 2 ^ 64) else t.stamp cmd at_ cmd.w [] false
  | none => t.stamp cmd at_ cmd.w [] false

theorem State.armCommand_of_place (hmask : cmd.p 0 < 2 ^ 16) (hm : t.notMaster (cmd.p 0) = false) (hp : t.place cmd anyTrace = .ok at_)
    (hw : t.waitingChanges < 64) : t.armCommand cmd = .done (effWords at_ ++ t.frameWords at_) (t.armAnswered cmd at_) := by
  unfold State.armCommand
  refine (if_neg (Nat.not_le.mpr hmask)).trans ((if_neg (by simp [hm])).trans ?_)
  rw [hp]
  exact if_neg (Nat.not_le.mpr hw)

end

/-! ### FIRE into the retained ring (R261) -/

section
variable {s u : State} {n time f : Nat}

theorem Ring.frameAtTime_eq_some {r : Ring} {e : FrameEntry} (h : r.frameAtTime time = some e) :
    r.epoch ≤ e.frame ∧ e.time ≤ time ∧ time < e.time + 10 * e.tF := by
  have hmem := (List.mem_filter.mp (List.mem_of_getLast? h)).2
  simpa [and_assoc] using hmem

/-- A retained FIRE found its frame, and adds one record of that frame, within the unit's spans. -/
theorem State.fireRetained_ok (h : s.fireRetained n time = .ok (f, u)) :
    ∃ e, (s.cellar.ring (s.unit n).c.dec).frameAtTime time = some e ∧ f = e.time ∧ e.time ≤ time ∧ time < e.time + 10 * e.tF ∧
        (s.cellar.ring (s.unit n).c.dec).epoch ≤ e.frame ∧
        u.trig.nextSeq = s.trig.nextSeq + 1 ∧ u.cellar = s.cellar ∧ u.loft = s.loft ∧ u.halls = s.halls ∧ u.probe = s.probe ∧
        ∃ rec_ : Record, u.trig.fired = s.trig.fired ++ [rec_] ∧ rec_.unit = n ∧ rec_.fireTime = e.time ∧ rec_.seq = some s.trig.nextSeq ∧
          rec_.pre ≤ (s.unit n).c.preN ∧ rec_.post ≤ (s.unit n).c.postN := by
  unfold State.fireRetained at h
  dsimp only at h
  split at h
  · next e a b hframe hspan =>
    split at h
    · cases h
    · cases h
      obtain ⟨hepoch, hle, hlt⟩ := Ring.frameAtTime_eq_some hframe
      exact ⟨e, hframe, rfl, hle, hlt, hepoch, rfl, rfl, rfl, rfl, rfl, _, rfl, rfl, rfl, rfl, min_le_left .., min_le_left ..⟩
  · cases h

end

/-! ### The claim -/

/-- Settles O13: each change of the Loft and the triggers passes its row's checks, finds its placement, and waits; FIRE in REST takes its record at once. -/
theorem stampedCommandsOfTheLoft : Obligations.StampedCommandsOfTheLoft := by
  unfold Obligations.StampedCommandsOfTheLoft
  refine ⟨⟨?_, ?_, ?_, ?_⟩, ⟨?_, ?_, ?_, ?_⟩, ?_, fun n time f s u => State.fireRetained_ok⟩
  -- POOL_SET
  · refine answersAt_of _ (fun k s sp h => by cases h; unfold exec execPoolSet; rfl) (fun k cmd t at_ hp hw hok => ?_)
    obtain ⟨hpool, himg, hwork, hmixed, htwice, hmissing⟩ := hok
    exact (if_neg (by simp [Cmd.badItem_eq_false hpool, himg]; omega)).trans
      ((if_neg (by simp [hmixed, htwice, hmissing])).trans (State.stamped_of_place hp hw))
  -- ZONE_PARAM
  · refine answersAt_of _ (fun k s sp h => by cases h; unfold exec execZoneParam; rfl) (fun k cmd t at_ hp hw hok => ?_)
    obtain ⟨hzone, w, hlatest, hpage, hlen, hstate⟩ := hok
    refine (if_neg (by simp [Cmd.badItem_eq_false hzone])).trans ?_
    rw [hlatest]
    exact (if_neg (by simp [hpage, hlen, hstate])).trans (State.stamped_of_place hp hw)
  -- ZONE_ENABLE
  · refine answersAt_of _ (fun k s sp h => by cases h; unfold exec execZoneEnable; rfl) (fun k cmd t at_ hp hw hok => ?_)
    obtain ⟨hab, hb, hon, herr⟩ := hok
    have hnone : (if cmd.p 2 = 1 then t.enableError ((List.range (cmd.p 1 + 1 - cmd.p 0)).map (cmd.p 0 + ·)) at_ else none) = none := by
      split
      · next h => exact herr h
      · rfl
    refine (if_neg (by simp; omega)).trans ?_
    rw [hp]
    dsimp only
    rw [hnone]
    refine (if_neg (by omega)).trans ?_
    rw [List.append_nil]
  -- ZONE_SET
  · refine answersAt_of _ (fun k s sp h => by cases h; unfold exec execZoneSet; rfl) (fun k cmd t at_ hp hw hok => ?_)
    obtain ⟨hlen, hbulk, hrange, hzone⟩ := hok
    refine (if_neg ?_).trans ((if_neg (by simp [hrange])).trans ?_)
    · simp only [Bool.and_eq_true, Bool.or_eq_true, decide_eq_true_eq]
      rintro ⟨-, h | ⟨hb, h⟩⟩
      · omega
      · exact absurd (hbulk hb) (by omega)
    · rw [hp]
      dsimp only
      rw [hzone]
      exact (if_neg (by omega)).trans (by rw [List.append_assoc])
  -- TRIG_SET
  · refine answersAt_of _ (fun k s sp h => by cases h; unfold exec execTrigSet; rfl) (fun k cmd t at_ hp hw hok => ?_)
    obtain ⟨hlen, hrange, hpat, hsome, hnone⟩ := hok
    refine (if_neg (by simp [hlen])).trans ((if_neg (by simp [hrange])).trans ((if_neg ?_).trans ?_))
    · simpa using hpat
    · rw [hp]
      cases at_ with
      | none => exact (if_neg ((Bool.not_eq_true _).mpr (hnone rfl))).trans (if_neg (by omega))
      | some a => exact (if_neg ((Bool.not_eq_true _).mpr (Bool.or_eq_false_iff.mpr (hsome rfl)))).trans (if_neg (by omega))
  -- ARM and DISARM
  · intro c sp s t r b at_ hrow hreach hp hw hok
    cases hrow
    refine exec_done (by unfold exec execArm; rfl) hreach ((State.armCommand_of_place hok.1 hok.2 hp hw).trans ?_)
    cases at_ <;> rfl
  · intro c sp s t r b at_ hrow hreach hp hw hok
    cases hrow
    refine exec_done (by unfold exec execDisarm; rfl) hreach ((State.armCommand_of_place hok.1 hok.2 hp hw).trans ?_)
    cases at_ <;> rfl
  -- FIRE outside REST
  · refine answersAt_of _ (fun k s sp h => by cases h; unfold exec execFire; rfl) (fun k cmd t at_ hp hw hok => ?_)
    obtain ⟨hunit, hrest, harmed⟩ := hok
    exact (if_neg (by simp [Cmd.badItem_eq_false hunit])).trans
      ((if_neg (by simp [hrest])).trans ((if_neg harmed).trans (State.stamped_of_place hp hw)))
  -- FIRE in REST
  · intro c sp s t u r b f hrow hreach hunit hrest hfire
    cases hrow
    refine exec_done (index := noLeg) (by unfold exec execFire; rfl) hreach ?_
    refine (if_neg (by simp [Cmd.badItem_eq_false hunit])).trans ((if_pos hrest).trans ?_)
    rw [hfire]
    rfl

end Sys2Proof.Machine

/-! SUPPORT. The stream commands (Table 17.5, R365) and the settings that act at acceptance (Table 20.3). -/

namespace Sys2Proof.Machine

/-- Settles O14: a definition by the state of its stream, the start at its placement, the stop at once. -/
theorem streamCommands : Obligations.StreamCommands := by
  unfold Obligations.StreamCommands
  refine ⟨?_, ?_, ?_⟩
  -- STREAM_SET
  · refine answers_of _ (fun k s sp h => by cases h; unfold exec execStreamSet; rfl) (fun k cmd t hok => ?_)
    refine (if_neg (by simp [hok.1])).trans ((if_neg ((Bool.not_eq_true _).mpr hok.2)).trans ?_)
    dsimp only
    split
    · rfl
    · split <;> rfl
  -- STREAM_START
  · refine answersAt_of _ (fun k s sp h => by cases h; unfold exec execStreamStart; rfl) (fun k cmd t at_ hp hw hok => ?_)
    obtain ⟨hn, hrun, hwait, hsrc, hsel⟩ := hok
    refine (if_neg (by simp [hrun, hwait]; omega)).trans ?_
    rw [hp]
    refine (if_neg (by simp [hsrc, hsel])).trans ((if_neg (by omega)).trans ?_)
    rw [List.append_nil]
  -- STREAM_STOP
  · refine answersAt_of _ (fun k s sp h => by cases h; unfold exec execStreamStop; rfl) (fun k cmd t at_ hp hw hok => ?_)
    refine (if_neg (by omega)).trans ((if_neg ?_).trans ?_)
    · simpa using hok.2
    · rw [hp]
      simp only [List.append_nil]

/-! ### TACH_CFG (Table 15.7, R279, R283) -/

section
variable {t : State} {cmd : Cmd}

/-- A TACH_CFG in range: QUAD of the input before it keeps an odd one off. -/
theorem State.tachSettingOk.checks (h : t.tachSettingOk cmd) :
    (cmd.badItem 0 8 || badImage (tachCfgKind (cmd.p 0)) (wat cmd.w 1) || fget (wat cmd.w 1) F.TACH_CFG.EDGE == 3 || decide (cmd.p 2 = 0) ||
      decide (65535 < cmd.p 2) || (decide (cmd.p 0 % 2 = 1) && fbit (t.tachOf (cmd.p 0 - 1)).cfgCopy F.TACH_CFG.QUAD &&
        fbit (wat cmd.w 1) F.TACH_CFG.ENABLE)) = false := by
  obtain ⟨h8, himg, hedge, hlo, hhi, hquad⟩ := h
  have hmate : (decide (cmd.p 0 % 2 = 1) && fbit (t.tachOf (cmd.p 0 - 1)).cfgCopy F.TACH_CFG.QUAD && fbit (wat cmd.w 1) F.TACH_CFG.ENABLE) = false := by
    simpa using hquad
  rw [hmate]
  simp [Cmd.badItem_eq_false h8, himg, hedge]
  omega

end

/-- Settles O15: in range the setting is in force with the answer. -/
theorem settingsAtOnce : Obligations.SettingsAtOnce := by
  unfold Obligations.SettingsAtOnce
  refine ⟨⟨?_, ?_, ?_, ?_, ?_, ?_, ?_⟩, ?_, ?_, ?_⟩
  -- TABLE_LOAD
  · refine answers_of _ (fun k s sp h => by cases h; unfold exec execTableLoad; rfl) (fun k cmd t hok => ?_)
    obtain ⟨hleg, hslot, hlo, hhi, hlen, hall⟩ := hok
    exact (if_neg (by simp [Cmd.badItem_eq_false hleg, Cmd.badItem_eq_false hslot]; omega)).trans
      ((if_neg (by simp [hlen])).trans (if_neg (by simp only [hall]; decide)))
  -- RECORD_DELETE
  · exact answers_of _ (fun k s sp h => by cases h; unfold exec execRecordDelete; rfl) (fun k cmd t hok => rfl)
  -- RETRIM_DEFER
  · exact answers_of _ (fun k s sp h => by cases h; unfold exec execRetrimDefer; rfl) (fun k cmd t hok => if_neg (Nat.not_lt.mpr hok))
  -- TRIM_SET
  · refine answers_of _ (fun k s sp h => by cases h; unfold exec execTrimSet; rfl) (fun k cmd t hok => ?_)
    obtain ⟨himg, hlo, hhi, hdie⟩ := hok
    have hcovers : (fbit (wat cmd.w 0) F.TRIM_CFG.ENABLE && !t.thr.hk.coversDie) = false := by simpa using hdie
    refine (if_neg ?_).trans rfl
    rw [himg, hcovers]
    simp; omega
  -- TIME_CFG
  · exact answers_of _ (fun k s sp h => by cases h; unfold exec execTimeCfg; rfl) (fun k cmd t hok => if_neg ((Bool.not_eq_true _).mpr hok))
  -- TIME_SET
  · exact answers_of _ (fun k s sp h => by cases h; unfold exec execTimeSet; rfl) (fun k cmd t hok => if_neg ((Bool.not_eq_true _).mpr hok))
  -- TIU_MEASURE
  · intro c sp s t r b hrow hreach hok
    cases hrow
    obtain ⟨himg, hen, hsrc, hphase, hasker⟩ := hok
    refine exec_later (index := noLeg) (by unfold exec execTiuMeasure; rfl) hreach ?_
    exact (if_neg (by simp [himg, hen, hsrc])).trans ((if_neg (by simp [hphase, hasker])).trans rfl)
  -- TACH_CFG with the front off; on, without and with a restart of zones
  · refine answers_of _ (fun k s sp h => by cases h; unfold exec execTachCfg; rfl) (fun k cmd t hok => ?_)
    exact (if_neg ((Bool.not_eq_true _).mpr hok.1.checks)).trans ((if_pos (by simp [hok.2])).trans rfl)
  · refine answers_of _ (fun k s sp h => by cases h; unfold exec execTachCfg; rfl) (fun k cmd t hok => ?_)
    obtain ⟨hset, hfront, hrestart⟩ := hok
    exact (if_neg ((Bool.not_eq_true _).mpr hset.checks)).trans ((if_neg (by simp [hfront])).trans ((if_neg ((Bool.not_eq_true _).mpr hrestart)).trans rfl))
  · refine answers_of _ (fun k s sp h => by cases h; unfold exec execTachCfg; rfl) (fun k cmd t hok => ?_)
    obtain ⟨hset, hfront, hrestart⟩ := hok
    exact (if_neg ((Bool.not_eq_true _).mpr hset.checks)).trans ((if_neg (by simp [hfront])).trans ((if_pos hrestart).trans rfl))

end Sys2Proof.Machine

/-! SUPPORT. The fault and the secure commands (R298, R370, R390, R397 to R399). -/

namespace Sys2Proof.Machine

section
variable {row : Fin 9 → Instr} {index : Cmd → Nat}

/-- A row's claim from what its body does: it refuses with an effect of its own. -/
theorem refusesWith_of {when_ : Cmd → State → Prop} {st : Status} {detail : Cmd → State → Nat} {effect : Cmd → State → State} (body : Fin 9 → Cmd → State → Reply)
    (he : ∀ (k : Fin 9) (s : State) (sp : Spec), requestRow s (row k) = some (k, sp) → exec (row k) s = s.command sp k.val index (body k))
    (hb : ∀ k cmd t, when_ cmd t → body k cmd t = .refuseWith { status := st, detail := detail cmd t } (effect cmd t)) :
    Refuses row index when_ st detail effect := by
  intro k sp s _ _ _ hrow hreach hok
  have h := exec_refuseWith (he k s sp hrow) hreach (hb k _ _ hok)
  simpa only [if_true] using h

end

/-- Settles O16: the search for a present cause decides FAULT_CLEAR; a listed FAULT_CFG is stored. -/
theorem faultCommands : Obligations.FaultCommands := by
  unfold Obligations.FaultCommands
  refine ⟨?_, ?_, ?_⟩
  -- FAULT_CLEAR with no cause present
  · refine answers_of _ (fun k s sp h => by cases h; unfold exec execFaultClear; rfl) (fun k cmd t hok => ?_)
    have hnone : ((maskSources cmd.w).filter (fun n => (t.source n).raised)).find? t.causePresent = none := by
      refine List.find?_eq_none.mpr fun n hn => ?_
      obtain ⟨hmask, hraised⟩ := List.mem_filter.mp hn
      exact (Bool.not_eq_true _).mpr (hok n hmask hraised)
    dsimp only
    rw [hnone]
  -- FAULT_CLEAR with one
  · refine refusesWith_of _ (fun k s sp h => by cases h; unfold exec execFaultClear; rfl) (fun k cmd t hok => ?_)
    obtain ⟨n, hn⟩ := Option.isSome_iff_exists.mp hok
    dsimp only
    rw [hn, Option.getD_some]
  -- FAULT_CFG
  · refine answers_of _ (fun k s sp h => by cases h; unfold exec execFaultCfg; rfl) (fun k cmd t hok => ?_)
    obtain ⟨hn, hlisted, hcfg, hsev, hreact, hlo, hhi, hw, hw0⟩ := hok
    exact (if_neg (by simp [hlisted, hcfg]; omega)).trans rfl

/-! ### Unlocking (R370) -/

section
variable {t : State} {cmd : Cmd} {sig : List Byte}

/-- No lock-out runs. -/
theorem State.not_shut (h : ∀ u, t.fw.sec.lockUntil = some u → u ≤ t.time.up) :
    (match t.fw.sec.lockUntil with | some u => decide (t.time.up < u) | none => false) = false := by
  split
  · next u hu => exact decide_eq_false (Nat.not_lt.mpr (h u hu))
  · rfl

theorem State.unlocks_iff : t.unlocks sig = true ↔ ∃ k n, t.fw.sec.key = some k ∧ t.fw.sec.nonce = some n ∧
    t.time.up ≤ t.fw.sec.nonceUp + 10 * sec ∧ Config.ed25519 k (bytesOfWords n ++ leBytes 8 t.host.serial) sig = true := by
  unfold State.unlocks
  split
  · next k n hk hn => simp [hk, hn]
  · next h =>
    refine ⟨fun hf => absurd hf Bool.false_ne_true, fun ⟨k, n, hk, hn, _⟩ => (h k n hk hn).elim⟩

end

/-- Settles O17: the answers of the secure commands, the lock-out of the third refusal, and what an unlock asks for. -/
theorem secureCommands : Obligations.SecureCommands := by
  unfold Obligations.SecureCommands
  refine ⟨⟨?_, ?_, ?_, ?_, ?_, ?_, ?_⟩, fun s sig => State.unlocks_iff⟩
  -- SEC_CHALLENGE
  · exact answers_of _ (fun k s sp h => by cases h; unfold exec execSecChallenge; rfl) (fun k cmd t hok => rfl)
  -- SEC_UNLOCK: accepted, shut out, the third refusal
  · refine answers_of _ (fun k s sp h => by cases h; unfold exec execSecUnlock; rfl) (fun k cmd t hok => ?_)
    obtain ⟨hlen, hshut, hopen⟩ := hok
    exact (if_neg (by simp [hlen])).trans ((if_neg ((Bool.not_eq_true _).mpr (State.not_shut hshut))).trans (if_pos hopen))
  · refine refusesWith_of _ (fun k s sp h => by cases h; unfold exec execSecUnlock; rfl) (fun k cmd t hok => ?_)
    obtain ⟨hlen, u, hu, hlt⟩ := hok
    refine (if_neg (by simp [hlen])).trans (if_pos ?_)
    rw [hu]
    exact decide_eq_true hlt
  · refine refusesWith_of _ (fun k s sp h => by cases h; unfold exec execSecUnlock; rfl) (fun k cmd t hok => ?_)
    obtain ⟨hlen, hshut, hclosed, htwo⟩ := hok
    refine (if_neg (by simp [hlen])).trans ((if_neg ((Bool.not_eq_true _).mpr (State.not_shut hshut))).trans ((if_neg ((Bool.not_eq_true _).mpr hclosed)).trans ?_))
    simp only [List.length_cons, htwo, le_refl, decide_true, if_true, Nat.reduceAdd]
  -- SEC_REVOKE
  · exact answers_of _ (fun k s sp h => by cases h; unfold exec execSecRevoke; rfl) (fun k cmd t hok => rfl)
  -- SEC_KEY
  · intro c sp s t r b hrow hreach hok
    cases hrow
    have hcarrier : ¬ (c.val != 6) = true := by simpa using (show c.val = 6 from hok)
    exact exec_done (index := noLeg) (by unfold exec execSecKey; rfl) hreach (if_neg hcarrier)
  -- MEM_MAP
  · refine answers_of _ (fun k s sp h => by cases h; unfold exec execMemMap; rfl) (fun k cmd t hok => ?_)
    obtain ⟨ha, hb, hd, hsum, hlock, q, hq⟩ := hok
    refine (if_neg (by simp [ha, hb, hd]; omega)).trans ?_
    rw [hq]
    rfl

end Sys2Proof.Machine

/-! SUPPORT. NET_SET, and what the Ethernet ports and the module buses do (R320, R321, R325, R328). -/

namespace Sys2Proof.Machine

section
variable {s : State} {f : EthFrame} {p : Nat}

/-! ### Frames (R320) -/

/-- A port that is off, or has no link, takes no frame. -/
theorem exec_ethFrameReceived_off (h : fbit (s.ethPort f.port.val).cfg F.ETH_CFG.ENABLE = false ∨ fbit (s.ethPort f.port.val).stat F.ETH_STAT.LINK = false) :
    exec (.ethFrameReceived f) s = .next s :=
  if_pos (by rcases h with h | h <;> simp [h])

theorem State.dropFrame_counts (hp : p < 2) : ((s.dropFrame p).ethPort p).drop = (s.ethPort p).drop + 1 := by
  unfold State.dropFrame State.setEthPort State.ethPort
  simp [hp]

/-! ### Address probes (R321) -/

theorem foldl_ethSend (g : Nat → EthOut) (ds : List Nat) (t : State) : ds.foldl (fun u d => u.ethSend (g d)) t =
    { t with porch := { t.porch with eth := { t.porch.eth with sent := t.porch.eth.sent ++ ds.map g } } } := by
  induction ds generalizing t with
  | nil => simp
  | cons d ds ih =>
    rw [List.foldl_cons, ih]
    simp [State.ethSend, State.withEth]

/-- A destination that is probed: set, not resolved, on a port that runs. -/
def State.probes (s : State) (d : Nat) : Bool :=
  let x := vget s.porch.eth.dest d {}
  let p := vget s.porch.eth.port x.port {}
  x.set && !x.resolved && fbit p.cfg F.ETH_CFG.ENABLE && fbit p.stat F.ETH_STAT.LINK

theorem exec_addressProbe : exec .addressProbe s = .next { s with porch := { s.porch with eth := { s.porch.eth with
    sent := s.porch.eth.sent ++ ((List.range 16).filter s.probes).map EthOut.probe } } } :=
  congrArg Host.Outcome.next (foldl_ethSend EthOut.probe ((List.range 16).filter s.probes) s)

theorem mem_probes {d : Nat} : d ∈ (List.range 16).filter s.probes ↔ d < 16 ∧ (vget s.porch.eth.dest d {}).set = true ∧
    (vget s.porch.eth.dest d {}).resolved = false ∧ fbit (vget s.porch.eth.port (vget s.porch.eth.dest d {}).port {}).cfg F.ETH_CFG.ENABLE = true ∧
    fbit (vget s.porch.eth.port (vget s.porch.eth.dest d {}).port {}).stat F.ETH_STAT.LINK = true := by
  rw [List.mem_filter, List.mem_range]
  simp [State.probes, and_assoc]

/-! ### Links and modules (R320, R328) -/

/-- ETH_LINK_CHANGE writes LINK and AT_25G of its port, and the condition of ETH_LINK follows. -/
theorem exec_ethLinkChange (p : Fin 2) (link at25 : Bool) : ∃ x : EthPort,
    exec (.ethLinkChange p link at25) s = .next ((s.setEthPort p.val x).setCondition srcEthLink (s.setEthPort p.val x).ethLinkLost p.val) ∧
      fbit x.stat F.ETH_STAT.LINK = link ∧ fbit x.stat F.ETH_STAT.AT_25G = at25 ∧ x.cfg = (s.ethPort p.val).cfg ∧ x.ip4 = (s.ethPort p.val).ip4 := by
  refine ⟨_, rfl, ?_, fbit_fsetB (by decide) rfl, rfl, rfl⟩
  exact (fbit_fsetB_ne (by decide) (by decide)).trans (fbit_fsetB (by decide) rfl)

/-- A bus as its poll leaves it. -/
def I2c.polled (y : I2c) (pages : Option (List Byte × List Byte)) (stuck : Bool) (module : Bool) : I2c :=
  match pages, module with
  | some q, true => { y with stuck, page50 := q.1, page51 := q.2 }
  | _, _ => { y with stuck }

theorem I2c.polled_stuck (y : I2c) (pages : Option (List Byte × List Byte)) (stuck module : Bool) : (y.polled pages stuck module).stuck = stuck := by
  unfold I2c.polled
  split <;> rfl

end

/-- The state that I2C_MODULE_POLL leaves before the condition of I2C_BUS is judged. -/
def State.polled (s : State) (b : Nat) (pages : Option (List Byte × List Byte)) (stuck : Bool) : State :=
  let s1 := { s with porch := { s.porch with i2c := vset s.porch.i2c b ((vget s.porch.i2c b {}).polled pages stuck (decide (b < 2))) } }
  if b < 2 then s1.setEthPort b { s1.ethPort b with stat := fsetB (s1.ethPort b).stat F.ETH_STAT.MODULE (pages.isSome && !stuck) } else s1

section
variable {s : State} {b : Fin 3} {pages : Option (List Byte × List Byte)} {stuck : Bool}

theorem exec_i2cModulePoll : exec (.i2cModulePoll b pages stuck) s =
    .next ((s.polled b.val pages stuck).setCondition srcI2cBus ((s.polled b.val pages stuck).porch.i2c.toList.any (·.stuck)) b.val) := rfl

theorem State.polled_bus : vget (s.polled b.val pages stuck).porch.i2c b.val {} = (vget s.porch.i2c b.val {}).polled pages stuck (decide (b.val < 2)) := by
  unfold State.polled
  dsimp only
  split <;> exact vget_vset_self b.isLt

theorem State.polled_module (hb : b.val < 2) : fbit ((s.polled b.val pages stuck).ethPort b.val).stat F.ETH_STAT.MODULE = (pages.isSome && !stuck) := by
  unfold State.polled
  dsimp only
  rw [if_pos hb]
  unfold State.ethPort State.setEthPort
  simp only [State.withEth, vget_vset_self hb]
  exact fbit_fsetB (by decide) rfl

end

/-- Settles O18: each item of NET_SET in range, and one lemma for each event of the ports and buses. -/
theorem netSettingsAndPorts : Obligations.NetSettingsAndPorts := by
  unfold Obligations.NetSettingsAndPorts
  refine ⟨⟨?_, ?_, ?_, ?_, ?_⟩, ?_, fun f s => exec_ethFrameReceived_off, fun p s => State.dropFrame_counts, fun s => ⟨_, exec_addressProbe, fun d => mem_probes⟩,
    fun p link at25 s => exec_ethLinkChange p link at25, fun b pages stuck s => ⟨_, exec_i2cModulePoll, ?_, ?_, State.polled_module, ?_, ?_⟩⟩
  -- NET_SET: a port, a destination, an allow-list entry, CTL_PORT, a MAC address
  · refine answers_of _ (fun k s sp h => by cases h; unfold exec execNetSet; rfl) (fun k cmd t hok => ?_)
    obtain ⟨h0, hlen, hport, hcfg⟩ := hok
    simp only [h0]
    exact (if_neg (by simp [hlen, hcfg]; omega)).trans rfl
  · refine answers_of _ (fun k s sp h => by cases h; unfold exec execNetSet; rfl) (fun k cmd t hok => ?_)
    obtain ⟨h0, hlen, hdest, hflags⟩ := hok
    simp only [h0]
    exact (if_neg (by simp [hlen]; omega)).trans rfl
  · refine answers_of _ (fun k s sp h => by cases h; unfold exec execNetSet; rfl) (fun k cmd t hok => ?_)
    obtain ⟨h0, hlen, hentry, hset⟩ := hok
    simp only [h0]
    exact (if_neg (by simp [hlen]; omega)).trans rfl
  · refine answers_of _ (fun k s sp h => by cases h; unfold exec execNetSet; rfl) (fun k cmd t hok => ?_)
    obtain ⟨h0, hlen, hlo, hhi⟩ := hok
    simp only [h0]
    exact (if_neg (by simp [hlen]; omega)).trans rfl
  · refine answers_of _ (fun k s sp h => by cases h; unfold exec execNetSet; rfl) (fun k cmd t hok => ?_)
    obtain ⟨h0, hlen, hport, hmac, hkind⟩ := hok
    simp only [h0]
    refine (if_neg ?_).trans rfl
    rcases hkind with h | ⟨hlocal, hgroup⟩
    · simp [hlen, h]; omega
    · simp [hlen, hlocal, hgroup]; omega
  -- a frame received
  · intro f s x hen hlink
    refine ⟨fun hv => (if_neg (by simp [x, hen, hlink])).trans (if_pos (by simp [x, hv])), fun hv => ?_⟩
    have hrun : exec (.ethFrameReceived f) s = _ := (if_neg (by simp [x, hen, hlink])).trans (if_neg (by simp [x, hv]))
    rw [hrun]
    refine ⟨fun sender target hb => ?_, fun sender target hb => ?_, fun sender target hb => ?_, fun v6 dst hb => ?_, fun v6 src dst port data hb hown hport => ?_,
      fun v6 src dst port data hb hown => ?_, fun hb => ?_⟩ <;> rw [hb]
    · exact if_pos (by simp [x, hown, hport])
    · refine if_neg ?_
      rcases hown with h | h <;> simp [x, h]
  -- a module bus polled
  · rw [State.polled_bus]
    exact I2c.polled_stuck ..
  · intro q hq hb
    rw [State.polled_bus, hq, decide_eq_true hb]
    exact ⟨rfl, rfl⟩
  · unfold State.polled
    dsimp only
    split <;> rfl
  · unfold State.polled
    dsimp only
    split <;> rfl

end Sys2Proof.Machine

/-! SUPPORT. CELL_LOAD (R205, Table 11.5), and the long operations (R366, R367). -/

namespace Sys2Proof.Machine

section
variable {t : State} {cmd : Cmd} {l : Loft} {a : Nat}

/-- The checks of an image that holds what it must. -/
theorem State.imageOk.checks (h : t.imageOk cmd) : ¬ (cmd.p 0 < 16 || 63 < cmd.p 0 : Bool) = true ∧ ¬ imageWrong cmd.bulk = true ∧ ¬ imageTooBig cmd.bulk = true ∧
    ¬ imageOdd cmd.bulk = true ∧ ¬ t.imageBound (cmd.p 0) = true := by
  obtain ⟨hlo, hhi, hwrong, hbig, hodd, hbound⟩ := h
  exact ⟨by simp; omega, by simp [hwrong], by simp [hbig], by simp [hodd], by simp [hbound]⟩

theorem storeImage_image {s : State} (i : Nat) (b : List Byte) (tab : Word) (l : Loft) (a : Nat) (hi : i < 64) : ∃ m : Image,
    vget (s.storeImage i b tab l a).loft.images i none = some m ∧ m.at_ = a ∧ m.codeWords = imgAt b 8 4 ∧ m.initBytes = imgAt b 12 4 ∧
      m.entry = imgAt b 16 4 ∧ m.budget = imgAt b 20 4 ∧ m.check = imgAt b 32 4 ∧ (m.complex = true ↔ imgAt b 6 1 = 1) :=
  ⟨_, vget_vset_self hi, rfl, rfl, rfl, rfl, rfl, rfl, beq_iff_eq⟩

end

/-- Settles O19: the image without a state page, the image with one, and what is stored. -/
theorem programImageIsLoaded : Obligations.ProgramImageIsLoaded := by
  unfold Obligations.ProgramImageIsLoaded
  refine ⟨?_, ?_, fun i b tab l a s hi => storeImage_image i b tab l a hi⟩
  · refine answers_of _ (fun k s sp h => by cases h; unfold exec execCellLoad; rfl) (fun k cmd t hok => ?_)
    obtain ⟨himg, htab, hplace⟩ := hok
    obtain ⟨⟨l, a⟩, hp⟩ := Option.isSome_iff_exists.mp hplace
    obtain ⟨hrange, hwrong, hbig, hodd, hbound⟩ := himg.checks
    rw [hp]
    unfold State.imagePlace at hp
    refine (if_neg hrange).trans ((if_neg hwrong).trans ((if_neg hbig).trans ((if_neg hodd).trans ((if_neg hbound).trans ?_))))
    dsimp only
    rw [hp]
    exact if_pos htab
  · refine answers_of _ (fun k s sp h => by cases h; unfold exec execCellLoad; rfl) (fun k cmd t hok => ?_)
    obtain ⟨himg, htab, l, a, hp, hroom⟩ := hok
    obtain ⟨hrange, hwrong, hbig, hodd, hbound⟩ := himg.checks
    rw [hp]
    unfold State.imagePlace at hp
    refine (if_neg hrange).trans ((if_neg hwrong).trans ((if_neg hbig).trans ((if_neg hodd).trans ((if_neg hbound).trans ?_))))
    dsimp only
    rw [hp]
    exact (if_neg htab).trans (if_neg (Nat.not_lt.mpr hroom))

/-! ### Locks of a command (R367) -/

section
variable {t : State} {w : Word}

/-- A LOCK word that names a free lock, or none: it is taken. -/
theorem State.takeLock_of_free (h : t.lockFree w) : t.takeLock w = .ok (t.withLock w, lockOf w) := by
  unfold State.takeLock State.withLock lockOf
  cases hw : nbit w.toNat 5
  · rfl
  · have hown : (t.lockOwner (w.toNat % 32) != 0 && t.lockOwner (w.toNat % 32) != 3) = false := by
      rcases h hw with h0 | h3
      · simp [h0]
      · simp [h3]
    simp [hown]

/-- A LOCK word that names a lock of another requester: its owner's number is the answer. -/
theorem State.takeLock_of_held (h : ¬ t.lockFree w) : t.takeLock w = .error { status := .lockHeld, detail := t.lockOwner (w.toNat % 32) } := by
  unfold State.lockFree at h
  push Not at h
  obtain ⟨hw, h0, h3⟩ := h
  unfold State.takeLock
  simp [hw, h0, h3]

end

/-! ### Firmware images -/

theorem State.imageFault_eq_none {t : State} {slot : Nat} (hs : t.imageSigned slot = true) (hr : t.larder.rollback ≤ t.imageRollback slot) :
    t.imageFault slot = none := by
  unfold State.imageFault
  rw [if_neg (by simp [hs]), if_neg (Nat.not_lt.mpr hr)]

/-- Settles O20: each long operation in range with its lock free; each refusal for a held lock. -/
theorem longOperationsBegin : Obligations.LongOperationsBegin := by
  unfold Obligations.LongOperationsBegin
  refine ⟨⟨?_, ?_, ?_, ?_, ?_, ?_, ?_, ?_, ?_⟩, ?_, ?_, ?_, ?_, ?_⟩
  -- CALIBRATE
  · refine begins_of _ (fun k s sp h => by cases h; unfold exec execCalibrate; rfl) (fun k cmd t hok => ?_)
    obtain ⟨hidle, hlock, hfree⟩ := hok
    refine (if_neg (by simp [hidle])).trans ((if_neg (Nat.not_lt.mpr hlock)).trans ?_)
    rw [State.takeLock_of_free hfree]
  -- FW_STAGE
  · refine begins_of _ (fun k s sp h => by cases h; unfold exec execFwStage; rfl) (fun k cmd t hok => ?_)
    obtain ⟨hslot, hlock, hend, hpos, hlen, hfree⟩ := hok
    refine (if_neg (by simp [Cmd.badItem_eq_false hslot]; omega)).trans ((if_neg (by simp only [Bool.or_eq_true, decide_eq_true_eq]; omega)).trans ?_)
    rw [State.takeLock_of_free hfree]
  -- BIST with and without room for a slice
  · refine begins_of _ (fun k s sp h => by cases h; unfold exec execBist; rfl) (fun k cmd t hok => ?_)
    obtain ⟨hlock, hbudget, hfree⟩ := hok
    refine (if_neg (Nat.not_lt.mpr hlock)).trans ?_
    rw [State.takeLock_of_free hfree]
    exact if_neg (Nat.not_lt.mpr hbudget)
  · refine begins_of _ (fun k s sp h => by cases h; unfold exec execBist; rfl) (fun k cmd t hok => ?_)
    obtain ⟨hlock, hbudget, hfree⟩ := hok
    refine (if_neg (Nat.not_lt.mpr hlock)).trans ?_
    rw [State.takeLock_of_free hfree]
    exact if_pos hbudget
  -- TRAIN
  · refine begins_of _ (fun k s sp h => by cases h; unfold exec execTrain; rfl) (fun k cmd t hok => ?_)
    exact (if_neg (Nat.not_lt.mpr hok.1)).trans (if_neg (by simp [hok.2]))
  -- FW_ACTIVATE
  · refine begins_of _ (fun k s sp h => by cases h; unfold exec execFwActivate; rfl) (fun k cmd t hok => ?_)
    obtain ⟨hslot, hsigned, hroll⟩ := hok
    refine (if_neg (by simp [Cmd.badItem_eq_false hslot])).trans ?_
    rw [State.imageFault_eq_none hsigned hroll]
  -- SHUTDOWN with nothing running, with a MODE_SET, with another operation
  · refine begins_of _ (fun k s sp h => by cases h; unfold exec execShutdown; rfl) (fun k cmd t hok => ?_)
    obtain ⟨hbudget, hdown, hlong⟩ := hok
    refine (if_neg (Nat.not_lt.mpr hbudget)).trans ((if_neg (by simp [hdown])).trans ?_)
    rw [hlong]
  · refine begins_of _ (fun k s sp h => by cases h; unfold exec execShutdown; rfl) (fun k cmd t hok => ?_)
    obtain ⟨hbudget, hdown, op, hlong, hcode⟩ := hok
    refine (if_neg (Nat.not_lt.mpr hbudget)).trans ((if_neg (by simp [hdown])).trans ?_)
    rw [hlong]
    exact if_pos hcode
  · refine begins_of _ (fun k s sp h => by cases h; unfold exec execShutdown; rfl) (fun k cmd t hok => ?_)
    obtain ⟨hbudget, hdown, op, hlong, hcode⟩ := hok
    refine (if_neg (Nat.not_lt.mpr hbudget)).trans ((if_neg (by simp [hdown])).trans ?_)
    rw [hlong]
    exact if_neg hcode
  -- CALIBRATE for a held lock and off REST; BIST, FW_STAGE and MEM_MAP for a held lock
  · refine refuses_of _ (fun k s sp h => by cases h; unfold exec execCalibrate; rfl) (fun k cmd t hok => ?_)
    obtain ⟨hidle, hlock, hheld⟩ := hok
    refine (if_neg (by simp [hidle])).trans ((if_neg (Nat.not_lt.mpr hlock)).trans ?_)
    rw [State.takeLock_of_held hheld]
    rfl
  · exact refuses_of _ (fun k s sp h => by cases h; unfold exec execCalibrate; rfl) (fun k cmd t hok => if_pos (by simpa using hok))
  · refine refuses_of _ (fun k s sp h => by cases h; unfold exec execBist; rfl) (fun k cmd t hok => ?_)
    refine (if_neg (Nat.not_lt.mpr hok.1)).trans ?_
    rw [State.takeLock_of_held hok.2]
    rfl
  · refine refuses_of _ (fun k s sp h => by cases h; unfold exec execFwStage; rfl) (fun k cmd t hok => ?_)
    obtain ⟨hslot, hlock, hend, hpos, hlen, hheld⟩ := hok
    refine (if_neg (by simp [Cmd.badItem_eq_false hslot]; omega)).trans ((if_neg (by simp only [Bool.or_eq_true, decide_eq_true_eq]; omega)).trans ?_)
    rw [State.takeLock_of_held hheld]
    rfl
  · refine refuses_of _ (fun k s sp h => by cases h; unfold exec execMemMap; rfl) (fun k cmd t hok => ?_)
    obtain ⟨ha, hb, hd, hsum, hlock, hheld⟩ := hok
    refine (if_neg (by simp [ha, hb, hd]; omega)).trans ?_
    rw [State.takeLock_of_held hheld]
    rfl

end Sys2Proof.Machine

/-! SUPPORT. MODE_SET (R31, R33 to R41, R410): the branches of its body. -/

namespace Sys2Proof.Machine

section
variable {t : State} {cmd : Cmd} {p q : PlanWords} {f : Nat × Nat}

/-- The plan that a MODE_SET carries. -/
theorem Cmd.plan_of_decode (h : decodePlan cmd.w cmd.bulk = .ok q) : cmd.plan = some q.surveyed := by
  unfold Cmd.plan
  rw [h]

/-- The body once the plan is decoded and feasible. -/
theorem State.modeSet_of_feasible (hd : decodePlan cmd.w cmd.bulk = .ok q) (hf : q.failed = none) : t.modeSet cmd =
    if t.atOff cmd then no .param
    else if t.changeWaits then no .modePending
    else if q.surveyed.mode = 0 then t.modeRest cmd
    else
      match t.planRefused q.surveyed.bank (t.planFrame cmd) with
      | some e => .refuse e
      | none =>
        if t.probe.running then t.modeChange cmd q.surveyed
        else if t.fw.optical = .surveyDone then t.modeFromSurvey cmd q.surveyed
        else t.modeStart cmd q.surveyed := by
  unfold State.modeSet
  rw [hd]
  dsimp only
  rw [PlanWords.infeasible, hf, Option.map_none] <;> rfl

/-- A plan that nothing refuses is carried out by the state of the probe and the optics. -/
theorem State.planTaken.modeSet_eq (h : t.planTaken cmd p) (hm : p.mode ≠ 0) : cmd.plan = some p ∧ t.modeSet cmd =
    if t.probe.running then t.modeChange cmd p else if t.fw.optical = .surveyDone then t.modeFromSurvey cmd p else t.modeStart cmd p := by
  obtain ⟨⟨q, hd, hf, rfl⟩, hoff, hwait, hrefused⟩ := h
  refine ⟨Cmd.plan_of_decode hd, ?_⟩
  rw [State.modeSet_of_feasible hd hf, if_neg (by simp [hoff]), if_neg (by simp [hwait]), if_neg hm, hrefused]

theorem State.planTaken.modeSet_start (h : t.planTaken cmd p) (hm : p.mode ≠ 0) (hr : t.probe.running = false) (ho : t.fw.optical ≠ .surveyDone) :
    t.modeSet cmd = t.modeStart cmd p := by
  rw [(h.modeSet_eq hm).2, if_neg (by simp [hr]), if_neg ho]

theorem State.planTaken.modeSet_change (h : t.planTaken cmd p) (hm : p.mode ≠ 0) (hr : t.probe.running = true) :
    t.modeSet cmd = t.modeChange cmd p := by
  rw [(h.modeSet_eq hm).2, if_pos hr]

/-- The frame of a MODE_SET that finds its placement. -/
theorem State.modeAt_of_place (h : t.placeAt cmd anyTrace = .ok f) : t.modeAt cmd = f.1 := by
  unfold State.modeAt
  rw [h]

/-- The state in which a plan that waits for its start is accepted. -/
def State.modeAccepted (t : State) (cmd : Cmd) (p : PlanWords) : State :=
  State.startLong cmd none (if p.mode = modeSurvey then 1 else 0) { t with
    probe := { t.probe with shadow := p.bank, pending := some (t.pendingPlan p none) }, fw := { t.fw with startState := false } }

theorem State.modeStart_of_fadeOut (h : t.fw.optical = .fadeOut) : t.modeStart cmd p = .later (t.modeAccepted cmd p).summarise :=
  congrArg (fun u : State => Reply.later u.summarise) (if_pos h)

theorem State.modeStart_of_idle (h : t.fw.optical = .idle) :
    t.modeStart cmd p = .later ((t.modeAccepted cmd p).startRooms t.fw.startState).summarise :=
  congrArg (fun u : State => Reply.later u.summarise) (if_neg (show ¬ t.fw.optical = .fadeOut by rw [h]; decide))

theorem PlanWords.surveyed_mode (p : PlanWords) : p.surveyed.mode = p.mode := by
  unfold PlanWords.surveyed
  dsimp only
  split <;> rfl

/-- A change of a running plan to one that is no SURVEY. -/
theorem State.modeChange_of_place (h : t.placeAt cmd anyTrace = .ok f) (hs : p.mode ≠ modeSurvey) : t.modeChange cmd p =
    if t.samePlan p then
      .done (t.modeItems t.probe.active (some (t.modeFrame cmd)) t.probe.active.e t.hearth.ilockLow.toNat)
        { t with probe := { t.probe with ngs := (insertNg (t.modeAt cmd, p.ng) t.probe.ngs).take 16 } }
    else .done (t.modeItems p.bank (some (t.modeFrame cmd)) (t.nextE (t.modeFrame cmd)) t.hearth.ilockLow.toNat)
      (State.summarise { t with probe := { t.probe with shadow := p.bank, pending := some (t.pendingPlan p (some (t.modeFrame cmd))) } }) := by
  unfold State.modeFrame
  rw [State.modeAt_of_place h]
  unfold State.modeChange
  rw [h]
  dsimp only
  split
  · rfl
  · exact if_pos (by simpa using hs)

/-! ### MODE_SET to REST (R40) -/

/-- A command to REST carries no plan to check (R441). -/
theorem decodePlan_rest (h : planMode (wat cmd.w 0) = 0) : decodePlan cmd.w cmd.bulk = .ok { mode := 0, ng := 14682, bank := {} } := by
  unfold decodePlan
  exact if_pos h

theorem State.modeSet_rest (h : planMode (wat cmd.w 0) = 0) (hoff : t.atOff cmd = false) (hw : t.changeWaits = false) : t.modeSet cmd = t.modeRest cmd := by
  rw [State.modeSet_of_feasible (decodePlan_rest h) rfl, if_neg (by simp [hoff]), if_neg (by simp [hw])]
  exact if_pos rfl

theorem State.atOff_of_stopped (h : t.probe.running = false) : t.atOff cmd = false := by
  unfold State.atOff
  rw [h]
  rfl

theorem State.changeWaits_of_stopped (h : t.probe.running = false) : t.changeWaits = false := by
  unfold State.changeWaits
  rw [h]
  rfl

theorem State.modeRest_of_stopped (h : t.probe.running = false) (ho : t.fw.optical ≠ .surveyDone) : t.modeRest cmd =
    if t.fw.startState then .done (restItems allOnes64) { t with fw := { t.fw with startState := false, optical := .fadeOut, opticalUp := t.time.up } }
    else .done (restItems allOnes64) t := by
  unfold State.modeRest
  rw [if_neg (by simp [h]), if_neg ho]

theorem State.modeRest_of_running (h : t.probe.running = true) (hp : t.placeAt cmd anyTrace = .ok f) : t.modeRest cmd =
    .done (restItems (t.traceAhead t.probe.active.leader (t.modeAt cmd)))
      (State.stopAt (t.modeFrame cmd) { t with hearth := t.hearth.fadeAll true }).summarise := by
  unfold State.modeFrame
  rw [State.modeAt_of_place hp]
  unfold State.modeRest
  rw [if_pos h, hp]

end

/-! ### Refusals -/

section
variable {c : Fin 9} {sp : Spec} {s t : State} {r : Request} {b : List Byte}

/-- A MODE_SET whose body refuses it: the error stands as it is, for no leg is named beside it. -/
theorem exec_modeSet_refused (hrow : requestRow s (.modeSet c) = some (c, sp)) (hreach : s.reach sp c.val = some (r, b, t)) {e : Err}
    (h : t.modeSet (r.cmd sp c.val b) = .refuse e) : exec (.modeSet c) s = .next (t.refuse c.val r e) := by
  cases hrow
  rw [exec_refuse (index := noLeg) (by unfold exec execModeSet; rfl) hreach h]
  by_cases hi : e.index = 0xFF
  · rw [if_pos hi]
    obtain ⟨st, detail, index⟩ := e
    cases hi
    rfl
  · rw [if_neg hi]

end

/-- Settles O21: each clause is one branch of the body. -/
theorem modeSetAnswers : Obligations.ModeSetAnswers := by
  unfold Obligations.ModeSetAnswers
  refine ⟨⟨?_, ?_, ?_, ?_, ?_⟩, ⟨?_, ?_, ?_⟩, ?_⟩
  -- a start: from REST, from the start state, before REST is reached
  · refine begins_of (fun _ => _) (fun k s sp h => by cases h; unfold exec execModeSet; rfl) (fun k cmd t hok => ?_)
    obtain ⟨p, hp, hm, hr, hidle, hstart⟩ := hok
    rw [hp.modeSet_start hm hr (by simp [hidle]), (hp.modeSet_eq hm).1]
    rw [State.modeStart_of_idle hidle, hstart]
    rfl
  · refine begins_of (fun _ => _) (fun k s sp h => by cases h; unfold exec execModeSet; rfl) (fun k cmd t hok => ?_)
    obtain ⟨p, hp, hm, hr, hidle, hstart⟩ := hok
    rw [hp.modeSet_start hm hr (by simp [hidle]), (hp.modeSet_eq hm).1]
    rw [State.modeStart_of_idle hidle, hstart]
    rfl
  · refine begins_of (fun _ => _) (fun k s sp h => by cases h; unfold exec execModeSet; rfl) (fun k cmd t hok => ?_)
    obtain ⟨p, hp, hm, hr, hfade⟩ := hok
    rw [hp.modeSet_start hm hr (by simp [hfade]), (hp.modeSet_eq hm).1]
    rw [State.modeStart_of_fadeOut hfade]
    rfl
  -- a change of the running plan, and one that alters nothing of its excitation
  · refine answers_of (fun _ => _) (fun k s sp h => by cases h; unfold exec execModeSet; rfl) (fun k cmd t hok => ?_)
    obtain ⟨p, f, hp, hm, hs, hr, hplace, hsame⟩ := hok
    rw [hp.modeSet_change hm hr, State.modeChange_of_place hplace hs, if_neg (by simp [hsame]), (hp.modeSet_eq hm).1]
  · refine answers_of (fun _ => _) (fun k s sp h => by cases h; unfold exec execModeSet; rfl) (fun k cmd t hok => ?_)
    obtain ⟨p, f, hp, hm, hs, hr, hplace, hsame⟩ := hok
    rw [hp.modeSet_change hm hr, State.modeChange_of_place hplace hs, if_pos hsame, (hp.modeSet_eq hm).1]
  -- REST: with no plan, from the start state, from a running plan
  · refine answers_of (fun _ => _) (fun k s sp h => by cases h; unfold exec execModeSet; rfl) (fun k cmd t hok => ?_)
    obtain ⟨hmode, hr, ho, hstart⟩ := hok
    rw [State.modeSet_rest hmode (State.atOff_of_stopped hr) (State.changeWaits_of_stopped hr), State.modeRest_of_stopped hr ho, if_neg (by simp [hstart])]
    rfl
  · refine answers_of (fun _ => _) (fun k s sp h => by cases h; unfold exec execModeSet; rfl) (fun k cmd t hok => ?_)
    obtain ⟨hmode, hr, ho, hstart⟩ := hok
    rw [State.modeSet_rest hmode (State.atOff_of_stopped hr) (State.changeWaits_of_stopped hr), State.modeRest_of_stopped hr ho, if_pos hstart]
    rfl
  · refine answers_of (fun _ => _) (fun k s sp h => by cases h; unfold exec execModeSet; rfl) (fun k cmd t hok => ?_)
    obtain ⟨hmode, hr, hpend, hoff, f, hplace⟩ := hok
    have hwait : t.changeWaits = false := by simp [State.changeWaits, hpend]
    rw [State.modeSet_rest hmode hoff hwait, State.modeRest_of_running hr hplace]
  -- refusals: infeasible, a change that waits, the first other reason
  · intro c sp s t r b p hrow hreach hd
    have hd' : decodePlan (r.cmd sp c.val b).w (r.cmd sp c.val b).bulk = .ok p := hd
    refine ⟨fun e hf => exec_modeSet_refused hrow hreach ?_, fun hf hoff hr hpend => exec_modeSet_refused hrow hreach ?_,
      fun hf hoff hw hm e he _ => exec_modeSet_refused hrow hreach ?_⟩
    · unfold State.modeSet
      rw [hd']
      dsimp only
      rw [PlanWords.infeasible, hf, Option.map_some]
    · rw [State.modeSet_of_feasible hd' hf, if_neg (by simp [hoff]), if_pos (by simp [State.changeWaits, hr, hpend])]
      rfl
    · rw [State.modeSet_of_feasible hd' hf, if_neg (by simp [hoff]), if_neg (by simp [hw]), if_neg (by rwa [PlanWords.surveyed_mode]), he]

end Sys2Proof.Machine

/-! SUPPORT. Refusals of the commands' own checks (step 8 of R361, R362, Table 20.3). -/

namespace Sys2Proof.Machine

/-- Settles O22: in each body the check of the ranges comes before any other that could refuse. -/
theorem parametersOutOfRangeAreRefused : Obligations.ParametersOutOfRangeAreRefused := by
  unfold Obligations.ParametersOutOfRangeAreRefused
  refine ⟨?_, ?_, ?_, ?_, ?_, ?_, ?_, ?_, ?_, ?_, ?_, ?_, ?_, ?_, ?_, ?_, ?_, ?_, ?_, ?_, ?_, ?_, ?_, ?_, ?_, ?_, ?_, ?_, ?_, ?_, ?_, ?_, ?_⟩
  · exact refuses_of _ (fun k s sp h => by cases h; unfold exec execZoneRead; rfl) (fun k cmd t hok => if_pos (Cmd.badItem_eq_true hok))
  · exact refuses_of _ (fun k s sp h => by cases h; unfold exec execRecordList; rfl) (fun k cmd t hok => if_pos (by simp; omega))
  · exact refuses_of _ (fun k s sp h => by cases h; unfold exec execSurveyRead; rfl) (fun k cmd t hok => if_pos (by simp [Cmd.badItem]; omega))
  · exact refuses_of _ (fun k s sp h => by cases h; unfold exec execTachStatus; rfl) (fun k cmd t hok => if_pos (Cmd.badItem_eq_true hok))
  · exact refuses_of _ (fun k s sp h => by cases h; unfold exec execFaultRead; rfl) (fun k cmd t hok => if_pos (by simp; omega))
  · exact refuses_of _ (fun k s sp h => by cases h; unfold exec execLogRead; rfl) (fun k cmd t hok => if_pos (by simp; omega))
  · exact refuses_of _ (fun k s sp h => by cases h; unfold exec execPlanSuggest; rfl) (fun k cmd t hok => if_pos (by simp; omega))
  · exact refuses_of _ (fun k s sp h => by cases h; unfold exec execTableLoad; rfl) (fun k cmd t hok => if_pos (by simp [Cmd.badItem]; omega))
  · exact refuses_of _ (fun k s sp h => by cases h; unfold exec execGainSet; rfl) (fun k cmd t hok => if_pos (by rcases hok with h | h | h | h <;> simp [-Nat.reducePow, Cmd.badItem, h]))
  · exact refuses_of _ (fun k s sp h => by cases h; unfold exec execChainReset; rfl) (fun k cmd t hok => if_pos (by simp; omega))
  · exact refuses_of _ (fun k s sp h => by cases h; unfold exec execMapSet; rfl) (fun k cmd t hok => if_pos (by rcases hok with h | h | h <;> simp [Cmd.badItem, h]))
  · exact refuses_of _ (fun k s sp h => by cases h; unfold exec execPoolSet; rfl) (fun k cmd t hok => if_pos (by rcases hok with h | h | h <;> simp [Cmd.badItem, h]))
  · exact refuses_of _ (fun k s sp h => by cases h; unfold exec execZoneParam; rfl) (fun k cmd t hok => if_pos (Cmd.badItem_eq_true hok))
  · exact refuses_of _ (fun k s sp h => by cases h; unfold exec execZoneEnable; rfl) (fun k cmd t hok => if_pos (by simp; omega))
  · exact refuses_of _ (fun k s sp h => by cases h; unfold exec execArm; rfl) (fun k cmd t hok => if_pos hok)
  · exact refuses_of _ (fun k s sp h => by cases h; unfold exec execDisarm; rfl) (fun k cmd t hok => if_pos hok)
  · exact refuses_of _ (fun k s sp h => by cases h; unfold exec execFire; rfl) (fun k cmd t hok => if_pos (Cmd.badItem_eq_true hok))
  · exact refuses_of _ (fun k s sp h => by cases h; unfold exec execStreamSet; rfl) (fun k cmd t hok => if_pos hok)
  · exact refuses_of _ (fun k s sp h => by cases h; unfold exec execStreamStart; rfl) (fun k cmd t hok => if_pos (by rcases hok with h | h | h <;> simp [h]))
  · exact refuses_of _ (fun k s sp h => by cases h; unfold exec execStreamStop; rfl) (fun k cmd t hok => if_pos hok)
  · exact refuses_of _ (fun k s sp h => by cases h; unfold exec execCalibrate; rfl) (fun k cmd t hok => (if_neg (by simp [hok.1])).trans (if_pos hok.2))
  · exact refuses_of _ (fun k s sp h => by cases h; unfold exec execRetrimDefer; rfl) (fun k cmd t hok => if_pos hok)
  · exact refuses_of _ (fun k s sp h => by cases h; unfold exec execTrimSet; rfl) (fun k cmd t hok => if_pos (by simp; omega))
  · exact refuses_of _ (fun k s sp h => by cases h; unfold exec execTimeCfg; rfl) (fun k cmd t hok => if_pos hok)
  · exact refuses_of _ (fun k s sp h => by cases h; unfold exec execTachCfg; rfl) (fun k cmd t hok => if_pos (by rcases hok with h | h | h | h <;> simp [Cmd.badItem, h]))
  · exact refuses_of _ (fun k s sp h => by cases h; unfold exec execFaultCfg; rfl) (fun k cmd t hok => if_pos (by rcases hok with h | h | h | h | h | h | h <;> simp [h]))
  · refine refuses_of _ (fun k s sp h => by cases h; unfold exec execNetSet; rfl) (fun k cmd t hok => ?_)
    obtain ⟨n, hn⟩ := Nat.exists_eq_add_of_lt hok
    rw [show cmd.p 0 = n + 5 by omega]
    rfl
  · exact refuses_of _ (fun k s sp h => by cases h; unfold exec execReplayStart; rfl) (fun k cmd t hok => if_pos (Cmd.badItem_eq_true hok))
  · exact refuses_of _ (fun k s sp h => by cases h; unfold exec execReplayStop; rfl) (fun k cmd t hok => if_pos (by rcases hok with h | h <;> simp [Cmd.badItem, h]))
  · exact refuses_of _ (fun k s sp h => by cases h; unfold exec execFwActivate; rfl) (fun k cmd t hok => if_pos (Cmd.badItem_eq_true hok))
  · exact refuses_of _ (fun k s sp h => by cases h; unfold exec execBist; rfl) (fun k cmd t hok => if_pos hok)
  · exact refuses_of _ (fun k s sp h => by cases h; unfold exec execTrain; rfl) (fun k cmd t hok => if_pos hok)
  · exact refuses_of _ (fun k s sp h => by cases h; unfold exec execShutdown; rfl) (fun k cmd t hok => if_pos hok)

end Sys2Proof.Machine

namespace Sys2Proof.Machine

theorem State.imageFault_of_unsigned {t : State} {slot : Nat} (h : t.imageSigned slot = false) : t.imageFault slot = some .imageSignature :=
  if_pos (by simp [h])

theorem State.imageFault_of_rollback {t : State} {slot : Nat} (h : t.imageSigned slot = true) (hr : t.imageRollback slot < t.larder.rollback) :
    t.imageFault slot = some .rollback :=
  (if_neg (by simp [h])).trans (if_pos hr)

/-- ARM and DISARM at a station that is not master of its ring. -/
theorem State.armCommand_of_notMaster {t : State} {cmd : Cmd} (hp : cmd.p 0 < 2 ^ 16) (h : t.notMaster (cmd.p 0) = true) :
    t.armCommand cmd = no .notMaster :=
  (if_neg (by omega)).trans (if_pos h)

/-- Settles O23: each error by the first test of its body that holds. -/
theorem commandsRefuseWithTheirErrors : Obligations.CommandsRefuseWithTheirErrors := by
  unfold Obligations.CommandsRefuseWithTheirErrors
  refine ⟨?_, ?_, ?_, ?_, ?_, ?_, ?_, ?_, ?_, ?_, ?_, ?_, ?_, ?_, ?_, ?_, ?_, ?_, ?_⟩
  case refine_1 =>
    refine refuses_of _ (fun k s sp h => by cases h; unfold exec execSurveyRead; rfl) (fun k cmd t hok => ?_)
    obtain ⟨hleg, hslot, hnone⟩ := hok
    exact (if_neg (by simp [Cmd.badItem]; omega)).trans (by rw [hnone]; rfl)
  case refine_2 =>
    refine refuses_of _ (fun k s sp h => by cases h; unfold exec execTableLoad; rfl) (fun k cmd t hok => ?_)
    obtain ⟨hleg, hslot, hmin, hmax, hlen, hbad⟩ := hok
    exact (if_neg (by simp [Cmd.badItem]; omega)).trans ((if_neg (by simp [hlen])).trans (if_pos ((Bool.not_eq_true' _).mpr hbad)))
  case refine_3 =>
    refine refuses_of _ (fun k s sp h => by cases h; unfold exec execCellLoad; rfl) (fun k cmd t hok => ?_)
    obtain ⟨hmin, hmax, hwrong⟩ := hok
    exact (if_neg (by simp; omega)).trans (if_pos hwrong)
  case refine_4 =>
    refine refuses_of _ (fun k s sp h => by cases h; unfold exec execCellLoad; rfl) (fun k cmd t hok => ?_)
    obtain ⟨hmin, hmax, hwrong, hbig⟩ := hok
    exact (if_neg (by simp; omega)).trans ((if_neg (by simp [hwrong])).trans (if_pos hbig))
  case refine_5 =>
    refine refuses_of _ (fun k s sp h => by cases h; unfold exec execCellLoad; rfl) (fun k cmd t hok => ?_)
    obtain ⟨hmin, hmax, hwrong, hbig, hodd, hbound⟩ := hok
    exact (if_neg (by simp; omega)).trans ((if_neg (by simp [hwrong])).trans ((if_neg (by simp [hbig])).trans
      ((if_neg (by simp [hodd])).trans (if_pos hbound))))
  case refine_6 =>
    refine refuses_of _ (fun k s sp h => by cases h; unfold exec execPoolSet; rfl) (fun k cmd t hok => ?_)
    obtain ⟨hpool, hcfg, hwork, hwrong⟩ := hok
    exact (if_neg (by simp [Cmd.badItem, hcfg]; omega)).trans (if_pos (by simpa [or_assoc] using hwrong))
  case refine_7 =>
    refine refuses_of _ (fun k s sp h => by cases h; unfold exec execZoneParam; rfl) (fun k cmd t hok => ?_)
    obtain ⟨hzone, hnone⟩ := hok
    exact (if_neg (by simp [Cmd.badItem]; omega)).trans (by rw [hnone]; rfl)
  case refine_8 =>
    refine refuses_of _ (fun k s sp h => by cases h; unfold exec execTrigSet; rfl) (fun k cmd t hok => ?_)
    obtain ⟨hlen, hrange, hpat, hcare⟩ := hok
    exact (if_neg (by simp [hlen])).trans ((if_neg (by simp [hrange])).trans (if_pos (by rw [hpat, hcare]; rfl)))
  case refine_9 =>
    exact refuses_of _ (fun k s sp h => by cases h; unfold exec execArm; rfl) (fun k cmd t hok => State.armCommand_of_notMaster hok.1 hok.2)
  case refine_10 =>
    exact refuses_of _ (fun k s sp h => by cases h; unfold exec execDisarm; rfl) (fun k cmd t hok => State.armCommand_of_notMaster hok.1 hok.2)
  case refine_11 =>
    refine refuses_of _ (fun k s sp h => by cases h; unfold exec execFire; rfl) (fun k cmd t hok => ?_)
    obtain ⟨hunit, hrest, hidle⟩ := hok
    exact (if_neg (by simp [Cmd.badItem]; omega)).trans ((if_neg (by simp [hrest])).trans (if_pos hidle))
  case refine_12 =>
    refine refuses_of _ (fun k s sp h => by cases h; unfold exec execStreamSet; rfl) (fun k cmd t hok => ?_)
    exact (if_neg (by simp [hok.1])).trans (if_pos hok.2)
  case refine_13 =>
    refine refuses_of _ (fun k s sp h => by cases h; unfold exec execStreamStop; rfl) (fun k cmd t hok => ?_)
    obtain ⟨hn, hrun, hend⟩ := hok
    exact (if_neg (by omega)).trans (if_pos (by rw [hrun, hend]; rfl))
  case refine_14 =>
    exact refuses_of _ (fun k s sp h => by cases h; unfold exec execTimeSet; rfl) (fun k cmd t hok => if_pos hok)
  case refine_15 =>
    refine refuses_of _ (fun k s sp h => by cases h; unfold exec execReplayStart; rfl) (fun k cmd t hok => ?_)
    exact (if_neg (by simp [Cmd.badItem]; omega)).trans (if_pos hok.2)
  case refine_16 =>
    refine refuses_of _ (fun k s sp h => by cases h; unfold exec execFwActivate; rfl) (fun k cmd t hok => ?_)
    exact (if_neg (by simp [Cmd.badItem]; omega)).trans (by rw [State.imageFault_of_unsigned hok.2]; rfl)
  case refine_17 =>
    refine refuses_of _ (fun k s sp h => by cases h; unfold exec execFwActivate; rfl) (fun k cmd t hok => ?_)
    obtain ⟨hslot, hsigned, hroll⟩ := hok
    exact (if_neg (by simp [Cmd.badItem]; omega)).trans (by rw [State.imageFault_of_rollback hsigned hroll]; rfl)
  case refine_18 =>
    refine refuses_of _ (fun k s sp h => by cases h; unfold exec execTrain; rfl) (fun k cmd t hok => ?_)
    exact (if_neg (by omega)).trans (if_pos (by simp [hok.2]))
  case refine_19 =>
    intro k sp s t r b hrow hreach hcarrier
    cases hrow
    have h := exec_refuse (i := .secKey k) (index := noLeg) (e := { status := .secureRequired }) (by unfold exec execSecKey; rfl) hreach
      (if_pos (bne_iff_ne.mpr (show k.val ≠ 6 from hcarrier)))
    simpa only [if_true] using h

end Sys2Proof.Machine

/-! SUPPORT. Messages in and out (R250, R347, R371): what answers leave of the mailbox block and of the other carriers' stores. -/

namespace Sys2Proof.Machine

section
variable {s t : State} {c d : Nat}

/-! ### Messages of MSI-X leave the mailbox block -/

theorem State.msixSend_mb (v : Nat) : (s.msixSend v).mb = s.mb := by
  unfold State.msixSend
  split <;> rfl

theorem State.msixCause_mb (v : Nat) : (s.msixCause v).mb = s.mb := by
  unfold State.msixCause
  split
  · rfl
  · split
    · split
      · split <;> rfl
      · exact State.msixSend_mb v
    · exact State.msixSend_mb v

theorem State.foldl_msixCause_mb (l : List Nat) : (l.foldl (fun t v => t.msixCause v) s).mb = s.mb := by
  induction l generalizing s with
  | nil => rfl
  | cons v l ih => exact ih.trans (State.msixCause_mb v)

theorem State.setDoorbells_mb (db mask : Word) : (s.setDoorbells db mask).mb = { s.mb with dbD2h := db, dbMask := mask } :=
  State.foldl_msixCause_mb _

theorem State.ring_mb (b : Nat) : (s.ring b).mb = { s.mb with dbD2h := s.mb.dbD2h ||| (1#32 <<< b) } :=
  State.setDoorbells_mb ..

theorem State.ring_chan (b d : Nat) : (s.ring b).chan d = s.chan d := by
  unfold State.chan
  rw [State.ring_mb]

theorem nbit_or_one_shift {w : Word} (h : c < 32) : nbit (w ||| (1#32 <<< c)).toNat c = true := by
  rw [nbit_toNat]
  simp [h]

theorem nbit_and_not_one_shift {w : Word} (h : c < 32) : nbit (w &&& ~~~(1#32 <<< c)).toNat c = false := by
  rw [nbit_toNat]
  simp [h]

/-! ### Answers to refused headers -/

theorem State.reply_mb (c : Nat) (udp : Option UdpTag) (code tag st detail index : Nat) (items : List Word) :
    (s.reply c udp code tag st detail index items).mb = s.mb := by
  unfold State.reply
  split
  · rfl
  · split <;> rfl

theorem State.reply_inbox (c : Nat) (udp : Option UdpTag) (code tag st detail index : Nat) (items : List Word) :
    (s.reply c udp code tag st detail index items).fw.inbox = s.fw.inbox := by
  unfold State.reply
  split
  · rfl
  · split <;> rfl

theorem State.settle_mb (n : Nat) : (s.settle c n).mb = s.mb := by
  induction n generalizing s with
  | zero => rfl
  | succ n ih =>
    unfold State.settle
    split
    · rfl
    · split
      · rfl
      · rw [ih, State.reply_mb]
        rfl

theorem State.settle_inbox_ne (n : Nat) (h : d ≠ c) : vget (s.settle c n).fw.inbox d [] = vget s.fw.inbox d [] := by
  induction n generalizing s with
  | zero => rfl
  | succ n ih =>
    unfold State.settle
    split
    · rfl
    · split
      · rfl
      · rw [ih, State.reply_inbox]
        exact vget_vmod_ne h.symm

/-- A store whose head has a good header is left as it is. -/
theorem State.settleAll_of_good {r : Request} {rest : List Request} (h : vget s.fw.inbox c [] = r :: rest) (hr : headerErr r.msg = none) :
    s.settleAll c = s := by
  unfold State.settleAll State.settle
  rw [h]
  dsimp only
  rw [hr]

/-! ### A visit -/

/-- The channel's message and its doorbell taken, before its header is judged. -/
def State.taken (c : Nat) (s : State) : State :=
  let s1 := (s.setChan c ({ s.chan c with inq := [] }.timer s.time.up true)).takeH2d c
  { s1 with fw := { s1.fw with inbox := vset s1.fw.inbox c (vget s.fw.inbox c [] ++ [{ msg := (s.chan c).inq }]) } }

theorem State.visit_of_full (hf : (s.chan c).inFull = true) (hn : (vget s.fw.inbox c []).length < 64) : s.visit c = (s.taken c).settleAll c :=
  if_neg (by simp [hf]; omega)

theorem Mailbox.timer_inq (m : Mailbox) (up : Nat) (b : Bool) : (m.timer up b).inq = m.inq := by
  unfold Mailbox.timer
  split <;> rfl

theorem Mailbox.timer_outq (m : Mailbox) (up : Nat) (b : Bool) : (m.timer up b).outq = m.outq := by
  unfold Mailbox.timer
  split <;> rfl

theorem Mailbox.timer_count (m : Mailbox) (up : Nat) (b : Bool) : (m.timer up b).count = m.count := by
  unfold Mailbox.timer
  split <;> rfl

theorem State.taken_inbox_self (hc : c < 8) : vget (s.taken c).fw.inbox c [] = vget s.fw.inbox c [] ++ [{ msg := (s.chan c).inq }] :=
  vget_vset_self (by omega)

theorem State.visit_settles (hc : c < 8) (hf : (s.chan c).inFull = true) (hn : (vget s.fw.inbox c []).length < 64) :
    ((s.visit c).chan c).inq = [] ∧ nbit (s.visit c).mb.dbH2d.toNat c = false ∧
      (∀ d, d ≠ c → (s.visit c).chan d = s.chan d ∧ vget (s.visit c).fw.inbox d [] = vget s.fw.inbox d []) := by
  have hmb : (s.visit c).mb = (s.taken c).mb := by
    rw [State.visit_of_full hf hn]
    exact State.settle_mb _
  unfold State.chan
  rw [hmb]
  refine ⟨?_, nbit_and_not_one_shift (by omega), fun d hd => ⟨vget_vset_ne hd.symm, ?_⟩⟩
  · exact (congrArg Mailbox.inq (vget_vset_self hc)).trans (Mailbox.timer_inq ..)
  · rw [State.visit_of_full hf hn]
    exact (State.settle_inbox_ne _ hd).trans (vget_vset_ne hd.symm)

/-- A message with a good header behind stored ones that have good headers joins them. -/
theorem State.visit_inbox (hc : c < 8) (hf : (s.chan c).inFull = true) (hn : (vget s.fw.inbox c []).length < 64)
    (hm : headerErr (s.chan c).inq = none) (hall : ∀ r ∈ vget s.fw.inbox c [], headerErr r.msg = none) :
    vget (s.visit c).fw.inbox c [] = vget s.fw.inbox c [] ++ [{ msg := (s.chan c).inq }] := by
  have hself := State.taken_inbox_self (s := s) hc
  have hgood : (s.taken c).settleAll c = s.taken c := by
    cases hheld : vget s.fw.inbox c [] with
    | nil =>
      rw [hheld] at hself
      exact State.settleAll_of_good (r := { msg := (s.chan c).inq }) hself hm
    | cons r rest =>
      rw [hheld] at hself
      exact State.settleAll_of_good (r := r) hself (hall r (by simp [hheld]))
  rw [State.visit_of_full hf hn, hgood, hself]

/-! ### A message out -/

theorem State.complete_of_next {m : Msg} (hf : (s.chan c).outFull = false) (h : s.nextOut c = some (m, t)) :
    s.complete c = (t.setChan c ({ t.chan c with outq := m, count := finc (t.chan c).count F.MB_COUNT.OUT_MSGS }.timer t.time.up false)).ring c := by
  unfold State.complete
  rw [if_neg (by simp [hf]), h]

theorem State.complete_fields {m : Msg} (hc : c < 8) (hf : (s.chan c).outFull = false) (h : s.nextOut c = some (m, t)) :
    ((s.complete c).chan c).outq = m ∧ ((s.complete c).chan c).count = finc (t.chan c).count F.MB_COUNT.OUT_MSGS ∧
      nbit (s.complete c).mb.dbD2h.toNat c = true := by
  have hrun := State.complete_of_next hf h
  generalize hx : ({ t.chan c with outq := m, count := finc (t.chan c).count F.MB_COUNT.OUT_MSGS } : Mailbox).timer t.time.up false = x at hrun
  have hchan : (s.complete c).chan c = x := by
    rw [hrun, State.ring_chan]
    exact State.chan_setChan_self hc
  rw [hchan, ← hx, hrun, State.ring_mb]
  exact ⟨Mailbox.timer_outq .., Mailbox.timer_count .., nbit_or_one_shift (by omega)⟩

/-- The response at the head of its store leaves before an event that became ready no earlier. -/
theorem State.nextOut_response {m : Msg} {n : Nat} {rest : List OutMsg} (h : vget s.fw.out c [] = ⟨n, m⟩ :: rest)
    (hev : ∀ q o series t, eventQueueOf c = some q → s.takeEvent q = some (o, series, t) → n ≤ o) :
    s.nextOut c = some (m, { s with fw := { s.fw with out := vset s.fw.out c rest } }) := by
  unfold State.nextOut
  rw [h]
  dsimp only
  cases hb : (eventQueueOf c).bind s.takeEvent with
  | none => rfl
  | some e =>
    obtain ⟨q, hq, ht⟩ := Option.bind_eq_some_iff.mp hb
    obtain ⟨o, series, t⟩ := e
    exact if_pos (decide_eq_true (hev q o series t hq ht))

/-- With no response ready the event leaves, and what follows of its series waits in its place. -/
theorem State.nextOut_event {q o : Nat} {m : Msg} {more : List Msg} (hq : eventQueueOf c = some q) (h : s.takeEvent q = some (o, m :: more, t))
    (hout : vget s.fw.out c [] = []) :
    s.nextOut c = some (m, { t with fw := { t.fw with out := vmod t.fw.out c (fun l => more.map (fun x => ⟨o, x⟩) ++ l) } }) := by
  unfold State.nextOut
  rw [hout, hq]
  dsimp only [Option.bind_some]
  rw [h]
  exact if_neg Bool.false_ne_true

end

/-- Settles O24: the inbound visit, the outbound completion, and the order of a response and an event. -/
theorem messagesPassThroughFirmware : Obligations.MessagesPassThroughFirmware := by
  unfold Obligations.MessagesPassThroughFirmware
  refine ⟨⟨fun s hr ha => if_neg (by simp [hr, ha]), fun s h => if_pos (by rcases h with h | h <;> simp [h]), fun c s hc hf hn => ?_,
    fun c s h => if_pos (by rcases h with h | h <;> simp [h])⟩, ⟨fun s hr ha => ?_, fun s hr ha => ?_, fun s hr => if_pos (by simp [hr]),
    fun c s h => if_pos h, fun c s t m hc hf h => ?_⟩, fun c s hc => ⟨fun m n rest h hev => State.nextOut_response h hev,
    fun q o m more t hq h hout => State.nextOut_event hq h hout⟩⟩
  · obtain ⟨hinq, hbell, hother⟩ := State.visit_settles hc hf hn
    exact ⟨hinq, hbell, hother, State.visit_inbox hc hf hn⟩
  · exact (if_neg (by simp [hr])).trans (by rw [if_pos ha])
  · exact (if_neg (by simp [hr])).trans (by rw [if_neg (by simp [ha])])
  · obtain ⟨hout, hcount, hbell⟩ := State.complete_fields hc hf h
    exact ⟨hout, by rw [hcount], hbell⟩

end Sys2Proof.Machine

/-! SUPPORT. The ends of long work (R296, R297, R362, R366, R416, R417): the branches of the rows that end it. -/

namespace Sys2Proof.Machine

section
variable {s : State} {phy : Vector Phy 4} {u : Nat} {fails : List FailingBit} {op : LongOp}

/-! ### Training -/

/-- The stored result is confirmed. -/
theorem trainingDone_stored {d : DramTrain} (h : s.boot.training = some (u, false)) (ha : s.trainAborts = false) (hd : s.larder.dramTrain = some d) :
    exec (.trainingDone phy none) s = .next (((s.untilUp (u + 25 * ms)).trained d.phy true).answerTrain { status := .ok } []) := by
  change execTrainingDone phy _ s = _
  unfold execTrainingDone
  rw [h]
  refine (if_neg ((Bool.not_eq_true _).mpr ha)).trans ((if_pos rfl).trans ?_)
  rw [State.untilUp_larder, hd]
  rfl

/-- Nothing stored, or the result stored fails: training goes on in full. -/
theorem trainingDone_goesOn {fail : Option (Fin 2 × Fin 2 × Fin 72)} (h : s.boot.training = some (u, false)) (ha : s.trainAborts = false)
    (hd : fail ≠ none ∨ s.larder.dramTrain = none) :
    let s1 := s.untilUp (u + 25 * ms)
    exec (.trainingDone phy fail) s = .next { s1 with boot := { s1.boot with training := some (s1.time.up, true) } } := by
  change execTrainingDone phy _ s = _
  unfold execTrainingDone
  rw [h]
  refine (if_neg ((Bool.not_eq_true _).mpr ha)).trans ((if_pos rfl).trans ?_)
  rw [State.untilUp_larder]
  cases fail with
  | some f => rfl
  | none =>
    rw [hd.resolve_left (fun hne => hne rfl)]
    rfl

/-- The day's account apart, `charge` leaves the Larder. (The choice of the day is named, so that no check evaluates it.) -/
theorem Larder.charge_dramTrain (up n : Nat) (l : Larder) : (l.charge up n).dramTrain = l.dramTrain := by
  have hcount : ∀ x : Larder, x.dramTrain = l.dramTrain →
      ({ x with dayBytes := x.dayBytes + n, wearCount := x.wearCount + n / 16 } : Larder).dramTrain = l.dramTrain := fun _ hx => hx
  refine hcount (if up < l.dayUp + 86400 * sec then l else { l with dayUp := up / (86400 * sec) * (86400 * sec), dayBytes := 0 }) ?_
  split <;> rfl

theorem State.wrote_dramTrain (n : Nat) : (s.wrote n).larder.dramTrain = s.larder.dramTrain := by
  have hmark : ∀ x : Larder, ({ x with lastTime := s.now, shutdownOk := false } : Larder).dramTrain = x.dramTrain := fun _ => rfl
  exact (hmark (s.larder.charge s.time.up n)).trans (Larder.charge_dramTrain _ _ _)

/-- The journal entry of a full training. -/
def State.keepTraining (phy : Vector Phy 4) (s : State) : State :=
  State.wrote trainEntryBytes { s with larder := { s.larder with
    dramTrain := some { memDesc := s.cellar.memDesc, phy }, old := { s.larder.old with dramTrain := s.larder.dramTrain } } }

/-- Full training ends, and its result enters the journal. -/
theorem trainingDone_full (h : s.boot.training = some (u, true)) (ha : s.trainAborts = false) :
    ∃ v : State, exec (.trainingDone phy none) s = .next ((v.trained phy false).answerTrain { status := .ok } []) ∧
      v.larder.dramTrain = some { memDesc := s.cellar.memDesc, phy } := by
  refine ⟨(s.untilUp (u + 450 * ms)).keepTraining phy, ?_, State.wrote_dramTrain trainEntryBytes⟩
  change execTrainingDone phy none s = _
  unfold execTrainingDone
  rw [h]
  exact (if_neg ((Bool.not_eq_true _).mpr ha)).trans (if_neg (by simp))

/-- Full training finds a bit that fails. -/
theorem trainingDone_fails {f : Fin 2 × Fin 2 × Fin 72} (h : s.boot.training = some (u, true)) (ha : s.trainAborts = false) :
    let s1 := s.untilUp (u + 450 * ms)
    exec (.trainingDone phy (some f)) s =
      .next ((({ s1 with boot := { s1.boot with training := none } }).report srcDramTrain (trainDetail f)).answerTrain { status := .memFault }
        [w32 f.1.val, w32 f.2.1.val, w32 f.2.2.val]) := by
  change execTrainingDone phy (some f) s = _
  unfold execTrainingDone
  rw [h]
  exact (if_neg ((Bool.not_eq_true _).mpr ha)).trans (if_neg (by simp))

theorem State.trained_enabled (b : Bool) : fbit (s.trained phy b).cellar.cfg F.CELLAR_CFG.ENABLE = true :=
  fbit_fset (by decide)

theorem State.trained_trained (b : Bool) : fbit (s.trained phy b).cellar.stat F.CELLAR_STAT.TRAINED = true :=
  (fbit_fsetB_ne (by decide) (by decide)).trans (fbit_fset (by decide))

theorem State.trained_fromStore (b : Bool) : fbit (s.trained phy b).cellar.stat F.CELLAR_STAT.FROM_STORE = b :=
  fbit_fsetB (by decide) rfl

/-! ### Self-test -/

theorem bistSliceDone_eq (h : s.fw.long = some op) (hr : s.boot.bist.running = true) :
    exec (.bistSliceDone fails) s = .next (s.bistSliced fails op) := by
  change execBistSliceDone fails s = _
  unfold execBistSliceDone
  rw [h]
  exact if_neg (by simp [hr])

theorem State.bistProgress_of_command (h : op.code ≠ 0x098) :
    s.bistProgress op = s.progress op.code 1 0 (10000 * s.boot.bist.usedMs / max 1 s.boot.bist.budgetMs) :=
  if_neg (by simpa using h)

theorem State.bistOver_of_command (h : op.code ≠ 0x098) :
    s.bistOver op = s.afterBist.endLong { status := if op.abort then .aborted else .ok } s.boot.bist.items :=
  if_neg (by simpa using h)

end

/-- Settles O25: each row by the branch that its state takes. -/
theorem longWorkEnds : Obligations.LongWorkEnds := by
  unfold Obligations.LongWorkEnds
  refine ⟨⟨fun c s r rest u hin hu => ?_, fun s op hr hb hl ha => ?_, fun s hr hb hl => ?_, fun s hb => if_pos (by simp [hb])⟩,
    fun phy fail u full s h ha => ⟨fun d hfull hfail hd => ?_, fun hfull hd => ?_, fun hfull hfail => ?_, fun f hfull hfail => ?_⟩,
    fun phy b s => ⟨State.trained_enabled b, State.trained_trained b, State.trained_fromStore b, rfl, rfl⟩,
    fun op fails s hl hr hcode => ⟨fun hfits habort => ?_, fun hends => ?_⟩, fun fails s => ⟨rfl, rfl⟩, fun op s hl hcode hopt => ?_, fun s hopt => ?_,
    fun a bs op s hw hl hcode habort => ⟨fun hrest => ?_, fun hrest => ?_⟩, fun s hw => ?_⟩
  case refine_1 =>
    change execBulkTimeout c s = _
    unfold execBulkTimeout
    rw [hin]
    dsimp only
    rw [hu]
  case refine_2 =>
    change execLongOperationAbort s = _
    unfold execLongOperationAbort
    refine (if_neg (by simp [hr, hb])).trans ?_
    dsimp only
    rw [show (s.takeH2d 8).fw.long = some op from hl]
    exact congrArg Host.Outcome.next (if_pos ha)
  case refine_3 =>
    change execLongOperationAbort s = _
    unfold execLongOperationAbort
    refine (if_neg (by simp [hr, hb])).trans ?_
    dsimp only
    cases hop : (s.takeH2d 8).fw.long with
    | none => rfl
    | some op => exact congrArg Host.Outcome.next (if_neg ((Bool.not_eq_true _).mpr (hl op hop)))
  case refine_4 =>
    subst hfull hfail
    exact trainingDone_stored h ha hd
  case refine_5 =>
    subst hfull
    exact trainingDone_goesOn h ha hd
  case refine_6 =>
    subst hfull hfail
    exact trainingDone_full h ha
  case refine_7 =>
    subst hfull hfail
    exact trainingDone_fails h ha
  case refine_8 =>
    rw [bistSliceDone_eq hl hr]
    unfold State.bistSliced
    rw [if_pos (by simpa [State.bistGoesOn, habort] using hfits), State.bistProgress_of_command hcode]
  case refine_9 =>
    rw [bistSliceDone_eq hl hr]
    unfold State.bistSliced
    rw [if_neg (by rcases hends with hmax | habort <;> simp [State.bistGoesOn, *]), State.bistProgress_of_command hcode, State.bistOver_of_command hcode]
  case refine_10 =>
    change execShutdownDrainDone s = _
    unfold execShutdownDrainDone
    rw [hl]
    exact if_neg (by simp [hcode, hopt])
  case refine_11 =>
    change execShutdownDrainDone s = _
    unfold execShutdownDrainDone
    cases s.fw.long with
    | none => rfl
    | some op => exact if_pos (by simp [hopt])
  case refine_12 =>
    change execFlashWriteDone s = _
    unfold execFlashWriteDone
    rw [hw]
    dsimp only
    rw [hl]
    exact (if_neg (by simp [hcode])).trans ((if_neg (by simp [habort])).trans (if_pos (by simp [hrest])))
  case refine_13 =>
    change execFlashWriteDone s = _
    unfold execFlashWriteDone
    rw [hw]
    dsimp only
    rw [hl]
    exact (if_neg (by simp [hcode])).trans ((if_neg (by simp [habort])).trans (if_neg (by simpa using hrest)))
  case refine_14 =>
    change execFlashWriteDone s = _
    unfold execFlashWriteDone
    rw [hw]

end Sys2Proof.Machine

/-! SUPPORT. Launches (R44, R48) and the windows of SURVEY (R37). -/

namespace Sys2Proof.Machine

section
variable {s : State} {leg slot k j n stamp boundary : Nat} {late replay : Bool} {tach : Vector Nat 8}

/-- A late launch is reported; any other has its gate judged. -/
theorem late_or_judged (late : Bool) (a b : State) (judge : State → State) :
    (if late then (if late then a else b) else judge (if late then a else b)) = if late then a else judge b := by
  cases late <;> rfl

/-! ### Numbering -/

theorem State.numberTrace_probe : (s.numberTrace leg k j slot n stamp boundary late replay tach).probe =
    let row := vget s.probe.trace leg (Vector.replicate 8 0)
    let last := decide ((s.legBank leg).count ≤ j + 1)
    { s.probe with
      trace := vset s.probe.trace leg (vset row slot (vget row slot 0 + 1))
      frame := vset s.probe.frame leg (if last then k + 1 else k)
      next := vset s.probe.next leg (if last then 0 else j + 1) } := rfl

/-- Numbering writes the probe's counters and the Halls alone. -/
theorem State.numberTrace_others : let t := s.numberTrace leg k j slot n stamp boundary late replay tach
    t.thr = s.thr ∧ t.cellar = s.cellar ∧ t.loft = s.loft ∧ t.trig = s.trig ∧ t.fw = s.fw ∧ t.hearth = s.hearth := by
  by_cases hj : j = 0 <;> simp [State.numberTrace, hj]

/-! ### A trace within a window -/

section
variable {v : SurveyLeg} {pts : List HallPoint}

/-- A mark that no point of the window carries. -/
theorem not_any_of_all_false {own : List HallPoint} {b : Nat} (h : ∀ p ∈ own, nbit p.marks b = false) : own.any (fun p => nbit p.marks b) = false := by
  simpa using h

theorem SurveyLeg.take_of_step (hc : v.complete = false) (hn : v.traces < surveyTraces)
    (hs : ∀ p ∈ (pts.drop (1024 * v.windows)).take 1024, nbit p.marks reGainStep = false) : v.take v.gain pts =
      let own := (pts.drop (1024 * v.windows)).take 1024
      if own.any (fun p => nbit p.marks reOverload) && 0 < v.gain then { v with gain := v.gain - 1, traces := 0, power := 0 }
      else { v with traces := v.traces + 1, power := own.foldl (fun a p => a + p.power) v.power } := by
  have hstep := not_any_of_all_false hs
  unfold SurveyLeg.take
  exact if_neg (by simp only [hstep, hc]; simpa using hn)

end
end

/-- Settles O26: a launch in its turn, what numbering moves, a complete window, and a trace within a window. -/
theorem launchesAndSurveyWindows : Obligations.LaunchesAndSurveyWindows := by
  unfold Obligations.LaunchesAndSurveyWindows
  refine ⟨⟨fun leg slot late gateOpen gateShort s k j hup hfront hturn hrep => ?_, fun leg slot k j n stamp boundary late replay tach s => ?_⟩,
    fun leg loss ends length places strengths s hmode hon hcomplete htraces => ?_, fun v pts hcomplete htraces hstep => ⟨fun hover hgain => ?_, fun hover => ?_⟩⟩
  case refine_1 =>
    change execLaunch leg slot late gateOpen gateShort s = _
    unfold execLaunch
    rw [hup]
    refine (if_neg (by simp [hfront, hturn])).trans ((if_neg ((Bool.not_eq_true _).mpr hrep)).trans ?_)
    exact congrArg (fun u : State => (.next u.stopIfReached : Res)) (late_or_judged late _ _ (fun t => t.judgeGate leg.val gateOpen gateShort))
  case refine_2 =>
    have hleg : leg.val < 2 := leg.isLt
    obtain ⟨hthr, hcellar, hloft, htrig, hfw, hhearth⟩ :=
      State.numberTrace_others (s := s) (leg := leg.val) (slot := slot.val) (k := k) (j := j) (n := n) (stamp := stamp) (boundary := boundary)
        (late := late) (replay := replay) (tach := tach)
    dsimp only
    rw [State.numberTrace_probe]
    dsimp only
    rw [vget_vset_self hleg, vget_vset_self slot.isLt, vget_vset_self hleg, vget_vset_self hleg, vget_vset_ne (by omega)]
    exact ⟨rfl, fun h => by simp [Nat.not_le.mpr h], fun h => by simp [h], rfl, hthr, hcellar, hloft, htrig, hfw, hhearth⟩
  case refine_3 =>
    change execSurveyWindowDone leg loss ends length places strengths s = _
    unfold execSurveyWindowDone
    exact if_neg (by simp [hmode, hon, hcomplete]; omega)
  case refine_4 =>
    rw [SurveyLeg.take_of_step hcomplete htraces hstep]
    have hany : ((pts.drop (1024 * v.windows)).take 1024).any (fun p => nbit p.marks reOverload) = true := by simpa using hover
    dsimp only
    rw [if_pos (by simp [hany, hgain])]
    exact ⟨rfl, rfl⟩
  case refine_5 =>
    rw [SurveyLeg.take_of_step hcomplete htraces hstep]
    have hnone := not_any_of_all_false hover
    dsimp only
    rw [if_neg (by simp [hnone])]
    exact ⟨rfl, rfl⟩

end Sys2Proof.Machine

/-! SUPPORT. Plans begin and end (R40, R41, R61, R62, R410): what an event leaves, what the rooms keep when they lose their power. -/

namespace Sys2Proof.Machine

section
variable {s : State}

/-! ### Events change firmware's state alone -/

theorem State.emitOn_eq (stamp : Option Nat) (q code : Nat) (payload : List Word) :
    s.emitOn stamp q code payload = { s with fw := (s.emitOn stamp q code payload).fw } := by
  unfold State.emitOn
  split <;> rfl

theorem State.foldl_emitOn_eq (stamp : Option Nat) (code : Nat) (payload : List Word) (l : List Nat) :
    l.foldl (fun t q => t.emitOn stamp q code payload) s = { s with fw := (l.foldl (fun t q => t.emitOn stamp q code payload) s).fw } := by
  induction l generalizing s with
  | nil => rfl
  | cons q l ih =>
    rw [List.foldl_cons, ih, State.emitOn_eq]

theorem State.emitAt_eq (stamp : Option Nat) (code : Nat) (payload : List Word) :
    s.emitAt stamp code payload = { s with fw := (s.emitAt stamp code payload).fw } := by
  unfold State.emitAt
  rw [State.foldl_emitOn_eq]

theorem State.abandonFade_eq (leg : Nat) : s.abandonFade leg = { s with fw := (s.abandonFade leg).fw } := by
  unfold State.abandonFade
  dsimp only
  split
  · split
    · rfl
    · exact State.emitAt_eq ..
  · rfl

/-! ### The rooms lose their power -/

theorem State.discardRows_eq : s.discardRows = { s with
    fw := ((s.abandonFade 0).abandonFade 1).fw
    halls := { s.halls with leg := s.halls.leg.map Hall.discard, launches := [], out0 := [], out5 := [], loft := [] }
    cellar := { s.cellar with full := { s.cellar.full with taken := 0, dropping := false }, dec := { s.cellar.dec with taken := 0, dropping := false } } } := by
  unfold State.discardRows
  rw [State.abandonFade_eq (s := s.abandonFade 0) 1, State.abandonFade_eq (s := s) 0]

theorem State.loseRooms_pending : s.loseRooms.probe.pending = s.probe.pending := by
  unfold State.loseRooms
  rw [State.discardRows_eq]

theorem State.loseRooms_kept : s.loseRooms.cellar.mem = s.cellar.mem ∧ s.loseRooms.cellar.full.rows = s.cellar.full.rows ∧
    s.loseRooms.cellar.dec.rows = s.cellar.dec.rows ∧ s.loseRooms.larder = s.larder ∧ s.loseRooms.mb = s.mb := by
  unfold State.loseRooms
  rw [State.discardRows_eq]
  exact ⟨rfl, rfl, rfl, rfl, rfl⟩

/-! ### A plan in force -/

theorem vget_ofList_map {α : Type} {n i : Nat} {f : Nat → α} {d : α} {h : ((List.range n).map f).toArray.size = n} (hi : i < n) :
    vget (⟨((List.range n).map f).toArray, h⟩ : Vector α n) i d = f i := by
  simp [vget, hi]

theorem vget_replicate {α : Type} {n i : Nat} {x d : α} (h : i < n) : vget (Vector.replicate n x) i d = x := by
  unfold vget
  rw [Vector.toList_replicate, List.getElem?_replicate, if_pos h]
  rfl

/-- A slot that plays a table plays that of the new plan. -/
theorem PendingPlan.inUse_of_isTable {q : PendingPlan} {old : Vector (Vector SlotTable 8) 2} {leg slot : Nat} (hl : leg < 2) (hs : slot < 8)
    (ht : (q.bank.legBank leg).isTable slot = true) :
    vget (vget (q.inUse old) leg (Vector.replicate 8 {})) slot {} = vget (vget q.tables leg (Vector.replicate 8 {})) slot {} := by
  have hrow : vget (vget (q.inUse old) leg (Vector.replicate 8 {})) slot {} =
      vget (vget (if (q.bank.legBank leg).isTable slot then q.tables else old) leg (Vector.replicate 8 {})) slot {} := by
    rcases (by omega : leg = 0 ∨ leg = 1) with h | h <;> subst h <;> exact vget_ofList_map hs
  rw [hrow, if_pos ht]

end

/-- Settles O27: each row by the branch of its state; then what the rooms keep and what is in force. -/
theorem plansBeginAndEnd : Obligations.PlansBeginAndEnd := by
  unfold Obligations.PlansBeginAndEnd
  refine ⟨⟨fun s q k hq hk hrun hmode hreached => ?_, fun s q hq hopt hfade hsafe hmode => ?_, fun s q hq hopt hfade hsafe hmode => ?_,
    fun s q hq hrestart hphase hsafe hfront => ?_, fun s hopt => ?_, fun s hopt hwait hshut hcal => ⟨fun hp => ?_, fun hp => ?_⟩, fun s hbusy => ?_, fun s => ?_⟩,
    fun q p e base fresh mode => ?_⟩
  case refine_1 =>
    change execQuietIntervalEnd s = _
    unfold execQuietIntervalEnd
    rw [hq]
    dsimp only
    rw [hk]
    exact if_neg (by simp [hrun, hmode, hreached])
  case refine_2 =>
    change execProbeStart s = _
    unfold execProbeStart
    rw [hq]
    refine (if_neg (by simp [hopt, hfade, hsafe])).trans ?_
    unfold State.startProbe
    rw [if_neg hmode]
  case refine_3 =>
    change execProbeStart s = _
    unfold execProbeStart
    rw [hq]
    refine (if_neg (by simp [hopt, hfade, hsafe])).trans ?_
    unfold State.startProbe
    rw [if_pos hmode]
  case refine_4 =>
    change execJournalledPlanRestart s = _
    unfold execJournalledPlanRestart
    rw [hq]
    exact if_neg (by simp [hrestart, hphase, hsafe, hfront])
  case refine_5 =>
    change execTecSettleTimeout s = _
    unfold execTecSettleTimeout
    exact if_neg (by simp [hopt])
  case refine_6 =>
    change execRestPowerDown s = _
    unfold execRestPowerDown
    refine (if_neg (by simp [hopt, hwait, hshut, hcal])).trans ?_
    exact congrArg Host.Outcome.next (if_neg (by rw [State.loseRooms_pending, hp]; simp))
  case refine_7 =>
    change execRestPowerDown s = _
    unfold execRestPowerDown
    refine (if_neg (by simp [hopt, hwait, hshut, hcal])).trans ?_
    exact congrArg Host.Outcome.next (if_pos (by rw [State.loseRooms_pending, hp]))
  case refine_8 =>
    have hwait : s.restWaits = true := by
      unfold State.restWaits
      rcases hbusy with h | h | h | h
      · simp [h]
      · simp [h]
      · simp [h]
      · simp only [List.any_eq_true.mpr h, Bool.or_true]
    change execRestPowerDown s = _
    unfold execRestPowerDown
    exact if_pos (by simp [hwait])
  case refine_9 =>
    obtain ⟨hmem, hfull, hdec, hlarder, hmb⟩ := State.loseRooms_kept (s := s)
    exact ⟨rfl, rfl, rfl, rfl, rfl, hmem, hfull, hdec, hlarder, hmb⟩
  case refine_10 =>
    exact ⟨rfl, rfl, rfl, rfl, rfl, rfl, fun leg hleg => ⟨vget_replicate hleg, vget_replicate hleg⟩, fun leg slot hl hs ht => PendingPlan.inUse_of_isTable hl hs ht⟩

end Sys2Proof.Machine

/-! SUPPORT. Waiting changes and their isles (R8, R17, R22). -/

namespace Sys2Proof.Machine

section
variable {s : State} {k f : Nat} {p : Stamped}

/-- A change with a frame, looked at while a plan runs and its frame is reached. -/
theorem stampedChangeApply_of_reached (hk : s.fw.stamped[k]? = some p) (hf : p.frame = some f) (hrun : s.probe.running = true) (hle : f ≤ s.isleFrame p) :
    exec (.stampedChangeApply k) s =
      if p.code = cZoneSet || p.code = cZoneParam || p.code = cZoneEnable then .next (s.distribute f)
      else if p.code = cTrigSet || p.code = cArm || p.code = cDisarm || p.code = cFire then .next (s.distributeTrig f)
      else if p.code = cStreamStart then .next s.streamStarts
      else if p.code = cFrontSet && (s.legBank p.item).on then .next ((s.takeChange p).applyFront p)
      else if p.code = cChainSet || p.code = cChainReset then
        let leg := if p.code = cChainSet then p.item else p.leg
        match (s.chain leg).input with
        | x :: _ => .next (s.prepareChain leg x)
        | [] => .next (if (s.legBank leg).on then s else s.applyIdle p)
      else if legCodes.contains p.code && !(s.legBank p.item).on then .next (s.applyIdle p)
      else .next s := by
  change execStampedChangeApply k s = _
  unfold execStampedChangeApply
  rw [hk]
  dsimp only
  rw [hf]
  dsimp only
  rw [if_neg (by simp [hrun]; omega)] <;> rfl

/-- The codes of changes that no isle but the leg's own switches in. -/
theorem legCodes_of_idle : ∀ c ∈ [cGainSet, cMapSet, cTempSet, cTempCal, cReplayStart, cReplayStop],
    (c = cZoneSet || c = cZoneParam || c = cZoneEnable) = false ∧ (c = cTrigSet || c = cArm || c = cDisarm || c = cFire) = false ∧
      c ≠ cStreamStart ∧ c ≠ cFrontSet ∧ (c = cChainSet || c = cChainReset) = false ∧ legCodes.contains c = true := by
  decide

end

/-- Settles O28: the frame is compared first, then the code names the isle. -/
theorem stampedChangesApply : Obligations.StampedChangesApply := by
  unfold Obligations.StampedChangesApply
  refine ⟨fun k s p f hk hf hlt => ?_, fun k s p f hk hf hrun hle => ?_⟩
  · change execStampedChangeApply k s = _
    unfold execStampedChangeApply
    rw [hk]
    dsimp only
    rw [hf]
    exact if_pos (by simp [hlt])
  · rw [stampedChangeApply_of_reached hk hf hrun hle]
    refine ⟨fun hc => ?_, fun hc => ?_, fun hc => ?_, fun hc hon => ?_, fun hc x rest hin => ?_, fun hc x rest hin => ?_, fun hc hoff => ?_⟩
    · exact if_pos (by simpa [or_assoc] using hc)
    · have hzone : ∀ c ∈ [cTrigSet, cArm, cDisarm, cFire], (c = cZoneSet || c = cZoneParam || c = cZoneEnable) = false := by decide
      exact (if_neg (by rw [hzone _ hc]; decide)).trans (if_pos (by simpa [or_assoc] using hc))
    · rw [hc]
      rfl
    · rw [hc, hon]
      rfl
    · rw [hc]
      refine (if_neg (by decide)).trans ((if_neg (by decide)).trans ((if_neg (by decide)).trans ((if_neg (by simp [show cChainSet ≠ cFrontSet by decide])).trans ((if_pos (by decide)).trans ?_))))
      dsimp only
      rw [if_pos rfl, hin]
    · rw [hc]
      refine (if_neg (by decide)).trans ((if_neg (by decide)).trans ((if_neg (by decide)).trans ((if_neg (by simp [show cChainReset ≠ cFrontSet by decide])).trans ((if_pos (by decide)).trans ?_))))
      dsimp only
      rw [if_neg (by decide), hin]
    · obtain ⟨hzone, htrig, hstream, hfront, hchain, hleg⟩ := legCodes_of_idle _ hc
      exact (if_neg (by simp [hzone])).trans ((if_neg (by simp [htrig])).trans ((if_neg hstream).trans ((if_neg (by simp [hfront])).trans
        ((if_neg (by simp [hchain])).trans (if_pos (by rw [hleg, hoff]; rfl))))))

end Sys2Proof.Machine

/-! SUPPORT. Traces through the Hall, the chain and the temperature channel (R138, R162, R164, R189). -/

namespace Sys2Proof.Machine

section
variable {s : State}

/-- Outside a survey the row goes to the store and the merged sample to the chain of the leg. -/
theorem State.processTrace_of_plan {l : Launch} {r : WordRun} (hl : l.survey = false) :
    let s0 := (s.dropLaunch l).applyDue (pickLeg cFrontSet l.leg) l.frame State.applyFront
    let own := l.bank.waveform l.slot l.table
    let h := (s0.hall l.leg).before l (l.bank.place l.slot) (fun sl => if sl = l.slot then own else s0.waveform l.leg sl)
    let q := h.1.trace l (l.bank.place l.slot) h.2 r own.toArray
    let s1 := s0.setHall l.leg { q.1 with chain := { q.1.chain with input := q.1.chain.input ++ [q.2.2] } }
    s.processTrace l r = { s1 with halls := { s1.halls with out0 := s1.halls.out0 ++ [q.2.1] } } := by
  unfold State.processTrace
  exact if_neg (by simp [hl])

theorem State.raman_setRaman_self {leg : Nat} {x : Raman} (h : leg < 2) : (s.setRaman leg x).raman leg = x :=
  congrArg Hall.raman (State.hall_setHall_self h)

/-- A snapshot of a phase but the last neither counts a span nor ends the window. -/
theorem State.snapshot_of_early {leg : Nat} (hleg : leg < 2) (h : (s.raman leg).snapNext % 4 ≠ 3) :
    ((s.snapshot leg).raman leg).snapNext = (s.raman leg).snapNext + 1 ∧ ((s.snapshot leg).raman leg).window.spans = (s.raman leg).window.spans ∧
      vget ((s.snapshot leg).raman leg).prev ((s.raman leg).snapNext % 4) [] = vget (s.raman leg).acc ((s.raman leg).snapNext % 4) [] := by
  unfold State.snapshot
  dsimp only
  rw [if_neg (fun hlast => h hlast.1), State.raman_setRaman_self hleg]
  exact ⟨rfl, if_neg h, vget_vset_self (Nat.mod_lt _ (by decide))⟩

end

/-- Settles O29: each row by its branch; where a trace goes; what a snapshot moves. -/
theorem tracesAreProcessed : Obligations.TracesAreProcessed := by
  unfold Obligations.TracesAreProcessed
  refine ⟨⟨fun leg s l r hl hfront hr => ?_, fun leg s l hl hr => ?_, fun s l r hsurvey => ?_⟩, fun leg s x rest hin hp => ?_, fun leg s x rest hin hp => ?_,
    fun leg s x rest hin hfront hturn => ?_, fun leg s x hx => ?_, fun leg s hx => ?_, fun leg s hrun hen harr => ?_, fun leg s hen => ?_,
    fun leg s hleg h => State.snapshot_of_early hleg h⟩
  case refine_1 =>
    change execTraceProcess leg s = _
    unfold execTraceProcess
    rw [hl]
    refine (if_neg (by simp [hfront])).trans ?_
    rw [hr]
  case refine_2 =>
    change execTraceProcess leg s = _
    unfold execTraceProcess
    rw [hl]
    dsimp only
    rw [hr]
    exact ite_self _
  case refine_3 =>
    rw [State.processTrace_of_plan hsurvey]
    exact ⟨rfl, fun hleg => congrArg (fun h : Hall => h.chain.input) (State.hall_setHall_self hleg)⟩
  case refine_4 =>
    change execSynchronisingReset leg s = _
    unfold execSynchronisingReset
    rw [hin]
    exact if_pos (by simp [hp])
  case refine_5 =>
    change execSynchronisingReset leg s = _
    unfold execSynchronisingReset
    rw [hin]
    exact if_neg (by simp [hp])
  case refine_6 =>
    change execChainTrace leg s = _
    unfold execChainTrace
    rw [hin]
    exact if_pos (by simp [hfront, hturn])
  case refine_7 =>
    change execRamanChannelStart leg s = _
    unfold execRamanChannelStart State.startRaman
    rw [hx]
  case refine_8 =>
    change execRamanChannelStart leg s = _
    unfold execRamanChannelStart State.startRaman
    rw [hx]
  case refine_9 =>
    change execRamanSpanSnapshot leg s = _
    unfold execRamanSpanSnapshot
    exact if_neg (by simp [hrun, hen, harr])
  case refine_10 =>
    change execRamanSpanSnapshot leg s = _
    unfold execRamanSpanSnapshot
    exact if_pos (by simp [hen])

end Sys2Proof.Machine

/-! SUPPORT. Words by their tags (R15, R16): the extension of a tag, and where a word falls. -/

namespace Sys2Proof.Machine

section
variable {s : State} {m n tag cur : Nat}

theorem exec_straitWordArrival (w : StraitWord) : exec (.straitWordArrival w) s = execStraitWordArrival w s := rfl

/-! ### Tags -/

theorem extendTag_bounds (h : tag < 65536) : m ≤ extendTag m tag ∧ extendTag m tag < m + 65536 ∧ extendTag m tag % 65536 = tag := by
  unfold extendTag
  omega

theorem extendTag_of_next (h : tag = m % 65536) : extendTag m tag = m := by
  unfold extendTag
  omega

theorem extendTag_ne_of_not_next (ht : tag < 65536) (h : tag ≠ m % 65536) : m ≠ extendTag m tag := by
  have hmod := (extendTag_bounds (m := m) ht).2.2
  omega

theorem extendNear_mod (h : tag < 65536) : extendNear cur tag % 65536 = tag := by
  obtain ⟨_, _, hmod⟩ := extendTag_bounds (m := cur) h
  unfold extendNear
  dsimp only
  split <;> omega

theorem extendNear_near (h : tag < 65536) (hwrap : 65536 ≤ extendTag cur tag) : extendNear cur tag < cur + 32768 ∧ cur ≤ extendNear cur tag + 32768 := by
  obtain ⟨hlo, hhi, _⟩ := extendTag_bounds (m := cur) h
  unfold extendNear
  dsimp only
  split <;> omega

/-! ### Coherent words -/

section
variable {leg : Fin 2} {t16 : Fin 65536} {xi xq yi yq : Fin 16384} {bad : Bool}

/-- A word that arrives in step, out of step, or first of its leg. -/
theorem coherent_arrives (hl : s.lanesLive leg.val = true) (hn : (s.hall leg.val).nextIndex = some m) :
    exec (.straitWordArrival (.coherent leg t16 xi xq yi yq bad)) s =
      let u := (if bad then s.report srcD2dLink 0 else s).placeCoherent leg.val (extendTag m t16.val) (code14 xi.val) (code14 xq.val) (code14 yi.val)
        (code14 yq.val) bad
      .next (if m == extendTag m t16.val then u else u.straitTag 0 leg.val) := by
  rw [exec_straitWordArrival]
  unfold execStraitWordArrival
  refine (if_neg (by simp [hl])).trans ?_
  rw [hn]

theorem placeCoherent_places {leg : Nat} {xi xq yi yq : Int} (hl : leg < 2) :
    ((s.placeCoherent leg n xi xq yi yq bad).hall leg).nextIndex = some (n + 1) ∧
      (s.placeCoherent leg n xi xq yi yq bad).hall (1 - leg) = s.hall (1 - leg) ∧ (s.placeCoherent leg n xi xq yi yq bad).cellar = s.cellar := by
  unfold State.placeCoherent
  exact ⟨congrArg Hall.nextIndex (State.hall_setHall_self hl), State.hall_setHall_ne (by omega), rfl⟩

end

/-! ### Direct words -/

/-- The word is out of step with the last one: four converter cycles on. -/
theorem direct_out_of_step {last : Option Nat} {n : Nat} (u v : State) : (∀ m, last = some m → m + 4 ≤ n) →
    (match last with | some m => if m + 4 == n then u else v | none => u) = if last.isSome = true ∧ last ≠ some (n - 4) then v else u := by
  intro hle
  cases last with
  | none => rfl
  | some m =>
    have hm := hle m rfl
    dsimp only
    by_cases he : m + 4 = n
    · rw [if_pos (by simpa using he), if_neg (by simp; omega)]
    · rw [if_neg (by simpa using he), if_pos (by simp; omega)]

end

/-- Settles O30: the live lanes first, then the tag against the word before. -/
theorem wordsArePlacedByTag : Obligations.WordsArePlacedByTag := by
  unfold Obligations.WordsArePlacedByTag
  refine ⟨⟨fun leg tag xi xq yi yq bad s m hl hn ht => ?_, fun leg tag xi xq yi yq bad s m hl hn ht => ?_, fun leg tag xi xq yi yq bad s hl hn => ?_,
    fun leg tag xi xq yi yq bad s hl => if_pos (by simp [hl]), fun leg n xi xq yi yq bad s hl => placeCoherent_places hl, fun m tag ht => extendTag_bounds ht⟩,
    fun leg tag st as_ bad s hl => if_pos (by simp [hl]), fun leg tag st as_ bad s hl => ?_, fun kind leg slot tag index s => ⟨fun hfirst => ?_,
    fun e m j hlast => ⟨fun hok => ?_, fun hlone hseq => ?_⟩⟩, fun cur tag ht => ⟨extendNear_mod ht, extendNear_near ht⟩⟩
  case refine_1 =>
    rw [coherent_arrives hl hn, extendTag_of_next ht]
    exact congrArg Host.Outcome.next (if_pos (beq_self_eq_true m))
  case refine_2 =>
    rw [coherent_arrives hl hn]
    exact congrArg Host.Outcome.next (if_neg (by simpa using extendTag_ne_of_not_next tag.isLt ht))
  case refine_3 =>
    rw [exec_straitWordArrival]
    unfold execStraitWordArrival
    refine (if_neg (by simp [hl])).trans ?_
    rw [hn]
  case refine_4 =>
    dsimp only
    rw [exec_straitWordArrival]
    unfold execStraitWordArrival
    refine (if_neg (by simp [hl])).trans ?_
    refine congrArg Host.Outcome.next (direct_out_of_step _ _ fun m hm => ?_)
    rw [hm]
    exact (extendTag_bounds tag.isLt).1
  case refine_5 =>
    rw [exec_straitWordArrival]
    unfold execStraitWordArrival
    dsimp only
    rw [hfirst]
    simp only [Bool.and_eq_true, decide_eq_true_eq]
  case refine_6 =>
    rw [exec_straitWordArrival]
    unfold execStraitWordArrival
    dsimp only
    rw [hlast]
    dsimp only
    rw [if_pos (by simpa using hok)]
    simp only [Bool.and_eq_true, decide_eq_true_eq]
  case refine_7 =>
    rw [exec_straitWordArrival]
    unfold execStraitWordArrival
    dsimp only
    rw [hlast]
    dsimp only
    rw [if_neg (by simp [hlone, hseq])]
    simp only [Bool.and_eq_true, decide_eq_true_eq]

end Sys2Proof.Machine

/-! SUPPORT. Gain changes (R85 to R88). -/

namespace Sys2Proof.Machine

section
variable {leg : Fin 2} {s : State} {r : GainRequest}

/-- The waiting request of a path: at its index, or moved past a gap. -/
theorem gainChange_takes {direct : Bool} (h : (if direct then (s.thrLeg leg.val).direct else (s.thrLeg leg.val).pending) = some r)
    (hn : s.gainIndex r.index = r.index) : exec (.gainChange leg direct) s =
      .next ((s.untilTime (s.timeOfIndex r.index)).setThrLeg leg.val
        (if direct then (s.thrLeg leg.val).takeDirect r r.index else (s.thrLeg leg.val).takeGain r r.index)) := by
  change execGainChange leg direct s = _
  unfold execGainChange
  dsimp only
  rw [h]
  dsimp only
  rw [if_neg (by simp [hn]), hn]

theorem gainChange_moves {direct : Bool} (h : (if direct then (s.thrLeg leg.val).direct else (s.thrLeg leg.val).pending) = some r)
    (hn : s.gainIndex r.index ≠ r.index) : exec (.gainChange leg direct) s =
      .next (s.setThrLeg leg.val (if direct then { s.thrLeg leg.val with direct := some { r with index := s.gainIndex r.index } }
        else { s.thrLeg leg.val with pending := some { r with index := s.gainIndex r.index } })) := by
  change execGainChange leg direct s = _
  unfold execGainChange
  dsimp only
  rw [h]
  exact if_pos (by simpa using hn)

/-- A request of the direct lanes alone leaves the coherent code. -/
theorem ThrLeg.takeDirect_of_codes {t : ThrLeg} {st as_ n : Nat} (hc : r.coh = none) (hd : r.dir = some (st, as_)) :
    t.takeDirect r n = { (if st ≠ t.st ∨ as_ ≠ t.as_ then t.setCodes n t.coh st as_ else t) with direct := none } := by
  unfold ThrLeg.takeDirect ThrLeg.takeCodes
  rw [hc, hd]
  simp

end

/-- Settles O31: both paths of a request, and the end of a ranging window. -/
theorem gainChangesAtItsIndex : Obligations.GainChangesAtItsIndex := by
  unfold Obligations.GainChangesAtItsIndex
  refine ⟨fun leg w s hfront => if_neg (by simp [hfront]), fun leg s r hp hn => gainChange_takes hp hn, fun leg s r hp hn => gainChange_moves hp hn,
    fun leg s r hd => ⟨fun hn => gainChange_moves hd hn, fun st as_ hn hc hr => ?_⟩, fun leg s hon hframes => ?_⟩
  · rw [gainChange_takes (direct := true) hd hn, if_pos rfl, ThrLeg.takeDirect_of_codes hc hr]
  · change execAutoGainDecision leg s = _
    unfold execAutoGainDecision
    refine (if_neg (by simp [hon]; omega)).trans ?_
    dsimp only
    generalize (if (fbit (s.thrLeg leg.val).cfg F.LEG_CFG.AUTO && s.measuring && !s.replaying leg.val && !s.calibrating && !s.gainWaiting leg.val) = true
      then (s.thrLeg leg.val).decide else none) = verdict
    cases verdict <;> rfl

end Sys2Proof.Machine

/-! SUPPORT. Retrims and their calibration gaps (R101 to R108). -/

namespace Sys2Proof.Machine

section
variable {s : State}

/-- The first boundary of a plan change at the next frame ends the quiet interval. -/
theorem State.gapBoundary_of_change {p : PendingPlan} {e : Nat} (hrun : s.probe.running = true) (hp : s.probe.pending = some p) (he : p.atFrame = some e)
    (hm : p.mode ≠ 0) (hnext : s.frameAhead s.now = s.globalFrame e) : s.gapBoundary s.now = some (s.nextE e) := by
  have hruns : s.frameRuns (s.globalFrame e) = true := by
    unfold State.frameRuns
    rw [hp]
    dsimp only
    rw [he]
    simp [hm]
  have hahead : s.boundaryAhead (s.globalFrame e) = s.nextE e := by
    unfold State.boundaryAhead State.globalFrame
    rw [hp]
    dsimp only
    rw [he]
    simp [hm]
  unfold State.gapBoundary
  rw [hnext]
  dsimp only
  rw [hahead]
  exact if_pos (by rw [hrun, hruns]; rfl)

/-- Of twelve lanes, the element of lane `k`. -/
theorem getElem?_lanes {α : Type} {f : Nat → α} {k : Nat} (hk : k < 12) : ((List.range 12).map f)[k]? = some (f k) := by
  simp [hk]

end

/-- Settles O32: the demand, the deferral, the gap's start and its end. -/
theorem retrimsRunInTheirGap : Obligations.RetrimsRunInTheirGap := by
  unfold Obligations.RetrimsRunInTheirGap
  refine ⟨⟨fun w s hreq hfront => ?_, fun w s hreq => ?_, fun t => fbit_fsetB (by decide) rfl, fun s h => ?_, fun s h => ?_, fun s t ht hmay => ?_, fun s hmay => ?_,
    fun s p e hrun hp he hm hnext => State.gapBoundary_of_change hrun hp he hm hnext⟩, fun moves s g hg => ?_⟩
  case refine_1 =>
    exact congrArg Host.Outcome.next ((if_pos hfront).trans (if_pos hreq))
  case refine_2 =>
    have hnone : s.requestTrim w = s := if_neg (by simp [hreq])
    exact congrArg Host.Outcome.next (by rw [hnone, ite_self])
  case refine_3 =>
    exact congrArg Host.Outcome.next (if_pos h)
  case refine_4 =>
    exact congrArg Host.Outcome.next (if_neg h)
  case refine_5 =>
    change execCalibrationGapStart s = _
    unfold execCalibrationGapStart
    rw [ht]
    exact if_neg (by simp [hmay])
  case refine_6 =>
    change execCalibrationGapStart s = _
    unfold execCalibrationGapStart
    cases ht : s.gapBoundary s.now with
    | none => rfl
    | some t => exact if_pos (by simp [hmay t ht])
  case refine_7 =>
    generalize hrun : exec (.calibrationGapEnd moves) s = res
    change execCalibrationGapEnd moves s = res at hrun
    unfold execCalibrationGapEnd at hrun
    rw [hg] at hrun
    dsimp only at hrun
    subst hrun
    refine ⟨_, _, rfl, ?_⟩
    rw [State.emitAt_eq]
    refine ⟨rfl, rfl, rfl, rfl, fun k hk => ⟨?_, ?_, ?_⟩, rfl, rfl, rfl, rfl, rfl⟩
    · refine (vget_fillVec 12 hk).trans ((if_pos hk).trans ?_)
      unfold wat
      rw [List.getElem?_map, getElem?_lanes hk]
      rfl
    · refine (vget_ofList_map hk).trans ?_
      rw [getElem?_lanes hk]
      rfl
    · rw [List.mem_filter, getElem?_lanes hk, getElem?_lanes hk]
      simp only [List.mem_range, hk, true_and, Option.map_some, Option.getD_some, Bool.or_eq_true]
      exact Iff.rfl

end Sys2Proof.Machine

/-! SUPPORT. Self-calibration and the housekeeping sweep (R92, R93, R95 to R98). -/

namespace Sys2Proof.Machine

section
variable {s : State}

/-- A CALIBRATE that was told to abort ends; any other state goes on. -/
theorem next_of_abort (o : Option State) (t : State) : (match o with | some u => .next u | none => .next t : Res) = .next (o.getD t) := by
  cases o <;> rfl

/-- The results after one more of a sweep: the last one makes every entry of the sweep valid. -/
def sweepResults (res : Vector Word 24) (m : Nat) (w : Word) (last : Bool) : Vector Word 24 :=
  if last then ⟨((vset res m w).toArray.mapIdx (fun i w => if i ≤ m then fset w F.HK_RES.VALID 1 else w)), by simp⟩ else vset res m w

theorem vget_sweepResults {res : Vector Word 24} {m i : Nat} {w : Word} {last : Bool} (hi : i < 24) :
    vget (sweepResults res m w last) i 0 =
      (let w := if i = m then w else vget res i 0; if last && decide (i ≤ m) then fset w F.HK_RES.VALID 1 else w) := by
  have hset : vget (vset res m w) i 0 = if i = m then w else vget res i 0 := by
    split
    · next h => subst h; exact vget_vset_self hi
    · next h => exact vget_vset_ne (fun h' => h h'.symm)
  rw [← hset]
  cases last with
  | false => rfl
  | true => simp [sweepResults, vget, hi]

/-- The sequencer after one conversion. -/
def Housekeeping.converted (h : Housekeeping) (res : Word) (opened last : Bool) : Housekeeping :=
  let units := h.units + entryUnits (vget h.ent h.next 0)
  { h with
    res := sweepResults h.res h.next res last
    open_ := if opened then h.open_ ||| w32 (bit h.next) else h.open_
    units := if last then 0 else units
    sweep := if last then fset h.sweep F.HK_SWEEP.PERIOD units else h.sweep
    count := if last then (h.count + 1) % 65536 else h.count
    next := if last then 0 else h.next + 1 }

end

/-- Settles O33: the two self-calibrations, CALIBRATE after them, and a conversion of the sweep. -/
theorem selfCalibrationAndSweep : Obligations.SelfCalibrationAndSweep := by
  unfold Obligations.SelfCalibrationAndSweep
  refine ⟨⟨fun factors fails s u hu hdone => ?_, fun s u hu hadc hhk => ?_, fun taps s hcal hhk habort => ?_⟩, fun codes check s hfront hen hnext hlen => ?_⟩
  case refine_1 =>
    change execAdcSelfCalibrationDone factors fails s = _
    unfold execAdcSelfCalibrationDone
    rw [hu]
    exact (if_neg (by simp [hdone])).trans (next_of_abort _ _)
  case refine_2 =>
    change execHkSelfCalibrationDone s = _
    unfold execHkSelfCalibrationDone
    rw [hu]
    exact (if_neg (by simp [hadc, hhk])).trans (next_of_abort _ _)
  case refine_3 =>
    change execCalibrateDone taps s = _
    unfold execCalibrateDone
    refine (if_neg (by simp [hcal, hhk])).trans ?_
    rw [habort]
  case refine_4 =>
    intro m ent opened code last res
    refine ⟨s.thr.hk.converted res opened last, rfl, rfl, rfl, rfl, fun i hi => vget_sweepResults hi, ?_⟩
    change execHkEntryConversion codes check s = _
    unfold execHkEntryConversion
    refine (if_neg (by simp [hfront, hen, hlen])).trans ?_
    by_cases hlast : fget s.thr.hk.cfg F.HK_CFG.COUNT ≤ s.thr.hk.next
    · have htrue : last = true := decide_eq_true hlast
      rw [htrue]
      simp only [if_pos hlast, decide_eq_true hlast]
      rfl
    · have hfalse : last = false := decide_eq_false hlast
      rw [hfalse]
      simp only [if_neg hlast, decide_eq_false hlast]
      rfl

end Sys2Proof.Machine

/-! SUPPORT. Setpoints, fades and judging of the drive channels (R68 to R71): an equation per case of each operation. -/

namespace Sys2Proof.Machine

/-! ### Rounding half away from zero, and the fade law (R68) -/

/-- The rounded quotient is within half of the divisor. -/
theorem divHalfAway_near {p : Int} {q : Nat} (hq : 0 < q) : 2 * (q * divHalfAway p q - p).natAbs ≤ q := by
  have hsplit : ∀ x : Int, (2 * (q : Int)) * (x / (2 * q)) + x % (2 * q) = x := fun x => Int.mul_ediv_add_emod x _
  have hlo : ∀ x : Int, 0 ≤ x % (2 * q) := fun x => Int.emod_nonneg x (by omega)
  have hhi : ∀ x : Int, x % (2 * q) < 2 * q := fun x => Int.emod_lt_of_pos x (by omega)
  unfold divHalfAway
  rw [if_neg (by omega)]
  split
  · have hs := hsplit (2 * p + q)
    have hl := hlo (2 * p + q)
    have hh := hhi (2 * p + q)
    rw [mul_assoc] at hs
    generalize (2 * p + q) / (2 * (q : Int)) = d at *
    generalize (q : Int) * d = m at *
    omega
  · have hs := hsplit (2 * -p + q)
    have hl := hlo (2 * -p + q)
    have hh := hhi (2 * -p + q)
    rw [mul_assoc] at hs
    rw [mul_neg]
    generalize (2 * -p + q) / (2 * (q : Int)) = d at *
    generalize (q : Int) * d = m at *
    omega

/-- A start of a fade plus its rounded share of the move: at least 0, as the share of the move down is at most the start. -/
theorem add_divHalfAway_nonneg {a p : Int} {q : Nat} (hq : 0 < q) (h : 0 ≤ q * a + p) : 0 ≤ a + divHalfAway p q := by
  have hnear := divHalfAway_near (p := p) hq
  by_contra hneg
  have hle : a + divHalfAway p q ≤ -1 := by omega
  have hmul : (q : Int) * (a + divHalfAway p q) ≤ q * -1 := mul_le_mul_of_nonneg_left hle (by omega)
  rw [mul_add] at hmul
  generalize (q : Int) * divHalfAway p q = m at *
  generalize (q : Int) * a = k at *
  omega

/-- An output of the law within half a code, given as a share `p / q` of the move. -/
theorem fade_near {a p : Int} {q : Nat} (hq : 0 < q) (h : 0 ≤ q * a + p) :
    2 * ((q * ((a + divHalfAway p q).toNat : Int)) - (q * a + p)).natAbs ≤ q := by
  have hnear := divHalfAway_near (p := p) hq
  rw [Int.toNat_of_nonneg (add_divHalfAway_nonneg hq h), mul_add]
  generalize (q : Int) * divHalfAway p q = m at *
  generalize (q : Int) * a = k at *
  omega

section
variable {f : Fade} {t : Nat}

/-- A share `w` of `q` of the move, from 0 to 1, leaves the output above 0. -/
theorem Fade.share_nonneg {w q : Int} (hw : 0 ≤ w) (hq : w ≤ q) : 0 ≤ q * (f.from_ : Int) + ((f.to_ : Int) - f.from_) * w := by
  have hdown : 0 ≤ (q - w) * (f.from_ : Int) := mul_nonneg (by omega) (by omega)
  have hup : 0 ≤ (f.to_ : Int) * w := mul_nonneg (by omega) hw
  linarith

theorem Fade.out_linear (hT : 0 < f.total) (ht : t ≤ f.total) :
    2 * ((f.total * f.out false t : Nat) - (f.total * f.from_ + ((f.to_ : Int) - f.from_) * t) : Int).natAbs ≤ f.total := by
  have hout : f.out false t = ((f.from_ : Int) + divHalfAway (((f.to_ : Int) - f.from_) * t) f.total).toNat := by
    unfold Fade.out fadeMove
    rw [Nat.min_eq_left ht, if_neg (by omega)]
    rfl
  rw [hout, Nat.cast_mul]
  exact fade_near hT (Fade.share_nonneg (by omega) (by omega))

theorem Fade.out_sCurve (hT : 0 < f.total) (ht : t ≤ f.total) :
    2 * ((f.total ^ 3 * f.out true t : Nat) - (f.total ^ 3 * f.from_ + ((f.to_ : Int) - f.from_) * (3 * t ^ 2 * f.total - 2 * t ^ 3)) : Int).natAbs ≤
      f.total ^ 3 := by
  have hout : f.out true t = ((f.from_ : Int) + divHalfAway (((f.to_ : Int) - f.from_) * (3 * t ^ 2 * f.total - 2 * t ^ 3)) (f.total ^ 3)).toNat := by
    unfold Fade.out fadeMove
    rw [Nat.min_eq_left ht, if_neg (by omega), if_pos rfl, show f.total * f.total * f.total = f.total ^ 3 by ring,
      show (3 * (t : Int) * t * f.total - 2 * t * t * t) = 3 * t ^ 2 * f.total - 2 * t ^ 3 by ring]
  obtain ⟨d, hd⟩ := Nat.exists_eq_add_of_le ht
  have hTd : (f.total : Int) = t + d := by rw [hd]; push_cast; ring
  have hlo : (0 : Int) ≤ 3 * t ^ 2 * f.total - 2 * t ^ 3 := by
    have hsum : (3 * t ^ 2 * f.total - 2 * t ^ 3 : Int) = t ^ 3 + 3 * t ^ 2 * d := by rw [hTd]; ring
    rw [hsum]; positivity
  have hhi : (3 * t ^ 2 * f.total - 2 * t ^ 3 : Int) ≤ ((f.total ^ 3 : Nat) : Int) := by
    have hsum : ((f.total ^ 3 : Nat) : Int) = (3 * t ^ 2 * f.total - 2 * t ^ 3) + (3 * t * d ^ 2 + d ^ 3) := by push_cast; rw [hTd]; ring
    have hrest : (0 : Int) ≤ 3 * t * d ^ 2 + d ^ 3 := by positivity
    omega
  have h := fade_near (a := f.from_) (pow_pos hT 3) (Fade.share_nonneg (f := f) hlo hhi)
  rw [hout, Nat.cast_mul]
  push_cast at h ⊢
  exact h

end

/-! ### One channel -/

section
variable {c old : DriveChannel} {w : Word}

theorem DriveChannel.out_withOut {x : Nat} {fd : Option Fade} (h : x < 65536) : (c.withOut x fd).out = x :=
  ((fget_fsetB_ne (by decide) (by decide)).trans (fget_fset (by decide))).trans (Nat.mod_eq_of_lt h)

theorem DriveChannel.withOut_same {x : Nat} {fd : Option Fade} : (c.withOut x fd).set = c.set ∧ (c.withOut x fd).cfg = c.cfg := by
  unfold DriveChannel.withOut
  exact ⟨rfl, rfl⟩

theorem DriveChannel.fading_withOut (x : Nat) (fd : Option Fade) : fbit (c.withOut x fd).stat F.HD_STAT.FADING = fd.isSome :=
  fbit_fsetB (by decide) rfl

theorem DriveChannel.out_lt : c.out < 65536 := fget_lt

theorem setpoint_lt : fget w F.HD_SET.SETPOINT < 65536 := fget_lt

/-- The channel with the SETPOINT of a word. -/
def DriveChannel.aimed (c : DriveChannel) (w : Word) : DriveChannel := { c with set := fset c.set F.HD_SET.SETPOINT (fget w F.HD_SET.SETPOINT) }

theorem DriveChannel.setpoint_aimed : fget (c.aimed w).set F.HD_SET.SETPOINT = fget w F.HD_SET.SETPOINT :=
  (fget_fset (by decide)).trans (Nat.mod_eq_of_lt setpoint_lt)

theorem DriveChannel.writeSet_of_held (h : c.drives = false) : c.writeSet w = c.aimed w := if_pos ((Bool.not_eq_true' _).mpr h)

theorem DriveChannel.writeSet_of_step (h : c.drives = true) (hw : nbit w.toNat 31 = true) :
    c.writeSet w = { (c.aimed w).withOut (fget (c.aimed w).set F.HD_SET.SETPOINT) none with stepHold := 100, openRun := 0, shortRun := 0 } :=
  (if_neg (fun hn => Bool.noConfusion (h.symm.trans ((Bool.not_eq_true' _).mp hn)))).trans (if_pos hw)

theorem DriveChannel.writeSet_of_fade (h : c.drives = true) (hw : nbit w.toNat 31 = false) : c.writeSet w = (c.aimed w).startFade c.out :=
  (if_neg (fun hn => Bool.noConfusion (h.symm.trans ((Bool.not_eq_true' _).mp hn)))).trans (if_neg (by simp [hw]))

theorem DriveChannel.startFade_of_time {x : Nat} (h : fget c.cfg F.HD_CFG.FADE_MS ≠ 0) :
    c.startFade x = c.withOut x (some ⟨x, fget c.set F.HD_SET.SETPOINT, 0, fget c.cfg F.HD_CFG.FADE_MS * 1000⟩) := by
  have htotal : fget c.cfg F.HD_CFG.FADE_MS * 1000 ≠ 0 := by omega
  unfold DriveChannel.startFade
  dsimp only
  rw [if_neg htotal]

theorem DriveChannel.startFade_same {x : Nat} : (c.startFade x).set = c.set ∧ (c.startFade x).cfg = c.cfg := by
  unfold DriveChannel.startFade
  dsimp only
  split <;> exact withOut_same

/-- A SET write takes SETPOINT and leaves CFG. -/
theorem DriveChannel.writeSet_set : fget (c.writeSet w).set F.HD_SET.SETPOINT = fget w F.HD_SET.SETPOINT ∧ (c.writeSet w).cfg = c.cfg := by
  cases hd : c.drives with
  | false => rw [writeSet_of_held hd]; exact ⟨setpoint_aimed, rfl⟩
  | true =>
    cases hw : nbit w.toNat 31 with
    | false =>
      rw [writeSet_of_fade hd hw, startFade_same.1, startFade_same.2]
      exact ⟨setpoint_aimed, rfl⟩
    | true => rw [writeSet_of_step hd hw]; exact ⟨setpoint_aimed, rfl⟩

/-- A fade begins at the present output. -/
theorem DriveChannel.writeSet_out (hw : nbit w.toNat 31 = false) (hms : fget c.cfg F.HD_CFG.FADE_MS ≠ 0) : (c.writeSet w).out = c.out := by
  cases hd : c.drives with
  | false => rw [writeSet_of_held hd]; rfl
  | true => rw [writeSet_of_fade hd hw, startFade_of_time (c := c.aimed w) hms, out_withOut out_lt]

/-- A STEP write of a channel that drives acts at once. -/
theorem DriveChannel.writeSet_step (hd : c.drives = true) (hw : nbit w.toNat 31 = true) :
    (c.writeSet w).out = fget w F.HD_SET.SETPOINT ∧ (c.writeSet w).fade = none ∧ (c.writeSet w).stepHold = 100 ∧
      fbit (c.writeSet w).stat F.HD_STAT.FADING = false := by
  rw [writeSet_of_step hd hw, setpoint_aimed]
  exact ⟨out_withOut (c := c.aimed w) (fd := none) setpoint_lt, rfl, rfl, fading_withOut (c := c.aimed w) _ none⟩

theorem DriveChannel.enableEdge_of_rise (ho : fbit old.cfg F.HD_CFG.ENABLE = false) (hc : fbit c.cfg F.HD_CFG.ENABLE = true) (hold : Bool) :
    old.enableEdge c hold =
      if hold then c.cut else { c with stat := fset c.stat F.HD_STAT.CUT 0, openRun := 0, shortRun := 0 }.startFade 0 :=
  (if_neg (by simp [ho])).trans (if_pos (by simp [ho, hc]))

theorem DriveChannel.enableEdge_of_fall (ho : fbit old.cfg F.HD_CFG.ENABLE = true) (hc : fbit c.cfg F.HD_CFG.ENABLE = false) (hold : Bool) :
    old.enableEdge c hold = { c.zero with stat := fsetB c.zero.stat F.HD_STAT.CUT hold, openRun := 0, shortRun := 0 } :=
  if_pos (by simp [ho, hc])

/-! ### Judging (R71) -/

theorem DriveChannel.judge_of_run {q : Nat} (h : q ≤ c.openRun ∨ q ≤ c.shortRun) : c.judge q =
    ({ c.cut with stat :=
        let st := if q ≤ c.openRun then fset c.cut.stat F.HD_STAT.OPEN 1 else c.cut.stat
        if q ≤ c.shortRun then fset st F.HD_STAT.SHORT 1 else st }, decide (q ≤ c.openRun), decide (q ≤ c.shortRun)) := by
  unfold DriveChannel.judge
  rw [if_pos (by simpa using h)]
  simp only [decide_eq_true_eq]

theorem DriveChannel.judge_of_none {q : Nat} (ho : c.openRun < q) (hs : c.shortRun < q) : c.judge q = (c, false, false) :=
  if_neg (by simp; omega)

/-- OPEN and SHORT set beside the other bits of a status word. -/
def markRuns (w : Word) (o h : Prop) [Decidable o] [Decidable h] : Word :=
  let st := if o then fset w F.HD_STAT.OPEN 1 else w
  if h then fset st F.HD_STAT.SHORT 1 else st

theorem markRuns_fields (w : Word) (o h : Prop) [Decidable o] [Decidable h] :
    fget (markRuns w o h) F.HD_STAT.OUT = fget w F.HD_STAT.OUT ∧ fbit (markRuns w o h) F.HD_STAT.CUT = fbit w F.HD_STAT.CUT ∧
      (o → fbit (markRuns w o h) F.HD_STAT.OPEN = true) ∧ (h → fbit (markRuns w o h) F.HD_STAT.SHORT = true) := by
  unfold markRuns
  by_cases ho : o <;> by_cases hh : h <;>
    simp [ho, hh, fget_fset_ne, fbit_fset_ne, fbit_fset, F.HD_STAT.OUT, F.HD_STAT.CUT, F.HD_STAT.OPEN, F.HD_STAT.SHORT]

theorem DriveChannel.judge_cuts {q : Nat} (h : q ≤ c.openRun ∨ q ≤ c.shortRun) :
    (c.judge q).1.out = 0 ∧ (c.judge q).1.fade = none ∧ fbit (c.judge q).1.stat F.HD_STAT.CUT = true ∧ (c.judge q).1.cfg = c.cfg ∧ (c.judge q).1.set = c.set ∧
      (q ≤ c.openRun → fbit (c.judge q).1.stat F.HD_STAT.OPEN = true ∧ (c.judge q).2.1 = true) ∧
      (q ≤ c.shortRun → fbit (c.judge q).1.stat F.HD_STAT.SHORT = true ∧ (c.judge q).2.2 = true) := by
  obtain ⟨w, hcut, hout, hbit⟩ := c.cut_eq
  obtain ⟨hmout, hmcut, hmopen, hmshort⟩ := markRuns_fields w (q ≤ c.openRun) (q ≤ c.shortRun)
  rw [judge_of_run h, hcut]
  exact ⟨hmout.trans hout, rfl, hmcut.trans hbit, rfl, rfl, fun ho => ⟨hmopen ho, decide_eq_true ho⟩, fun hs => ⟨hmshort hs, decide_eq_true hs⟩⟩

end

end Sys2Proof.Machine

/-! SUPPORT. The twelve drive channels of the Hearth: one channel's write leaves the others and the rest of the block. -/

namespace Sys2Proof.Machine

section
variable {h h' : Hearth} {ch : Nat} {c : DriveChannel}

theorem Hearth.drive_setDrive_self (hc : ch < 12) : (h.setDrive ch c).drive ch = c := by
  unfold Hearth.drive Hearth.setDrive
  by_cases h8 : ch < 8
  · rw [if_pos h8, if_pos h8]; exact vget_vset_self h8
  · rw [if_neg h8, if_neg h8]; exact vget_vset_self (by omega)

theorem Hearth.drive_setDrive_ne {j : Nat} (hne : j ≠ ch) : (h.setDrive ch c).drive j = h.drive j := by
  unfold Hearth.drive Hearth.setDrive
  by_cases h8 : ch < 8 <;> by_cases hj : j < 8
  · rw [if_pos h8, if_pos hj, if_pos hj]; exact vget_vset_ne hne.symm
  · rw [if_pos h8, if_neg hj, if_neg hj]
  · rw [if_neg h8, if_pos hj, if_pos hj]
  · rw [if_neg h8, if_neg hj, if_neg hj]; exact vget_vset_ne (by omega)

/-- Two Hearths that differ in their drive channels alone. -/
def Hearth.OnlyDrives (h h' : Hearth) : Prop := h' = { h with hd := h'.hd, hs := h'.hs }

theorem Hearth.OnlyDrives.refl : Hearth.OnlyDrives h h := rfl

theorem Hearth.OnlyDrives.setDrive (hk : Hearth.OnlyDrives h h') : Hearth.OnlyDrives h (h'.setDrive ch c) := by
  unfold Hearth.OnlyDrives at *
  rw [hk]
  unfold Hearth.setDrive
  split <;> rfl

theorem Hearth.OnlyDrives.fields (hk : Hearth.OnlyDrives h h') :
    h'.gate = h.gate ∧ h'.tec = h.tec ∧ h'.chain = h.chain ∧ h'.stat = h.stat ∧ h'.waits = h.waits := by
  rw [hk]
  exact ⟨rfl, rfl, rfl, rfl, rfl⟩

theorem Hearth.OnlyDrives.foldl_writeSet (l : List SetWait) (hk : Hearth.OnlyDrives h h') :
    Hearth.OnlyDrives h (l.foldl (fun t x => t.writeSet x.ch x.word) h') := by
  induction l generalizing h' with
  | nil => exact hk
  | cons x l ih => exact ih hk.setDrive

/-! ### The update of 1 µs -/

/-- One channel after its update. -/
def DriveChannel.updated (c : DriveChannel) (hd : Bool) (m : Option Sensed) : DriveChannel :=
  let c1 := c.fadeStep.sample hd m
  if !hd && fbit c1.cfg F.HD_CFG.PWM then c1 else (c1.judge 64).1

theorem Hearth.updateDrive_eq (m : Option Sensed) : (h.updateDrive ch m).1 = h.setDrive ch ((h.drive ch).updated (decide (ch < 8)) m) := by
  unfold Hearth.updateDrive DriveChannel.updated
  dsimp only
  split <;> rfl

/-- The updates of several channels, one after the other. -/
def Hearth.updateAll (m : List Sensed) (acc : Hearth × List (Nat × Nat)) (l : List Nat) : Hearth × List (Nat × Nat) :=
  l.foldl (fun acc ch => ((acc.1.updateDrive ch m[ch]?).1, acc.2 ++ (acc.1.updateDrive ch m[ch]?).2)) acc

theorem Hearth.updateAll_onlyDrives (m : List Sensed) (l : List Nat) {acc : Hearth × List (Nat × Nat)} (hk : Hearth.OnlyDrives h acc.1) :
    Hearth.OnlyDrives h (Hearth.updateAll m acc l).1 := by
  induction l generalizing acc with
  | nil => exact hk
  | cons a l ih =>
    refine ih ?_
    rw [Hearth.updateDrive_eq]
    exact hk.setDrive

/-- An update of the other channels leaves a channel. -/
theorem Hearth.updateAll_drive_of_not_mem (m : List Sensed) {l : List Nat} {acc : Hearth × List (Nat × Nat)} (hl : ch ∉ l) :
    (Hearth.updateAll m acc l).1.drive ch = acc.1.drive ch := by
  induction l generalizing acc with
  | nil => rfl
  | cons a l ih =>
    refine (ih (fun hm => hl (List.mem_cons_of_mem a hm))).trans ?_
    dsimp only
    rw [Hearth.updateDrive_eq]
    exact Hearth.drive_setDrive_ne (fun he => hl (he ▸ List.mem_cons_self))

theorem Hearth.updateAll_drive (m : List Sensed) {l : List Nat} {acc : Hearth × List (Nat × Nat)} (hl : l.Nodup) (hm : ch ∈ l) (hc : ch < 12) :
    (Hearth.updateAll m acc l).1.drive ch = (acc.1.updateDrive ch m[ch]?).1.drive ch := by
  induction l generalizing acc with
  | nil => exact absurd hm List.not_mem_nil
  | cons a l ih =>
    obtain ⟨ha, hl⟩ := List.nodup_cons.mp hl
    by_cases he : ch = a
    · subst he
      exact Hearth.updateAll_drive_of_not_mem m ha
    · have hother : (acc.1.updateDrive a m[a]?).1.drive ch = acc.1.drive ch := by
        rw [Hearth.updateDrive_eq]
        exact Hearth.drive_setDrive_ne he
      have hself : ∀ h : Hearth, (h.updateDrive ch m[ch]?).1.drive ch = (h.drive ch).updated (decide (ch < 8)) m[ch]? := fun h => by
        rw [Hearth.updateDrive_eq, Hearth.drive_setDrive_self hc]
      refine (ih hl ((List.mem_cons.mp hm).resolve_left he)).trans ?_
      rw [hself, hself, hother]

end

section
variable {s : State} {v : BitVec 16}

/-! ### The two setpoint words (R70) -/

theorem setpoint_of_write : fget (v.setWidth 32) F.HD_SET.SETPOINT = v.toNat := by
  have hv := v.isLt
  simp [fget, F.HD_SET.SETPOINT]
  omega

theorem step_of_write : nbit (v.setWidth 32).toNat 31 = false := by
  rw [nbit_toNat]
  simp

theorem setpoint_of_step : fget (v.setWidth 32 ||| 0x80000000) F.HD_SET.SETPOINT = v.toNat := by
  have hv := v.isLt
  have hor := Nat.or_mod_two_pow (a := v.toNat) (b := 2147483648) (n := 16)
  simp only [fget, F.HD_SET.SETPOINT, BitVec.toNat_or, BitVec.toNat_setWidth, Nat.pow_zero, Nat.div_one]
  rw [Nat.mod_eq_of_lt (show v.toNat < 2 ^ 32 by omega)]
  refine hor.trans ?_
  rw [Nat.mod_eq_of_lt hv]
  exact Nat.or_zero v.toNat

theorem step_of_step : nbit (v.setWidth 32 ||| 0x80000000).toNat 31 = true := by
  rw [nbit_toNat]
  simp

/-! ### Setpoints that wait (R22, R70) -/

theorem State.setpoint_at_once {ch : Nat} {w : Word} (h : s.setpointsWait = false) :
    s.setpoint ch w = { s with hearth := s.hearth.setDrive ch ((s.hearth.drive ch).writeSet w) } := if_neg (by simp [h])

theorem State.setpoint_waits {ch : Nat} {w : Word} (h : s.setpointsWait = true) :
    s.setpoint ch w = { s with hearth := { s.hearth with waits := s.hearth.waits ++ [⟨s.setpointFrame, ch, w⟩] } } := if_pos h

theorem State.setpointsDue_eq : ∃ h : Hearth, s.setpointsDue = { s with hearth := h } ∧
    Hearth.OnlyDrives { s.hearth with waits := s.hearth.waits.filter (fun x => !decide (s.boundaryAhead x.frame ≤ s.now)) } h :=
  ⟨_, rfl, Hearth.OnlyDrives.refl.foldl_writeSet _⟩

theorem State.setpointsDue_waits : s.setpointsDue.hearth.waits = s.hearth.waits.filter (fun x => decide (s.now < s.boundaryAhead x.frame)) := by
  obtain ⟨h, hdue, hk⟩ := State.setpointsDue_eq (s := s)
  obtain ⟨-, -, -, -, hwaits⟩ := hk.fields
  rw [hdue]
  refine hwaits.trans (List.filter_congr fun x _ => ?_)
  rw [← decide_not]
  exact decide_eq_decide.mpr Nat.not_le

theorem State.setpointsDue_of_one {x : SetWait} (hx : s.hearth.waits.filter (fun y => decide (s.boundaryAhead y.frame ≤ s.now)) = [x]) :
    s.setpointsDue.hearth = Hearth.writeSet
      { s.hearth with waits := s.hearth.waits.filter (fun y => !decide (s.boundaryAhead y.frame ≤ s.now)) } x.ch x.word := by
  unfold State.setpointsDue
  dsimp only
  rw [hx]
  rfl

end

/-- Settles O34: setpoints at once and at their frame, enabling and disabling, the loop of 1 µs, the fade law, and judging. -/
theorem currentsFadeAndAreJudged : Obligations.CurrentsFadeAndAreJudged := by
  unfold Obligations.CurrentsFadeAndAreJudged
  refine ⟨⟨fun ch v s hp hw => ?_, fun ch v s hp hw => ⟨?_, ?_⟩, fun s => ⟨State.setpointsDue_waits, fun x hx hch => ?_⟩, fun ch v s hp hw => ?_,
    fun ch w s hp => if_neg (by simp [hp]), fun ch w s hch hr => if_pos (by simp [hch, hr]), fun c w hd hw hms => ?_, fun old c ho hc hms => ?_,
    fun old c hold ho hc => ?_, fun m s hp => ?_, fun f t _ _ hT ht => ⟨Fade.out_linear hT ht, Fade.out_sCurve hT ht⟩, fun c f hf hto ht => ?_⟩,
    fun c q h => DriveChannel.judge_cuts h, fun c q ho hs => DriveChannel.judge_of_none ho hs, fun n m s => ?_, fun n m s h => ?_⟩
  case refine_1 =>
    obtain ⟨hset, hcfg⟩ := DriveChannel.writeSet_set (c := s.hearth.drive ch.val) (w := v.setWidth 32)
    refine ⟨(s.hearth.drive ch.val).writeSet (v.setWidth 32), ?_, hset.trans setpoint_of_write, hcfg, fun hms => ?_, fun hd => ?_⟩
    · exact (if_neg (by simp [hp])).trans (congrArg Host.Outcome.next (State.setpoint_at_once hw))
    · rw [hcfg] at hms
      exact DriveChannel.writeSet_out step_of_write hms
    · rw [DriveChannel.writeSet_of_held hd]
      rfl
  case refine_2 =>
    exact (if_neg (by simp [hp])).trans (congrArg Host.Outcome.next (State.setpoint_waits hw))
  case refine_3 =>
    exact (if_neg (by simp [hp])).trans (congrArg Host.Outcome.next (State.setpoint_waits hw))
  case refine_4 =>
    rw [State.setpointsDue_of_one hx]
    exact ⟨Hearth.drive_setDrive_self hch, fun ch _ hne => Hearth.drive_setDrive_ne hne⟩
  case refine_5 =>
    obtain ⟨hset, hcfg⟩ := DriveChannel.writeSet_set (c := s.hearth.drive ch.val) (w := v.setWidth 32 ||| 0x80000000)
    refine ⟨(s.hearth.drive ch.val).writeSet (v.setWidth 32 ||| 0x80000000), ?_, hset.trans setpoint_of_step, hcfg, fun hd => ?_, fun hd => ?_⟩
    · exact (if_neg (by simp [hp])).trans (congrArg Host.Outcome.next (State.setpoint_at_once hw))
    · obtain ⟨hout, hfade, hhold, hbit⟩ := DriveChannel.writeSet_step hd (step_of_step (v := v))
      exact ⟨hout.trans setpoint_of_step, hfade, hhold, hbit⟩
    · rw [DriveChannel.writeSet_of_held hd]
      rfl
  case refine_6 =>
    rw [DriveChannel.writeSet_of_fade hd hw, DriveChannel.startFade_of_time (c := c.aimed w) hms, DriveChannel.setpoint_aimed]
    exact ⟨rfl, DriveChannel.fading_withOut ..⟩
  case refine_7 =>
    obtain ⟨hout, hfade, hdrives, -⟩ := c.cut_fields
    rw [DriveChannel.enableEdge_of_rise ho hc, DriveChannel.enableEdge_of_rise ho hc, if_neg Bool.false_ne_true, if_pos rfl,
      DriveChannel.startFade_of_time (x := 0) (show fget ({ c with stat := _, openRun := 0, shortRun := 0 } : DriveChannel).cfg F.HD_CFG.FADE_MS ≠ 0 from hms)]
    exact ⟨DriveChannel.out_withOut (by decide), rfl, hout, hfade, hdrives⟩
  case refine_8 =>
    obtain ⟨w, hzero, hout⟩ := c.zero_eq
    rw [DriveChannel.enableEdge_of_fall ho hc, hzero]
    exact ⟨(fget_fsetB_ne (by decide) (by decide)).trans hout, rfl, rfl, fbit_fsetB (by decide) rfl⟩
  case refine_9 =>
    obtain ⟨h, hdue, hk⟩ := State.setpointsDue_eq (s := s)
    refine ⟨(Hearth.updateAll m (s.setpointsDue.hearth, []) (List.range 12)).1, _, (if_neg (by simp [hp])).trans rfl,
      fun ch hch => Hearth.updateAll_drive m List.nodup_range (List.mem_range.mpr hch) hch, ?_⟩
    have hall := Hearth.updateAll_onlyDrives m (List.range 12) (acc := (s.setpointsDue.hearth, [])) (by rw [hdue]; exact hk)
    obtain ⟨hgate, htec, hchain, hstat, -⟩ := hall.fields
    exact ⟨hgate, htec, hchain, hstat⟩
  case refine_10 =>
    unfold DriveChannel.fadeStep
    rw [hf]
    dsimp only
    rw [if_pos ht]
    exact ⟨DriveChannel.out_withOut hto, rfl⟩
  case refine_11 =>
    intro c hp hd hpwm hdet hon
    have hopen : c.meetsOpen false m = decide (2 * m.current < c.out) := by simp [DriveChannel.meetsOpen]
    change execHsPwmOnWindow n m s = _
    unfold execHsPwmOnWindow
    refine (if_neg (by simp [c] at *; simp [hp, hd, hpwm, hdet]; omega)).trans ?_
    rw [hopen]
    rfl
  case refine_12 =>
    change execHsPwmOnWindow n m s = _
    unfold execHsPwmOnWindow
    exact if_pos (by rcases h with h | h <;> simp only [h] <;> simp)

end Sys2Proof.Machine

/-! SUPPORT. The TEC loop (R73, R74): its update, and the rows around it. -/

namespace Sys2Proof.Machine

section
variable {l : TecLoop} {code : Nat}

/-! ### The update of the loop -/

/-- A number of 13 signed bits is read back as it was written. -/
theorem sx_wrapTo_of_bits {z : Int} (hlo : -4096 ≤ z) (hhi : z < 4096) : sx 13 (wrapTo 13 z) = z := by
  unfold sx wrapTo
  have hpos : 0 ≤ z % ((2 ^ 13 : Nat) : Int) := Int.emod_nonneg _ (by decide)
  have hlt : z % ((2 ^ 13 : Nat) : Int) < (2 ^ 13 : Nat) := Int.emod_lt_of_pos _ (by decide)
  have hsplit : ((2 ^ 13 : Nat) : Int) * (z / (2 ^ 13 : Nat)) + z % (2 ^ 13 : Nat) = z := Int.mul_ediv_add_emod _ _
  norm_num at *
  split <;> omega

/-- The error of a code, with the sign of the loop. -/
def TecLoop.error (l : TecLoop) (code : Nat) : Int :=
  let e0 : Int := (fget l.tgt F.TEC_TGT.TARGET : Int) - code
  if fbit l.cfg F.TEC_CFG.SIGN then -e0 else e0

/-- The accumulator after an update. -/
def TecLoop.nextAcc (l : TecLoop) (code : Nat) : Int := max (-1048576) (min 1048575 (l.acc + l.error code))

/-- The controller's output before the clamp, in 1/256 of a duty step. -/
def TecLoop.drive (l : TecLoop) (code : Nat) : Int :=
  nbits l.gains.toNat 0 16 * l.error code + nbits l.gains.toNat 16 16 * l.nextAcc code

/-- The duty that the law gives. -/
def TecLoop.law (l : TecLoop) (code : Nat) : Int :=
  max (-(fget l.cfg F.TEC_CFG.DUTY_MAX : Int)) (min (fget l.cfg F.TEC_CFG.DUTY_MAX : Int) (rshFloor 8 (l.drive code)))

/-- SETTLED of a STAT word, by whether the code is within the band and for how long it has been. -/
def settledWord (st : Word) (inBand : Bool) (held : Nat) : Word :=
  if !inBand then fset st F.TEC_STAT.SETTLED 0 else if 2000 ≤ held then fset st F.TEC_STAT.SETTLED 1 else st

theorem settledWord_duty (st : Word) (inBand : Bool) (held : Nat) : fget (settledWord st inBand held) F.TEC_STAT.DUTY = fget st F.TEC_STAT.DUTY := by
  have hkeep : ∀ v, fget (fset st F.TEC_STAT.SETTLED v) F.TEC_STAT.DUTY = fget st F.TEC_STAT.DUTY := fun v => fget_fset_ne (by decide) (by decide)
  unfold settledWord
  split
  · exact hkeep 0
  · split
    · exact hkeep 1
    · rfl

theorem settledWord_outside (st : Word) (held : Nat) : fbit (settledWord st false held) F.TEC_STAT.SETTLED = false := fbit_fset (by decide)

theorem settledWord_long {st : Word} {held : Nat} (h : 2000 ≤ held) : fbit (settledWord st true held) F.TEC_STAT.SETTLED = true := by
  unfold settledWord
  rw [if_neg (by decide), if_pos h]
  exact fbit_fset (by decide)

/-- Whether a code is within the band. -/
def TecLoop.inBand (l : TecLoop) (code : Nat) : Bool := decide ((l.error code).natAbs ≤ fget l.tgt F.TEC_TGT.BAND)

/-- STAT after an update. -/
def TecLoop.nextStat (l : TecLoop) (code : Nat) : Word :=
  settledWord (fset l.stat F.TEC_STAT.DUTY (wrapTo 13 (l.law code))) (l.inBand code) (if l.inBand code then l.settledMs + 1 else 0)

theorem TecLoop.update_acc : (l.update code).acc = l.nextAcc code := rfl

theorem TecLoop.update_stat : (l.update code).stat = l.nextStat code := rfl

theorem TecLoop.law_bounds : -4096 ≤ l.law code ∧ l.law code < 4096 ∧ (l.law code).natAbs ≤ fget l.cfg F.TEC_CFG.DUTY_MAX := by
  have hmax : fget l.cfg F.TEC_CFG.DUTY_MAX < 2 ^ 12 := fget_lt
  unfold TecLoop.law
  omega

theorem TecLoop.nextStat_duty : fget (l.nextStat code) F.TEC_STAT.DUTY = wrapTo 13 (l.law code) % 2 ^ 13 :=
  (settledWord_duty _ _ _).trans (fget_fset (by decide))

theorem TecLoop.update_duty : (l.update code).duty = l.law code := by
  obtain ⟨hlo, hhi, -⟩ := l.law_bounds (code := code)
  have hmod : ∀ v, sx 13 (v % 2 ^ 13) = sx 13 v := fun v => by unfold sx; rw [Nat.mod_mod]
  unfold TecLoop.duty
  rw [TecLoop.update_stat, TecLoop.nextStat_duty, hmod, sx_wrapTo_of_bits hlo hhi]

/-- Within the limit the duty is the output, rounded down. -/
theorem TecLoop.law_of_small (h : (l.drive code).natAbs < 256 * fget l.cfg F.TEC_CFG.DUTY_MAX) :
    256 * l.law code ≤ l.drive code ∧ l.drive code < 256 * l.law code + 256 := by
  unfold TecLoop.law
  have hfloor : rshFloor 8 (l.drive code) = l.drive code / 256 := rfl
  rw [hfloor]
  omega

theorem TecLoop.nextStat_outside (h : fget l.tgt F.TEC_TGT.BAND < (l.error code).natAbs) : fbit (l.nextStat code) F.TEC_STAT.SETTLED = false := by
  have hout : l.inBand code = false := decide_eq_false (by omega)
  unfold TecLoop.nextStat
  rw [hout]
  exact settledWord_outside _ _

theorem TecLoop.nextStat_settled (h : (l.error code).natAbs ≤ fget l.tgt F.TEC_TGT.BAND) (hms : 1999 ≤ l.settledMs) :
    fbit (l.nextStat code) F.TEC_STAT.SETTLED = true := by
  have hin : l.inBand code = true := decide_eq_true h
  unfold TecLoop.nextStat
  rw [hin, if_pos rfl]
  exact settledWord_long (by omega)

/-- The loop after a look at its sensor's sweep. -/
def TecLoop.swept (l : TecLoop) (sw : Nat) : TecLoop := { l with sweep := sw, staleMs := if sw = l.sweep then l.staleMs + 1 else 0 }

theorem TecLoop.swept_eq (sw : Nat) :
    (if sw = l.sweep then { l with staleMs := l.staleMs + 1 } else { l with sweep := sw, staleMs := 0 } : TecLoop) = l.swept sw := by
  unfold TecLoop.swept
  by_cases h : sw = l.sweep
  · subst h
    rw [if_pos rfl, if_pos rfl]
  · rw [if_neg h, if_neg h]

/-- A loop on a bad sensor holds its duty at 0. -/
def TecLoop.held (l : TecLoop) : TecLoop := { l.stop with stat := fset l.stop.stat F.TEC_STAT.SENSOR 1, faulted := true, bad := true }

theorem TecLoop.held_same : l.held.acc = 0 ∧ l.held.cfg = l.cfg ∧ l.held.tgt = l.tgt := by
  unfold TecLoop.held TecLoop.stop
  exact ⟨rfl, rfl, rfl⟩

/-- A loop on a good sensor regulates. -/
def TecLoop.regulated (l : TecLoop) (code : Nat) : TecLoop := { l.update code with faulted := false, bad := false }

theorem TecLoop.held_duty : l.held.duty = 0 := by
  have hduty : fget l.held.stat F.TEC_STAT.DUTY = 0 :=
    (fget_fset_ne (by decide) (by decide)).trans ((fget_fset_ne (by decide) (by decide)).trans (fget_fset (by decide)))
  unfold TecLoop.duty
  rw [hduty]
  rfl

theorem TecLoop.held_sensor : fbit l.held.stat F.TEC_STAT.SENSOR = true := fbit_fset (by decide)

end

section
variable {t : Fin 2} {s : State}

/-- The row's loop runs: its domain is on, it is enabled, and nothing holds it. -/
def State.tecRuns (s : State) (t : Fin 2) : Prop :=
  s.power.hearth = true ∧ fbit s.hearth.tec[t].cfg F.TEC_CFG.ENABLE = true ∧ s.safe = false ∧ s.hearth.tecOn = true

/-- The loop of a row after its look at the sweep of its sensor. -/
def State.tecLooked (s : State) (t : Fin 2) : TecLoop :=
  s.hearth.tec[t].swept (fget (vget s.thr.hk.res (fget s.hearth.tec[t].cfg F.TEC_CFG.HK_SEL) 0) F.HK_RES.SWEEP)

/-- One loop replaced. -/
def State.setTec (t : Fin 2) (x : TecLoop) (s : State) : State := { s with hearth := { s.hearth with tec := vset s.hearth.tec t x } }

theorem tecLoopUpdate_of_bad (h : s.tecRuns t) (hb : s.tecSensorBad (fget s.hearth.tec[t].cfg F.TEC_CFG.HK_SEL) (s.tecLooked t).staleMs = true) :
    exec (.tecLoopUpdate t) s =
      .next ((s.setTec t (s.tecLooked t).held).setCondition srcTecSensor true t.val) := by
  obtain ⟨hp, hen, hsafe, hon⟩ := h
  change execTecLoopUpdate t s = _
  unfold execTecLoopUpdate
  refine (if_neg (by rw [hp, hen, hsafe, hon]; decide)).trans ?_
  dsimp only
  rw [TecLoop.swept_eq]
  exact if_pos hb

theorem tecLoopUpdate_of_good (h : s.tecRuns t) (hb : s.tecSensorBad (fget s.hearth.tec[t].cfg F.TEC_CFG.HK_SEL) (s.tecLooked t).staleMs = false)
    (hf : s.hearth.tec[t].faulted = false) (ho : (vget s.hearth.tec (1 - t.val) {}).bad = false) :
    exec (.tecLoopUpdate t) s =
      .next (((s.setTec t ((s.tecLooked t).regulated (fget (vget s.thr.hk.res (fget s.hearth.tec[t].cfg F.TEC_CFG.HK_SEL) 0) F.HK_RES.RESULT))).setCondition
        srcTecSensor false t.val).afterTec) := by
  obtain ⟨hp, hen, hsafe, hon⟩ := h
  have hfree : ¬ ((s.tecLooked t).faulted && (s.source srcTecSensor).raised) = true := by
    rw [show (s.tecLooked t).faulted = false from hf]
    exact Bool.false_ne_true
  change execTecLoopUpdate t s = _
  unfold execTecLoopUpdate
  refine (if_neg (by rw [hp, hen, hsafe, hon]; decide)).trans ?_
  dsimp only
  rw [TecLoop.swept_eq]
  refine (if_neg ((Bool.not_eq_true _).mpr hb)).trans ?_
  rw [ho, if_neg Bool.false_ne_true]
  exact congrArg (fun x : TecLoop => (.next (((s.setTec t x).setCondition srcTecSensor false t.val).afterTec) : Res)) (if_neg hfree)

end

/-- Settles O36: a bad sensor, a good one, the law, and the limit. -/
theorem tecLoopRegulates : Obligations.TecLoopRegulates := by
  unfold Obligations.TecLoopRegulates
  refine ⟨fun t s => ?_, fun l code => ?_, fun t s => ?_⟩
  · intro l sel r sw l1 hp hen hsafe hon
    obtain ⟨hacc, hcfg, htgt⟩ := (s.tecLooked t).held_same
    refine ⟨fun hb => ⟨(s.tecLooked t).held, tecLoopUpdate_of_bad ⟨hp, hen, hsafe, hon⟩ hb, TecLoop.held_duty, hacc, TecLoop.held_sensor, hcfg, htgt⟩,
      fun hb hf ho => tecLoopUpdate_of_good ⟨hp, hen, hsafe, hon⟩ hb hf ho⟩
  · exact ⟨rfl, by rw [TecLoop.update_duty]; exact TecLoop.law_bounds.2.2, fun h => by rw [TecLoop.update_duty]; exact TecLoop.law_of_small h,
      fun h => TecLoop.nextStat_outside h, fun h hms => TecLoop.nextStat_settled h hms⟩
  · intro l hp hen hduty
    change execTecLimit t s = _
    unfold execTecLimit
    exact if_neg (by rw [hp, hen, hduty, bne_self_eq_false]; decide)

end Sys2Proof.Machine

/-! SUPPORT. The tach inputs (R278 to R282) and the time-interval unit (R276, R277). -/

namespace Sys2Proof.Machine

/-! ### One more bit of a number -/

/-- A power of two that is not in a number is added without a carry. -/
theorem add_two_pow_div {n i j : Nat} (h : nbit n j = false) (hij : j < i) : (n + 2 ^ j) / 2 ^ i = n / 2 ^ i := by
  obtain ⟨k, rfl⟩ := Nat.exists_eq_add_of_lt hij
  have heven : n / 2 ^ j % 2 = 0 := by
    unfold nbit at h
    simpa using h
  have hpow : 2 ^ (j + k + 1) = 2 ^ j * 2 * 2 ^ k := by ring
  rw [hpow, ← Nat.div_div_eq_div_mul, ← Nat.div_div_eq_div_mul, ← Nat.div_div_eq_div_mul, ← Nat.div_div_eq_div_mul,
    Nat.add_div_right _ (Nat.two_pow_pos j)]
  congr 1
  omega

theorem nbit_eq_testBit (n i : Nat) : nbit n i = n.testBit i := by
  rw [Nat.testBit_eq_decide_div_mod_eq, nbit, Bool.beq_eq_decide_eq]

theorem nbit_add_two_pow_self {n j : Nat} (h : nbit n j = false) : nbit (n + 2 ^ j) j = true := by
  rw [nbit_eq_testBit] at *
  rw [Nat.add_comm, Nat.testBit_two_pow_add_eq, h]
  rfl

theorem nbit_add_two_pow_ne {n i j : Nat} (h : nbit n j = false) (hij : i ≠ j) : nbit (n + 2 ^ j) i = nbit n i := by
  rcases Nat.lt_or_gt_of_ne hij with hlt | hgt
  · rw [nbit_eq_testBit, nbit_eq_testBit, Nat.add_comm, Nat.testBit_two_pow_add_gt hlt]
  · unfold nbit
    rw [add_two_pow_div h hgt]

theorem add_two_pow_lt {n i j : Nat} (h : nbit n j = false) (hn : n < 2 ^ i) (hij : j < i) : n + 2 ^ j < 2 ^ i := by
  have hdiv := add_two_pow_div h hij
  rw [Nat.div_eq_of_lt hn] at hdiv
  exact (Nat.div_eq_zero_iff_lt (Nat.two_pow_pos i)).mp hdiv

/-! ### Tach -/

section
variable {th : Tach} {s : State} {k : Fin 8}

theorem Tach.countEdge_fields {t now keep : Nat} {up : Bool} (h : keep < t) :
    (th.countEdge t up now keep).count = (if up then (th.count + 1) % 2 ^ 48 else (th.count + 2 ^ 48 - 1) % 2 ^ 48) ∧
      fbit (th.countEdge t up now keep).stat F.TACH_STAT.STOPPED = false ∧ fbit (th.countEdge t up now keep).stat F.TACH_STAT.DIR = !up := by
  refine ⟨?_, (fbit_fsetB_ne (by decide) (by decide)).trans (fbit_fset (by decide)), fbit_fsetB (by decide) rfl⟩
  unfold Tach.countEdge
  dsimp only
  generalize (if up then (th.count + 1) % 2 ^ 48 else (th.count + 2 ^ 48 - 1) % 2 ^ 48) = c
  rw [List.filter_cons_of_pos (by simpa using h)]
  rfl

/-- The snapshot between two rising counts is their interpolation. -/
theorem Tach.snapshot_of_two {e1 e0 c c0 t : Nat} {rest : List (Nat × Bool × Nat)} (htrail : th.trail = (e1, true, c) :: (e0, true, c0) :: rest)
    (h01 : e0 < e1) (h1 : e1 ≤ t) (hc : c < 2 ^ 48) :
    th.snapshot t / 65536 = c ∧ th.snapshot t % 65536 = min 65535 (65536 * (t - e1) / (e1 - e0)) := by
  have hsnap : th.snapshot t = (c * 65536 + min 65535 (65536 * (t - e1) / (e1 - e0))) % 2 ^ 64 := by
    unfold Tach.snapshot
    rw [htrail, List.filter_cons_of_pos (by simpa using h1), List.filter_cons_of_pos (by simp; omega)]
    dsimp only
    rw [if_pos rfl, if_neg (by decide), if_neg (by omega)]
  rw [hsnap]
  generalize 65536 * (t - e1) / (e1 - e0) = f
  omega

theorem Tach.enable_fields {now : Nat} :
    (th.enable now).count = 0 ∧ fbit (th.enable now).stat F.TACH_STAT.STOPPED = true ∧ (th.enable now).period = 0xFFFFFFFF :=
  ⟨rfl, (fbit_fset_ne (by decide) (by decide)).trans (fbit_fset (by decide)), rfl⟩

/-- A new level on an input leaves every trail. -/
theorem State.trail_setLevel {j o : Nat} {level : Bool} (ho : o < 8) :
    ((s.setTach o { s.tachOf o with level }).tachOf j).trail = (s.tachOf j).trail := by
  by_cases h : o = j
  · subst h
    rw [State.tachOf_setTach_self ho]
  · rw [State.tachOf_setTach_ne h]

theorem State.quadOf_eq_some {n e : Nat} (h : s.quadOf n = some e) : e = n / 2 * 2 := by
  unfold State.quadOf at h
  dsimp only at h
  split at h
  · exact (Option.some.inj h).symm
  · exact absurd h (by simp)

/-- A change that lasts, on an input of its own. -/
theorem tachEdge_of_single {level both : Bool} {held stamp : Nat} (hp : s.power.front = true) (hq : s.quadOf k.val = none)
    (hl : (s.tachOf k.val).level ≠ level) (hh : fget (s.tachOf k.val).cfg F.TACH_CFG.FILT < held) :
    let u := (s.untilTime (stamp / 5 * 5)).setTach k.val { s.tachOf k.val with level }
    let edge := fget (s.tachOf k.val).cfg F.TACH_CFG.EDGE
    exec (.tachEdge k level held stamp both) s =
      .next (if fbit (s.tachOf k.val).cfg F.TACH_CFG.ENABLE = true ∧ (edge = 2 ∨ (edge = 0 ∧ level = true) ∨ (edge = 1 ∧ level = false))
        then u.tachCount k.val (stamp / 5 * 5) true else u) := by
  change execTachEdge k level held stamp both s = _
  unfold execTachEdge
  refine (if_neg (by simp [hp])).trans ?_
  dsimp only
  rw [show (s.untilTime (stamp / 5 * 5)).quadOf k.val = none from hq]
  refine (if_neg (by exact Nat.not_le.mpr hh)).trans ((if_neg hl).trans ?_)
  refine (apply_ite Host.Outcome.next _ _ _).symm.trans (congrArg Host.Outcome.next (if_congr ?_ rfl rfl))
  simp only [Bool.and_eq_true, Bool.or_eq_true, beq_iff_eq, Bool.not_eq_true', or_assoc]
  exact Iff.rfl

/-- A change that lasts, on an input of a pair. -/
theorem tachEdge_of_pair {level both : Bool} {held stamp e : Nat} (hp : s.power.front = true) (hq : s.quadOf k.val = some e)
    (hl : (s.tachOf k.val).level ≠ level) (hh : fget (s.tachOf e).cfg F.TACH_CFG.FILT < held) (he : fbit (s.tachOf e).cfg F.TACH_CFG.ENABLE = true) :
    let o := if k.val = e then e + 1 else e
    let u := (s.untilTime (stamp / 5 * 5)).setTach k.val { s.tachOf k.val with level }
    exec (.tachEdge k level held stamp both) s =
      if both then
        let v := u.setTach o { u.tachOf o with level := !(u.tachOf o).level }
        .next ((v.setTach e { v.tachOf e with stat := fset (v.tachOf e).stat F.TACH_STAT.QUAD_ERR 1 }).report srcTachQuad e)
      else .next (u.tachCount e (stamp / 5 * 5)
        ((if k.val = e then level != (u.tachOf o).level else level == (u.tachOf o).level) == Config.quadUpWhenALeads)) := by
  change execTachEdge k level held stamp both s = _
  unfold execTachEdge
  refine (if_neg (by simp [hp])).trans ?_
  dsimp only
  rw [show (s.untilTime (stamp / 5 * 5)).quadOf k.val = some e from hq]
  refine (if_neg (by exact Nat.not_le.mpr hh)).trans ((if_neg hl).trans ?_)
  exact if_neg (fun hn => Bool.noConfusion (he.symm.trans ((Bool.not_eq_true' _).mp hn)))

/-- The other input of a pair keeps its level. -/
theorem State.quadOf_other {level : Bool} {u e : Nat} (hq : s.quadOf k.val = some e) :
    (((s.untilTime u).setTach k.val { s.tachOf k.val with level }).tachOf (if k.val = e then e + 1 else e)).level =
      (s.tachOf (if k.val = e then e + 1 else e)).level := by
  have he := State.quadOf_eq_some hq
  rw [State.tachOf_setTach_ne (by split <;> omega)]
  rfl

theorem State.tach_getElem : s.tach[k] = s.tachOf k.val := by
  simp [State.tachOf, vget]

end

/-! ### TIU -/

section
variable {s : State}

theorem wrapTo_lt (n : Nat) (z : Int) : wrapTo n z < 2 ^ n := by
  have hpos : (0 : Int) < (2 ^ n : Nat) := by exact_mod_cast Nat.two_pow_pos n
  have hlt := Int.emod_lt_of_pos z hpos
  have hnonneg := Int.emod_nonneg z (Int.ne_of_gt hpos)
  unfold wrapTo
  omega

/-- The calibration word of two means. -/
def tiuCal (k1 k2 : Int) : Word := fset (fset 0 F.TIU_CAL.K1 (wrapTo 16 k1)) F.TIU_CAL.K2 (wrapTo 16 k2)

theorem tiuCal_fields (k1 k2 : Int) : fget (tiuCal k1 k2) F.TIU_CAL.K1 = wrapTo 16 k1 ∧ fget (tiuCal k1 k2) F.TIU_CAL.K2 = wrapTo 16 k2 :=
  ⟨(fget_fset_ne (by decide) (by decide)).trans ((fget_fset (by decide)).trans (Nat.mod_eq_of_lt (wrapTo_lt 16 k1))),
    (fget_fset (by decide)).trans (Nat.mod_eq_of_lt (wrapTo_lt 16 k2))⟩

/-- The unit with a new calibration. -/
def State.tiuCalibrated (s : State) (one two : List Int) : Tiu := { s.tiu with cal := tiuCal (tiuMean one) (tiuMean two), goUp := s.time.up }

/-- The unit after a calibration that failed, and after one that arms it. -/
def Tiu.failed (t : Tiu) : Tiu := { t with stat := fset t.stat F.TIU_STAT.CAL_FAIL 1 }
def Tiu.armed (t : Tiu) : Tiu := { t with phase := .armed, stat := fset t.stat F.TIU_STAT.SEEN 0, res := Vector.replicate 8 0xFFFFFFFF }

/-- The calibration fails, or it arms the unit. -/
theorem tiuGo_of_idle {one two : List Int} (hen : fbit s.tiu.cfg F.TIU_CFG.ENABLE = true) (hidle : s.tiu.phase = .idle) :
    exec (.tiuGo one two) s =
      if tiuMean two - tiuMean one < 1000 ∨ 1600 < tiuMean two - tiuMean one then
        .next ((({ s.pass (20 * us) with tiu := (s.tiuCalibrated one two).failed }).report srcTiuCal 0).tiuAnswer ⟨.ok, 0, 0xFF⟩)
      else .next { s.pass (20 * us) with tiu := (s.tiuCalibrated one two).armed } :=
  if_neg (by simp [hen, hidle])

/-- The unit after a stop's result. -/
def Tiu.stopped (t : Tiu) (j : Fin 8) (r : Int) : Tiu :=
  { t with res := vset t.res j.val (w32 r.toNat), stat := fset t.stat F.TIU_STAT.SEEN (fget t.stat F.TIU_STAT.SEEN + 2 ^ j.val) }

theorem Tiu.stopped_fields {t : Tiu} {j : Fin 8} (r : Int) (h : nbit (fget t.stat F.TIU_STAT.SEEN) j.val = false) :
    vget (t.stopped j r).res j.val 0 = w32 r.toNat ∧ nbit (fget (t.stopped j r).stat F.TIU_STAT.SEEN) j.val = true ∧
      (∀ i, i ≠ j.val → vget (t.stopped j r).res i 0 = vget t.res i 0 ∧
        nbit (fget (t.stopped j r).stat F.TIU_STAT.SEEN) i = nbit (fget t.stat F.TIU_STAT.SEEN) i) := by
  have hseen : fget (t.stopped j r).stat F.TIU_STAT.SEEN = fget t.stat F.TIU_STAT.SEEN + 2 ^ j.val :=
    (fget_fset (by decide)).trans (Nat.mod_eq_of_lt (add_two_pow_lt h fget_lt j.isLt))
  rw [hseen]
  exact ⟨vget_vset_self j.isLt, nbit_add_two_pow_self h, fun i hi => ⟨vget_vset_ne hi.symm, nbit_add_two_pow_ne h hi⟩⟩

/-- A stop that is awaited, from a live source. -/
theorem tiuStopEvent_of_awaited {j : Fin 8} {count : Nat} {code : Int} (hrun : s.tiu.phase = .running) (hj : j.val < s.tiu.stops)
    (hseen : nbit (fget s.tiu.stat F.TIU_STAT.SEEN) j.val = false) (hlive : s.tiuSourceLive (nbits s.tiu.stopSel.toNat (4 * j.val) 4) = true) :
    let r := s.tiu.result count code
    exec (.tiuStopEvent j count code) s =
      if r < 0 ∨ 2 ^ 32 ≤ r ∨ (r = 0 ∧ nbits s.tiu.stopSel.toNat (4 * j.val) 4 = fget s.tiu.cfg F.TIU_CFG.START) then .next s
      else .next (if (s.tiu.stopped j r).allSeen then ({ s with tiu := s.tiu.stopped j r }).tiuDone else { s with tiu := s.tiu.stopped j r }) :=
  if_neg (by simp [hrun, hj, hseen, hlive])

end

/-- Settles O37: edges, pairs, counts, snapshots and stalls of the tachs; calibration, start, stops and ends of the TIU. -/
theorem tachAndTiuMeasure : Obligations.TachAndTiuMeasure := by
  unfold Obligations.TachAndTiuMeasure
  refine ⟨⟨fun k level both held stamp s hp hh => ?_, fun k level both held stamp s hp hq hl hh => tachEdge_of_single hp hq hl hh,
    fun k level held stamp e s hp hq hl hh he => ?_, fun th t now keep up h => Tach.countEdge_fields h,
    fun th e1 e0 c c0 t rest ht h01 h1 hc => Tach.snapshot_of_two ht h01 h1 hc, fun k s hp he => ?_, fun k w s hp => if_neg (by simp [hp]),
    fun th now => Tach.enable_fields⟩,
    fun one two s hen hidle => ?_, fun one two s h => if_pos (by rcases h with h | h <;> simp [h]), fun count code time s harmed hlive => if_neg (by simp [harmed, hlive]),
    fun j count code s hrun hj hseen hlive => ⟨fun hlo hhi hnone => ?_, fun hout => ?_⟩, fun s hrun => if_neg (by simp [hrun]), fun s harmed => ?_, fun s => ?_⟩
  case refine_1 =>
    exact (if_neg (by simp [hp])).trans (if_pos hh)
  case refine_2 =>
    refine ⟨?_, ?_⟩
    · rw [tachEdge_of_pair hp hq hl hh he, if_neg Bool.false_ne_true, State.quadOf_other hq]
    · rw [tachEdge_of_pair hp hq hl hh he, if_pos rfl, State.quadOf_other hq]
      refine ⟨_, rfl, fbit_fset (by decide), ?_⟩
      have hpair := State.quadOf_eq_some hq
      have htrail := State.trail_setLevel (s := s.untilTime (stamp / 5 * 5)) (j := e) (level := level) k.isLt
      have ho : (if k.val = e then e + 1 else e) < 8 := by split <;> omega
      exact (State.trail_setLevel ho).trans htrail
  case refine_3 =>
    refine ⟨{ s.tachOf k.val with stat := fset (s.tachOf k.val).stat F.TACH_STAT.STOPPED 1 }, ?_, fbit_fset (by decide), rfl, rfl⟩
    rw [← State.tach_getElem] at *
    exact if_neg (by rw [hp, he]; decide)
  case refine_4 =>
    obtain ⟨hk1, hk2⟩ := tiuCal_fields (tiuMean one) (tiuMean two)
    have hrun := tiuGo_of_idle (one := one) (two := two) hen hidle
    by_cases hfail : tiuMean two - tiuMean one < 1000 ∨ 1600 < tiuMean two - tiuMean one
    · rw [hrun, if_pos hfail]
      exact ⟨(s.tiuCalibrated one two).failed, hk1, hk2, rfl, fun _ => ⟨fbit_fset (by decide), hidle, rfl, rfl⟩, fun hlo hhi => absurd hfail (by omega)⟩
    · rw [hrun, if_neg hfail]
      exact ⟨(s.tiuCalibrated one two).armed, hk1, hk2, rfl, fun h => absurd h hfail, fun _ _ => ⟨rfl, fget_fset (by decide), rfl, rfl⟩⟩
  case refine_5 =>
    obtain ⟨hres, hbit, hother⟩ := Tiu.stopped_fields (s.tiu.result count code) hseen
    refine ⟨s.tiu.stopped j (s.tiu.result count code), hres, hbit, hother, ?_⟩
    rw [tiuStopEvent_of_awaited hrun hj hseen hlive]
    refine if_neg ?_
    rintro (h | h | h)
    · exact absurd hlo (Int.not_le.mpr h)
    · exact absurd hhi (Int.not_lt.mpr h)
    · exact hnone h
  case refine_6 =>
    rw [tiuStopEvent_of_awaited hrun hj hseen hlive]
    exact if_pos hout
  case refine_7 =>
    exact ⟨{ s.tiu with phase := .idle, stat := fset s.tiu.stat F.TIU_STAT.NO_START 1 }, rfl, fbit_fset (by decide), rfl, if_neg (by simp [harmed])⟩
  case refine_8 =>
    exact ⟨{ s.tiu with phase := .idle, stat := fset s.tiu.stat F.TIU_STAT.DONE 1 }, rfl, fbit_fset (by decide), rfl, rfl⟩

end Sys2Proof.Machine

/-! SUPPORT. The time base and its references (R269 to R275). -/

namespace Sys2Proof.Machine

section
variable {s : State}

/-! ### Seconds and steps -/

theorem secondError_near (t : Nat) : (secondError t).natAbs ≤ sec / 2 ∧ ((t : Int) - secondError t) % (sec : Int) = 0 := by
  unfold secondError sec
  dsimp only
  split <;> omega

theorem w32_of_words (lo hi : Word) : w32 (lo.toNat + 2 ^ 32 * hi.toNat) = lo ∧ w32 ((lo.toNat + 2 ^ 32 * hi.toNat) / 2 ^ 32) = hi := by
  have hl := lo.isLt
  have hh := hi.isLt
  constructor
  · apply BitVec.eq_of_toNat_eq
    simp [w32]
    omega
  · apply BitVec.eq_of_toNat_eq
    have hdiv : (lo.toNat + 2 ^ 32 * hi.toNat) / 2 ^ 32 = hi.toNat := by omega
    rw [hdiv]
    simp [w32]

/-- A step moves the epoch so that device time is what TB_SET holds. -/
theorem timeStep_moves (h : s.planRuns = false) : ∃ epoch, exec .timeStep s = .next { s with time := { s.time with epoch } } ∧
    (s.time.up + epoch) % 2 ^ 64 = s.time.setLo.toNat + 2 ^ 32 * s.time.setHi.toNat := by
  have hl := s.time.setLo.isLt
  have hh := s.time.setHi.isLt
  obtain ⟨hlo, hhi⟩ := w32_of_words s.time.setLo s.time.setHi
  refine ⟨(s.time.setLo.toNat + 2 ^ 32 * s.time.setHi.toNat + (2 ^ 64 - s.time.up % 2 ^ 64)) % 2 ^ 64, ?_, by omega⟩
  refine (if_neg (by simp [h])).trans ?_
  unfold State.stepTime
  rw [hlo, hhi]

/-- The next whole second at or after a device time. -/
theorem cdiv_sec (t : Nat) : cdiv t sec * sec % sec = 0 ∧ t ≤ cdiv t sec * sec ∧ cdiv t sec * sec < t + sec := by
  unfold cdiv sec
  rw [if_neg (by decide)]
  omega

theorem ppsOutPulse_rises (h : s.now + sec < 2 ^ 64) : ∃ (u : State) (r : Nat), exec .ppsOutPulse s = .next u ∧ u.time.ppsRise = some r ∧ r % sec = 0 ∧
    s.now ≤ r ∧ r < s.now + sec ∧ u.now = r ∧ u.time.epoch = s.time.epoch ∧ u.fw = s.fw ∧ u.thr = s.thr ∧ u.loft = s.loft ∧ u.cellar = s.cellar ∧
    u.fc = s.fc := by
  obtain ⟨hmod, hle, hlt⟩ := cdiv_sec s.now
  generalize hr : cdiv s.now sec * sec = r at hmod hle hlt
  have hnow : (max s.time.up (s.time.up + (r - s.now)) + s.time.epoch) % 2 ^ 64 = r := by
    have hdef : s.now = (s.time.up + s.time.epoch) % 2 ^ 64 := rfl
    omega
  refine ⟨(s.pass (r - s.now)).withTime { (s.pass (r - s.now)).time with ppsRise := some r }, r, ?_, rfl, hmod, hle, hlt, hnow, rfl, rfl, rfl, rfl, rfl, rfl⟩
  have hrun : exec .ppsOutPulse s = .next ((s.pass (r - s.now)).withTime { (s.pass (r - s.now)).time with ppsRise := some (r % 2 ^ 64) }) := by
    rw [← hr]
    rfl
  rw [hrun, Nat.mod_eq_of_lt (by omega)]

/-! ### Holdover -/

theorem State.enterHoldover_begins (h : s.time.holdUp = none) : ∃ t : TimeBase, s.enterHoldover = ({ s with time := t }).setCondition srcTimeHoldover true 0 ∧
    t.holdUp = some s.time.up ∧ fbit t.timeStat F.TIME_STAT.LOCKED = false ∧ t.up = s.time.up ∧ t.epoch = s.time.epoch ∧
    (fbit s.time.cfg F.TB_CFG.ENABLE = true → t.steer = w32 (wrapTo 32 t.freqEst)) ∧ (fbit s.time.cfg F.TB_CFG.ENABLE = false → t.steer = s.time.steer) ∧
    (s.time.freqLog = [] → t.freqEst = s.time.freqEst) ∧ (s.time.freqLog ≠ [] → t.freqEst = meanOf (s.time.freqLog.map (·.2))) := by
  refine ⟨_, if_neg (by simp [h]), rfl, fbit_fset (by decide), rfl, rfl, fun hen => if_pos hen, fun hen => if_neg (by simp [hen]),
    fun hlog => if_pos (by simp [hlog]), fun hlog => if_neg (by simpa using hlog)⟩

theorem State.judgeSource_same {old : Nat} (h : s.srcInUse = old) : s.judgeSource old = if s.freqPresent then s.leaveHoldover else s.enterHoldover := by
  unfold State.judgeSource
  rw [if_pos h]

/-- What a change of status does depends on its state alone. -/
theorem State.timeStatus_congr {f g : State → State} (h : f s = g s) : s.timeStatus f = s.timeStatus g := by
  unfold State.timeStatus
  rw [h]

/-! ### The loop -/

theorem clampAbs_le {b z : Int} (hb : 0 ≤ b) : (clampAbs b z).natAbs ≤ b.natAbs := by
  unfold clampAbs
  omega

/-- A bounded number plus a bounded step, clamped again: it moves by no more than the step. -/
theorem clampAbs_step {b x d : Int} {m : Nat} (hx : x.natAbs ≤ b.natAbs) (hb : 0 ≤ b) (hd : d.natAbs ≤ m) : (clampAbs b (x + d) - x).natAbs ≤ m := by
  unfold clampAbs
  omega

theorem loopEstimate_bounds {tau dt : Nat} {est freq : Int} (h : est.natAbs ≤ ppm50.natAbs) :
    (loopEstimate tau est freq dt).natAbs ≤ ppm50.natAbs ∧ (loopEstimate tau est freq dt - est).natAbs ≤ (ppm1 * (dt : Nat) / 4000000000).natAbs := by
  have hstep : (0 : Int) ≤ ppm1 * (dt : Nat) / 4000000000 := by
    unfold ppm1
    omega
  exact ⟨clampAbs_le (by decide), clampAbs_step h (by decide) (clampAbs_le hstep)⟩

theorem loopPull_le {tau : Nat} {err : Int} : (loopPull tau err).natAbs ≤ ppm10.natAbs := clampAbs_le (by decide)

/-- The loop's new estimate of the frequency, and its pull on the phase. -/
def State.estimate (s : State) (freq : Int) : Int := loopEstimate (loopTau s.srcInUse).1 s.time.freqEst freq (s.time.up - s.time.loopUp)
def State.pull (s : State) (err : Int) : Int := if s.srcInUse = 1 then 0 else loopPull (loopTau s.srcInUse).2 err

/-- The time base after the loop has taken its inputs. -/
def State.disciplined (s : State) (freq err : Int) (locked : Bool) : TimeBase :=
  let t := s.time
  let log := if locked then (t.up, s.estimate freq) :: t.freqLog.filter (fun e => t.up ≤ e.1 + 60 * sec) else t.freqLog
  { t with freqEst := s.estimate freq, freqLog := log, steer := steerWord (s.estimate freq + s.pull err), loopUp := t.up
           timeStat := fsetB t.timeStat F.TIME_STAT.LOCKED locked }

/-- The correction as a whole stays near the estimate. -/
theorem State.correction_near {freq err : Int} (h : s.time.freqEst.natAbs ≤ ppm50.natAbs) :
    (clampAbs ppm50 (s.estimate freq + s.pull err) - s.estimate freq).natAbs ≤ ppm10.natAbs := by
  refine clampAbs_step (loopEstimate_bounds h).1 (by decide) ?_
  unfold State.pull
  split
  · exact Nat.zero_le _
  · exact loopPull_le

/-! ### PTP -/

/-- The message comes from the selected master. -/
def PtpPort.ofMaster (p : PtpPort) (src : Nat) : Bool := match p.master with | some (k, _) => k == src | none => false

theorem PtpPort.ofMaster_of_master {p : PtpPort} {k src : Nat} {c : PtpClock} (h : p.master = some (k, c)) : p.ofMaster src = (k == src) := by
  unfold PtpPort.ofMaster
  rw [h]

theorem PtpPort.ofMaster_of_none {p : PtpPort} {src : Nat} (h : p.master = none) : p.ofMaster src = false := by
  unfold PtpPort.ofMaster
  rw [h]

theorem PtpPort.ofMaster_of_other {p : PtpPort} {src : Nat} (h : ∀ k c, p.master = some (k, c) → k ≠ src) : p.ofMaster src = false := by
  cases hm : p.master with
  | none => exact PtpPort.ofMaster_of_none hm
  | some x => rw [PtpPort.ofMaster_of_master (k := x.1) (c := x.2) hm]; simpa using h x.1 x.2 hm

/-- A source was heard within four announce intervals. -/
def PtpPort.knows (p : PtpPort) (up src : Nat) : Bool := p.heard.any (fun h => h.1 == src && decide (up ≤ h.2 + 4 * ptpInterval p.logAnnounce))

/-- A clock may be the master beside the one so far. -/
def PtpPort.prefers (p : PtpPort) (src : Nat) (c : PtpClock) : Bool :=
  p.ofMaster src || match p.master with | some (_, q) => clockBefore c q | none => true

theorem PtpPort.prefers_of_none {p : PtpPort} {src : Nat} {c : PtpClock} (h : p.master = none) : p.prefers src c = true := by
  unfold PtpPort.prefers
  rw [h]
  exact Bool.or_true _

theorem PtpPort.prefers_of_master {p : PtpPort} {k src : Nat} {c c0 : PtpClock} (h : p.master = some (k, c0)) :
    p.prefers src c = (k == src || clockBefore c c0) := by
  unfold PtpPort.prefers
  rw [PtpPort.ofMaster_of_master h, h]

/-- A port that has heard a source. -/
def PtpPort.hears (p : PtpPort) (up src : Nat) : PtpPort := { p with heard := ((src, up) :: p.heard.filter (fun h => h.1 != src)).take 8 }

/-- A port after an Announce; `own`: this device as a grandmaster. -/
def PtpPort.announced (p : PtpPort) (own : PtpClock) (up src : Nat) (c : PtpClock) (utc : Int) : PtpPort :=
  if !(p.knows up src || p.ofMaster src) || !p.prefers src c || 255 ≤ c.steps then p.hears up src
  else if p.role == 1 && clockBefore own c then { (p.hears up src).forget with master := none, leads := true }
  else
    let p2 := if p.ofMaster src then p.hears up src else (p.hears up src).forget
    { p2 with master := some (src, c), leads := false, announceUp := up, utcOffset := utc, syncUp := if p.ofMaster src then p2.syncUp else up }

theorem State.withPtp_ite {c : Prop} [Decidable c] (p q : PtpPort) : s.withPtp (if c then p else q) = if c then s.withPtp p else s.withPtp q :=
  apply_ite (fun x => s.withPtp x) c p q

theorem State.ptpAnnounce_eq (src : Nat) (c : PtpClock) (utc : Int) :
    s.ptpAnnounce src c utc = s.withPtp (s.time.ptp.announced s.ownClock s.time.up src c utc) := by
  unfold PtpPort.announced
  rw [State.withPtp_ite, State.withPtp_ite]
  rfl

section
variable {p : PtpPort} {own c : PtpClock} {up src : Nat} {utc : Int}

theorem PtpPort.hears_mem : (src, up) ∈ (p.hears up src).heard := List.mem_cons_self

theorem PtpPort.announced_heard : (src, up) ∈ (p.announced own up src c utc).heard ∧ (p.announced own up src c utc).discarded = p.discarded := by
  unfold PtpPort.announced
  refine iteInduction (motive := fun q : PtpPort => (src, up) ∈ q.heard ∧ q.discarded = p.discarded) (fun _ => ⟨hears_mem, rfl⟩)
    (fun _ => ?_)
  by_cases hown : (p.role == 1 && clockBefore own c) = true
  · rw [if_pos hown]
    exact ⟨hears_mem, rfl⟩
  · rw [if_neg hown]
    cases p.ofMaster src <;> exact ⟨hears_mem, rfl⟩

/-- The first Announce of a source makes no master. -/
theorem PtpPort.announced_first (hh : p.heard = []) (hm : p.master = none) : (p.announced own up src c utc).master = none := by
  have hnew : p.knows up src = false := by simp [PtpPort.knows, hh]
  unfold PtpPort.announced
  rw [hnew, PtpPort.ofMaster_of_none hm, if_pos (by simp)]
  exact hm

/-- The second within the time makes its source the master of a port without one. -/
theorem PtpPort.announced_second {x : Nat × Nat} (hx : x ∈ p.heard) (hsrc : x.1 = src) (hup : up ≤ x.2 + 4 * ptpInterval p.logAnnounce)
    (hm : p.master = none) (hsteps : c.steps < 255) (hrole : p.role = 0) : let q := p.announced own up src c utc
    q.master = some (src, c) ∧ q.leads = false ∧ q.syncRun = 0 ∧ q.utcOffset = utc := by
  have hknown : p.knows up src = true := List.any_eq_true.mpr ⟨x, hx, by simp [hsrc, hup]⟩
  unfold PtpPort.announced
  rw [hknown, PtpPort.ofMaster_of_none hm, PtpPort.prefers_of_none hm, if_neg (by simpa using hsteps), if_neg (by simp [hrole])]
  exact ⟨rfl, rfl, rfl, rfl⟩

/-- A clock that is not before the master's leaves the master. -/
theorem PtpPort.announced_worse {k : Nat} {c0 : PtpClock} (hm : p.master = some (k, c0)) (hk : k ≠ src) (hc : clockBefore c c0 = false) :
    let q := p.announced own up src c utc
    q.master = p.master ∧ q.syncRun = p.syncRun := by
  have hworse : p.prefers src c = false := by rw [PtpPort.prefers_of_master hm]; simp [hk, hc]
  unfold PtpPort.announced
  rw [hworse, if_pos (by simp)]
  exact ⟨rfl, rfl⟩

end

/-- What a PTP message finds: its port runs and has link. -/
def State.ptpTakes (s : State) (m : PtpMessage) : Prop :=
  m.port.val = s.time.ptp.port ∧ fbit (s.ethPort m.port.val).cfg F.ETH_CFG.ENABLE = true ∧ fbit (s.ethPort m.port.val).stat F.ETH_STAT.LINK = true

theorem ptpEventMessage_of_other {m : PtpMessage} (h : ¬ s.ptpTakes m) : exec (.ptpEventMessage m) s = .next s := by
  refine if_pos ?_
  by_contra hn
  simp only [Bool.or_eq_true, not_or, bne_iff_ne, ne_eq, not_not, Bool.not_eq_true', Bool.not_eq_false] at hn
  obtain ⟨⟨hport, hen⟩, hlink⟩ := hn
  exact h ⟨hport, hport ▸ hen, hport ▸ hlink⟩

theorem ptpEventMessage_of_takes {m : PtpMessage} (h : s.ptpTakes m) : exec (.ptpEventMessage m) s =
    .next (if s.time.ptp.unsupported m then (s.untilTime m.sfd).withPtp { s.time.ptp with discarded := s.time.ptp.discarded + 1 }
      else if m.domain.val != s.time.ptp.domain then s.untilTime m.sfd else (s.untilTime m.sfd).ptpTake m) := by
  obtain ⟨hport, hen, hlink⟩ := h
  rw [hport] at hen hlink
  exact if_neg (by simp [hport, hen, hlink])

/-- A message of the port's domain, with an option of Table 15.5. -/
theorem ptpEventMessage_of_domain {m : PtpMessage} (h : s.ptpTakes m) (hu : s.time.ptp.unsupported m = false) (hd : m.domain.val = s.time.ptp.domain) :
    exec (.ptpEventMessage m) s = .next ((s.untilTime m.sfd).ptpTake m) := by
  rw [ptpEventMessage_of_takes h, if_neg (by simp [hu]), if_neg (by simp [hd])]

section
variable {m : PtpMessage} {origin : Nat}

theorem State.ptpTake_announce {c : PtpClock} {utc : Int} (h : m.body = .announce c utc) : s.ptpTake m = s.ptpAnnounce m.source c utc := by
  unfold State.ptpTake
  rw [h]

/-- A Sync of one step gives an exchange; that of another source gives none. -/
theorem State.ptpTake_sync {k : Nat} {c : PtpClock} (h : m.body = .sync false origin) (hm : s.time.ptp.master = some (k, c)) (hk : k = m.source) :
    s.ptpTake m = State.ptpExchange (s.ptpStamp false m.sfd - (origin * 65536 + m.correction))
      (s.withPtp { s.time.ptp with syncUp := s.time.up, begun := some (m.seq.val, s.ptpStamp false m.sfd - m.correction) }) := by
  unfold State.ptpTake
  dsimp only
  rw [h]
  exact if_neg (by rw [hm]; simp [hk])

theorem State.ptpTake_sync_of_other {twoStep : Bool} (h : m.body = .sync twoStep origin) (hm : s.time.ptp.ofMaster m.source = false) : s.ptpTake m = s := by
  unfold State.ptpTake
  dsimp only
  rw [h]
  exact if_pos ((Bool.not_eq_true' _).mpr hm)

theorem State.ptpTake_followUp {b : Int} (h : m.body = .followUp origin) (hm : s.time.ptp.ofMaster m.source = true)
    (hb : s.time.ptp.begun = some (m.seq.val, b)) : s.ptpTake m = s.ptpExchange (b - (origin * 65536 + m.correction)) := by
  unfold State.ptpTake
  dsimp only
  rw [h, hb]
  exact if_pos ((Bool.and_eq_true _ _).mpr ⟨hm, beq_self_eq_true _⟩)

theorem State.ptpTake_managementGet (h : m.body = .managementGet) : s.ptpTake m = s.ptpAnswer m.seq.val [.got m.source] := by
  unfold State.ptpTake
  rw [h]

end

/-- The state that a valid exchange leaves before the next delay request. -/
theorem State.ptpExchange_of_delay {ahead d : Int} (h : s.time.ptp.delay = some d) :
    let p := { s.time.ptp with ahead := some ahead, begun := none, syncRun := s.time.ptp.syncRun + 1, offset := ahead - d }
    s.ptpExchange ahead = ((s.withPtp p).timeStatus (fun u =>
      let back := u.setTimeStat F.TIME_STAT.PTP_PRESENT true
      let v := if p.syncRun < 16 ∨ fbit u.time.timeStat F.TIME_STAT.PTP_PRESENT = true then u
        else if back.freqInput = 3 then back.leaveHoldover else back
      if fbit v.time.timeStat F.TIME_STAT.PTP_PRESENT = true ∧ v.usesPtp = true
        then State.phaseGiven (divHalfAway (ahead - d) 16384) { v with time := { v.time with seconds := true } } else v)).ptpAsk := by
  unfold State.ptpExchange
  dsimp only
  rw [h]
  refine congrArg State.ptpAsk (State.timeStatus_congr ?_)
  simp only [Bool.or_eq_true, Bool.and_eq_true, decide_eq_true_eq]
  rfl

/-- Which of the two timeouts comes first. -/
theorem PtpPort.syncFirst_iff (p : PtpPort) : p.syncFirst = true ↔
    p.syncRun ≠ 0 ∧ p.syncUp + 4 * ptpInterval p.logSync < p.announceUp + p.receiptTimeout * ptpInterval p.logAnnounce := by
  unfold PtpPort.syncFirst PtpPort.syncEnd PtpPort.announceEnd
  rw [Bool.and_eq_true, bne_iff_ne, decide_eq_true_eq]

end

/-- Settles O38: the references' rows, the loop and the steps, the messages of PTP and its timeouts. -/
theorem timeFollowsItsReferences : Obligations.TimeFollowsItsReferences := by
  unfold Obligations.TimeFollowsItsReferences
  intro Takes
  refine ⟨⟨fun stamp s => ⟨fun huse hlock herr hdis => ?_, fun htake => ?_⟩, secondError_near, fun s hp => if_neg (by simp [hp]), fun s => rfl,
    fun ppb s h => if_neg (by omega), fun ppb s h => if_pos h, fun s h => State.enterHoldover_begins h, fun old s h => State.judgeSource_same h, fun u s h => ?_,
    fun locked s => ⟨rfl, rfl⟩⟩, ⟨fun freq err elapsed locked s => ?_, fun s h => if_pos h, fun s h => timeStep_moves h, fun s h => ppsOutPulse_rises h⟩,
    fun m s h => ptpEventMessage_of_other h, fun m s h hu => ?_, fun m s h hu hd => ?_, fun m s h hu hd => ⟨fun c utc hb => ?_, fun k origin c hb hm hk => ?_,
    fun twoStep origin hb hm => ?_, fun origin k c b hb hm hk hbegun => ?_, fun hb => ?_⟩, fun ahead d s h => State.ptpExchange_of_delay h, fun send t s => ?_,
    fun s => ?_⟩
  case refine_1 =>
    refine if_pos ?_
    simp only [Bool.and_eq_true, decide_eq_true_eq, Bool.not_eq_true']
    exact ⟨⟨⟨huse, hlock⟩, herr⟩, hdis⟩
  case refine_2 =>
    refine (if_neg fun hn => ?_).trans ?_
    · simp only [Bool.and_eq_true, decide_eq_true_eq, Bool.not_eq_true'] at hn
      obtain ⟨⟨⟨huse, hlock⟩, herr⟩, hdis⟩ := hn
      rcases htake with h | h | h | h
      · exact Bool.noConfusion (huse.symm.trans h)
      · exact Bool.noConfusion (hlock.symm.trans h)
      · omega
      · exact Bool.noConfusion (h.symm.trans hdis)
    · refine congrArg Host.Outcome.next (State.timeStatus_congr ?_)
      simp only [Bool.or_eq_true, Bool.not_eq_true']
      rfl
  case refine_3 =>
    change execHoldoverLimit s = _
    unfold execHoldoverLimit
    rw [h]
  case refine_4 =>
    intro p hen h0 h7 hhold hest
    have hfree : ¬ (!fbit p.time.cfg F.TB_CFG.ENABLE || p.srcInUse == 0 || p.srcInUse == 7 || p.time.holdUp.isSome) = true := by
      rw [show fbit p.time.cfg F.TB_CFG.ENABLE = true from hen, show p.srcInUse = s.srcInUse from rfl, show p.time.holdUp = none from hhold]
      simp [h0, h7]
    exact ⟨p.disciplined freq err locked, clampAbs ppm50 (p.estimate freq + p.pull err), if_neg hfree, (loopEstimate_bounds hest).1, (loopEstimate_bounds hest).2, rfl,
      clampAbs_le (by decide), State.correction_near (s := p) hest, rfl, rfl, rfl⟩
  case refine_5 =>
    rw [ptpEventMessage_of_takes h, if_pos hu]
  case refine_6 =>
    rw [ptpEventMessage_of_takes h, if_neg (by simp [hu]), if_pos (by simpa using hd)]
  case refine_7 =>
    refine ⟨s.time.ptp.announced (s.untilTime m.sfd).ownClock (s.untilTime m.sfd).time.up m.source c utc, ?_, PtpPort.announced_heard.1,
      PtpPort.announced_heard.2, fun hh hm => PtpPort.announced_first hh hm, fun x hx hsrc hup hm hsteps hrole => PtpPort.announced_second hx hsrc hup hm hsteps hrole,
      fun k c0 hm hk hc => PtpPort.announced_worse hm hk hc⟩
    rw [ptpEventMessage_of_domain h hu hd, State.ptpTake_announce hb, State.ptpAnnounce_eq]
    rfl
  case refine_8 =>
    rw [ptpEventMessage_of_domain h hu hd, State.ptpTake_sync (s := s.untilTime m.sfd) hb hm hk]
    rfl
  case refine_9 =>
    rw [ptpEventMessage_of_domain h hu hd, State.ptpTake_sync_of_other (s := s.untilTime m.sfd) hb (PtpPort.ofMaster_of_other hm)]
  case refine_10 =>
    rw [ptpEventMessage_of_domain h hu hd, State.ptpTake_followUp (s := s.untilTime m.sfd) hb ((PtpPort.ofMaster_of_master hm).trans (beq_iff_eq.mpr hk)) hbegun]
  case refine_11 =>
    rw [ptpEventMessage_of_domain h hu hd, State.ptpTake_managementGet hb]
  case refine_12 =>
    unfold State.ptpStamp
    cases send
    · simp only [Bool.false_eq_true, if_false]; ring
    · simp only [if_true]; ring
  case refine_13 =>
    intro p sync announce first q t
    change execPtpTimeout s = _
    unfold execPtpTimeout
    dsimp only
    by_cases hfirst : first
    · have hsync : s.time.ptp.syncFirst = true := (PtpPort.syncFirst_iff _).mpr hfirst
      have hq : q = { p with syncRun := 0 } := if_pos hfirst
      have ht : t = sync := if_pos hfirst
      rw [hq, ht, hsync]
      rfl
    · have hsync : s.time.ptp.syncFirst = false := (Bool.not_eq_true _).mp (fun h => hfirst ((PtpPort.syncFirst_iff _).mp h))
      have hq : q = { p.forget with master := none, leads := decide (p.role = 1) } := if_neg hfirst
      have ht : t = announce := if_neg hfirst
      rw [hq, ht, hsync]
      rfl

end Sys2Proof.Machine

/-! SUPPORT. Mailbox queues (R341 to R349). -/

namespace Sys2Proof.Machine

section
variable {s : State} {p : Path} {c : Nat}

/-! ### Accesses that are turned away -/

theorem vset_vset {α : Type} {n i : Nat} {v : Vector α n} {x y : α} : vset (vset v i x) i y = vset v i y :=
  Vector.setIfInBounds_setIfInBounds ..

/-- What a read returns replaces what the read before it returned. -/
theorem State.setChan_returned_returned (m : Mailbox) (ws vs : List Word) :
    ((s.returned p ws).setChan c m).returned p vs = (s.returned p vs).setChan c m :=
  congrArg (fun r => ({ s with host := { s.host with readBack := r } }).setChan c m) vset_vset

theorem State.mbAccess_of_off (effect : State → State) (h : s.mbAvailable = false) : s.mbAccess p c effect = s.domainError p :=
  if_pos (by rw [h]; rfl)

theorem State.mbAccess_of_denied (effect : State → State) (h : s.mbAvailable = true) (hc : s.carrierAllowed p c = false) :
    s.mbAccess p c effect = if c = 4 ∨ c = 5 then s.countDenied else s := by
  refine (if_neg (by simp [h])).trans ((if_pos (by simp [hc])).trans ?_)
  simp only [Bool.or_eq_true, beq_iff_eq]

theorem State.mbAccess_of_allowed (effect : State → State) (h : s.mbAvailable = true) (hc : s.carrierAllowed p c = true) :
    s.mbAccess p c effect = effect s :=
  (if_neg (by simp [h])).trans (if_neg (by simp [hc]))

/-! ### Words in -/

theorem Mailbox.inFull_iff (m : Mailbox) : m.inFull = true ↔ ∃ h rest, m.inq = h :: rest ∧ nbits h.toNat 0 4 + 1 ≤ m.inq.length := by
  unfold Mailbox.inFull
  cases hq : m.inq with
  | nil => simp
  | cons h rest =>
    refine ⟨fun hn => ⟨h, rest, rfl, of_decide_eq_true hn⟩, fun ⟨h', rest', heq, hn⟩ => ?_⟩
    cases heq
    exact decide_eq_true hn

theorem Mailbox.inFull_congr {m m' : Mailbox} (h : m.inq = m'.inq) : m.inFull = m'.inFull := by
  unfold Mailbox.inFull
  rw [h]

theorem State.pushWord_of_full (w : Word) (h : (s.chan c).inFull = true) :
    s.pushWord c w = s.setChan c { s.chan c with stat := fset (s.chan c).stat F.MB_STAT.IN_OVF 1 } :=
  if_pos h

theorem State.pushWord_partial (w : Word) (h : (s.chan c).inFull = false)
    (hf : ({ s.chan c with inq := (s.chan c).inq ++ [w] } : Mailbox).inFull = false) :
    s.pushWord c w = s.setChan c { s.chan c with inq := (s.chan c).inq ++ [w] } :=
  (if_neg (by simp [h])).trans (if_neg (by simp [hf]))

theorem State.pushWord_completes (w : Word) (h : (s.chan c).inFull = false)
    (hf : ({ s.chan c with inq := (s.chan c).inq ++ [w] } : Mailbox).inFull = true) :
    s.pushWord c w = (s.setChan c (({ s.chan c with
      inq := (s.chan c).inq ++ [w], count := finc (s.chan c).count F.MB_COUNT.IN_MSGS } : Mailbox).timer s.time.up false)).ringH2d c :=
  (if_neg (by simp [h])).trans (if_pos hf)

/-- A word meets a full queue, joins a partial message, or completes one. -/
theorem State.pushWord_effect (w : Word) (hc : c < 8) :
    ((s.chan c).inFull = true → ((s.pushWord c w).chan c).inq = (s.chan c).inq ∧ fbit ((s.pushWord c w).chan c).stat F.MB_STAT.IN_OVF = true ∧
      (s.pushWord c w).mb.dbH2d = s.mb.dbH2d) ∧
    ((s.chan c).inFull = false → ((s.pushWord c w).chan c).inq = (s.chan c).inq ++ [w] ∧
      (((s.pushWord c w).chan c).inFull = true → nbit (s.pushWord c w).mb.dbH2d.toNat c = true ∧
        ((s.pushWord c w).chan c).count = finc (s.chan c).count F.MB_COUNT.IN_MSGS) ∧
      (((s.pushWord c w).chan c).inFull = false → (s.pushWord c w).mb.dbH2d = s.mb.dbH2d)) ∧
    ((s.pushWord c w).chan c).outq = (s.chan c).outq ∧ ∀ d, d ≠ c → (s.pushWord c w).chan d = s.chan d := by
  cases h : (s.chan c).inFull with
  | true =>
    rw [State.pushWord_of_full w h, State.chan_setChan_self hc]
    exact ⟨fun _ => ⟨rfl, fbit_fset (by decide), rfl⟩, fun hn => Bool.noConfusion hn, rfl, fun d hd => State.chan_setChan_ne hd.symm⟩
  | false =>
    cases hf : ({ s.chan c with inq := (s.chan c).inq ++ [w] } : Mailbox).inFull with
    | false =>
      rw [State.pushWord_partial w h hf, State.chan_setChan_self hc]
      exact ⟨fun hn => Bool.noConfusion hn, fun _ => ⟨rfl, fun hn => Bool.noConfusion (hf.symm.trans hn), fun _ => rfl⟩, rfl,
        fun d hd => State.chan_setChan_ne hd.symm⟩
    | true =>
      rw [State.pushWord_completes w h hf]
      generalize hx : ({ s.chan c with
        inq := (s.chan c).inq ++ [w], count := finc (s.chan c).count F.MB_COUNT.IN_MSGS } : Mailbox).timer s.time.up false = x
      have hq : x.inq = (s.chan c).inq ++ [w] := by rw [← hx]; exact Mailbox.timer_inq ..
      have ho : x.outq = (s.chan c).outq := by rw [← hx]; exact Mailbox.timer_outq ..
      have hn : x.count = finc (s.chan c).count F.MB_COUNT.IN_MSGS := by rw [← hx]; exact Mailbox.timer_count ..
      have hself : ((s.setChan c x).ringH2d c).chan c = x := State.chan_setChan_self hc
      rw [hself]
      refine ⟨fun hn => Bool.noConfusion hn, fun _ => ⟨hq, fun _ => ⟨nbit_or_one_shift (by omega), hn⟩, fun hp => ?_⟩, ho,
        fun d hd => State.chan_setChan_ne hd.symm⟩
      exact Bool.noConfusion (hp.symm.trans ((Mailbox.inFull_congr (by exact hq)).trans hf))

/-! ### Words out -/

/-- What reads of `n` words of channel `c` leave. -/
structure State.PoppedTo (c n : Nat) (s u : State) : Prop where
  outq : (u.chan c).outq = (s.chan c).outq.drop n
  inq : (u.chan c).inq = (s.chan c).inq
  under : fbit (s.chan c).stat F.MB_STAT.OUT_UNDER = true ∨ (s.chan c).outq.length < n → fbit (u.chan c).stat F.MB_STAT.OUT_UNDER = true
  others : ∀ d, d ≠ c → u.chan d = s.chan d
  fw : u.fw = s.fw
  bells : u.mb.dbD2h = s.mb.dbD2h

theorem Mailbox.timer_stat (m : Mailbox) (up : Nat) (b : Bool) : (m.timer up b).stat = m.stat := by
  unfold Mailbox.timer
  split <;> rfl

theorem State.popWord_of_empty (h : (s.chan c).outq = []) :
    s.popWord c = (0, s.setChan c { s.chan c with stat := fset (s.chan c).stat F.MB_STAT.OUT_UNDER 1 }) := by
  unfold State.popWord
  dsimp only
  rw [h]

theorem State.popWord_of_cons {w : Word} {rest : List Word} (h : (s.chan c).outq = w :: rest) :
    s.popWord c = (w, s.setChan c (({ s.chan c with outq := rest } : Mailbox).timer s.time.up true)) := by
  unfold State.popWord
  dsimp only
  rw [h]

/-- Reads past the end of the queue give 0. -/
theorem State.popWords_words (hc : c < 8) (n k : Nat) (hk : n ≤ (s.chan c).outq.length + k) :
    (State.popWords c n s).1 = ((s.chan c).outq ++ List.replicate k 0).take n := by
  induction n generalizing s k with
  | zero => rfl
  | succ n ih =>
    cases hq : (s.chan c).outq with
    | nil =>
      rw [hq] at hk
      obtain ⟨j, rfl⟩ := Nat.exists_eq_add_one_of_ne_zero (n := k) (by simp at hk; omega)
      change (s.popWord c).1 :: (State.popWords c n (s.popWord c).2).1 = _
      rw [State.popWord_of_empty hq]
      dsimp only
      rw [ih j (by rw [State.chan_setChan_self hc, hq]; simp at hk ⊢; omega), State.chan_setChan_self hc, hq]
      rfl
    | cons w rest =>
      rw [hq] at hk
      change (s.popWord c).1 :: (State.popWords c n (s.popWord c).2).1 = _
      rw [State.popWord_of_cons hq]
      dsimp only
      rw [ih k (by rw [State.chan_setChan_self hc, Mailbox.timer_outq]; simp at hk ⊢; omega), State.chan_setChan_self hc, Mailbox.timer_outq]
      rfl

theorem State.popWord_popped (hc : c < 8) : State.PoppedTo c 1 s (s.popWord c).2 := by
  cases hq : (s.chan c).outq with
  | nil =>
    rw [State.popWord_of_empty hq]
    refine ⟨?_, ?_, fun _ => ?_, fun d hd => State.chan_setChan_ne hd.symm, rfl, rfl⟩ <;> rw [State.chan_setChan_self hc]
    · simp [hq]
    · exact fbit_fset (by decide)
  | cons w rest =>
    rw [State.popWord_of_cons hq]
    refine ⟨?_, ?_, fun h => ?_, fun d hd => State.chan_setChan_ne hd.symm, rfl, rfl⟩ <;> rw [State.chan_setChan_self hc]
    · rw [Mailbox.timer_outq, hq]
      rfl
    · exact Mailbox.timer_inq ..
    · rw [Mailbox.timer_stat]
      refine h.elim id fun hl => ?_
      rw [hq] at hl
      simp at hl

theorem State.popWords_popped (hc : c < 8) (n : Nat) : State.PoppedTo c n s (State.popWords c n s).2 := by
  induction n generalizing s with
  | zero => exact ⟨rfl, rfl, fun h => h.elim id fun hl => absurd hl (Nat.not_lt_zero _), fun _ _ => rfl, rfl, rfl⟩
  | succ n ih =>
    have h1 : State.PoppedTo c 1 s (s.popWord c).2 := State.popWord_popped hc
    have h2 : State.PoppedTo c n (s.popWord c).2 (State.popWords c (n + 1) s).2 := ih
    refine ⟨?_, h2.inq.trans h1.inq, fun h => h2.under ?_, fun d hd => (h2.others d hd).trans (h1.others d hd), h2.fw.trans h1.fw,
      h2.bells.trans h1.bells⟩
    · rw [h2.outq, h1.outq, List.drop_drop, Nat.add_comm]
    · rcases h with hb | hl
      · exact .inl (h1.under (.inl hb))
      · rw [h1.outq, List.length_drop]
        by_cases he : (s.chan c).outq.length < 1
        · exact .inl (h1.under (.inr he))
        · exact .inr (by omega)

theorem mbOutRead_pops {c : Fin 8} {n m : Fin 17} (h : s.mbAvailable = true) (hc : s.carrierAllowed p c.val = true) :
    ∃ u : State, exec (.mbOutRead p c n m true) s = .next (u.returned p (((s.chan c.val).outq ++ List.replicate 16 0).take (min m.val (16 - n.val)))) ∧
      (u.chan c.val).outq = (s.chan c.val).outq.drop (min m.val (16 - n.val)) ∧ (u.chan c.val).inq = (s.chan c.val).inq ∧
      ((s.chan c.val).outq.length < min m.val (16 - n.val) → fbit (u.chan c.val).stat F.MB_STAT.OUT_UNDER = true) ∧
      (∀ d, d ≠ c.val → u.chan d = s.chan d) ∧ u.fw = s.fw ∧ u.mb.dbD2h = s.mb.dbD2h := by
  have hp : State.PoppedTo c.val (min m.val (16 - n.val)) (s.returned p [0]) (State.popWords c.val (min m.val (16 - n.val)) (s.returned p [0])).2 :=
    State.popWords_popped c.isLt _
  have hw : (State.popWords c.val (min m.val (16 - n.val)) (s.returned p [0])).1 =
      ((s.chan c.val).outq ++ List.replicate 16 0).take (min m.val (16 - n.val)) :=
    State.popWords_words c.isLt _ 16 (by omega)
  refine ⟨_, ?_, hp.outq, hp.inq, fun hl => hp.under (.inr hl), hp.others, hp.fw, hp.bells⟩
  rw [← hw]
  exact congrArg Host.Outcome.next (State.mbAccess_of_allowed (s := s.returned p [0]) (fun t => t.mbOutEffect p c.val n.val m.val true) h hc)

/-! ### Stalls and sleep -/

theorem mbStallTimeout_reports {c : Fin 8} {u : Nat} (h : (s.chan c.val).stallUp = some u) : ∃ x : Mailbox,
    exec (.mbStallTimeout c) s = .next (((((s.untilUp (u + s.stallMs * ms)).setChan c.val x).ring 10).ringH2d 15).report srcMailboxStall c.val) ∧
      fbit x.stat F.MB_STAT.STALL = true ∧ fget x.stat F.MB_STAT.STALLS = fget (finc (s.chan c.val).stat F.MB_STAT.STALLS) F.MB_STAT.STALLS ∧
      x.inq = (s.chan c.val).inq ∧ x.outq = (s.chan c.val).outq := by
  refine ⟨{ s.chan c.val with
    stat := finc (fset (s.chan c.val).stat F.MB_STAT.STALL 1) F.MB_STAT.STALLS, stallUp := some (s.untilUp (u + s.stallMs * ms)).time.up },
    ?_, ?_, ?_, rfl, rfl⟩
  · change execMbStallTimeout c s = _
    unfold execMbStallTimeout
    rw [h]
    rfl
  · exact (fbit_finc_ne (by decide) (by decide)).trans (fbit_fset (by decide))
  · dsimp only
    rw [fget_finc (by decide), fget_finc (by decide), fget_fset_ne (by decide) (by decide)]

theorem mailboxWake_wakes (w : Word) (s : State) :
    ∃ avail, exec (.mailboxWake w) s = .next { s with mb := { s.mb with dbH2d := s.mb.dbH2d ||| (w &&& 0x07FFFFFF), avail } } ∧
      (w &&& 0x07FFFFFF ≠ 0 → fget s.mb.avail F.MB_AVAIL.STATE = 2 → fget avail F.MB_AVAIL.STATE = 0) ∧
      ((w &&& 0x07FFFFFF = 0 ∨ fget s.mb.avail F.MB_AVAIL.STATE ≠ 2) → avail = s.mb.avail) := by
  by_cases h : w &&& 0x07FFFFFF ≠ 0 ∧ fget s.mb.avail F.MB_AVAIL.STATE = 2
  · refine ⟨fset s.mb.avail F.MB_AVAIL.STATE 0, if_pos ?_, fun _ _ => fget_fset (by decide), fun hn => ?_⟩
    · rw [Bool.and_eq_true]
      exact ⟨bne_iff_ne.mpr h.1, beq_iff_eq.mpr h.2⟩
    · exact absurd h (by tauto)
  · refine ⟨s.mb.avail, if_neg ?_, fun h1 h2 => absurd ⟨h1, h2⟩ h, fun _ => rfl⟩
    rw [Bool.and_eq_true, bne_iff_ne, beq_iff_eq]
    exact h

theorem mbSleep_stays (h : s.mbAvailable = false ∨ s.inRest = false ∨ s.mb.quiet = false) : exec .mbSleep s = .next s := by
  refine if_neg ?_
  simp only [Bool.and_eq_true]
  rintro ⟨⟨⟨ha, hr⟩, hq⟩, -⟩
  rcases h with h | h | h
  · exact Bool.noConfusion (h.symm.trans ha)
  · exact Bool.noConfusion (h.symm.trans hr)
  · exact Bool.noConfusion (h.symm.trans hq)

end

/-- Settles O39: an access is turned away by the state of the block, then by its carrier, and otherwise acts word by word; a read of
several words is followed word by word (`State.PoppedTo`). -/
theorem mailboxQueues : Obligations.MailboxQueues := by
  unfold Obligations.MailboxQueues
  refine ⟨⟨fun p c first n m ws whole s h => ?_, fun p c first n m ws whole s h hc => ?_, fun p c first n m ws s h hc => ?_,
    fun c w s hc => State.pushWord_effect w hc, Mailbox.inFull_iff⟩,
    fun c u s h => mbStallTimeout_reports h, fun s ha hr hq hb => ?_, fun s h => mbSleep_stays h, mailboxWake_wakes⟩
  · exact ⟨congrArg Host.Outcome.next (State.mbAccess_of_off _ h), congrArg Host.Outcome.next (State.mbAccess_of_off (s := s.returned p [0]) _ h),
      congrArg Host.Outcome.next (State.mbAccess_of_off _ h)⟩
  · exact ⟨congrArg Host.Outcome.next (State.mbAccess_of_denied _ h hc),
      congrArg Host.Outcome.next (State.mbAccess_of_denied (s := s.returned p [0]) _ h hc),
      congrArg Host.Outcome.next (State.mbAccess_of_denied _ h hc)⟩
  · refine ⟨congrArg Host.Outcome.next (State.mbAccess_of_allowed _ h hc),
      ⟨{ s.chan c.val with stat := fset (s.chan c.val).stat F.MB_STAT.SIZE_ERR 1 }, congrArg Host.Outcome.next (State.mbAccess_of_allowed _ h hc),
        fbit_fset (by decide), rfl, rfl⟩,
      ⟨{ s.chan c.val with stat := fset (s.chan c.val).stat F.MB_STAT.SIZE_ERR 1 }, ?_, fbit_fset (by decide), rfl⟩, mbOutRead_pops h hc,
      congrArg Host.Outcome.next (State.mbAccess_of_allowed _ h hc)⟩
    rw [← State.setChan_returned_returned _ [0] [0]]
    exact congrArg Host.Outcome.next (State.mbAccess_of_allowed (s := s.returned p [0]) (fun t => t.mbOutEffect p c.val n.val m.val false) h hc)
  · refine ⟨fset s.mb.avail F.MB_AVAIL.STATE 2, if_pos ?_, fget_fset (by decide)⟩
    rw [ha, hr, hq, hb]
    rfl

end Sys2Proof.Machine

/-! SUPPORT. Doorbells and MSI-X (R351, R384). -/

namespace Sys2Proof.Machine

section
variable {s : State}

theorem mem_onesOf {mask n v : Nat} : v ∈ onesOf mask n ↔ v < n ∧ nbit mask v = true := by simp [onesOf]

theorem onesOf_nodup (mask n : Nat) : (onesOf mask n).Nodup := List.nodup_range.filter _

theorem onesOf_one_shift {b : Nat} (hb : b < 32) : onesOf (1#32 <<< b).toNat 32 = [b] :=
  (by decide : ∀ i : Fin 32, onesOf (1#32 <<< i.val).toNat 32 = [i.val]) ⟨b, hb⟩

/-- Fields of words that agree on their bits are equal. -/
theorem fget_congr {w v : Word} {f : Fld} (h : ∀ i, i < f.len → w.getLsbD (f.lo + i) = v.getLsbD (f.lo + i)) : fget w f = fget v f := by
  have hx : w.extractLsb' f.lo f.len = v.extractLsb' f.lo f.len := by
    apply BitVec.eq_of_getLsbD_eq
    intro i hi
    simpa [BitVec.getLsbD_extractLsb', hi] using h i hi
  have hn := congrArg BitVec.toNat hx
  simpa [BitVec.extractLsb'_toNat, Nat.shiftRight_eq_div_pow, fget] using hn

/-! ### Doorbells -/

theorem State.setDoorbells_of_none {db mask : Word} (h : (db &&& ~~~mask) &&& ~~~s.hintPend = 0#32) :
    s.setDoorbells db mask = { s with mb := { s.mb with dbD2h := db, dbMask := mask } } := by
  unfold State.setDoorbells State.msixAll
  dsimp only
  rw [h]
  rfl

theorem dbD2hClear_clears (w : Word) (s : State) : exec (.dbD2hClear w) s = .next { s with mb := { s.mb with dbD2h := s.mb.dbD2h &&& ~~~w } } := by
  refine congrArg Host.Outcome.next (State.setDoorbells_of_none ?_)
  unfold State.hintPend
  apply BitVec.eq_of_getLsbD_eq
  intro i hi
  simp only [BitVec.getLsbD_and, BitVec.getLsbD_not, hi, decide_true, Bool.true_and, BitVec.getLsbD_zero]
  cases s.mb.dbD2h.getLsbD i <;> cases s.mb.dbMask.getLsbD i <;> simp

/-- The vectors that a new mask lets through. -/
theorem dbD2hMaskWrite_sends (w : Word) (s : State) : ∃ vs : List Nat,
    exec (.dbD2hMaskWrite w) s = .next (vs.foldl (fun t v => t.msixCause v) { s with mb := { s.mb with dbMask := w } }) ∧ vs.Nodup ∧
      ∀ v, v ∈ vs ↔ v < 32 ∧ nbit s.mb.dbD2h.toNat v = true ∧ nbit s.mb.dbMask.toNat v = true ∧ nbit w.toNat v = false := by
  refine ⟨onesOf ((s.mb.dbD2h &&& ~~~w) &&& ~~~s.hintPend).toNat 32, rfl, onesOf_nodup _ _, fun v => ?_⟩
  rw [mem_onesOf]
  refine and_congr_right fun hv => ?_
  unfold State.hintPend
  rw [nbit_toNat, nbit_toNat, nbit_toNat, nbit_toNat]
  simp only [BitVec.getLsbD_and, BitVec.getLsbD_not, hv, decide_true, Bool.true_and]
  cases s.mb.dbD2h.getLsbD v <;> cases s.mb.dbMask.getLsbD v <;> simp

/-- The bit that ringing makes pending, if any. -/
theorem ring_rising {d m : Word} {b i : Nat} (hi : i < 32) :
    (((d ||| (1#32 <<< b)) &&& ~~~m) &&& ~~~(d &&& ~~~m)).getLsbD i = (decide (i = b) && !d.getLsbD i && !m.getLsbD i) := by
  have hone : (1#32 <<< b).getLsbD i = decide (i = b) := by
    simp only [BitVec.getLsbD_shiftLeft, BitVec.getLsbD_one, hi]
    by_cases h : i = b
    · simp [h]
    · have : ¬ (b ≤ i ∧ i - b = 0) := by omega
      simp [h]
      omega
  simp only [BitVec.getLsbD_and, BitVec.getLsbD_or, BitVec.getLsbD_not, hone, hi, decide_true, Bool.true_and]
  cases d.getLsbD i <;> cases m.getLsbD i <;> simp

theorem State.ring_silent {b : Nat} (h : nbit s.mb.dbD2h.toNat b = true ∨ nbit s.mb.dbMask.toNat b = true) :
    s.ring b = { s with mb := { s.mb with dbD2h := s.mb.dbD2h ||| (1#32 <<< b) } } := by
  rw [nbit_toNat, nbit_toNat] at h
  refine State.setDoorbells_of_none ?_
  apply BitVec.eq_of_getLsbD_eq
  intro i hi
  unfold State.hintPend
  rw [ring_rising hi]
  by_cases hb : i = b
  · subst hb
    rcases h with h | h <;> simp [h]
  · simp [hb]

theorem State.ring_sends {b : Nat} (hb : b < 32) (hd : nbit s.mb.dbD2h.toNat b = false) (hm : nbit s.mb.dbMask.toNat b = false) :
    s.ring b = ({ s with mb := { s.mb with dbD2h := s.mb.dbD2h ||| (1#32 <<< b) } }).msixCause b := by
  rw [nbit_toNat] at hd hm
  have hr : ((s.mb.dbD2h ||| (1#32 <<< b)) &&& ~~~s.mb.dbMask) &&& ~~~s.hintPend = 1#32 <<< b := by
    apply BitVec.eq_of_getLsbD_eq
    intro i hi
    unfold State.hintPend
    rw [ring_rising hi]
    by_cases h : i = b
    · subst h
      rw [hd, hm]
      simp [hi]
    · simp only [h, decide_false, Bool.false_and]
      simp
      omega
  unfold State.ring State.setDoorbells State.msixAll
  dsimp only
  rw [hr, onesOf_one_shift hb]
  rfl

/-! ### Messages -/

theorem State.msixCause_disabled (v : Nat) (he : fbit s.host.hintCfg F.HINT_CFG.ENABLE = false) : s.msixCause v = s :=
  if_pos (by simp [he])

theorem State.msixCause_first {v : Nat} (he : fbit s.host.hintCfg F.HINT_CFG.ENABLE = true)
    (hf : s.msix.lastUp.find? (fun p => p.1 == v) = none) : s.msixCause v = s.msixSend v := by
  unfold State.msixCause
  rw [if_neg (by simp [he]), hf]

theorem State.msixCause_late {v : Nat} {p : Nat × Nat} (he : fbit s.host.hintCfg F.HINT_CFG.ENABLE = true)
    (hf : s.msix.lastUp.find? (fun p => p.1 == v) = some p) (ht : p.2 + s.holdoff ≤ s.time.up) : s.msixCause v = s.msixSend v := by
  unfold State.msixCause
  rw [if_neg (by simp [he]), hf]
  exact if_neg (by omega)

/-- A cause within the holdoff is owed, once. -/
theorem State.msixCause_early {v : Nat} {p : Nat × Nat} (he : fbit s.host.hintCfg F.HINT_CFG.ENABLE = true)
    (hf : s.msix.lastUp.find? (fun p => p.1 == v) = some p) (ht : s.time.up < p.2 + s.holdoff) :
    ∃ owed, s.msixCause v = { s with msix := { s.msix with owed } } ∧ v ∈ owed ∧ (∀ x, x ∈ owed ↔ x ∈ s.msix.owed ∨ x = v) := by
  have hrun : s.msixCause v = if s.msix.owed.contains v then s else { s with msix := { s.msix with owed := s.msix.owed ++ [v] } } := by
    unfold State.msixCause
    rw [if_neg (by simp [he]), hf]
    exact if_pos ht
  by_cases hc : v ∈ s.msix.owed
  · refine ⟨s.msix.owed, hrun.trans (if_pos (List.contains_iff_mem.mpr hc)), hc, fun x => ⟨.inl, ?_⟩⟩
    rintro (h | rfl)
    · exact h
    · exact hc
  · exact ⟨s.msix.owed ++ [v], hrun.trans (if_neg (by simpa using hc)), by simp, by simp⟩

theorem State.msixSend_masked {v : Nat} (h : nbit s.msix.tableMask.toNat v = true) :
    s.msixSend v = { s with msix := { s.msix with pba := s.msix.pba ||| (1#32 <<< v) } } :=
  if_pos h

theorem State.msixSend_sent {v : Nat} (h : nbit s.msix.tableMask.toNat v = false) :
    (s.msixSend v).msix.sent = s.msix.sent ++ [v] ∧ (s.msixSend v).msix.pba = s.msix.pba ∧ (s.msixSend v).mb = s.mb ∧
      (s.msixSend v).host.hintSent = s.host.hintSent + 1 := by
  unfold State.msixSend
  rw [if_neg (by simp [h])]
  exact ⟨rfl, rfl, rfl, rfl⟩

/-! ### HINT_CFG -/

/-- One bit of a register after a write (R6). -/
theorem regWrite_bit (k : RegKind) (en : Bool) (old w : Word) {b : Nat} (hb : b < 32) :
    (regWrite k en old w).word.getLsbD b =
      (((bif k.rw.getLsbD b || (!en && k.rwe.getLsbD b) || k.keep.getLsbD b then w.getLsbD b else old.getLsbD b) &&
        !(w.getLsbD b && k.w1c.getLsbD b)) || (w.getLsbD b && k.w1s.getLsbD b)) := by
  have hones : (0xFFFFFFFF#32).getLsbD b = true := (by decide : ∀ i : Fin 32, (0xFFFFFFFF#32).getLsbD i.val = true) ⟨b, hb⟩
  unfold regWrite regWriteSel
  cases en <;>
    simp only [BitVec.getLsbD_or, BitVec.getLsbD_and, BitVec.getLsbD_not, BitVec.ofNat_eq_ofNat, hones, hb, if_true, if_false, Bool.false_eq_true,
      BitVec.getLsbD_zero, decide_true, Bool.and_true, Bool.true_and, Bool.not_true, Bool.not_false, Bool.false_and, Bool.or_false]
  · cases k.rw.getLsbD b <;> cases k.rwe.getLsbD b <;> cases k.keep.getLsbD b <;> simp
  · cases k.rw.getLsbD b <;> cases k.keep.getLsbD b <;> simp

/-- With ENABLE at 0 every bit of HINT_CFG takes the written value. -/
theorem hintCfg_written_bit (old w : Word) {i : Nat} (hi : i < 16) : (regWrite F.HINT_CFG.kind false old w).word.getLsbD i = w.getLsbD i := by
  have htake : ∀ j : Fin 16, (F.HINT_CFG.kind.rw.getLsbD j || (!false && F.HINT_CFG.kind.rwe.getLsbD j) || F.HINT_CFG.kind.keep.getLsbD j) = true := by
    decide
  rw [regWrite_bit _ _ _ _ (by omega), htake ⟨i, hi⟩]
  simp [F.HINT_CFG.kind]

theorem hintEnableSet_sends (p : Path) (w : Word) (he : fbit s.host.hintCfg F.HINT_CFG.ENABLE = false) : ∃ (hintCfg idStat : Word),
    fbit hintCfg F.HINT_CFG.ENABLE = fbit w F.HINT_CFG.ENABLE ∧ fget hintCfg F.HINT_CFG.HOLDOFF_US = fget w F.HINT_CFG.HOLDOFF_US ∧
    let t := { s with host := { s.host with hintCfg, idStat } }
    exec (.hintEnableSet p w) s = .next (if fbit w F.HINT_CFG.ENABLE then t.msixAll s.hintPend else t) := by
  have hen : fbit (regWrite F.HINT_CFG.kind false s.host.hintCfg w).word F.HINT_CFG.ENABLE = fbit w F.HINT_CFG.ENABLE :=
    congrArg (· != 0) (fget_congr fun i hi => hintCfg_written_bit _ _ (by simp [F.HINT_CFG.ENABLE] at hi ⊢; omega))
  refine ⟨(regWrite F.HINT_CFG.kind false s.host.hintCfg w).word,
    if (regWrite F.HINT_CFG.kind false s.host.hintCfg w).keepAltered then fset s.host.idStat F.ID_STAT.KEEP_ALTERED 1 else s.host.idStat,
    hen, fget_congr fun i hi => hintCfg_written_bit _ _ (by simp [F.HINT_CFG.HOLDOFF_US] at hi ⊢; omega), ?_⟩
  refine congrArg Host.Outcome.next ?_
  unfold State.writeHintCfg
  dsimp only
  rw [he]
  change (if (!false && fbit (regWrite F.HINT_CFG.kind false s.host.hintCfg w).word F.HINT_CFG.ENABLE) = true then _ else _) = _
  rw [hen]
  rfl

end

/-- Settles O40: the bits that a doorbell write makes pending and unmasked are computed bit by bit; a cause is judged by the holdoff of its
vector, and a message by the table mask. -/
theorem doorbellsSendTheirMessages : Obligations.DoorbellsSendTheirMessages := by
  unfold Obligations.DoorbellsSendTheirMessages
  refine ⟨dbD2hClear_clears, dbD2hMaskWrite_sends, fun b s hb => ⟨State.ring_silent, State.ring_sends hb⟩, fun v s _ => ?_, fun v s h => ?_,
    fun p w s he => hintEnableSet_sends p w he⟩
  · exact ⟨State.msixCause_disabled v, State.msixCause_first, fun he p => State.msixCause_late he, fun he p => State.msixCause_early he,
      State.msixSend_masked, State.msixSend_sent⟩
  · exact if_neg (by rw [h]; decide)

end Sys2Proof.Machine

/-! SUPPORT. Values wider than a word (R251, R266, R314, R380, R381). -/

namespace Sys2Proof.Machine

section
variable {s : State} {p : Path} {i : Nat}

theorem wideCopy_lt (h : wideCopy p = some i) : i < 3 := by
  cases p <;> simp [wideCopy] at h <;> omega

/-! ### The snapshot mailbox -/

theorem wideCaptureDone_stores {ws : List Word} (hp : wideCopy p = some i) (hb : fbit (vget s.host.wide i {}).stat F.WIDE_STAT.BUSY = true)
    (hv : s.wideValue (fget (vget s.host.wide i {}).sel F.WIDE_SEL.INDEX) = some (some ws)) :
    exec (.wideCaptureDone p) s = .next (s.setWide i ((vget s.host.wide i {}).complete 0 (fget (vget s.host.wide i {}).sel F.WIDE_SEL.INDEX) ws)) := by
  change execWideCaptureDone p s = _
  unfold execWideCaptureDone
  rw [hp]
  dsimp only
  rw [if_neg (fun hn => Bool.noConfusion (hb.symm.trans ((Bool.not_eq_true' _).mp hn))), hv]

/-- A completed capture holds its words and its index, and is valid. -/
theorem WideMailbox.complete_whole (m : WideMailbox) {index : Nat} (ws : List Word) (h : index < 256) :
    fbit (m.complete 0 index ws).stat F.WIDE_STAT.VALID = true ∧ fbit (m.complete 0 index ws).stat F.WIDE_STAT.BUSY = false ∧
      fget (m.complete 0 index ws).stat F.WIDE_STAT.ERR = 0 ∧ fget (m.complete 0 index ws).stat F.WIDE_STAT.INDEX = index ∧
      ∀ j, j < 4 → vget (m.complete 0 index ws).data j 0 = wat ws j := by
  unfold WideMailbox.complete
  refine ⟨?_, ?_, ?_, ?_, fun j hj => ?_⟩
  · rw [fbit_fset_ne (by decide) (by decide), fbit_fset_ne (by decide) (by decide), fbit_fset (by decide)]
    rfl
  · rw [fbit_fset_ne (by decide) (by decide), fbit_fset_ne (by decide) (by decide), fbit_fset_ne (by decide) (by decide)]
    rfl
  · rw [fget_fset_ne (by decide) (by decide), fget_fset (by decide), Nat.zero_mod]
  · rw [fget_fset (by decide)]
    exact Nat.mod_eq_of_lt h
  · interval_cases j <;> rfl

theorem wideCaptureDone_idle (h : wideCopy p = none ∨ (∃ i, wideCopy p = some i ∧ fbit (vget s.host.wide i {}).stat F.WIDE_STAT.BUSY = false)) :
    exec (.wideCaptureDone p) s = .next s := by
  change execWideCaptureDone p s = _
  unfold execWideCaptureDone
  obtain hn | ⟨i, hi, hb⟩ := h
  · rw [hn]
  · rw [hi]
    exact if_pos ((Bool.not_eq_true' _).mpr hb)

theorem wideData3Read_reads (hp : wideCopy p = some i) : exec (.wideData3Read p) s = .next ((s.setWide i { vget s.host.wide i {} with
    stat := fset (vget s.host.wide i {}).stat F.WIDE_STAT.VALID 0 }).returned p [vget (vget s.host.wide i {}).data 3 0]) := by
  refine congrArg Host.Outcome.next ?_
  unfold State.readWide3
  rw [hp]

theorem pathReq_lt (p : Path) : pathReq p < 6 := by cases p <;> decide

/-! ### Latches -/

theorem vecFrameLoRead_latches (h : s.power.loft = true) : ∃ v : VectorUnit, exec .vecFrameLoRead s =
      .next (({ s with loft := { s.loft with vec := v } }).returned .study [w32 s.loft.vec.frameTime]) ∧
    v.latchBits = s.loft.vec.bits ∧ v.latchHi = w32 (s.loft.vec.frameTime / 2 ^ 32) ∧ v.latched = true ∧ v.bits = s.loft.vec.bits ∧
      v.frameTime = s.loft.vec.frameTime :=
  ⟨{ s.loft.vec with latchBits := s.loft.vec.bits, latchHi := w32 (s.loft.vec.frameTime / 2 ^ 32), latched := true }, if_neg (by simp [h]), rfl, rfl, rfl,
    rfl, rfl⟩

end

/-- Settles O42. -/
theorem snapshotsAreWhole : Obligations.SnapshotsAreWhole := by
  unfold Obligations.SnapshotsAreWhole
  refine ⟨⟨fun p i ws s hp hb hv => ?_, fun p s => wideCaptureDone_idle, fun p i s hp => ?_, fun i m s hi => ?_⟩,
    fun s h => vecFrameLoRead_latches h, fun u s h => ?_, fun n s h => ?_, fun s h => ?_, fun p ws s => ?_⟩
  · exact ⟨_, wideCaptureDone_stores hp hb hv, WideMailbox.complete_whole _ ws fget_lt⟩
  · exact ⟨_, wideData3Read_reads hp, fbit_fset (by decide), rfl, rfl⟩
  · exact ⟨vget_vset_self hi, fun j hj => vget_vset_ne hj.symm, rfl⟩
  · exact if_neg (by simp [h])
  · exact if_neg (by simp [h])
  · exact if_pos (by simp [h])
  · exact ⟨vget_vset_self (pathReq_lt p), fun q hq => vget_vset_ne hq.symm⟩

end Sys2Proof.Machine

/-! SUPPORT. Register writes by the type of each bit, and writes of single bits (R6, R374 to R379). -/

namespace Sys2Proof.Machine

section
variable {s : State}

/-! ### Bits of a register -/

theorem nbit_eq_fbit (w : Word) (b : Nat) : nbit w.toNat b = fbit w ⟨b, 1⟩ := by
  have hlt : w.toNat / 2 ^ b % 2 < 2 := Nat.mod_lt _ (by decide)
  unfold nbit fbit fget
  generalize hx : w.toNat / 2 ^ b % 2 = x at hlt
  have hx' : w.toNat / 2 ^ b % 2 ^ 1 = x := hx
  dsimp only
  rw [hx']
  interval_cases x <;> rfl

/-- A field written as a whole leaves the bits outside. -/
theorem nbit_fset_ne {w : Word} {f : Fld} {v b : Nat} (h : f.lo + f.len ≤ 32) (hb : f.lo + f.len ≤ b ∨ b < f.lo) :
    nbit (fset w f v).toNat b = nbit w.toNat b := by
  rw [nbit_eq_fbit, nbit_eq_fbit]
  exact fbit_fset_ne h (by simpa using hb)

/-- Two words differ under a mask where a bit of the mask does. -/
theorem masked_ne_iff {w old m : Word} : ((w &&& m &&& 0xFFFFFFFF) != (old &&& m &&& 0xFFFFFFFF)) = true ↔
    ∃ b, b < 32 ∧ nbit m.toNat b = true ∧ nbit w.toNat b ≠ nbit old.toNat b := by
  have hones : ∀ x : Word, x &&& 0xFFFFFFFF = x := fun x => BitVec.and_allOnes
  rw [bne_iff_ne, hones, hones]
  simp only [nbit_toNat]
  constructor
  · intro hne
    by_contra hall
    refine hne (BitVec.eq_of_getLsbD_eq fun i hi => ?_)
    rw [BitVec.getLsbD_and, BitVec.getLsbD_and]
    cases hm : m.getLsbD i with
    | false => simp
    | true =>
      by_contra hx
      exact hall ⟨i, hi, hm, fun he => hx (by rw [he])⟩
  · rintro ⟨b, -, hm, hne⟩ heq
    have hb := congrArg (·.getLsbD b) heq
    simp only [BitVec.getLsbD_and, hm, Bool.and_true] at hb
    exact hne hb

theorem regWrite_ignored_iff {k : RegKind} {en : Bool} {old w : Word} : (regWrite k en old w).ignored = true ↔
    en = true ∧ ∃ b, b < 32 ∧ nbit k.rwe.toNat b = true ∧ nbit w.toNat b ≠ nbit old.toNat b :=
  Bool.and_eq_true_iff.trans (and_congr_right fun _ => masked_ne_iff)

/-- A bit that is not selected keeps its value. -/
theorem regWriteSel_unselected (k : RegKind) (en : Bool) {sel : Word} (old w : Word) {b : Nat} (h : sel.getLsbD b = false) :
    (regWriteSel k en sel old w).word.getLsbD b = old.getLsbD b := by
  by_cases hb : b < 32
  · simp only [regWriteSel, BitVec.getLsbD_or, BitVec.getLsbD_and, BitVec.getLsbD_not, h, hb, Bool.and_false, decide_true, Bool.not_false, Bool.and_true,
      Bool.or_false]
  · rw [BitVec.getLsbD_of_ge _ _ (by omega), BitVec.getLsbD_of_ge _ _ (by omega)]

/-! ### Accesses -/

theorem hostWriteBytes_partial {p : Path} {off be : Nat} {w : Word} (hbe : be ≠ 15) (h : ¬ (0x400 ≤ off / 4 * 4 ∧ off / 4 * 4 < 0x800)) :
    s.hostWriteBytes p off be w = s.captureIgnored F.WI_STAT.PARTIAL (off / 4 * 4) (pathReq p) w :=
  (if_neg hbe).trans (if_neg h)

theorem State.captureIgnored_frame (block : Fld) (off req : Nat) (w : Word) :
    (s.captureIgnored block off req w).mb = s.mb ∧ (s.captureIgnored block off req w).time = s.time ∧ (s.captureIgnored block off req w).fc = s.fc ∧
      (s.captureIgnored block off req w).host.wiData = w :=
  ⟨rfl, rfl, rfl, rfl⟩

/-- What the capture of an ignored write holds. -/
theorem State.captureIgnored_holds (p : Path) {off : Nat} (w : Word) (hoff : off < 65536) :
    fbit (s.captureIgnored F.WI_STAT.PARTIAL off (pathReq p) w).host.wiStat F.WI_STAT.PARTIAL = true ∧
      fget (s.captureIgnored F.WI_STAT.PARTIAL off (pathReq p) w).host.wiCapt F.WI_CAPT.OFFSET = off ∧
      fget (s.captureIgnored F.WI_STAT.PARTIAL off (pathReq p) w).host.wiCapt F.WI_CAPT.REQ = pathReq p := by
  refine ⟨(fbit_finc_ne (by decide) (by decide)).trans (fbit_fset (by decide)), ?_, ?_⟩
  · exact (fget_fset_ne (by decide) (by decide)).trans ((fget_fset (by decide)).trans (Nat.mod_eq_of_lt hoff))
  · refine (fget_fset (by decide)).trans (Nat.mod_eq_of_lt ?_)
    have := pathReq_lt p
    simp only [F.WI_CAPT.REQ]
    omega

theorem registerWrite_hostMap (off : Fin 65536) (p : Path) (be : Fin 16) (w : Word) (s : State) :
    exec (.registerWrite .hostMap off p be w) s = .next (s.hostWriteBytes p off.val be.val w) := rfl

theorem aliasWrite_one (a : AliasAccess) (s : State) : exec (.aliasWrite [a]) s = .next (s.aliasWrite a) := by
  change Host.Outcome.next _ = _
  cases h : a.path <;> simp [h]

/-- Of an SPI write and a PCIe write of one cycle the PCIe one acts last. -/
theorem aliasWrite_two {a b : AliasAccess} (ha : a.path = .pcie) (hb : b.path = .spi) (s : State) :
    exec (.aliasWrite [a, b]) s = .next ((s.aliasWrite b).aliasWrite a) ∧ exec (.aliasWrite [b, a]) s = .next ((s.aliasWrite b).aliasWrite a) := by
  constructor <;> change Host.Outcome.next _ = _ <;> simp [ha, hb]

/-- A single-bit write of ID_STAT leaves the bits beside its own and KEEP_ALTERED. -/
theorem State.aliasWrite_idStat {a : AliasAccess} {b : Nat} (h : a.word.val = 3) (hb : b ≠ a.bit.val) (hk : b ≠ F.ID_STAT.KEEP_ALTERED.lo) :
    nbit (s.aliasWrite a).host.idStat.toNat b = nbit s.host.idStat.toNat b := by
  have hsel : (1#32 <<< a.bit.val).getLsbD b = false := by
    simp only [BitVec.getLsbD_shiftLeft, BitVec.getLsbD_one]
    by_cases hlt : b < a.bit.val
    · simp [hlt]
    · have : b - a.bit.val ≠ 0 := by omega
      simp [this]
  have hw : ∀ w, nbit (regWriteSel F.ID_STAT.kind false (1#32 <<< a.bit.val) s.host.idStat w).word.toNat b = nbit s.host.idStat.toNat b := by
    intro w
    rw [nbit_toNat, nbit_toNat]
    exact regWriteSel_unselected _ _ _ _ hsel
  unfold State.aliasWrite
  dsimp only
  rw [h, if_neg (by decide), if_pos (by decide)]
  dsimp only
  generalize (if a.v = true then 1#32 <<< a.bit.val else 0) = w
  cases (regWriteSel F.ID_STAT.kind false (1#32 <<< a.bit.val) s.host.idStat w).keepAltered with
  | true => exact (nbit_fset_ne (by decide) (by simp [F.ID_STAT.KEEP_ALTERED] at hk ⊢; omega)).trans (hw w)
  | false => exact hw w

theorem State.aliasWrite_elsewhere {a : AliasAccess} (h3 : a.word.val ≠ 3) (h80 : a.word.val ≠ 0x80) : s.aliasWrite a = s :=
  (if_neg (by omega)).trans (if_neg (by omega))

end

/-- Settles O45: each type of bit is read off the formula of one bit (`regWrite_bit`). -/
theorem registersByTypeAndAlias : Obligations.RegistersByTypeAndAlias := by
  unfold Obligations.RegistersByTypeAndAlias
  refine ⟨⟨fun k en old w b hb hc hs => ?_, fun k en old w b hb hc hs hrw hrwe hk => ?_, fun k en old w b hb hs hc hrw hrwe hk => ?_,
    fun k en old w => regWrite_ignored_iff, fun k en old w => masked_ne_iff, fun off p be w s => ?_, fun off p be w s hbe hoff => ?_⟩,
    aliasWrite_one, fun a b s ha hb => aliasWrite_two ha hb s, fun a s h b hb hk => State.aliasWrite_idStat h hb hk,
    fun a s h3 h80 => State.aliasWrite_elsewhere h3 h80⟩
  · simp only [nbit_toNat] at *
    rw [regWrite_bit _ _ _ _ hb, hc, hs]
    cases en <;> cases k.rw.getLsbD b <;> cases k.rwe.getLsbD b <;> cases k.keep.getLsbD b <;> simp
  · simp only [nbit_toNat] at *
    simp [regWrite_bit _ _ _ _ hb, hc, hs, hrw, hrwe, hk]
  · simp only [nbit_toNat] at *
    simp [regWrite_bit _ _ _ _ hb, hc, hs, hrw, hrwe, hk]
  · exact ⟨rfl, rfl, rfl, rfl, rfl, rfl, rfl, rfl, rfl, rfl⟩
  · obtain ⟨hbit, hofs, hreq⟩ := State.captureIgnored_holds (s := s) p (off := off.val / 4 * 4) w (by omega)
    obtain ⟨hmb, htime, hfc, hdata⟩ := State.captureIgnored_frame (s := s) F.WI_STAT.PARTIAL (off.val / 4 * 4) (pathReq p) w
    exact ⟨_, (registerWrite_hostMap ..).trans (congrArg Host.Outcome.next (hostWriteBytes_partial hbe hoff)), hbit, hdata, hofs, hreq, hmb, htime, hfc⟩

end Sys2Proof.Machine

/-! SUPPORT. The management SPI and the debug port (R326, R327, R342, R357). -/

namespace Sys2Proof.Machine

section
variable {s : State}

/-! ### Locks that are freed -/

theorem State.lockOwner_freeLocksOf (who : List Nat) {k : Nat} (hk : k < 32) :
    (s.freeLocksOf who).lockOwner k = if who.contains (s.lockOwner k) then 0 else s.lockOwner k := by
  unfold State.lockOwner State.freeLocksOf
  dsimp only
  rw [vget_map (d := 0) hk]
  split <;> rfl

/-! ### SPI -/

theorem nonempty_transaction {l : Nat} {cut : Bool} (h : 4 ≤ l) : ¬ (decide (l = 0) && !cut) = true := by
  rw [decide_eq_false (by omega), Bool.false_and]
  decide

theorem State.spiRead_length (n off : Nat) (s : State) : (State.spiRead n off s).1.length = n := by
  induction n generalizing off s with
  | zero => rfl
  | succ n ih => exact congrArg (· + 1) (ih _ _)

/-- The refusals of a word count and a range. -/
theorem spiBad_eq_zero {n off : Nat} : ((if (n = 0 || 16 < n : Bool) then 8 else 0) ||| (if 0x10000 < off + 4 * n then 2 else 0)) = 0 ↔
    1 ≤ n ∧ n ≤ 16 ∧ off + 4 * n ≤ 0x10000 := by
  rw [Nat.or_eq_zero_iff]
  by_cases hn : n = 0 ∨ 16 < n <;> by_cases ho : 0x10000 < off + 4 * n <;> simp [hn, ho] <;> omega

theorem spiTransaction_writes {bytes : List Byte} {n off : Nat} (hop : leAt bytes 0 1 = 2) (hn : leAt bytes 3 1 = n) (ho : leAt bytes 1 2 / 4 * 4 = off)
    (h1 : 1 ≤ n) (h16 : n ≤ 16) (hoff : off + 4 * n ≤ 0x10000) (hl : bytes.length = 5 + 4 * n) :
    exec (.spiTransaction bytes false) s = .next ((State.spiWrite ((wordsOfBytes (bytes.drop 4)).take n) off
      (s.withSpi { s.porch.spi with status := 0 })).spiEnd s.porch.spi.owed ((State.spiWrite ((wordsOfBytes (bytes.drop 4)).take n) off
        (s.withSpi { s.porch.spi with status := 0 })).porch.spi.status % 2) true false) := by
  change execSpiTransaction bytes false s = _
  unfold execSpiTransaction
  dsimp only
  rw [hop, hn, ho, hl, if_neg (by simp), if_neg (by omega), if_neg (by decide), if_neg fun hb => bne_iff_ne.mp hb (spiBad_eq_zero.mpr ⟨h1, h16, hoff⟩), if_neg (by decide)]
  have hmin : min n ((5 + 4 * n - 4) / 4) = n := by omega
  rw [hmin]
  simp

theorem spiTransaction_reads {bytes : List Byte} {n off : Nat} (hop : leAt bytes 0 1 = 1) (hn : leAt bytes 3 1 = n) (ho : leAt bytes 1 2 / 4 * 4 = off)
    (h1 : 1 ≤ n) (h16 : n ≤ 16) (hoff : off + 4 * n ≤ 0x10000) (hl : bytes.length = 6 + 4 * n) :
    exec (.spiTransaction bytes false) s = .next (((State.spiRead n off (s.withSpi { s.porch.spi with status := 0 })).2.returned .spi
      (State.spiRead n off (s.withSpi { s.porch.spi with status := 0 })).1).spiEnd s.porch.spi.owed
        ((State.spiRead n off (s.withSpi { s.porch.spi with status := 0 })).2.porch.spi.status % 2) true false) := by
  change execSpiTransaction bytes false s = _
  unfold execSpiTransaction
  dsimp only
  rw [hop, hn, ho, hl, if_neg (by simp), if_neg (by omega), if_neg (by decide), if_neg fun hb => bne_iff_ne.mp hb (spiBad_eq_zero.mpr ⟨h1, h16, hoff⟩), if_pos (by decide)]
  have hmin : min n ((6 + 4 * n - 2) / 4) = n := by omega
  rw [hmin]
  simp

theorem spiTransaction_badOpcode {bytes : List Byte} {cut : Bool} (hl : 4 ≤ bytes.length) (h1 : leAt bytes 0 1 ≠ 1) (h2 : leAt bytes 0 1 ≠ 2) :
    exec (.spiTransaction bytes cut) s = .next { s with porch := { s.porch with spi := { s.porch.spi with owed := s.porch.spi.owed ||| 4 } } } := by
  change execSpiTransaction bytes cut s = _
  unfold execSpiTransaction
  dsimp only
  rw [if_neg (nonempty_transaction hl), if_neg (by omega), if_pos (by simp [h1, h2])]
  rfl

/-- The end of a transaction changes the SPI port alone. -/
theorem State.spiEnd_porch (owed e : Nat) (answered overs : Bool) (s : State) :
    ∃ spi : Spi, s.spiEnd owed e answered overs = { s with porch := { s.porch with spi } } := by
  unfold State.spiEnd
  split <;> exact ⟨_, rfl⟩

theorem spiTransaction_badRange {bytes : List Byte} (hl : 4 ≤ bytes.length) (hop : leAt bytes 0 1 = 1 ∨ leAt bytes 0 1 = 2)
    (hbad : leAt bytes 3 1 = 0 ∨ 16 < leAt bytes 3 1 ∨ 0x10000 < leAt bytes 1 2 / 4 * 4 + 4 * leAt bytes 3 1) : ∃ spi : Spi,
    exec (.spiTransaction bytes false) s = .next { s with porch := { s.porch with spi } } := by
  have hne : ¬ (1 ≤ leAt bytes 3 1 ∧ leAt bytes 3 1 ≤ 16 ∧ leAt bytes 1 2 / 4 * 4 + 4 * leAt bytes 3 1 ≤ 0x10000) := by omega
  generalize hrun : exec (.spiTransaction bytes false) s = res
  change execSpiTransaction bytes false s = res at hrun
  unfold execSpiTransaction at hrun
  dsimp only at hrun
  rw [if_neg (nonempty_transaction hl), if_neg (by omega), if_neg (by rcases hop with h | h <;> simp [h]),
    if_pos (bne_iff_ne.mpr (mt spiBad_eq_zero.mp hne))] at hrun
  obtain ⟨spi, hspi⟩ := State.spiEnd_porch s.porch.spi.owed _ _ _ s
  exact ⟨spi, hrun.symm.trans (congrArg Host.Outcome.next hspi)⟩

/-! ### Debug port -/

theorem dbgUpdateDr_runs {reg : BitVec 52} (h : nbit reg.toNat 49 = true) (d : Dbg)
    (hd : d = { s.porch.dbg with captured := s.porch.dbg.capture, done := false, connected := true, errDomain := false }) :
    let off := nbits reg.toNat 32 16 / 4 * 4
    let w := w32 (nbits reg.toNat 0 32)
    let s1 := { s with porch := { s.porch with dbg := d } }
    exec (.dbgUpdateDr reg) s = .next (if nbit reg.toNat 48 then (s1.hostWrite .debug off w).withDbg { (s1.hostWrite .debug off w).porch.dbg with
          data := w, offset := off, write := true, done := true }
        else (s1.hostRead .debug off).withDbg { (s1.hostRead .debug off).porch.dbg with
          data := (s1.hostRead .debug off).lastRead .debug, offset := off, write := false, done := true }) := by
  subst hd
  intro off w s1
  change execDbgUpdateDr reg s = _
  unfold execDbgUpdateDr
  dsimp only
  rw [if_neg (by simp [h])]
  cases nbit reg.toNat 48 with
  | true => rw [if_pos rfl, if_pos rfl, if_pos rfl]; rfl
  | false => rw [if_neg Bool.false_ne_true, if_neg Bool.false_ne_true, if_neg Bool.false_ne_true]; rfl

theorem dbgUpdateDr_scans {reg : BitVec 52} (h : nbit reg.toNat 49 = false) : exec (.dbgUpdateDr reg) s = .next { s with porch := { s.porch with
    dbg := { s.porch.dbg with captured := s.porch.dbg.capture, done := false, connected := true } } } :=
  if_pos (by simp [h])

end

/-- Settles O46. -/
theorem spiAndDebugAccess : Obligations.SpiAndDebugAccess := by
  unfold Obligations.SpiAndDebugAccess
  refine ⟨fun bytes s _ hop => ?_, fun bytes s _ hop => ?_, fun bytes cut s hl h1 h2 => spiTransaction_badOpcode hl h1 h2,
    fun bytes s hl hop hbad => spiTransaction_badRange hl hop hbad, fun w ws off s => rfl, fun reg s h => ?_, fun reg s h => dbgUpdateDr_scans h,
    fun s => ?_⟩
  · intro n off h1 h16 hoff hlen
    exact ⟨_, spiTransaction_writes hop rfl rfl h1 h16 hoff hlen, rfl⟩
  · intro n off h1 h16 hoff hlen
    exact ⟨spiTransaction_reads hop rfl rfl h1 h16 hoff hlen, State.spiRead_length n off _⟩
  · exact ⟨_, rfl, rfl, rfl, dbgUpdateDr_runs h _ rfl⟩
  · refine ⟨_, rfl, rfl, fun k hk => ?_, rfl, rfl⟩
    rw [State.lockOwner_freeLocksOf _ hk]
    have hown : (s.withDbg { s.porch.dbg with connected := false }).lockOwner k = s.lockOwner k := rfl
    rw [hown]
    simp

end Sys2Proof.Machine

/-! SUPPORT. PCIe resets and descriptors (R25, R315 to R319, R353). -/

namespace Sys2Proof.Machine

section
variable {s : State}

/-! ### What a reset stops -/

/-- Replay of a leg closes with the DMA channel. -/
def State.closeReplay (t : State) (leg : Nat) : State :=
  if (t.hall leg).replay.on then
    (t.setHall leg { t.hall leg with replay := { (t.hall leg).replay with part := [], closing := true } }).replayClose leg
  else t

/-- The host's stop before its replay closes. -/
def State.hostDropped (s : State) : State :=
  (({ s with
    porch := { s.porch with h2d := Vector.replicate 3 {} }
    streams := { s.streams with str := s.streams.str.map Stream.forget }
    mb := { s.mb with chan := ([0, 1, 2, 3, 4, 5] : List Nat).foldl (fun (v : Vector Mailbox 8) c => vmod v c Mailbox.empty) s.mb.chan } }).revoke).freeLocksOf
      [1, 2]

theorem State.hostStop_eq (s : State) : s.hostStop = (s.hostDropped.closeReplay 0).closeReplay 1 := rfl

theorem State.closeReplay_halls (t : State) (leg : Nat) : ∃ halls, t.closeReplay leg = { t with halls } := by
  unfold State.closeReplay State.replayClose
  dsimp only
  split
  · split <;> exact ⟨_, rfl⟩
  · exact ⟨_, rfl⟩

/-- Closing replay changes the Halls alone. -/
theorem State.hostStop_halls (s : State) : ∃ halls, s.hostStop = { s.hostDropped with halls } := by
  obtain ⟨h0, heq0⟩ := State.closeReplay_halls s.hostDropped 0
  obtain ⟨h1, heq1⟩ := State.closeReplay_halls (s.hostDropped.closeReplay 0) 1
  exact ⟨h1, by rw [State.hostStop_eq, heq1, heq0]⟩

theorem State.hostDropped_chan_host {c : Nat} (hc : c < 6) : (s.hostDropped.chan c).inq = [] ∧ (s.hostDropped.chan c).outq = [] := by
  unfold State.hostDropped State.chan State.revoke State.freeLocksOf
  dsimp only [List.foldl]
  interval_cases c <;> simp [vget_vmod_self, vget_vmod_ne, Mailbox.empty]

theorem State.hostDropped_chan_other {c : Nat} (hc : 6 ≤ c) : s.hostDropped.chan c = s.chan c := by
  have hne : ∀ i, i < 6 → i ≠ c := fun i hi => by omega
  unfold State.hostDropped State.chan State.revoke State.freeLocksOf
  dsimp only [List.foldl]
  rw [vget_vmod_ne (hne 5 (by decide)), vget_vmod_ne (hne 4 (by decide)), vget_vmod_ne (hne 5 (by decide)), vget_vmod_ne (hne 4 (by decide)),
    vget_vmod_ne (hne 3 (by decide)), vget_vmod_ne (hne 2 (by decide)), vget_vmod_ne (hne 1 (by decide)), vget_vmod_ne (hne 0 (by decide))]

theorem State.hostDropped_lockOwner {k : Nat} (hk : k < 32) :
    s.hostDropped.lockOwner k = if s.lockOwner k = 1 ∨ s.lockOwner k = 2 then 0 else s.lockOwner k := by
  unfold State.hostDropped State.revoke
  dsimp only
  rw [State.lockOwner_freeLocksOf _ hk, State.lockOwner_freeLocksOf _ hk]
  unfold State.lockOwner
  dsimp only
  generalize (vget s.mb.locks k 0).val = o
  by_cases h2 : o = 2 <;> by_cases h1 : o = 1 <;> simp [h1, h2]

theorem State.hostDropped_unlocked : s.hostDropped.unlocked = false := fbit_fset (by decide)

theorem State.hostDropped_h2d {ch : Nat} (h : ch < 3) : vget s.hostDropped.porch.h2d ch {} = ({} : H2dChannel) := by
  unfold State.hostDropped State.revoke State.freeLocksOf
  dsimp only
  exact vget_replicate h

theorem State.hostDropped_frame (s : State) : s.hostDropped.cellar = s.cellar ∧ s.hostDropped.probe = s.probe ∧ s.hostDropped.porch.eth = s.porch.eth := by
  unfold State.hostDropped State.revoke State.freeLocksOf
  dsimp only
  exact ⟨rfl, rfl, rfl⟩

theorem State.hostStop_stops (s : State) : (∀ c, c < 6 → (s.hostStop.chan c).inq = [] ∧ (s.hostStop.chan c).outq = []) ∧
    (∀ c, 6 ≤ c → s.hostStop.chan c = s.chan c) ∧
    (∀ k, k < 32 → s.hostStop.lockOwner k = if s.lockOwner k = 1 ∨ s.lockOwner k = 2 then 0 else s.lockOwner k) ∧ s.hostStop.unlocked = false ∧
    (∀ ch, ch < 3 → vget s.hostStop.porch.h2d ch {} = ({} : H2dChannel)) ∧ s.hostStop.cellar = s.cellar ∧ s.hostStop.probe = s.probe ∧
    s.hostStop.porch.eth = s.porch.eth := by
  obtain ⟨halls, heq⟩ := State.hostStop_halls s
  rw [heq]
  exact ⟨fun c => State.hostDropped_chan_host (s := s), fun c => State.hostDropped_chan_other (s := s), fun k => State.hostDropped_lockOwner (s := s),
    State.hostDropped_unlocked (s := s), fun ch => State.hostDropped_h2d (s := s), State.hostDropped_frame s⟩

/-! ### Descriptors -/

theorem h2dDescriptorRead_takes {ch : Fin 3} {d : H2dDescriptor} (ha : s.porch.pcie.alive = true) (hw : (vget s.porch.h2d ch.val {}).waiting = false)
    (hn : (vget s.porch.h2d ch.val {}).next = 0 ∨ (vget s.porch.h2d ch.val {}).next = d.addr) (hb : (vget s.porch.h2d ch.val {}).back = none) :
    exec (.h2dDescriptorRead ch d) s =
      if !d.own then .next { s with porch := { s.porch with h2d := vset s.porch.h2d ch.val { vget s.porch.h2d ch.val {} with waiting := true, next := d.addr } } }
      else .next (State.fillReplay ch.val { s with porch := { s.porch with
        h2d := vset s.porch.h2d ch.val { waiting := d.next == 0, next := d.next, count := (vget s.porch.h2d ch.val {}).count + 1, rest := d.data
                                         back := some { addr := d.addr, used := d.data.length, status := 1, data := [] } } } }) := by
  change execH2dDescriptorRead ch d s = _
  unfold execH2dDescriptorRead
  generalize vget s.porch.h2d ch.val {} = c at hw hn hb ⊢
  dsimp only
  rw [if_neg (by simp [ha]), if_neg (by simp [hb])]
  refine if_neg ?_
  rcases hn with hn | hn <;> simp [hw, hn]

theorem h2dDescriptorRead_idle {ch : Fin 3} {d : H2dDescriptor} (h : s.porch.pcie.alive = false ∨
      ((vget s.porch.h2d ch.val {}).waiting = true ∧ (vget s.porch.h2d ch.val {}).back = none)) : exec (.h2dDescriptorRead ch d) s = .next s := by
  change execH2dDescriptorRead ch d s = _
  unfold execH2dDescriptorRead
  generalize vget s.porch.h2d ch.val {} = c at h ⊢
  dsimp only
  cases ha : s.porch.pcie.alive with
  | false => exact if_pos rfl
  | true =>
    obtain ⟨hw, hb⟩ := h.resolve_left (by simp [ha])
    rw [if_neg (by simp), if_neg (by simp [hb]), if_pos (by simp [hw])]

/-- A buffer under way is read on. -/
theorem h2dDescriptorRead_fills {ch : Fin 3} {d : H2dDescriptor} {b : DescDone} (ha : s.porch.pcie.alive = true)
    (hb : (vget s.porch.h2d ch.val {}).back = some b) : exec (.h2dDescriptorRead ch d) s = .next (s.fillReplay ch.val) := by
  change execH2dDescriptorRead ch d s = _
  unfold execH2dDescriptorRead
  generalize vget s.porch.h2d ch.val {} = c at hb ⊢
  dsimp only
  rw [if_neg (by simp [ha]), if_pos (by simp [hb])]

/-- A channel after `n` bytes of its buffer: written back once nothing is left. -/
def State.bufferRead (s : State) (ch n : Nat) (b : DescDone) : State :=
  let c := vget s.porch.h2d ch {}
  { s with porch := { s.porch with
    h2d := vset s.porch.h2d ch { c with rest := c.rest.drop n, back := if (c.rest.drop n).isEmpty then none else some b }
    done := if (c.rest.drop n).isEmpty then s.porch.done ++ [b] else s.porch.done } }

theorem State.fillReplay_of_back {ch : Nat} {b : DescDone} (hb : (vget s.porch.h2d ch {}).back = some b) :
    s.fillReplay ch = (s.bufferRead ch (if ch < 2 then 131072 - (s.hall ch).replay.held else (vget s.porch.h2d ch {}).rest.length) b).takeBuffer ch
      ((vget s.porch.h2d ch {}).rest.take (if ch < 2 then 131072 - (s.hall ch).replay.held else (vget s.porch.h2d ch {}).rest.length)) := by
  unfold State.fillReplay State.bufferRead
  dsimp only
  rw [hb]

theorem isEmpty_drop_iff {α : Type} {l : List α} {n : Nat} : (l.drop n).isEmpty = true ↔ l.length ≤ n := by
  rw [List.isEmpty_iff, List.drop_eq_nil_iff]

theorem State.bufferRead_channel {ch n : Nat} (b : DescDone) (hch : ch < 3) : (vget (s.bufferRead ch n b).porch.h2d ch {}).rest =
      (vget s.porch.h2d ch {}).rest.drop n ∧
    ((vget s.porch.h2d ch {}).rest.length ≤ n → (vget (s.bufferRead ch n b).porch.h2d ch {}).back = none ∧
      (s.bufferRead ch n b).porch.done = s.porch.done ++ [b]) ∧
    (n < (vget s.porch.h2d ch {}).rest.length → (vget (s.bufferRead ch n b).porch.h2d ch {}).back = some b ∧
      (s.bufferRead ch n b).porch.done = s.porch.done) := by
  unfold State.bufferRead
  dsimp only
  rw [vget_vset_self hch]
  exact ⟨rfl, fun h => ⟨if_pos (isEmpty_drop_iff.mpr h), if_pos (isEmpty_drop_iff.mpr h)⟩,
    fun h => ⟨if_neg (fun he => absurd (isEmpty_drop_iff.mp he) (by omega)), if_neg (fun he => absurd (isEmpty_drop_iff.mp he) (by omega))⟩⟩

/-- Cutting a stream into blocks loses no byte. -/
theorem cutBlocks_flatten (fuel : Nat) (bs : List Byte) : (cutBlocks fuel bs).1.flatten ++ (cutBlocks fuel bs).2 = bs := by
  induction fuel generalizing bs with
  | zero => rfl
  | succ fuel ih =>
    unfold cutBlocks
    split
    · rfl
    · next n _ =>
      dsimp only
      rw [List.flatten_cons, List.append_assoc, ih, List.take_append_drop]

theorem State.takeBuffer_replay {ch : Nat} (data : List Byte) (h : ch < 2) :
    ((s.takeBuffer ch data).hall ch).replay.blocks.flatten ++ ((s.takeBuffer ch data).hall ch).replay.part =
      (s.hall ch).replay.blocks.flatten ++ (s.hall ch).replay.part ++ data := by
  unfold State.takeBuffer
  rw [if_pos h]
  dsimp only
  rw [State.hall_setHall_self h]
  dsimp only
  rw [List.flatten_append, List.append_assoc, cutBlocks_flatten, List.append_assoc]

/-! ### Doorbells and the link -/

theorem nbit_and_not_one_shift_ne {w : Word} {b c : Nat} (h : b ≠ c) : nbit (w &&& ~~~(1#32 <<< c)).toNat b = nbit w.toNat b := by
  rw [nbit_toNat, nbit_toNat]
  by_cases hb : b < 32
  · have hone : (1#32 <<< c).getLsbD b = false := by
      simp only [BitVec.getLsbD_shiftLeft, BitVec.getLsbD_one]
      by_cases hlt : b < c
      · simp [hlt]
      · have : b - c ≠ 0 := by omega
        simp [this]
    rw [BitVec.getLsbD_and, BitVec.getLsbD_not, hone]
    simp [hb]
  · rw [BitVec.getLsbD_of_ge _ _ (by omega), BitVec.getLsbD_of_ge _ _ (by omega)]

theorem h2dChainExtended_resumes {ch : Fin 3} (h : nbit s.mb.dbH2d.toNat (24 + ch.val) = true) : ∃ u : State, exec (.h2dChainExtended ch) s = .next u ∧
    (vget u.porch.h2d ch.val {}).waiting = false ∧ (vget u.porch.h2d ch.val {}).next = (vget s.porch.h2d ch.val {}).next ∧
    nbit u.mb.dbH2d.toNat (24 + ch.val) = false ∧ (∀ b, b ≠ 24 + ch.val → nbit u.mb.dbH2d.toNat b = nbit s.mb.dbH2d.toNat b) := by
  have hself : vget (vmod s.porch.h2d ch.val (fun (c : H2dChannel) => { c with waiting := false })) ch.val {} =
      { vget s.porch.h2d ch.val {} with waiting := false } := vget_vmod_self ch.isLt
  have hwaiting := congrArg H2dChannel.waiting hself
  have hnext := congrArg H2dChannel.next hself
  exact ⟨_, if_neg (by simp [h]), hwaiting, hnext, nbit_and_not_one_shift (by omega), fun b hb => nbit_and_not_one_shift_ne hb⟩

end

/-- Settles O47: the resets change the Halls only where replay closes (`State.hostStop_halls`); a descriptor is taken through
`State.fillReplay`, whose cut loses no byte. -/
theorem pcieResetsAndDescriptors : Obligations.PcieResetsAndDescriptors := by
  unfold Obligations.PcieResetsAndDescriptors
  refine ⟨fun s => ⟨rfl, rfl, rfl, rfl⟩, State.hostStop_stops, fun ch d s ha hw hn hb => ⟨fun hown => ?_, fun hown => ?_⟩,
    fun ch d s h => h2dDescriptorRead_idle h, fun ch d b s ha hb => ?_, fun ch data s h => State.takeBuffer_replay data h,
    fun ch s h => h2dChainExtended_resumes h, fun data s => rfl, fun up aer s => ?_⟩
  · rw [h2dDescriptorRead_takes ha hw hn hb, hown]
    rfl
  · rw [h2dDescriptorRead_takes ha hw hn hb, hown]
    exact ⟨_, rfl, rfl, rfl⟩
  · intro n
    obtain ⟨hrest, hdone, hmore⟩ := State.bufferRead_channel (s := s) (n := n) b ch.isLt
    exact ⟨s.bufferRead ch.val n b, (h2dDescriptorRead_fills ha hb).trans (congrArg Host.Outcome.next (State.fillReplay_of_back hb)), rfl, hrest, hdone, hmore⟩
  · refine congrArg Host.Outcome.next (if_congr ?_ rfl rfl)
    cases s.porch.pcie.link <;> cases up <;> cases aer <;> simp

end Sys2Proof.Machine

/-! SUPPORT. Triggers, records and their copies (R238, R239, R255 to R263). -/

namespace Sys2Proof.Machine

section
variable {s : State} {u : Nat} {v : Version} {held other missing : Bool}

/-! ### The state machine of a unit -/

theorem TrigConfig.pattern_iff {c : TrigConfig} {v : List Word} :
    c.pattern v = true ↔ ∀ i, i < 64 → (wat v i ^^^ wat c.value i) &&& wat c.care i = 0 := by
  unfold TrigConfig.pattern
  simp only [List.all_eq_true, List.mem_range, beq_iff_eq]

theorem TrigUnit.turn_filled {x : TrigUnit} {f : Nat} (h : x.state = .filling) (hf : x.armFrame + x.c.preN ≤ f) :
    x.turn f = { x with state := .armed } :=
  if_pos (by simp [h, hf])

theorem TrigUnit.turn_rearmed {x : TrigUnit} {f : Nat} (h : x.state = .rearm) (hf : x.fireFrame + x.c.postN + x.c.holdN ≤ f) :
    x.turn f = { x with state := if fbit x.c.cfg F.TRIG_CFG.AUTO then .armed else .idle, stat := fset x.stat F.TRIG_STAT.WAITING 0 } :=
  (if_neg (by simp [h])).trans (if_pos (by simp [h, hf]))

theorem TrigUnit.turn_of_still {x : TrigUnit} {f : Nat} (h : x.state = .armed ∨ x.state = .idle) : x.turn f = x :=
  (if_neg (by rcases h with h | h <;> simp [h])).trans (if_neg (by rcases h with h | h <;> simp [h]))

/-! ### A record is made -/

theorem mem_insertRecord (r : Record) (rs : List Record) : r ∈ insertRecord r rs := by
  induction rs with
  | nil => exact List.mem_singleton_self r
  | cons x rs ih =>
    unfold insertRecord
    split
    · exact List.mem_cons_self
    · exact List.mem_cons_of_mem _ ih

/-- What a firing leaves: its unit, its record among the fired ones, and the next key. -/
structure State.FiredTo (u : Nat) (v : Version) (cause : Nat) (s t : State) : Prop where
  state : (t.unit u).state = (s.unit u).state
  frame : (t.unit u).fireFrame = (s.unit u).fireFrame
  early : (t.unit u).early = 0
  rearms : (t.unit u).rearms = 0
  key : t.trig.nextKey = s.trig.nextKey + 1
  lo : (t.unit u).fireLo = w32 v.time
  hi : (t.unit u).fireHi = w32 (v.time / 2 ^ 32)
  record : ∃ r ∈ t.trig.fired, r.key = s.trig.nextKey ∧ r.unit = u ∧ r.fireFrame = v.frame ∧ r.cause = cause ∧ r.early = (s.unit u).early ∧
    r.rearms = (s.unit u).rearms ∧ r.vector = v.vector
  others : ∀ w, w ≠ u → t.unit w = s.unit w
  cellar : t.cellar = s.cellar
  loft : t.loft = s.loft

theorem Record.cutAt_frame (r : Record) (e : Nat) : (r.cutAt e).key = r.key ∧ (r.cutAt e).unit = r.unit ∧ (r.cutAt e).fireFrame = r.fireFrame ∧
    (r.cutAt e).cause = r.cause ∧ (r.cutAt e).early = r.early ∧ (r.cutAt e).rearms = r.rearms ∧ (r.cutAt e).vector = r.vector := by
  unfold Record.cutAt
  split <;> exact ⟨rfl, rfl, rfl, rfl, rfl, rfl, rfl⟩

/-- A fired record before a restart cuts it. -/
def State.freshRecord (s : State) (u : Nat) (v : Version) (cause flags : Nat) : Record :=
  { key := s.trig.nextKey, unit := u, c := (s.unit u).c, fireFrame := v.frame, fireTime := v.time, pre := (s.unit u).c.preN, post := (s.unit u).c.postN
    fireTrace := #v[s.fireTrace (s.unit u).c 0 v.frame, s.fireTrace (s.unit u).c 1 v.frame]
    firstTime := (v.time + 2 ^ 64 - (s.unit u).c.preN * (s.planAt v.frame).bank.tUnits) % 2 ^ 64
    cause, flags, early := (s.unit u).early, rearms := (s.unit u).rearms, vector := v.vector
    need := 640 + (s.unit u).c.bodyBytes (s.planAt v.frame).bank s.legR }

/-- The record as the restart known at its frame leaves it. -/
def State.cutRecord (s : State) (u : Nat) (v : Version) (cause flags : Nat) : Record :=
  match (s.unit u).restartAfter v.frame with
  | some e => (s.freshRecord u v cause flags).cutAt e
  | none => s.freshRecord u v cause flags

theorem State.cutRecord_holds (s : State) (u : Nat) (v : Version) (cause flags : Nat) :
    (s.cutRecord u v cause flags).key = s.trig.nextKey ∧ (s.cutRecord u v cause flags).unit = u ∧ (s.cutRecord u v cause flags).fireFrame = v.frame ∧
      (s.cutRecord u v cause flags).cause = cause ∧ (s.cutRecord u v cause flags).early = (s.unit u).early ∧
      (s.cutRecord u v cause flags).rearms = (s.unit u).rearms ∧ (s.cutRecord u v cause flags).vector = v.vector := by
  unfold State.cutRecord
  split
  · exact Record.cutAt_frame _ _
  · exact ⟨rfl, rfl, rfl, rfl, rfl, rfl, rfl⟩

/-- A unit after it has fired. -/
def TrigUnit.afterFire (x : TrigUnit) (v : Version) (r : Record) : TrigUnit :=
  { x with
    early := 0, rearms := 0, fireLo := w32 v.time, fireHi := w32 (v.time / 2 ^ 32), lastRecord := some r.key
    stat := finc (if r.flags % 2 = 1 then fset x.stat F.TRIG_STAT.TRUNCATED 1 else x.stat) F.TRIG_STAT.RECORDS }

theorem State.fireRecord_eq (s : State) (u : Nat) (v : Version) (cause flags : Nat) : s.fireRecord u v cause flags =
    { s with trig := { s.trig with
      units := vset s.trig.units u ((s.unit u).afterFire v (s.cutRecord u v cause flags))
      fired := insertRecord (s.cutRecord u v cause flags) s.trig.fired, nextKey := s.trig.nextKey + 1 } } := rfl

theorem State.fireRecord_fires (hu : u < 16) (cause flags : Nat) : State.FiredTo u v cause s (s.fireRecord u v cause flags) := by
  rw [State.fireRecord_eq]
  generalize hr : s.cutRecord u v cause flags = r
  have hunit : ∀ fired nextKey, ({ s with trig := { s.trig with
      units := vset s.trig.units u ((s.unit u).afterFire v r), fired, nextKey } } : State).unit u = (s.unit u).afterFire v r :=
    fun fired nextKey => vget_vset_self hu
  have hholds := State.cutRecord_holds s u v cause flags
  rw [hr] at hholds
  constructor
  case record => exact ⟨r, mem_insertRecord _ _, hholds⟩
  case others => exact fun w hw => vget_vset_ne hw.symm
  case key => rfl
  case cellar => rfl
  case loft => rfl
  all_goals rw [hunit]; rfl

/-! ### A version is judged -/

/-- The unit past a version, its counts untouched. -/
def TrigUnit.passed (x : TrigUnit) (v : Version) : TrigUnit :=
  { x with prevMatch := x.c.pattern v.vector, fires := x.fires.filter (fun f => v.frame < f) }

/-- The own sources of a unit that hold at a version. -/
def TrigUnit.own (x : TrigUnit) (v : Version) : Nat := x.sources v.frame v.vector x.prevMatch

theorem TrigUnit.judge_silent {x0 : TrigUnit} (ho : (x0.turn v.frame).own v = 0) : x0.judge v false = ((x0.turn v.frame).passed v, none) :=
  if_pos (by
    have h := ho
    unfold TrigUnit.own at h
    simp [h])

/-- A unit that hears a source acts by its state. -/
def TrigUnit.hear (x : TrigUnit) (v : Version) : TrigUnit × Option Nat :=
  match x.state with
  | .idle => (x.passed v, none)
  | .filling => ({ x.passed v with early := min 65535 (x.early + 1) }, none)
  | .rearm => ({ x.passed v with rearms := min 65535 (x.rearms + 1) }, none)
  | .armed => ({ x.passed v with state := .rearm, fireFrame := v.frame }, some (x.own v))

theorem TrigUnit.judge_of_heard {x0 : TrigUnit} (h : (x0.turn v.frame).own v ≠ 0 ∨ held = true) : x0.judge v held = (x0.turn v.frame).hear v := by
  unfold TrigUnit.own at h
  exact if_neg (by rcases h with h | h <;> simp [h])

theorem TrigUnit.judge_idle {x0 : TrigUnit} (h : (x0.turn v.frame).own v ≠ 0 ∨ held = true) (hs : (x0.turn v.frame).state = .idle) :
    x0.judge v held = ((x0.turn v.frame).passed v, none) := by
  rw [TrigUnit.judge_of_heard h]
  generalize x0.turn v.frame = x at hs ⊢
  cases x
  subst hs
  rfl

theorem TrigUnit.judge_filling {x0 : TrigUnit} (h : (x0.turn v.frame).own v ≠ 0 ∨ held = true) (hs : (x0.turn v.frame).state = .filling) :
    x0.judge v held = ({ (x0.turn v.frame).passed v with early := min 65535 ((x0.turn v.frame).early + 1) }, none) := by
  rw [TrigUnit.judge_of_heard h]
  generalize x0.turn v.frame = x at hs ⊢
  cases x
  subst hs
  rfl

theorem TrigUnit.judge_rearm {x0 : TrigUnit} (h : (x0.turn v.frame).own v ≠ 0 ∨ held = true) (hs : (x0.turn v.frame).state = .rearm) :
    x0.judge v held = ({ (x0.turn v.frame).passed v with rearms := min 65535 ((x0.turn v.frame).rearms + 1) }, none) := by
  rw [TrigUnit.judge_of_heard h]
  generalize x0.turn v.frame = x at hs ⊢
  cases x
  subst hs
  rfl

theorem TrigUnit.judge_armed {x0 : TrigUnit} (h : (x0.turn v.frame).own v ≠ 0 ∨ held = true) (hs : (x0.turn v.frame).state = .armed) :
    x0.judge v held = ({ (x0.turn v.frame).passed v with state := .rearm, fireFrame := v.frame }, some ((x0.turn v.frame).own v)) := by
  rw [TrigUnit.judge_of_heard h]
  generalize x0.turn v.frame = x at hs ⊢
  cases x
  subst hs
  rfl

theorem State.judgeVersion_of_none {x : TrigUnit} (h : (s.unit u).judge v held = (x, none)) : s.judgeVersion u v held other missing = s.setUnit u x := by
  unfold State.judgeVersion
  rw [h]

theorem State.judgeVersion_of_some {x : TrigUnit} {own : Nat} (h : (s.unit u).judge v held = (x, some own)) :
    s.judgeVersion u v held other missing = (s.setUnit u x).fireRecord u v (own + 8 * other.toNat) (4 * missing.toNat) := by
  unfold State.judgeVersion
  rw [h]

/-- Judging changes the triggers alone, and of the units this one. -/
theorem State.judgeVersion_frame (hu : u < 16) : (∀ w, w ≠ u → (s.judgeVersion u v held other missing).unit w = s.unit w) ∧
    (s.judgeVersion u v held other missing).cellar = s.cellar ∧ (s.judgeVersion u v held other missing).loft = s.loft := by
  obtain ⟨⟨x, o⟩, hj⟩ : ∃ r, (s.unit u).judge v held = r := ⟨_, rfl⟩
  cases o with
  | none =>
    rw [State.judgeVersion_of_none hj]
    exact ⟨fun w hw => State.unit_setUnit_ne hw.symm, rfl, rfl⟩
  | some own =>
    rw [State.judgeVersion_of_some hj]
    have hf := State.fireRecord_fires (s := s.setUnit u x) (v := v) hu (own + 8 * other.toNat) (4 * missing.toNat)
    exact ⟨fun w hw => (hf.others w hw).trans (State.unit_setUnit_ne hw.symm), hf.cellar, hf.loft⟩

/-- An armed unit that hears a source fires. -/
theorem State.judgeVersion_armed (hu : u < 16) (h : ((s.unit u).turn v.frame).own v ≠ 0 ∨ held = true) (hs : ((s.unit u).turn v.frame).state = .armed) :
    State.FiredTo u v (((s.unit u).turn v.frame).own v + 8 * other.toNat)
      (s.setUnit u { ((s.unit u).turn v.frame).passed v with state := .rearm, fireFrame := v.frame }) (s.judgeVersion u v held other missing) := by
  rw [State.judgeVersion_of_some (TrigUnit.judge_armed h hs)]
  exact State.fireRecord_fires hu _ _

/-! ### Versions of a unit -/

theorem vset_vget {α : Type} {n : Nat} (a : Vector α n) (i : Nat) (d : α) : vset a i (vget a i d) = a := by
  by_cases h : i < n
  · apply Vector.ext
    intro j hj
    by_cases hij : i = j
    · subst hij
      simp [vset, vget, h]
    · simp [vset, hij]
  · exact vset_out (by omega)

theorem State.setUnit_unit (u : Nat) (s : State) : s.setUnit u (s.unit u) = s :=
  congrArg (fun units => { s with trig := { s.trig with units } }) (vset_vget s.trig.units u {})

theorem exec_triggerVersion (u : Fin 16) (s : State) : exec (.triggerVersion u) s = execTriggerVersion u s := rfl

theorem triggerVersion_none {u : Fin 16} (hq : (s.unit u.val).queue = []) (hd : (s.unit u.val).due = []) : exec (.triggerVersion u) s = .next s := by
  rw [exec_triggerVersion]
  unfold execTriggerVersion
  generalize s.unit u.val = x at hq hd ⊢
  dsimp only
  rw [hq]
  exact if_neg (by simp [hd])

/-- A version at the front of a unit's queue: it waits for verdicts, then for the copy of the record before, and is taken otherwise. -/
theorem triggerVersion_acts {u : Fin 16} {rest : List Version} (hq : (s.unit u.val).queue = v :: rest) :
    let y := (s.unit u.val).advance v.frame
    let missing := y.c.on && y.c.ring && (s.awaits v.time).any (fun d => (s.verdictOf d v.time).isNone)
    let waits := y.c.on && y.waitsAt v.frame && !s.copied y
    exec (.triggerVersion u) s = if missing then .next s else if waits then
      (if fbit (s.unit u.val).stat F.TRIG_STAT.WAITING then .next s else .next (s.setUnit u.val { s.unit u.val with
        stat := finc (fset (s.unit u.val).stat F.TRIG_STAT.WAITING 1) F.TRIG_STAT.WAITS })) else .next (s.takeVersion u.val v rest) := by
  intro y missing waits
  rw [exec_triggerVersion]
  unfold execTriggerVersion
  dsimp only
  rw [hq]

/-! ### Versions are committed -/

theorem exec_versionCommit (s : State) : exec .versionCommit s = execVersionCommit s := rfl

/-- The state in which a version is judged ready: changes of its frame handed out, every zone advanced to it. -/
def State.versionReady (s : State) (f : Nat) : State := (List.range 256).foldl (fun t z => t.advanceZone z f) ((s.distribute f).distributeTrig f)

theorem versionCommit_acts {f : Nat} (hn : s.loft.vec.next = some f) (hp : s.power.loft = true) (hr : s.probe.running = true) :
    exec .versionCommit s =
      if !(s.versionReady f).delivered f then .next s
      else if (s.versionReady f).queueFull then
        if s.loft.vec.held || decide (s.now < s.boundaryTime f) then .next s
        else .next { s with loft := { s.loft with vec := { s.loft.vec with held := true, stat := finc s.loft.vec.stat F.VEC_STAT.WAITS } } }
      else .next (((s.versionReady f).untilTime (s.boundaryTime f)).commitVersion f) := by
  rw [exec_versionCommit]
  unfold execVersionCommit
  rw [hn]
  dsimp only
  rw [if_neg (by simp [hp]), if_neg (by simp [hr])]
  rfl

theorem versionCommit_ends {f : Nat} (hn : s.loft.vec.next = some f) (hp : s.power.loft = true) (hr : s.probe.running = false) (hf : s.probe.frontier ≤ f) :
    exec .versionCommit s = .next { s with loft := { s.loft with vec := { s.loft.vec with next := none, held := false } } } := by
  rw [exec_versionCommit]
  unfold execVersionCommit
  rw [hn]
  dsimp only
  rw [if_neg (by simp [hp]), if_pos (by simp [hr, hf])]
  rfl

theorem versionCommit_none (hn : s.loft.vec.next = none) : exec .versionCommit s = .next s := by
  rw [exec_versionCommit]
  unfold execVersionCommit
  rw [hn]

/-! ### Verdicts -/

theorem exec_verdictTimeout (s : State) : exec .verdictTimeout s = execVerdictTimeout s := rfl

theorem verdictTimeout_none (h : s.missingTime = none) : exec .verdictTimeout s = .next s := by
  rw [exec_verdictTimeout]
  unfold execVerdictTimeout
  rw [h]

theorem verdictTimeout_takes {t : Nat} (h : s.missingTime = some t) : exec .verdictTimeout s =
    .next ((((s.untilTime (t + 10 * ms)).awaits t).filter (fun d => ((s.untilTime (t + 10 * ms)).verdictOf d t).isNone)).foldl (fun (a : State) d =>
      (({ a with trig := { a.trig with verdicts := a.trig.verdicts ++ [({ time := t, device := d, groups := 0, missing := true } : Verdict)] } }).report
        srcCausewayVerdict 0).emitAt (some t) evVerdictMissing (w64 t ++ w64 d)) (s.untilTime (t + 10 * ms))) := by
  rw [exec_verdictTimeout]
  unfold execVerdictTimeout
  rw [h]

/-! ### The copier -/

theorem exec_copyRow (s : State) : exec .copyRow s = execCopyRow s := rfl

theorem copyRow_of_busy (h : (s.cellar.portOf 2).queue ≠ []) : exec .copyRow s = .next s := by
  rw [exec_copyRow]
  unfold execCopyRow
  split
  · rfl
  · exact if_pos (by simp [h])

theorem copyRow_of_early {r : Record} {rest : List Record} (hr : s.trig.fired = r :: rest) (hs : r.seq = none) (hm : s.mayTake r = false) :
    exec .copyRow s = .next s := by
  rw [exec_copyRow]
  unfold execCopyRow
  rw [hr]
  exact if_pos (by simp [hs, hm])

theorem State.takeRecord_of_room {r : Record} (rest : List Record) (hs : r.seq ≠ none) (hr : r.room ≠ 0) : s.takeRecord r rest = (s, some r) := by
  unfold State.takeRecord
  obtain ⟨q, hq⟩ := Option.ne_none_iff_exists'.mp hs
  rw [hq]
  exact if_pos (by simpa using hr)

/-- A record that waits for its place takes SEQ with it. -/
theorem State.takeRecord_places {r : Record} {a : Nat} (rest : List Record) (hs : r.seq = none) (hr : r.room = 0)
    (ha : s.trig.findRoom (s.cellar.regionBase 8) (s.cellar.regionSize 8) r.need = some a) :
    (s.takeRecord r rest).2 = some { r with seq := some s.trig.nextSeq, base := a, room := r.need } ∧
      (s.takeRecord r rest).1.trig.nextSeq = s.trig.nextSeq + 1 := by
  unfold State.takeRecord
  rw [hs]
  dsimp only
  rw [if_neg (by simp [hr]), ha]
  exact ⟨rfl, rfl⟩

theorem Triggers.grow_of_room (t : Triggers) (base size : Nat) {r : Record} {n : Nat} (h : n ≤ r.room) : t.grow base size r n = some r := if_pos h

theorem Triggers.grow_room {t : Triggers} {base size n : Nat} {r r2 : Record} (h : t.grow base size r n = some r2) : r2 = { r with room := max r.room n } := by
  unfold Triggers.grow at h
  dsimp only at h
  split at h
  · next hle =>
    rw [max_eq_left hle]
    exact (Option.some.inj h).symm
  · next hgt =>
    split at h
    · rw [max_eq_right (by omega)]
      exact (Option.some.inj h).symm
    · cases h

/-- The record as the store holds it. -/
def Record.stored (r : Record) : Stored :=
  let r1 := if r.c.overview then { r with body := r.sections.length, items := (r.legs.map (fun leg => (vget r.closed leg {}).intervals)).sum } else r
  { seq := r.seq.getD 0, base := r.base, size := 512 + r1.body, room := r.room, unit := r.unit, fireTime := r.fireTime, flags := r.flags }

/-- A finished record's sections and header, in the Cellar. -/
def Record.written (r : Record) (c : Cellar) : Cellar :=
  let r1 := if r.c.overview then { r with body := r.sections.length, items := (r.legs.map (fun leg => (vget r.closed leg {}).intervals)).sum } else r
  (c.store (r.base + 512) r.sections).store r.base r1.header

theorem State.finishRecord_eq (r : Record) (rest : List Record) (s : State) : s.finishRecord r rest =
    (({ s with cellar := r.written s.cellar, trig := { s.trig with fired := rest, store := s.trig.store ++ [r.stored] } } : State).copierRequest r.base
      (512 + r.sections.length) true).emitAt (some r.stored.fireTime) evRecordDone
        (w64 r.stored.seq ++ [w32 r.stored.unit] ++ w64 r.stored.fireTime ++ [w32 r.stored.flags]) := by
  unfold State.finishRecord Record.stored Record.written
  rfl

theorem State.copierRequest_frame (a n : Nat) (write : Bool) : (s.copierRequest a n write).trig = s.trig ∧ (s.copierRequest a n write).loft = s.loft :=
  ⟨rfl, rfl⟩

theorem State.finishRecord_stores (r : Record) (rest : List Record) (s : State) :
    ∃ (u : State) (st : Stored) (payload : List Word), s.finishRecord r rest = u.emitAt (some st.fireTime) evRecordDone payload ∧ u.trig.fired = rest ∧
      u.trig.store = s.trig.store ++ [st] ∧ st.seq = r.seq.getD 0 ∧ st.base = r.base ∧ st.unit = r.unit ∧ st.fireTime = r.fireTime ∧ st.flags = r.flags ∧
      u.trig.units = s.trig.units ∧ u.loft = s.loft := by
  refine ⟨_, r.stored, _, State.finishRecord_eq r rest s, ?_, ?_, rfl, rfl, rfl, rfl, rfl, ?_, ?_⟩
  · rw [(State.copierRequest_frame ..).1]
  · rw [(State.copierRequest_frame ..).1]
  · rw [(State.copierRequest_frame ..).1]
  · rw [(State.copierRequest_frame ..).2]

/-- The copier with room for a record: its next row, or its header after the last. -/
def State.copyNext (s : State) (r : Record) (rest : List Record) : Option RingRow → Res
  | some x => if x.copyable s.now then .next (s.copySlice r x rest) else .next s
  | none => if s.rowsDue r then .next s else .next (s.finishRecord r rest)

/-- The copier by the room of its record. -/
def State.copyInRoom (s : State) (row : Option RingRow) (rest : List Record) : Option Record → Res
  | none => .next s.waitStore
  | some r => s.copyNext r rest row

theorem copyRow_acts {r : Record} {rest : List Record} (hr : s.trig.fired = r :: rest) (hp : s.power.cellar = true)
    (hq : (s.cellar.portOf 2).queue = []) (hs : r.seq ≠ none) (hroom : r.room ≠ 0) : exec .copyRow s =
      s.copyInRoom (s.cellar.nextRow r) rest
        (s.trig.grow (s.cellar.regionBase 8) (s.cellar.regionSize 8) r (512 + r.nextBytes (s.cellar.nextRow r).isSome)) := by
  rw [exec_copyRow]
  unfold execCopyRow
  rw [hr]
  dsimp only
  rw [if_neg (by simp [hp, hq, hs]), State.takeRecord_of_room rest hs hroom]
  dsimp only
  cases s.trig.grow (s.cellar.regionBase 8) (s.cellar.regionSize 8) r (512 + r.nextBytes (s.cellar.nextRow r).isSome) with
  | none => rfl
  | some r2 => cases s.cellar.nextRow r <;> rfl

end

/-- Settles O48: the machine of a unit by its states, a firing by what it leaves (`State.FiredTo`), the copier by the place and the next row of its
record. -/
theorem triggersFireAndRecordsAreCopied : Obligations.TriggersFireAndRecordsAreCopied := by
  unfold Obligations.TriggersFireAndRecordsAreCopied
  refine ⟨⟨fun u v rest s hq => ?_, fun u s hq hd => triggerVersion_none hq hd, fun u v held other missing s hu => ?_,
    fun x f => ⟨fun h hf => ?_, fun h hf => ?_, TrigUnit.turn_of_still⟩, fun c v => TrigConfig.pattern_iff, fun s => verdictTimeout_none,
    fun t s => verdictTimeout_takes⟩, fun r rest s hr hp hq hs hroom => ?_, fun s => copyRow_of_busy, fun r rest s => copyRow_of_early,
    fun r rest n a s hs hr hn ha => ?_, fun r rest s => ?_, fun f s hn hp hr => ?_, fun f s => versionCommit_ends, fun s => versionCommit_none⟩
  · intro y missing waits
    have hrun := triggerVersion_acts (s := s) hq
    refine ⟨fun hm => hrun.trans (if_pos hm), fun hm hw => ?_, fun hm hw => hrun.trans ((if_neg ((Bool.not_eq_true _).mpr hm)).trans (if_neg ((Bool.not_eq_true _).mpr hw)))⟩
    rw [hrun, if_neg ((Bool.not_eq_true _).mpr hm), if_pos hw]
    cases hwait : fbit (s.unit u.val).stat F.TRIG_STAT.WAITING with
    | true =>
      refine ⟨(s.unit u.val).stat, ?_, fun h => Bool.noConfusion h, fun _ => rfl⟩
      rw [if_pos rfl]
      exact congrArg Host.Outcome.next (State.setUnit_unit u.val s).symm
    | false =>
      exact ⟨_, if_neg Bool.false_ne_true, fun _ => (fbit_finc_ne (by decide) (by decide)).trans (fbit_fset (by decide)), fun h => Bool.noConfusion h⟩
  · intro x own t
    refine ⟨fun ⟨ho, hh⟩ => ?_, fun h => ⟨fun hs => ?_, fun hs => ?_, fun hs => ?_, fun hs => ?_⟩, State.judgeVersion_frame hu⟩
    · subst hh
      have ht : t = s.setUnit u (x.passed v) := State.judgeVersion_of_none (TrigUnit.judge_silent ho)
      rw [ht, State.unit_setUnit_self hu]
      exact ⟨rfl, rfl, rfl, rfl⟩
    · have ht : t = s.setUnit u (x.passed v) := State.judgeVersion_of_none (TrigUnit.judge_idle h hs)
      rw [ht, State.unit_setUnit_self hu]
      exact ⟨rfl, rfl, rfl⟩
    · have ht : t = s.setUnit u { x.passed v with early := min 65535 (x.early + 1) } := State.judgeVersion_of_none (TrigUnit.judge_filling h hs)
      rw [ht, State.unit_setUnit_self hu]
      exact ⟨rfl, rfl, hs⟩
    · have ht : t = s.setUnit u { x.passed v with rearms := min 65535 (x.rearms + 1) } := State.judgeVersion_of_none (TrigUnit.judge_rearm h hs)
      rw [ht, State.unit_setUnit_self hu]
      exact ⟨rfl, rfl, hs⟩
    · have hf : State.FiredTo u v (own + 8 * other.toNat) (s.setUnit u { x.passed v with state := .rearm, fireFrame := v.frame }) t :=
        State.judgeVersion_armed hu h hs
      have hunit : (s.setUnit u { x.passed v with state := .rearm, fireFrame := v.frame }).unit u =
          { x.passed v with state := .rearm, fireFrame := v.frame } := State.unit_setUnit_self hu
      obtain ⟨r, hr, hkey, hru, hframe, hcause, hearly, hrearms, hvector⟩ := hf.record
      rw [hunit] at hearly hrearms
      refine ⟨hf.state.trans (by rw [hunit]), hf.frame.trans (by rw [hunit]), hf.early, hf.rearms, hf.key, hf.lo, hf.hi, r, hr, hkey, hru, hframe, hcause,
        hearly, hrearms, hvector⟩
  · rw [TrigUnit.turn_filled h hf]
  · rw [TrigUnit.turn_rearmed h hf]
  · intro n grown
    have hrun := copyRow_acts hr hp hq hs hroom
    refine ⟨Triggers.grow_of_room _ _ _, fun hg => ?_, fun r2 hg => ⟨Triggers.grow_room hg, fun x hx hc => ?_, fun x hx hc => ?_, fun hx hd => ?_,
      fun hx hd => ?_⟩⟩
    · exact hrun.trans (congrArg (s.copyInRoom (s.cellar.nextRow r) rest) hg)
    all_goals
      refine hrun.trans ((congrArg (s.copyInRoom (s.cellar.nextRow r) rest) hg).trans ((congrArg (s.copyNext r2 rest) hx).trans ?_))
    · exact if_pos (decide_eq_true hc)
    · exact if_neg (by simp [RingRow.copyable, hc])
    · exact if_pos hd
    · exact if_neg (by simp [hd])
  · subst hn
    exact State.takeRecord_places rest hs hr ha
  · exact State.finishRecord_stores r rest s
  · intro s2
    have hrun := versionCommit_acts hn hp hr
    refine ⟨fun hd => ?_, fun hd hf hh => ?_, fun hd hf hh hb => ?_, fun hd hf => ?_⟩
    · exact hrun.trans (if_pos ((Bool.not_eq_true' _).mpr hd))
    all_goals
      refine hrun.trans ((if_neg fun hx => Bool.noConfusion (hd.symm.trans ((Bool.not_eq_true' _).mp hx))).trans ?_)
    · exact (if_pos hf).trans (if_pos (by simpa using hh))
    · exact (if_pos hf).trans (if_neg (by simpa [hh] using hb))
    · exact if_neg ((Bool.not_eq_true _).mpr hf)

end Sys2Proof.Machine

/-! SUPPORT. Spans of the sparse memories (R284, R294): a walk reads what single reads do. -/

namespace Sys2Proof.Machine

section
variable {α : Type} [DecidableEq α] {d : α}

theorem Mem.wfFrom_above {m : Sparse α} {l : Nat} (h : Mem.wfFrom d (some l) m = true) : ∀ e ∈ m, l < e.1 := by
  induction m generalizing l with
  | nil => exact fun e he => absurd he List.not_mem_nil
  | cons x m ih =>
    obtain ⟨b, v⟩ := x
    simp only [Mem.wfFrom, Bool.and_eq_true, decide_eq_true_eq] at h
    intro e he
    rcases List.mem_cons.mp he with rfl | he
    · exact h.1.1
    · exact h.1.1.trans (ih h.2 e he)

omit [DecidableEq α] in
theorem Mem.walk_cons (n a b : Nat) (v : α) (m : Sparse α) :
    Mem.walk d (n + 1) ((b, v) :: m) a = if b = a then v :: Mem.walk d n m (a + 1) else d :: Mem.walk d n ((b, v) :: m) (a + 1) := rfl

omit [DecidableEq α] in
theorem Mem.read_of_head_ne {m : Sparse α} {b a : Nat} {v : α} (h : b < a) : Mem.read d ((b, v) :: m) a = Mem.read d m a := by
  rw [Mem.read_cons, if_neg (by omega), if_neg (by omega)]

/-- A walk over a memory whose entries begin at its address. -/
theorem Mem.walk_eq_readN {m : Sparse α} {lo : Option Nat} (n a : Nat) (h : Mem.wfFrom d lo m = true) (ha : ∀ e ∈ m, a ≤ e.1) :
    Mem.walk d n m a = Mem.readN d m a n := by
  induction n generalizing m lo a with
  | zero => rfl
  | succ n ih =>
    have hcons : Mem.readN d m a (n + 1) = Mem.read d m a :: Mem.readN d m (a + 1) n := by
      unfold Mem.readN
      rw [List.range_succ_eq_map, List.map_cons, List.map_map]
      refine congrArg₂ List.cons rfl (List.map_congr_left fun i _ => ?_)
      exact congrArg (Mem.read d m) (by simp only [Nat.succ_eq_add_one]; omega)
    rw [hcons]
    cases m with
    | nil => exact congrArg (List.cons d) (ih (lo := none) (a + 1) rfl fun e he => absurd he List.not_mem_nil)
    | cons x rest =>
      obtain ⟨b, v⟩ := x
      have hb : a ≤ b := ha (b, v) List.mem_cons_self
      have hrest : Mem.wfFrom d (some b) rest = true := by
        simp only [Mem.wfFrom, Bool.and_eq_true] at h
        exact h.2
      rw [Mem.walk_cons]
      by_cases hab : b = a
      · subst hab
        have hskip : Mem.readN d ((b, v) :: rest) (b + 1) n = Mem.readN d rest (b + 1) n :=
          List.map_congr_left fun i _ => Mem.read_of_head_ne (by omega)
        rw [if_pos rfl, Mem.read_cons, if_pos rfl, hskip, ih (b + 1) hrest fun e he => Mem.wfFrom_above hrest e he]
      · rw [if_neg hab, Mem.read_cons, if_neg (Ne.symm hab), if_pos (by omega)]
        refine congrArg (List.cons d) (ih (a + 1) h fun e he => ?_)
        rcases List.mem_cons.mp he with rfl | he
        · change a + 1 ≤ b
          omega
        · have := Mem.wfFrom_above hrest e he
          omega

/-- Entries below an address do not show from it on. -/
theorem Mem.dropWhile_below {m : Sparse α} {lo : Option Nat} (a : Nat) (h : Mem.wfFrom d lo m = true) :
    (∃ lo', Mem.wfFrom d lo' (m.dropWhile (fun e => e.1 < a)) = true) ∧ (∀ e ∈ m.dropWhile (fun e => e.1 < a), a ≤ e.1) ∧
      ∀ c, a ≤ c → Mem.read d (m.dropWhile (fun e => e.1 < a)) c = Mem.read d m c := by
  induction m generalizing lo with
  | nil => exact ⟨⟨none, rfl⟩, fun e he => absurd he List.not_mem_nil, fun _ _ => rfl⟩
  | cons x rest ih =>
    obtain ⟨b, v⟩ := x
    have hrest : Mem.wfFrom d (some b) rest = true := by
      simp only [Mem.wfFrom, Bool.and_eq_true] at h
      exact h.2
    by_cases hb : b < a
    · have hdrop : ((b, v) :: rest).dropWhile (fun e => e.1 < a) = rest.dropWhile (fun e => e.1 < a) :=
        List.dropWhile_cons_of_pos (decide_eq_true hb)
      rw [hdrop]
      obtain ⟨hwf, hge, hread⟩ := ih hrest
      exact ⟨hwf, hge, fun c hc => (hread c hc).trans (Mem.read_of_head_ne (by omega)).symm⟩
    · have hkeep : ((b, v) :: rest).dropWhile (fun e => e.1 < a) = (b, v) :: rest := List.dropWhile_cons_of_neg (by simpa using hb)
      rw [hkeep]
      refine ⟨⟨lo, h⟩, fun e he => ?_, fun _ _ => rfl⟩
      rcases List.mem_cons.mp he with rfl | he
      · exact Nat.le_of_not_lt hb
      · have := Mem.wfFrom_above hrest e he
        omega

/-- A slice holds what single reads give. -/
theorem Mem.slice_eq_readN {m : Sparse α} (a n : Nat) (h : Mem.wf d m = true) : Mem.slice d m a n = Mem.readN d m a n := by
  obtain ⟨⟨lo, hwf⟩, hge, hread⟩ := Mem.dropWhile_below a h
  exact (Mem.walk_eq_readN n a hwf hge).trans (List.map_congr_left fun i _ => hread _ (by omega))

/-- What is written is read back. -/
theorem Mem.slice_writeN_self {m : Sparse α} {vs : List α} (a : Nat) (h : Mem.wf d m = true) : Mem.slice d (Mem.writeN d m a vs) a vs.length = vs := by
  rw [Mem.slice_eq_readN _ _ (Mem.wf_writeN h)]
  unfold Mem.readN
  refine List.ext_getElem (by simp) fun i h1 h2 => ?_
  rw [List.getElem_map, List.getElem_range, Mem.read_writeN h, if_pos (by omega), Nat.add_sub_cancel_left]
  simp [h2]

/-- What lies beside a write stays. -/
theorem Mem.slice_writeN_apart {m : Sparse α} {vs : List α} {a b n : Nat} (h : Mem.wf d m = true) (hb : b + n ≤ a ∨ a + vs.length ≤ b) :
    Mem.slice d (Mem.writeN d m a vs) b n = Mem.slice d m b n := by
  rw [Mem.slice_eq_readN _ _ (Mem.wf_writeN h), Mem.slice_eq_readN _ _ h]
  refine List.map_congr_left fun i hi => ?_
  have := List.mem_range.mp hi
  rw [Mem.read_writeN h, if_neg (by omega)]

theorem Mem.slice_one {m : Sparse α} (a : Nat) (h : Mem.wf d m = true) : Mem.slice d m a 1 = [Mem.read d m a] :=
  Mem.slice_eq_readN a 1 h

end

/-- Settles O50: a span reads as its bytes do (`Mem.slice_eq_readN`), and two canonical lists that read alike are one. -/
theorem dramHoldsWhatWasWritten : Obligations.DramHoldsWhatWasWritten := by
  unfold Obligations.DramHoldsWhatWasWritten
  refine ⟨fun c a bs h => ⟨Mem.slice_writeN_self a h, Cellar.store_wf h, fun b n hb => Mem.slice_writeN_apart h hb, fun w h1 h2 hbad => ?_⟩,
    fun c d hc hd hread => Mem.ext_of_read hc hd fun a => ?_⟩
  · have hcover := (List.mem_filter.mp hbad).2
    simp [coversWord, h1, h2] at hcover
  · have h := hread a
    unfold Cellar.readBytes at h
    rw [Mem.slice_one a hc, Mem.slice_one a hd] at h
    exact (List.cons.inj h).1

end Sys2Proof.Machine

/-! SUPPORT. Cells and their words (R193, R200 to R208, R215, R227). -/

namespace Sys2Proof.Machine

section
variable {s : State} {c : Fin 72} {here : Nat → Bool} {k : ReadCheck} {j : Job} {m : Image} {w : Nat}

/-- A cell row issues the cell's next word. -/
theorem exec_of_cellRow {i : Instr} (h : cellRow i = some (c, here, k)) (s : State) : exec i s = .next (s.issueWord c.val here k) := by
  cases i <;> cases h <;> rfl

theorem State.atWord_eq_some (h : s.atWord c.val = some (j, m, w)) : (s.cell c.val).job = some j ∧ (s.cell c.val).dropped = false ∧
    (s.cell c.val).issued < j.budget ∧ s.loft.image j.image = some m ∧ (s.cell c.val).word = w := by
  unfold State.atWord at h
  split at h
  · cases h
  · next j' hj =>
    split at h
    · cases h
    · next hgo =>
      obtain ⟨m', hm, heq⟩ := Option.map_eq_some_iff.mp h
      cases heq
      simp only [Bool.or_eq_true, decide_eq_true_eq, not_or, Nat.not_le, Bool.not_eq_true] at hgo
      exact ⟨hj, hgo.1, hgo.2, hm, rfl⟩

/-! ### Before a word is issued -/

theorem State.issueWord_idle (hj : (s.cell c.val).job = none) : s.issueWord c.val here k = s := by
  unfold State.issueWord
  dsimp only
  rw [hj]

theorem State.issueWord_dropped (hj : (s.cell c.val).job ≠ none) (hd : (s.cell c.val).dropped = true) : s.issueWord c.val here k = s.dropJob c.val := by
  obtain ⟨j, hj⟩ := Option.ne_none_iff_exists'.mp hj
  unfold State.issueWord
  dsimp only
  rw [hj]
  exact if_pos hd

theorem State.issueWord_spent (hj : (s.cell c.val).job = some j) (hd : (s.cell c.val).dropped = false) (hb : j.budget ≤ (s.cell c.val).issued) :
    s.issueWord c.val here k = s.endJob c.val (some 5) := by
  unfold State.issueWord
  dsimp only
  rw [hj]
  dsimp only
  rw [if_neg ((Bool.not_eq_true _).mpr hd)]
  exact if_pos hb

theorem Loft.image_of_library {l : Loft} {i : Nat} (h : isLibrary i = true) : l.image i = none := if_pos h

/-- A word of a library program: counted, its block copied after the words that its program takes. -/
theorem State.issueWord_library (hj : (s.cell c.val).job = some j) (hd : (s.cell c.val).dropped = false) (hb : (s.cell c.val).issued < j.budget)
    (hl : isLibrary j.image = true) : s.issueWord c.val here k =
      if beyondRepair k then (s.loftEcc k c.val).endJob c.val (some 4)
      else ((s.loftEcc k c.val).setCell c.val { (s.loftEcc k c.val).cell c.val with
        issued := (s.cell c.val).issued + 1
        job := some (if libraryCopies j.image ≤ (s.cell c.val).issued + 1 then { j with toCopy := [] } else j) }).releaseSlot c.val := by
  unfold State.issueWord
  dsimp only
  rw [hj]
  dsimp only
  rw [if_neg ((Bool.not_eq_true _).mpr hd), if_neg (by omega), Loft.image_of_library hl]

/-! ### A word of a user program -/

theorem State.issueWord_elsewhere (h : s.atWord c.val = some (j, m, w)) (hw : here w = false) : s.issueWord c.val here k = s := by
  obtain ⟨hj, hd, hb, hm, hword⟩ := State.atWord_eq_some h
  unfold State.issueWord
  dsimp only
  rw [hj]
  dsimp only
  rw [if_neg ((Bool.not_eq_true _).mpr hd), if_neg (by omega), hm]
  dsimp only
  rw [hword]
  exact if_pos ((Bool.not_eq_true' _).mpr hw)

theorem State.issueWord_spoiled (h : s.atWord c.val = some (j, m, w)) (hw : here w = true) (hk : beyondRepair k = true) :
    s.issueWord c.val here k = (s.readEcc c.val w k).endJob c.val (some 4) := by
  obtain ⟨hj, hd, hb, hm, hword⟩ := State.atWord_eq_some h
  unfold State.issueWord
  dsimp only
  rw [hj]
  dsimp only
  rw [if_neg ((Bool.not_eq_true _).mpr hd), if_neg (by omega), hm]
  dsimp only
  rw [hword, if_neg (by simp [hw])]
  exact if_pos hk

/-- The state after a word, by what the cell makes of it. -/
def State.afterWord (s s1 : State) (c : Nat) (j : Job) (m : Image) (w : Nat) : Issued → State
  | .trap cause => (if cause = 4 then s1.readEcc c w (.beyond 0) else s1).endJob c (some cause)
  | .halted y => s1.haltUser c y j m
  | .cell y land => ((match land with | some e => s1.withLoft (s1.loft.write e.1 e.2) | none => s1).setCell c
      (if hasB 5 w then { y with job := some (j.copied ((s.cell c).landAt w)) } else y)).releaseSlot c

theorem State.issueWord_issues (h : s.atWord c.val = some (j, m, w)) (hw : here w = true) (hk : beyondRepair k = false) :
    s.issueWord c.val here k =
      s.afterWord (s.readEcc c.val w k) c.val j m w ((s.cell c.val).issue (s.windows c.val j m) m.complex w) := by
  obtain ⟨hj, hd, hb, hm, hword⟩ := State.atWord_eq_some h
  unfold State.issueWord
  dsimp only
  rw [hj]
  dsimp only
  rw [if_neg ((Bool.not_eq_true _).mpr hd), if_neg (by omega), hm]
  dsimp only
  rw [hword, if_neg (by simp [hw]), if_neg ((Bool.not_eq_true _).mpr hk)]
  cases (s.cell c.val).issue (s.windows c.val j m) m.complex w with
  | trap cause => rfl
  | halted y => rfl
  | cell y land => cases land <;> rfl

/-! ### Ends of jobs -/

theorem hasB_of_hasB_ne {a b : Nat} (h : hasB a w = true) (hab : a ≠ b) : hasB b w = false := by
  unfold hasB at *
  rw [beq_iff_eq] at h
  rw [h]
  simpa using hab

theorem halt_library (hj : (s.cell c.val).job = some j) (hl : isLibrary j.image = true) (hd : (s.cell c.val).dropped = false) :
    exec (.halt c) s = .next (s.endJob c.val (if j.budget ≤ (s.cell c.val).issued then some 5 else none)) := by
  change execHalt c s = _
  unfold execHalt State.haltLibrary
  rw [hj]
  dsimp only
  rw [if_pos hl, if_neg ((Bool.not_eq_true _).mpr hd), if_neg (by simp [hl])]

theorem halt_user (hj : (s.cell c.val).job = some j) (hl : isLibrary j.image = false) : exec (.halt c) s = .next (s.issueWord c.val (hasB 19) .clean) := by
  change execHalt c s = _
  unfold execHalt
  rw [hj]
  dsimp only
  rw [if_neg ((Bool.not_eq_true _).mpr hl)]

theorem State.cell_setCell_self {n : Nat} {x : Cell} (h : n < 72) : (s.setCell n x).cell n = x := vget_vset_self h

theorem State.cell_setCell_ne {n d : Nat} {x : Cell} (h : d ≠ n) : (s.setCell n x).cell d = s.cell d := vget_vset_ne h.symm

/-- A slot whose block is copied goes back; nothing else of the Loft changes but the marks of its codewords. -/
theorem State.releaseSlot_releases {n i : Nat} (hn : n < 72) (hj : (s.cell n).job = some j) (hi : j.slot = some i) (hc : j.toCopy = []) :
    (s.releaseSlot n).loft.slots = s.loft.slots.filter (· != i) ∧ ((s.releaseSlot n).cell n).job = some { j with slot := none } ∧
      (s.releaseSlot n).loft.jobs = s.loft.jobs ∧ (s.releaseSlot n).loft.landing = s.loft.landing := by
  unfold State.releaseSlot
  dsimp only
  rw [hj]
  dsimp only
  rw [hi]
  dsimp only
  rw [if_neg (by simp [hc]), State.cell_setCell_self hn]
  exact ⟨rfl, rfl, rfl, rfl⟩

theorem State.releaseSlot_waits {n i : Nat} (hj : (s.cell n).job = some j) (hi : j.slot = some i) (hc : j.toCopy ≠ []) : s.releaseSlot n = s := by
  unfold State.releaseSlot
  dsimp only
  rw [hj]
  dsimp only
  rw [hi]
  exact if_pos (by simpa using hc)

/-- The Loft when a job ends: its slot and its marks go. -/
def Loft.jobEnded (l : Loft) (j : Job) (trapped : Bool) : Loft :=
  { l with
    slots := match j.slot with | some i => l.slots.filter (· != i) | none => l.slots
    bad := if j.work == .map && j.slot.isNone then l.bad else l.bad.filter (fun w => w < j.inBase / 16 || (j.inBase + j.input.length + 15) / 16 ≤ w)
    stat := if trapped then finc l.stat F.LOFT_STAT.TRAPS else l.stat }

theorem State.endJob_trapped {n k : Nat} (hj : (s.cell n).job = some j) : s.endJob n (some k) =
    (((s.withLoft (s.loft.jobEnded j true)).setCell n { s.cell n with
      job := none, stat := fset (fset (s.cell n).stat F.CELL_STAT.TRAPPED 1) F.CELL_STAT.CAUSE k }).jobResult n j (some k)).report srcCellTrap
        (n + 256 * j.image) := by
  unfold State.endJob Loft.jobEnded
  dsimp only
  rw [hj]
  dsimp only [Option.isSome]
  cases j.slot <;> exact if_pos rfl

theorem State.endJob_completed {n : Nat} (hj : (s.cell n).job = some j) : s.endJob n none =
    ((s.withLoft (s.loft.jobEnded j false)).setCell n { s.cell n with job := none, stat := finc (s.cell n).stat F.CELL_STAT.JOBS }).jobResult n j none := by
  unfold State.endJob Loft.jobEnded
  dsimp only
  rw [hj]
  dsimp only [Option.isSome]
  cases j.slot <;> exact if_neg Bool.false_ne_true

end

/-- Settles O52: every cell row issues the next word (`exec_of_cellRow`), and a word acts by what the cell makes of it (`State.afterWord`). -/
theorem cellsIssueTheirWords : Obligations.CellsIssueTheirWords := by
  unfold Obligations.CellsIssueTheirWords
  refine ⟨fun i c here k j m w s hi h hw hk => ?_, fun i c here k j m w s hi h => ⟨fun hw => ?_, fun hw hk => ?_⟩,
    fun i c here k s hi => ⟨fun hj => ?_, fun hj hd => ?_, fun j hj hd hb => ?_⟩, fun c j s hj hl hd => halt_library hj hl hd,
    fun i c here k j s hi hj hl hd hb => ?_, fun c i j s hc hj hi => ⟨State.releaseSlot_waits hj hi, State.releaseSlot_releases hc hj hi⟩,
    fun c j m w y s h hl hb hy => ?_, fun c k j s hc hk hj => ?_, fun c j s hc hj => ?_⟩
  · intro s1
    have hrun := (exec_of_cellRow hi s).trans (congrArg Host.Outcome.next (State.issueWord_issues h hw hk))
    exact ⟨fun hb => if_pos (by simp [hb]), fun y land hy => by rw [hrun, hy]; rfl, fun cause hy => by rw [hrun, hy]; rfl,
      fun y hy => by rw [hrun, hy]; rfl⟩
  · rw [exec_of_cellRow hi, State.issueWord_elsewhere h hw]
  · rw [exec_of_cellRow hi, State.issueWord_spoiled h hw hk]
  · rw [exec_of_cellRow hi, State.issueWord_idle hj]
  · rw [exec_of_cellRow hi, State.issueWord_dropped hj hd]
  · rw [exec_of_cellRow hi, State.issueWord_spent hj hd hb]
  · rw [exec_of_cellRow hi, State.issueWord_library hj hd hb hl]
    exact ⟨fun hk => congrArg Host.Outcome.next (if_pos hk), fun hk => congrArg Host.Outcome.next (if_neg ((Bool.not_eq_true _).mpr hk))⟩
  · have hnot5 : s.readEcc c.val w .clean = s := if_pos (by simp [hasB_of_hasB_ne (b := 5) hb (by decide)])
    rw [halt_user (State.atWord_eq_some h).1 hl, State.issueWord_issues h hb rfl, hy, hnot5]
    rfl
  · refine ⟨_, State.endJob_trapped hj, ?_⟩
    rw [State.cell_setCell_self hc]
    refine ⟨rfl, (fbit_fset_ne (by decide) (by decide)).trans (fbit_fset (by decide)), (fget_fset (by decide)).trans (Nat.mod_eq_of_lt ?_),
      fun d hd => State.cell_setCell_ne hd, rfl, rfl⟩
    simp only [F.CELL_STAT.CAUSE]
    omega
  · refine ⟨_, State.endJob_completed hj, ?_⟩
    rw [State.cell_setCell_self hc]
    exact ⟨rfl, rfl, fun d hd => State.cell_setCell_ne hd⟩

end Sys2Proof.Machine

/-! SUPPORT. Jobs of the Loft and its memories (R192 to R194, R198 to R206, R240). -/

namespace Sys2Proof.Machine

section
variable {s v : State}

/-! ### Rows of the map leave the dispatcher's jobs alone -/

theorem and_and_eq_false {a b c : Bool} (h : a = false) : (a && b && c) = false := by
  rw [h]
  rfl

/-- A full-rate row is staged without lag. -/
theorem State.stage_jobs {r : ZoneRow} (h : r.src ≠ 1) (s : State) : (s.stage r).loft.jobs = s.loft.jobs := by
  unfold State.stage
  extract_lets l keep used r1 full r2 s1
  have hfull : full = false := and_and_eq_false (decide_eq_false h)
  clear_value full
  subst hfull
  rw [if_neg Bool.false_ne_true]
  rfl

theorem State.appendStore_loft (region : Nat) (store : RowStore) (row : StoreRow) (bs : List Byte) : (s.appendStore region store row bs).1.loft = s.loft := by
  unfold State.appendStore
  exact State.withCellar_loft _

theorem State.setMap_jobs (leg : Nat) (m : MapLeg) : (s.setMap leg m).loft.jobs = s.loft.jobs := rfl

theorem State.writeMapRows_jobs (leg fuel : Nat) (s : State) : (State.writeMapRows leg fuel s).loft.jobs = s.loft.jobs := by
  induction fuel generalizing s with
  | zero => rfl
  | succ fuel ih =>
    unfold State.writeMapRows
    split
    · rfl
    · split
      · rfl
      · dsimp only
        rw [ih, State.stage_jobs (by dsimp only; decide), State.withLoft_loft]
        dsimp only
        rw [State.appendStore_loft, State.setMap_jobs]

theorem State.mapResult_jobs (leg block : Nat) (g : GroupResult) (s : State) : (s.mapResult leg block g).loft.jobs = s.loft.jobs :=
  State.writeMapRows_jobs _ _ _

/-! ### Blocks for the map -/

/-- What a block's delivery finds in a state: a leg in force, with every row of the block, its last row copyable. -/
structure State.BlockThere (v : State) (n base tF : Nat) (bank : LegBank) (end_ : RingRow) : Prop where
  power : v.power.loft = true
  enable : fbit v.loft.cfg F.LOFT_CFG.ENABLE = true
  on : fbit (v.mapLeg n).cfg F.MAP_CFG.ON = true
  leg : bank.on = true
  found : (v.cellar.blockRows n base (v.mapLeg n).block bank).all Option.isSome = true
  last : ((v.cellar.blockRows n base (v.mapLeg n).block bank).filterMap id).getLast? = some end_
  copyable : end_.boundary + sec / 2 + 10 * tF ≤ v.now

/-- The state in which a leg's delivery runs: MAP_SET changes that are due are in force. -/
def State.mapSettled (s : State) (leg base : Nat) (bank : LegBank) : State :=
  s.applyDue (pickLeg cMapSet leg) (if fbit (s.mapLeg leg).cfg F.MAP_CFG.ON then
    (if (s.mapLeg leg).group = 0 then sampleFrame base bank.count (256 * (s.mapLeg leg).block) else 0) else s.globalFrame (s.frameAt s.now)) State.applyMapSet

/-- Rows of a block that the ring's writer is about to pass. -/
def State.blockNear (v : State) (rows : List RingRow) : Bool :=
  rows.any (fun r => r.p + v.cellar.full.size < v.cellar.full.pos + v.cellar.full.taken + v.guardBytes)

/-- Rows of a block with codewords that cannot be corrected. -/
def State.blockSpoiled (v : State) (n len : Nat) (rows : List RingRow) : Bool :=
  rows.any (fun r => v.cellar.ringSpoiled false (r.p + 64 + 64 * (v.mapLeg n).group) 64 ||
    v.cellar.ringSpoiled false (r.p + 64 + 2 * len + 8 * (v.mapLeg n).group) 8)

/-- LOFT_STAT.LAG is set. -/
def State.lagging (s : State) : State := s.withLoft { s.loft with stat := fset s.loft.stat F.LOFT_STAT.LAG 1 }

theorem exec_blockDelivery (leg : Fin 2) (s : State) : exec (.blockDelivery leg) s = execBlockDelivery leg s := rfl

theorem any_isNone_of_all_isSome {α : Type} {l : List (Option α)} (h : l.all Option.isSome = true) : l.any Option.isNone = false := by
  rw [List.any_eq_false]
  intro x hx
  have := List.all_eq_true.mp h x hx
  cases x <;> simp at *

theorem blockDelivery_lags {leg : Fin 2} {base tF : Nat} {detail : Bool} {bank : LegBank} {last : RingRow}
    (hb : (s.mapLeg leg.val).base = some (base, bank, detail, tF)) (hv : s.mapSettled leg.val base bank = v)
    (h : v.BlockThere leg.val base tF bank last)
    (hn : v.blockNear ((v.cellar.blockRows leg.val base (v.mapLeg leg.val).block bank).filterMap id) = true) :
    ∃ m1, exec (.blockDelivery leg) s = .next ((((v.setMap leg.val m1).mapResult leg.val (v.mapLeg leg.val).block
      (groupLost (v.mapLeg leg.val).group (bit 16))).lagging).report srcLoftLag leg.val) := by
  obtain ⟨hpower, henable, hon, hbank, hfound, hlast, hcopy⟩ := h
  unfold State.mapSettled at hv
  unfold State.blockNear at hn
  rw [exec_blockDelivery]
  unfold execBlockDelivery
  dsimp only
  rw [hb]
  dsimp only
  rw [hv, hpower, henable, hon, hbank, hfound, hlast, hn, any_isNone_of_all_isSome hfound, Option.getD_some, decide_eq_true hcopy, Bool.or_true, if_neg (by decide)]
  exact ⟨_, if_pos (by rfl)⟩

theorem blockDelivery_delivers {leg : Fin 2} {base tF i : Nat} {detail : Bool} {bank : LegBank} {last : RingRow}
    (hb : (s.mapLeg leg.val).base = some (base, bank, detail, tF)) (hv : s.mapSettled leg.val base bank = v)
    (h : v.BlockThere leg.val base tF bank last)
    (hn : v.blockNear ((v.cellar.blockRows leg.val base (v.mapLeg leg.val).block bank).filterMap id) = false)
    (hs : v.blockSpoiled leg.val bank.len ((v.cellar.blockRows leg.val base (v.mapLeg leg.val).block bank).filterMap id) = false)
    (hi : (List.range 48).find? (fun i => !v.loft.slots.contains i) = some i) :
    ∃ (u : State) (j : Job), exec (.blockDelivery leg) s = .next (u.withLoft { u.loft with slots := u.loft.slots ++ [i], jobs := u.loft.jobs ++ [j] }) ∧
      j.leg = leg.val ∧ j.item = (v.mapLeg leg.val).group ∧ j.block = (v.mapLeg leg.val).block ∧ j.slot = some i ∧ j.inBase = landSlot i := by
  obtain ⟨hpower, henable, hon, hbank, hfound, hlast, hcopy⟩ := h
  unfold State.mapSettled at hv
  unfold State.blockNear at hn
  unfold State.blockSpoiled at hs
  rw [exec_blockDelivery]
  unfold execBlockDelivery
  dsimp only
  rw [hb]
  dsimp only
  rw [hv, hpower, henable, hon, hbank, hfound, hlast, hn, hs, any_isNone_of_all_isSome hfound, Option.getD_some, decide_eq_true hcopy, Bool.or_true,
    if_neg (by decide), if_neg (by decide), hi]
  exact ⟨State.poolChanges _ (State.setMap leg.val _ v), _, rfl, rfl, rfl, rfl, rfl, rfl⟩

/-! ### Jobs and the scrubber -/

theorem State.startJob_waits {j : Job} {p : Pool} {k : ReadCheck} {taken : State → State} (h : ∀ c ∈ p.cells, (s.cell c).job.isNone = false) :
    s.startJob j p k taken = s := by
  have hnone : p.cells.find? (fun c => (s.cell c).job.isNone) = none := List.find?_eq_none.mpr fun c hc => by simp [h c hc]
  unfold State.startJob
  rw [hnone]

theorem State.startJob_starts {j : Job} {p : Pool} {k : ReadCheck} {taken : State → State} {c : Nat}
    (h : p.cells.find? (fun c => (s.cell c).job.isNone) = some c) (hk : beyondRepair k = false) :
    s.startJob j p k taken = ((taken s).loftEcc k 0xFF).setUpCell c j := by
  unfold State.startJob
  rw [h]
  exact if_neg ((Bool.not_eq_true _).mpr hk)

theorem State.startMap_starts {leg group i : Nat} {k : ReadCheck} {j : Job} {p : Pool}
    (hj : s.loft.jobs.find? (fun j => j.leg == leg && j.item == group) = some j) (hp : s.loft.poolFor .map none j.frame = some (i, p))
    (hi : s.loft.streamIdle j = true) : s.startMap leg group k = s.startJob (j.bound s.loft p) p k
      (fun t => t.withLoft { t.loft with jobs := t.loft.jobs.erase j }) := by
  unfold State.startMap
  rw [hj]
  dsimp only
  rw [hp]
  exact if_neg (by simp [hi])

theorem jobStart_runs {item : Fin 8192} {k : ReadCheck} (hp : s.power.loft = true) (he : fbit s.loft.cfg F.LOFT_CFG.ENABLE = true) :
    exec (.jobStart 0 item k) s = .next (s.startMap (item.val / 4096) (item.val % 4096) k) ∧
      exec (.jobStart 1 item k) s = .next (s.startZone (item.val % 256) k) ∧ exec (.jobStart 2 item k) s = .next (s.startDecode (item.val % 2) k) :=
  ⟨if_neg (by simp [hp, he]), if_neg (by simp [hp, he]), if_neg (by simp [hp, he])⟩

theorem jobStart_off {kind : Fin 3} {item : Fin 8192} {k : ReadCheck} (h : s.power.loft = false ∨ fbit s.loft.cfg F.LOFT_CFG.ENABLE = false) :
    exec (.jobStart kind item k) s = .next s :=
  if_pos (by rcases h with h | h <;> simp [h])

theorem exec_zoneRestart (z : Fin 256) (s : State) : exec (.zoneRestart z) s = execZoneRestart z s := rfl

theorem exec_loftScrub (m : LoftMemory) (k : ReadCheck) (s : State) : exec (.loftScrub m k) s = execLoftScrub m k s := rfl

theorem loftScrub_off {m : LoftMemory} {k : ReadCheck} (h : s.power.loft = false ∨ fbit s.loft.cfg F.LOFT_CFG.SCRUB_EN = false) :
    exec (.loftScrub m k) s = .next s :=
  if_pos (by rcases h with h | h <;> simp [h])

theorem zoneRestart_acts (z : Fin 256) (s : State) : (s.loft.vec.next = none → exec (.zoneRestart z) s = .next s) ∧
    (∀ f, s.loft.vec.next = some f → exec (.zoneRestart z) s = .next ((s.distribute f).advanceZone z.val f)) := by
  rw [exec_zoneRestart]
  unfold execZoneRestart
  exact ⟨fun h => by rw [h], fun f h => by rw [h]⟩

/-- A codeword that is good, or is corrected, is counted and no more. -/
theorem loftScrub_corrects (m : LoftMemory) {k : ReadCheck} (hp : s.power.loft = true) (he : fbit s.loft.cfg F.LOFT_CFG.SCRUB_EN = true)
    (hk : beyondRepair k = false) : exec (.loftScrub m k) s = .next (s.loftEcc k 0) := by
  have hplace : ∀ what, s.loftEcc k what = s.loftEcc k 0 := by
    intro what
    cases k with
    | clean => rfl
    | symbol y => rfl
    | beyond y => cases hk
  rw [exec_loftScrub]
  unfold execLoftScrub
  rw [if_neg (by simp [hp, he])]
  cases m <;> exact (congrArg Host.Outcome.next (if_neg ((Bool.not_eq_true _).mpr hk))).trans (congrArg Host.Outcome.next (hplace _))

/-- A codeword of the Loft that cannot be corrected is marked; a program ends its job. -/
theorem loftScrub_marks {k : ReadCheck} (hp : s.power.loft = true) (he : fbit s.loft.cfg F.LOFT_CFG.SCRUB_EN = true) (hk : beyondRepair k = true) :
    (∀ cw : Fin 262144, exec (.loftScrub (.landing cw) k) s = .next ((s.loftEcc k (landPlace cw.val)).withLoft
      { (s.loftEcc k (landPlace cw.val)).loft with bad := (s.loftEcc k (landPlace cw.val)).loft.bad ++ [cw.val] })) ∧
    (∀ (c : Fin 72) (cw : Fin 4096), exec (.loftScrub (.data c cw) k) s = .next ((s.loftEcc k c.val).setCell c.val
      { (s.loftEcc k c.val).cell c.val with bad := ((s.loftEcc k c.val).cell c.val).bad ++ [cw.val] })) ∧
    (∀ c : Fin 72, exec (.loftScrub (.program c) k) s = .next (((s.loftEcc k c.val).setCell c.val
      { (s.loftEcc k c.val).cell c.val with image := none }).endJob c.val (some 4))) := by
  refine ⟨fun cw => ?_, fun c cw => ?_, fun c => ?_⟩
  all_goals
    rw [exec_loftScrub]
    unfold execLoftScrub
    rw [if_neg (by simp [hp, he])]
    exact congrArg Host.Outcome.next (if_pos hk)

theorem blockDelivery_none {leg : Fin 2} (h : (s.mapLeg leg.val).base = none) : exec (.blockDelivery leg) s = .next s := by
  rw [exec_blockDelivery]
  unfold execBlockDelivery
  dsimp only
  rw [h]

theorem State.lagging_lag (s : State) : fbit s.lagging.loft.stat F.LOFT_STAT.LAG = true := fbit_fset (by decide)

theorem State.lagging_jobs (s : State) : s.lagging.loft.jobs = s.loft.jobs := rfl

end

/-- Settles O56: spans of the Landing read as its bytes do (`Mem.slice_eq_readN`); a job starts on the lowest idle cell; a block is delivered, or its
leg lags, by what `State.BlockThere` names. -/
theorem loftJobsAndMemories : Obligations.LoftJobsAndMemories := by
  unfold Obligations.LoftJobsAndMemories
  refine ⟨fun l a bs h => ⟨Mem.slice_writeN_self a h, fun b n hb => Mem.slice_writeN_apart h hb, Loft.write_wf h, rfl, rfl⟩,
    fun item k s hp he => jobStart_runs hp he, fun kind item k s => jobStart_off, fun leg group i k j p s hj hp hi => ?_,
    fun j p k taken s => ⟨State.startJob_waits, fun c => State.startJob_starts⟩, fun z s => zoneRestart_acts z s, fun m k s => loftScrub_off,
    fun s hp he => ⟨fun m => loftScrub_corrects m hp he rfl, fun m y => loftScrub_corrects m hp he rfl, fun cw k hk => (loftScrub_marks hp he hk).1 cw,
      fun c cw k hk => (loftScrub_marks hp he hk).2.1 c cw, fun c k hk => (loftScrub_marks hp he hk).2.2 c⟩, fun leg s => blockDelivery_none,
    fun leg base tF detail bank s hb => ?_⟩
  · exact ⟨rfl, rfl, rfl, State.startMap_starts hj hp hi⟩
  · intro v m found rows hpower henable hon hbank hfound last hlast hcopy
    have hthere : v.BlockThere leg.val base tF bank last := ⟨hpower, henable, hon, hbank, hfound, hlast, hcopy⟩
    refine ⟨fun hn => ?_, fun hn hs i hi => blockDelivery_delivers hb rfl hthere hn hs hi⟩
    obtain ⟨m1, hrun⟩ := blockDelivery_lags hb rfl hthere hn
    exact ⟨_, hrun, State.lagging_lag _, (State.lagging_jobs _).trans ((State.mapResult_jobs _ _ _ _).trans (State.setMap_jobs _ _))⟩

end Sys2Proof.Machine

/-! SUPPORT. Frames of the Causeway that are taken once (R331, R336, R338). -/

namespace Sys2Proof.Machine

section
variable {s : State} {h : CwHeader} {type : Nat} {own : Bool} {payload : List Byte}

/-! ### Arrival and flooding -/

theorem State.cwArrive_of_good (hr : s.cw.runs h.port.val = true) (hg : h.good = true) : s.cwArrive h = (s, true) :=
  (if_neg (by simp [hr])).trans (if_neg (by simp [hg]))

theorem State.cwArrive_of_bad (hr : s.cw.runs h.port.val = true) (hg : h.good = false) :
    s.cwArrive h = (s.withCw { s.cw with err := vmod s.cw.err h.port.val (fun w => finc w F.CW_ERR.CHECK_ERR) }, false) :=
  (if_neg (by simp [hr])).trans (if_pos (by simp [hg]))

theorem State.cwArrive_of_off (hr : s.cw.runs h.port.val = false) : s.cwArrive h = (s, false) := if_pos (by simp [hr])

/-- What lets a flooded frame in. -/
structure State.FloodFresh (s : State) (h : CwHeader) (type : Nat) (own : Bool) : Prop where
  good : h.good = true
  runs : s.cw.runs h.port.val = true
  hops : 0 < h.hops.val
  foreign : own = false
  new : (h.src.val, type, h.seq.val) ∉ s.cw.taken

theorem State.cwFlood_fresh (hf : s.FloodFresh h type own) : s.cwFlood h type own payload = ({ s with cw := { s.cw with
      taken := ((h.src.val, type, h.seq.val) :: s.cw.taken).take 256
      sent := if s.cw.runs (1 - h.port.val) then s.cw.sent ++ [{ port := 1 - h.port.val, type := type, srcId := h.src.val, hops := h.hops.val - 1
                                                               , seq := h.seq.val, payload := cwPayload payload }] else s.cw.sent } }, true) := by
  obtain ⟨hg, hr, hh, ho, hn⟩ := hf
  unfold State.cwFlood
  rw [State.cwArrive_of_good hr hg]
  dsimp only
  rw [if_neg (by decide), if_neg (by simp [ho, hn]; omega)]
  rfl

theorem State.cwFlood_stale (hg : h.good = true) (hstale : own = true ∨ h.hops.val = 0 ∨ (h.src.val, type, h.seq.val) ∈ s.cw.taken) :
    s.cwFlood h type own payload = (s, false) := by
  unfold State.cwFlood
  cases hr : s.cw.runs h.port.val with
  | false => rw [State.cwArrive_of_off hr]; rfl
  | true =>
    rw [State.cwArrive_of_good hr hg]
    dsimp only
    rw [if_neg (by decide), if_pos]
    rcases hstale with ho | hh | hn
    · simp [ho]
    · simp [hh]
    · simp [hn]

/-- Only a fresh frame is taken. -/
theorem State.floodFresh_of_taken (ht : (s.cwFlood h type own payload).2 = true) : s.FloodFresh h type own := by
  cases hr : s.cw.runs h.port.val with
  | false =>
    unfold State.cwFlood at ht
    rw [State.cwArrive_of_off hr] at ht
    cases ht
  | true =>
    cases hg : h.good with
    | false =>
      unfold State.cwFlood at ht
      rw [State.cwArrive_of_bad hr hg] at ht
      cases ht
    | true =>
      by_cases hstale : own = true ∨ h.hops.val = 0 ∨ (h.src.val, type, h.seq.val) ∈ s.cw.taken
      · rw [State.cwFlood_stale hg hstale] at ht
        cases ht
      · push Not at hstale
        exact ⟨hg, hr, Nat.pos_of_ne_zero hstale.2.1, (Bool.not_eq_true _).mp hstale.1, hstale.2.2⟩

/-- A frame that was taken is not taken again. -/
theorem State.cwFlood_again (hf : s.FloodFresh h type own) (own2 : Bool) (payload2 : List Byte) :
    ((s.cwFlood h type own payload).1.cwFlood h type own2 payload2).2 = false := by
  rw [State.cwFlood_fresh hf, State.cwFlood_stale hf.good (.inr (.inr List.mem_cons_self))]

/-! ### Tokens -/

theorem exec_cwVerdict (h : CwHeader) (time : Fin (2 ^ 64)) (groups : Fin 16) (s : State) :
    exec (.cwVerdict h time groups) s = execCwVerdict h time groups s := rfl

/-- A verdict that is taken is held once, under its sender's serial. -/
theorem cwVerdict_takes {time : Fin (2 ^ 64)} {groups : Fin 16} {t : State} {d : Nat}
    (ha : s.cwFlood h cwVerdict (s.cwOwn h) (leBytes 8 time.val ++ leBytes 1 groups.val) = (t, true)) (hd : t.cw.ring[h.src.val]? = some d) :
    exec (.cwVerdict h time groups) s = if (t.verdictOf d time.val).isSome then .next t
      else .next { t with trig := { t.trig with verdicts := t.trig.verdicts ++ [({ time := time.val, device := d, groups := groups.val } : Verdict)] } } := by
  rw [exec_cwVerdict]
  unfold execCwVerdict
  rw [ha]
  dsimp only
  rw [if_neg (by decide), hd]

theorem cwVerdict_drops {time : Fin (2 ^ 64)} {groups : Fin 16} {t : State}
    (ha : s.cwFlood h cwVerdict (s.cwOwn h) (leBytes 8 time.val ++ leBytes 1 groups.val) = (t, false)) :
    exec (.cwVerdict h time groups) s = .next t := by
  rw [exec_cwVerdict]
  unfold execCwVerdict
  rw [ha]
  rfl

/-- A reset token noted in a chain. -/
def Hall.noteReset (time : Nat) (x : Hall) : Hall := { x with chain := { x.chain with resets := x.chain.resets ++ [time] } }

/-- A reset token noted in every chain. -/
def State.chainsReset (s : State) (time : Nat) : State := { s with halls := { s.halls with leg := s.halls.leg.map (Hall.noteReset time) } }

theorem State.chainsReset_chain {leg : Nat} (time : Nat) (hl : leg < 2) :
    (s.chainsReset time).chain leg = { s.chain leg with resets := (s.chain leg).resets ++ [time] } :=
  congrArg Hall.chain (vget_map (f := Hall.noteReset time) hl : vget (s.halls.leg.map (Hall.noteReset time)) leg {} = Hall.noteReset time (s.hall leg))

theorem cwReset_resets {time : Fin (2 ^ 64)} {t : State} {b : Bool} (ha : s.cwFlood h cwReset (s.cwOwn h) (leBytes 8 time.val) = (t, b)) :
    exec (.cwReset h time) s = .next (if b then t.chainsReset time.val else t) := by
  change execCwReset h time s = _
  unfold execCwReset
  rw [ha]
  rfl

theorem cwMember_takes {mask : Fin 256} {time : Fin (2 ^ 64)} {t : State} {b : Bool}
    (ha : s.cwFlood h cwMember (s.cwOwn h) (leBytes 1 mask.val ++ leBytes 8 time.val) = (t, b)) :
    exec (.cwMember h mask time) s = .next (if b then t.cwTakeSet time.val mask.val (t.cw.ofMask mask.val) else t) := by
  change execCwMember h mask time s = _
  unfold execCwMember
  rw [ha]
  cases b <;> rfl

theorem State.cwWiden_cw (time : Nat) (ns : List Nat) : (s.cwWiden time ns).cw = s.cw := by
  unfold State.cwWiden
  extract_lets old
  split <;> rfl

theorem State.cwTakeSet_eq (time mask : Nat) (ns : List Nat) (s : State) :
    ∃ u : State, s.cwTakeSet time mask ns = u.emitAt (some time) evMember ([w32 mask] ++ w64 time) ∧ u.cw = s.cw.await time ns :=
  ⟨(s.cwWiden time ns).withCw ((s.cwWiden time ns).cw.await time ns), rfl, congrArg (fun c => Causeway.await c time ns) (State.cwWiden_cw time ns)⟩

/-- A frame sent on one port that runs. -/
theorem Causeway.send_one {c : Causeway} {p : Nat} (type : Nat) (payload : List Byte) (hr : c.runs p = true) : (c.send [p] type payload).sent = c.sent ++
    [{ port := p, type := type, srcId := c.id, hops := 7, seq := vget c.seq type 0, payload := cwPayload payload }] := by
  unfold Causeway.send
  dsimp only
  rw [List.filter_cons_of_pos hr]
  rfl

end

/-- Settles O57: what lets a flooded frame in (`State.FloodFresh`), and what each kind does once it is taken. -/
theorem floodedFramesAreTakenOnce : Obligations.FloodedFramesAreTakenOnce := by
  unfold Obligations.FloodedFramesAreTakenOnce
  refine ⟨fun h s hr hg => ?_, fun h type own payload s ht => ?_, fun h type own payload s hg => State.cwFlood_stale hg, fun h e tF s => rfl,
    fun h group time s => rfl, fun h time groups s => ?_, fun h time s => ?_, fun h mask time s => ?_, State.cwTakeSet_eq,
    fun c p type payload => Causeway.send_one type payload⟩
  · refine ⟨_, State.cwArrive_of_bad hr hg, ?_⟩
    rw [vget_vmod_self h.port.isLt]
  · have hf := State.floodFresh_of_taken ht
    exact ⟨hf.good, hf.runs, hf.hops, hf.foreign, hf.new, congrArg Prod.fst (State.cwFlood_fresh hf), State.cwFlood_again hf⟩
  · intro a
    refine ⟨fun hb => cwVerdict_drops (Prod.ext rfl hb), fun hb d hd => ⟨fun hv => ?_, fun v hv => ?_⟩⟩
    · exact (cwVerdict_takes (Prod.ext rfl hb) hd).trans (if_neg (by rw [hv]; decide))
    · exact (cwVerdict_takes (Prod.ext rfl hb) hd).trans (if_pos (by rw [hv]; rfl))
  · intro a
    refine ⟨fun hb => cwReset_resets (t := a.1) (b := false) (Prod.ext rfl hb),
      fun hb => ⟨a.1.chainsReset time.val, cwReset_resets (t := a.1) (b := true) (Prod.ext rfl hb), fun leg hl => ?_⟩⟩
    rw [State.chainsReset_chain _ hl]
    exact ⟨rfl, rfl⟩
  · exact cwMember_takes rfl

end Sys2Proof.Machine

/-! SUPPORT. The ring of the Causeway: its members, its master, its links and its time (R269, R330 to R339). -/

namespace Sys2Proof.Machine

section
variable {s : State}

/-! ### The list of serials -/

theorem mem_insertSerial {n x : Nat} {l : List Nat} : x ∈ insertSerial n l ↔ x = n ∨ x ∈ l := by
  induction l with
  | nil => simp [insertSerial]
  | cons y l ih =>
    unfold insertSerial
    split
    · simp
    · split
      · next heq =>
        subst heq
        simp
      · simp only [List.mem_cons, ih]
        tauto

theorem insertSerial_pairwise {n : Nat} {l : List Nat} (h : l.Pairwise (· < ·)) : (insertSerial n l).Pairwise (· < ·) := by
  induction l with
  | nil => exact List.pairwise_singleton _ _
  | cons y l ih =>
    obtain ⟨hy, hl⟩ := List.pairwise_cons.mp h
    unfold insertSerial
    split
    · next hlt =>
      refine List.pairwise_cons.mpr ⟨fun x hx => ?_, h⟩
      rcases List.mem_cons.mp hx with rfl | hx
      · exact hlt
      · exact hlt.trans (hy x hx)
    · split
      · exact h
      · next hge hne =>
        refine List.pairwise_cons.mpr ⟨fun x hx => ?_, ih hl⟩
        rcases mem_insertSerial.mp hx with rfl | hx
        · omega
        · exact hy x hx

theorem foldl_insertSerial {ms : List Member} {l : List Nat} (h : l.Pairwise (· < ·)) :
    (ms.foldl (fun l m => insertSerial m.serial l) l).Pairwise (· < ·) ∧
      ∀ n, n ∈ ms.foldl (fun l m => insertSerial m.serial l) l ↔ n ∈ l ∨ n ∈ ms.map (·.serial) := by
  induction ms generalizing l with
  | nil => exact ⟨h, by simp⟩
  | cons m ms ih =>
    obtain ⟨hp, hm⟩ := ih (insertSerial_pairwise (n := m.serial) h)
    refine ⟨hp, fun n => (hm n).trans ?_⟩
    rw [mem_insertSerial, List.map_cons, List.mem_cons]
    tauto

theorem State.cwSerials_sorted (s : State) : s.cwSerials.Pairwise (· < ·) ∧
    ∀ n, n ∈ s.cwSerials ↔ n = s.host.serial ∨ n ∈ s.cw.members.map (·.serial) := by
  obtain ⟨hp, hm⟩ := foldl_insertSerial (ms := s.cw.members) (List.pairwise_singleton (· < ·) s.host.serial)
  exact ⟨hp, fun n => (hm n).trans (by rw [List.mem_singleton])⟩

/-! ### The election (R333) -/

theorem State.cwElect_strapped {ring : List Nat} {n : Nat} (hp : ring.Pairwise (· < ·)) (hf : ring.find? s.cwStrap = some n) :
    s.cwElect ring = n ∧ n ∈ ring ∧ s.cwStrap n = true ∧ ∀ m ∈ ring, s.cwStrap m = true → n ≤ m := by
  obtain ⟨hn, pre, post, hring, hpre⟩ := List.find?_eq_some_iff_append.mp hf
  refine ⟨by unfold State.cwElect; rw [hf], by simp [hring], hn, fun m hm hs => ?_⟩
  rw [hring] at hm hp
  rcases List.mem_append.mp hm with hm | hm
  · have := hpre m hm
    rw [hs] at this
    cases this
  · rcases List.mem_cons.mp hm with rfl | hm
    · exact le_refl _
    · exact le_of_lt (List.rel_of_pairwise_cons (List.pairwise_append.mp hp).2.1 hm)

theorem State.cwElect_unstrapped {ring : List Nat} (hp : ring.Pairwise (· < ·)) (hne : ring ≠ []) (hf : ring.find? s.cwStrap = none) :
    s.cwElect ring ∈ ring ∧ ∀ m ∈ ring, s.cwElect ring ≤ m := by
  obtain ⟨n, rest, rfl⟩ := List.exists_cons_of_ne_nil hne
  have helect : s.cwElect (n :: rest) = n := by
    unfold State.cwElect
    rw [hf]
    rfl
  rw [helect]
  refine ⟨List.mem_cons_self, fun m hm => ?_⟩
  rcases List.mem_cons.mp hm with rfl | hm
  · exact le_refl _
  · exact le_of_lt (List.rel_of_pairwise_cons hp hm)

theorem State.cwElect_elects (ring : List Nat) (hp : ring.Pairwise (· < ·)) (hne : ring ≠ []) : s.cwElect ring ∈ ring ∧
    ((∃ n ∈ ring, s.cwStrap n = true) → s.cwStrap (s.cwElect ring) = true ∧ ∀ n ∈ ring, s.cwStrap n = true → s.cwElect ring ≤ n) ∧
    ((∀ n ∈ ring, s.cwStrap n = false) → ∀ n ∈ ring, s.cwElect ring ≤ n) := by
  cases hf : ring.find? s.cwStrap with
  | some n =>
    obtain ⟨helect, hmem, hstrap, hmin⟩ := State.cwElect_strapped hp hf
    rw [helect]
    exact ⟨hmem, fun _ => ⟨hstrap, hmin⟩, fun hall => absurd hstrap (by rw [hall n hmem]; decide)⟩
  | none =>
    obtain ⟨hmem, hmin⟩ := State.cwElect_unstrapped hp hne hf
    refine ⟨hmem, fun ⟨n, hn, hs⟩ => ?_, fun _ => hmin⟩
    exact absurd hs (List.find?_eq_none.mp hf n hn)

/-! ### HELLO -/

theorem take_cwPayload {a b : List Byte} (h : a.length ≤ 20) : (cwPayload (a ++ b)).take a.length = a := by
  unfold cwPayload bytesAt
  refine List.ext_getElem (by simp; omega) fun i h1 h2 => ?_
  simp [List.getElem?_append_left h2, h2]

theorem leBytes_length (n v : Nat) : (leBytes n v).length = n := by
  induction n generalizing v with
  | zero => rfl
  | succ n ih => exact congrArg (· + 1) (ih _)

/-- The HELLO frames of the ports that run. -/
def State.helloFrames (s : State) : List CwFrame :=
  ([0, 1].filter s.cw.runs).map (fun p => ({ port := p, type := cwHello, srcId := s.cw.id, hops := 7, seq := vget s.cw.seq cwHello 0
                                             payload := cwPayload (leBytes 8 s.host.serial ++ leBytes 1 s.power.masterSel.toNat ++ leBytes 1 p ++
      leBytes 1 (s.cw.members.length + 1) ++ leBytes 1 (fget s.cw.stat F.CW_STAT.LOCKED)) } : CwFrame))

theorem cwHelloSend_sends (h : s.cwLive = true) : exec .cwHelloSend s = .next { s with cw := { s.cw with
    sent := s.cw.sent ++ s.helloFrames, seq := vset s.cw.seq cwHello ((vget s.cw.seq cwHello 0 + 1) % 65536) } } :=
  if_neg (by simp [h])

theorem State.helloFrames_ports (s : State) : s.helloFrames.map (·.port) = [0, 1].filter s.cw.runs := by
  unfold State.helloFrames
  rw [List.map_map]
  exact List.map_id'' (fun _ => rfl) _

theorem State.helloFrames_fields {f : CwFrame} (hf : f ∈ s.helloFrames) :
    f.type = cwHello ∧ f.hops = 7 ∧ f.srcId = s.cw.id ∧ f.payload.take 8 = leBytes 8 s.host.serial := by
  obtain ⟨p, -, rfl⟩ := List.mem_map.mp hf
  refine ⟨rfl, rfl, rfl, ?_⟩
  have hlen : (leBytes 8 s.host.serial).length = 8 := leBytes_length _ _
  dsimp only
  rw [List.append_assoc, List.append_assoc, List.append_assoc]
  exact hlen ▸ take_cwPayload (by omega)

/-- The Causeway as a HELLO on a port leaves it before the frame is judged. -/
def State.helloHeard (s : State) (p : Nat) : State :=
  s.withCw { s.cw with
    helloUp := vset s.cw.helloUp p s.time.up
    err := if vget s.cw.fallen p false then s.cw.err else vmod s.cw.err p (fun w => fset w F.CW_ERR.UP 1) }

theorem exec_cwHello (h : CwHeader) (serial : Fin (2 ^ 64)) (strap : Bool) (sending : Fin 2) (seen : Fin 256) (locked : Bool) (s : State) :
    exec (.cwHello h serial strap sending seen locked) s = execCwHello h serial strap sending seen locked s := rfl

theorem cwHello_sees {h : CwHeader} {serial : Fin (2 ^ 64)} {strap : Bool} {sending : Fin 2} {seen : Fin 256} {locked : Bool}
    (hr : s.cw.runs h.port.val = true) (hg : h.good = true) : ∃ pay,
      let a := (s.helloHeard h.port.val).cwFlood h cwHello (s.cwOwn h || serial.val == s.host.serial) pay
      exec (.cwHello h serial strap sending seen locked) s = .next (if a.2 then
        a.1.cwSee { serial := serial.val, strap, locked, port := h.port.val, hops := 7 - min 7 h.hops.val, lastUp := s.time.up } else a.1) := by
  refine ⟨leBytes 8 serial.val ++ leBytes 1 strap.toNat ++ leBytes 1 sending.val ++ leBytes 1 seen.val ++ leBytes 1 locked.toNat, ?_⟩
  intro a
  rw [exec_cwHello]
  unfold execCwHello
  rw [if_neg (by simp [hr])]
  dsimp only
  rw [hg, Bool.not_true, if_neg Bool.false_ne_true]
  rfl

/-- What a serial not seen before makes of the Causeway. -/
theorem State.cwSee_new {m : Member} (hm : m.serial ∉ s.cw.members.map (·.serial)) (hp : (s.cwRing && s.planRuns) = false) :
    s.cwSee m = (s.changeRing (fun u => { u with cw := { s.cw with members := s.cw.members ++ [m], heldUp := s.time.up, stable := false } })).cwReady := by
  have hany : s.cw.members.any (fun x => x.serial == m.serial) = false := by
    rw [List.any_eq_false]
    intro x hx hs
    exact hm (List.mem_map.mpr ⟨x, hx, beq_iff_eq.mp hs⟩)
  unfold State.cwSee
  dsimp only
  rw [if_neg (by rw [hany]; decide), if_neg (by rw [hp]; decide)]
  rfl

/-! ### The source in use -/

theorem State.changeRing_same {f : State → State} (h : (f s).srcInUse = s.srcInUse) : s.changeRing f = s.timeStatus f :=
  State.timeStatus_congr (if_pos h)

theorem State.changeRing_other {f : State → State} (h : (f s).srcInUse ≠ s.srcInUse) :
    s.changeRing f = s.timeStatus (fun u => (f u).judgeSource u.srcInUse) :=
  State.timeStatus_congr (if_neg h)

/-! ### Membership -/

theorem exec_membershipStable (s : State) : exec .membershipStable s = execMembershipStable s := rfl

/-- A membership above eight is no ring. -/
def Causeway.noRing (c : Causeway) : Causeway :=
  { c with
    stable := true, rejoin := false, ring := [], awaited := [], segment := none
    stat := fset (fset (fset c.stat F.CW_STAT.MASTER 0) F.CW_STAT.READY 0) F.CW_STAT.MEMBERS 0 }

/-- A membership of up to eight is the ring. -/
def Causeway.formRing (c : Causeway) (serial : Nat) (ring : List Nat) : Causeway :=
  { c with
    stable := true, rejoin := false, segment := none, ring
    stat := fset (fset c.stat F.CW_STAT.MEMBERS ring.length) F.CW_STAT.SRC_ID (ring.filter (· < serial)).length
    awaited := if decide (c.ring = ring) then c.awaited else [(0, ring)]
    exchanges := if decide (c.ring = ring) then c.exchanges else Vector.replicate 2 [] }

theorem membershipStable_tooMany (hl : s.cwLive = true) (hs : s.cw.stable = false ∨ s.cw.rejoin = true) (h8 : 8 < s.cwSerials.length) :
    exec .membershipStable s = .next (((s.untilUp (s.cw.heldUp + 100 * ms)).changeRing (fun u => { u with cw := s.cw.noRing })).setCondition
      srcRingSize true 0) := by
  rw [exec_membershipStable]
  unfold execMembershipStable
  rw [if_neg (by rcases hs with hs | hs <;> simp [hl, hs])]
  dsimp only
  exact if_pos h8

theorem membershipStable_forms (hl : s.cwLive = true) (hs : s.cw.stable = false) (hr : s.cw.rejoin = false) (h8 : s.cwSerials.length ≤ 8) :
    exec .membershipStable s = .next ((s.untilUp (s.cw.heldUp + 100 * ms)).changeRing (fun u =>
      (State.setCondition srcRingSize false 0 { u with cw := s.cw.formRing s.host.serial s.cwSerials }).cwTakeMaster s.cwSerials)) := by
  have hno : ∀ t : State, ¬ (s.cw.rejoin && t.cwMaster) = true := fun t => by rw [hr, Bool.false_and]; decide
  rw [exec_membershipStable]
  unfold execMembershipStable
  rw [if_neg (by simp [hl, hs])]
  dsimp only
  refine (if_neg (Nat.not_lt.mpr h8)).trans (congrArg Host.Outcome.next ((if_neg (hno _)).trans ?_))
  rfl

/-! ### Links -/

theorem State.cwLinkCause_eq (p : Nat) (s : State) : ∃ stat, s.cwLinkCause p = ({ s with cw := { s.cw with stat } }).setCondition srcCausewayLink
      (vget s.cw.fallen 0 false || vget s.cw.fallen 1 false) p ∧ fbit stat F.CW_STAT.LINE = (vget s.cw.fallen 0 false || vget s.cw.fallen 1 false) :=
  ⟨_, rfl, fbit_fsetB (by decide) rfl⟩

/-- The Causeway after a port has gone down. -/
def Causeway.portDown (c : Causeway) (n : Nat) : Causeway :=
  { c with
    err := vmod c.err n (fun w => finc (fset w F.CW_ERR.UP 0) F.CW_ERR.DOWNS), fallen := vset c.fallen n true, timeHops := vset c.timeHops n none
    timePort := match c.timePort with | some (q, k) => if q = n then none else some (q, k) | none => none }

theorem Causeway.portDown_holds (c : Causeway) {n : Nat} (hn : n < 2) : fbit (vget (c.portDown n).err n 0) F.CW_ERR.UP = false ∧
    vget (c.portDown n).fallen n false = true ∧ vget (c.portDown n).timeHops n none = none ∧ (c.portDown n).ring = c.ring ∧
    (c.portDown n).members = c.members := by
  refine ⟨?_, vget_vset_self hn, vget_vset_self hn, rfl, rfl⟩
  unfold Causeway.portDown
  dsimp only
  rw [vget_vmod_self hn, fbit_finc_ne (by decide) (by decide), fbit_fset (by decide)]
  rfl

theorem exec_cwPortDown (p : Fin 2) (hello : Bool) (s : State) : exec (.cwPortDown p hello) s = execCwPortDown p hello s := rfl

theorem cwPortDown_falls {p : Fin 2} {hello : Bool} (hr : s.cw.runs p.val = true) (hu : fbit (vget s.cw.err p.val 0) F.CW_ERR.UP = true) :
    exec (.cwPortDown p hello) s = .next (({ (if hello then s.untilUp (vget s.cw.helloUp p.val 0 + 5 * ms) else s) with
      cw := s.cw.portDown p.val }).cwLinkCause p.val) := by
  rw [exec_cwPortDown]
  unfold execCwPortDown
  dsimp only
  rw [if_neg (by rw [hr, hu]; decide)]
  unfold Causeway.portDown
  cases hello <;> rfl

/-- The Causeway after a link has returned. -/
def Causeway.linkUp (c : Causeway) (n up : Nat) : Causeway :=
  { c with
    err := vmod c.err n (fun w => fset w F.CW_ERR.UP 1), fallen := vset c.fallen n false, exchanges := vset c.exchanges n []
    helloUp := vset c.helloUp n up, heldUp := up, rejoin := !c.ring.isEmpty }

theorem Causeway.linkUp_holds (c : Causeway) {n : Nat} (up : Nat) (hn : n < 2) : fbit (vget (c.linkUp n up).err n 0) F.CW_ERR.UP = true ∧
    vget (c.linkUp n up).fallen n true = false ∧ vget (c.linkUp n up).exchanges n [0] = [] ∧ (c.linkUp n up).heldUp = up ∧
    (c.ring ≠ [] → (c.linkUp n up).rejoin = true) := by
  refine ⟨?_, vget_vset_self hn, vget_vset_self hn, rfl, fun h => ?_⟩
  · unfold Causeway.linkUp
    dsimp only
    rw [vget_vmod_self hn]
    exact fbit_fset (by decide)
  · unfold Causeway.linkUp
    simp [h]

theorem cwLinkReturn_returns {p : Fin 2} (hr : s.cw.runs p.val = true) (hf : vget s.cw.fallen p.val false = true) :
    exec (.cwLinkReturn p) s = .next (({ s with cw := s.cw.linkUp p.val s.time.up }).cwLinkCause (1 - p.val)) :=
  if_neg (by simp [hr, hf])

theorem exec_ringSplit (s : State) : exec .ringSplit s = execRingSplit s := rfl

theorem ringSplit_splits {m0 : Member} {more : List Member} (hr : s.cwRing = true) (hl : fbit s.cw.stat F.CW_STAT.LINE = true)
    (hm : s.cw.members.filter (fun m => (s.cw.segment.getD s.cw.ring).contains m.serial) = m0 :: more) :
    let u := s.untilUp (more.foldl (fun a m => min a m.lastUp) m0.lastUp + sec)
    let ns := (s.cw.segment.getD s.cw.ring).filter (fun n => n == s.host.serial ||
      (m0 :: more).any (fun m => m.serial == n && decide (u.time.up < m.lastUp + sec)))
    let t := u.changeRing (fun v => ({ v with cw := { v.cw with segment := some ns } }).cwTakeMaster ns)
    exec .ringSplit s = .next (if t.cwMaster then t.cwSendMember ns else t) := by
  intro u ns t
  rw [exec_ringSplit]
  unfold execRingSplit
  dsimp only
  rw [hm]
  exact if_neg (by simp [hr, hl])

theorem ringSplit_idle (h : s.cwRing = false ∨ fbit s.cw.stat F.CW_STAT.LINE = false) : exec .ringSplit s = .next s := by
  rw [exec_ringSplit]
  unfold execRingSplit
  dsimp only
  split
  · rfl
  · exact if_pos (by rcases h with h | h <;> simp [h])

/-! ### Hop delays (R334) -/

theorem exec_hopMeasurement (p : Fin 2) (s : State) : exec (.hopMeasurement p) s = execHopMeasurement p s := rfl

theorem hopMeasurement_acts {p : Fin 2} (hr : s.cwRing = true) (hu : fbit (vget s.cw.err p.val 0) F.CW_ERR.UP = true) :
    exec (.hopMeasurement p) s = if (vget s.cw.exchanges p.val []).length < 64 then .next (s.cwSend [p.val] cwDelayReq [])
      else .next { s with cw := { s.cw with hop := vset s.cw.hop p.val (w32 (wrapTo 32 (hopDelay (vget s.cw.exchanges p.val [])))) } } := by
  rw [exec_hopMeasurement]
  unfold execHopMeasurement
  dsimp only
  rw [if_neg (by rw [hr, hu]; decide)]
  rfl

theorem hopMeasurement_idle {p : Fin 2} (h : s.cwRing = false ∨ fbit (vget s.cw.err p.val 0) F.CW_ERR.UP = false) :
    exec (.hopMeasurement p) s = .next s := by
  rw [exec_hopMeasurement]
  unfold execHopMeasurement
  dsimp only
  refine if_pos ?_
  rcases h with h | h <;> rw [h]
  · rfl
  · exact Bool.or_true _

theorem exec_cwDelayReq (h : CwHeader) (rb : BitVec 32) (s : State) : exec (.cwDelayReq h rb) s = execCwDelayReq h rb s := rfl

theorem cwDelayReq_answers {h : CwHeader} {rb : BitVec 32} (hr : s.cw.runs h.port.val = true) (hg : h.good = true) :
    exec (.cwDelayReq h rb) s = .next (s.cwSend [h.port.val] cwDelayResp (leBytes 4 rb.toNat)) := by
  rw [exec_cwDelayReq]
  unfold execCwDelayReq
  rw [State.cwArrive_of_good hr hg]
  rfl

theorem exec_cwDelayResp (h : CwHeader) (ra : Nat) (rb : BitVec 32) (s : State) : exec (.cwDelayResp h ra rb) s = execCwDelayResp h ra rb s := rfl

theorem cwDelayResp_counts {h : CwHeader} {ra : Nat} {rb : BitVec 32} (hr : s.cw.runs h.port.val = true) (hg : h.good = true) :
    exec (.cwDelayResp h ra rb) s = if 64 ≤ (vget s.cw.exchanges h.port.val []).length then .next s
      else .next { s with cw := { s.cw with exchanges := vmod s.cw.exchanges h.port.val (fun l => l ++ [(ra : Int) - rb.toNat]) } } := by
  rw [exec_cwDelayResp]
  unfold execCwDelayResp
  rw [State.cwArrive_of_good hr hg]
  dsimp only
  refine if_congr ?_ rfl rfl
  simp

theorem insertInt_replicate (x : Int) (n : Nat) : insertInt x (List.replicate n x) = List.replicate (n + 1) x := by
  cases n with
  | zero => rfl
  | succ n => exact if_pos (le_refl x)

theorem sortInts_replicate (x : Int) (n : Nat) : sortInts (List.replicate n x) = List.replicate n x := by
  induction n with
  | zero => rfl
  | succ n ih =>
    have hstep : sortInts (List.replicate (n + 1) x) = insertInt x (sortInts (List.replicate n x)) := rfl
    rw [hstep, ih, insertInt_replicate]

/-- 64 equal exchanges of twice a delay give the delay. -/
theorem hopDelay_replicate (d : Int) : hopDelay (List.replicate 64 (2 * d)) = d := by
  unfold hopDelay
  rw [sortInts_replicate]
  dsimp only
  rw [List.getElem?_replicate_of_lt (by decide), List.getElem?_replicate_of_lt (by decide), Option.getD_some]
  omega

/-! ### TIME (R335) -/

theorem cwTimeSend_sends (hl : s.cwLive = true) (hr : s.cwRing = true) (hm : s.cwMaster = true) :
    exec .cwTimeSend s = .next (s.cwSend [0, 1] cwTime (leBytes 8 s.now ++ leBytes 1 0)) :=
  if_neg (by simp [hl, hr, hm])

theorem cwTimeSend_idle (h : s.cwLive = false ∨ s.cwRing = false ∨ s.cwMaster = false) : exec .cwTimeSend s = .next s :=
  if_pos (by rcases h with h | h | h <;> simp [h])

theorem exec_cwTime (h : CwHeader) (time : Fin (2 ^ 64)) (hops : Fin 256) (own : Fin (2 ^ 72)) (s : State) :
    exec (.cwTime h time hops own) s = execCwTime h time hops own s := rfl

theorem cwTime_takes {h : CwHeader} {time : Fin (2 ^ 64)} {hops : Fin 256} {own : Fin (2 ^ 72)} (hr : s.cw.runs h.port.val = true) (hg : h.good = true)
    (hring : s.cwRing = true) (hm : s.cwMaster = false) :
    let u := s.withCw { s.cw with timeHops := vset s.cw.timeHops h.port.val (some hops.val) }
    let d := vget s.cw.hop h.port.val 0
    let v := (u.withCw { u.cw with timePort := some (h.port.val, hops.val) }).cwPhase (timeError own.val time.val d)
    exec (.cwTime h time hops own) s = if u.cw.neighbour != some h.port.val || decide (d = 0xFFFFFFFF) then .next u
      else .next (v.cwSend [1 - h.port.val] cwTime (leBytes 8 v.now ++ leBytes 1 (hops.val + 1))) := by
  intro u d v
  rw [exec_cwTime]
  unfold execCwTime
  rw [State.cwArrive_of_good hr hg]
  dsimp only
  rw [hring, hm, Bool.not_true, Bool.or_false, Bool.or_false, if_neg Bool.false_ne_true]
  rfl

theorem cwTime_idle {h : CwHeader} {time : Fin (2 ^ 64)} {hops : Fin 256} {own : Fin (2 ^ 72)} (hr : s.cw.runs h.port.val = true) (hg : h.good = true)
    (h' : s.cwRing = false ∨ s.cwMaster = true) : exec (.cwTime h time hops own) s = .next s := by
  rw [exec_cwTime]
  unfold execCwTime
  rw [State.cwArrive_of_good hr hg]
  exact if_pos (by rcases h' with h' | h' <;> simp [h'])

/-- The state with a phase error taken, before it is stepped or slewed. -/
def State.phaseTaken (s : State) (err : Int) : State :=
  let run := if decide (err.natAbs ≤ 1024) then s.cw.lockRun + 1 else 0
  let s1 := s.withCw { s.cw with phaseError := err, lockRun := run, stat := fsetB s.cw.stat F.CW_STAT.LOCKED (decide (200 ≤ run)) }
  { s1 with time := { s1.time with phasedBy := some 6, seconds := true } }

/-- The same, stepped. -/
def State.phaseStepped (s : State) (err : Int) : State :=
  ((s.phaseTaken err).withCw { (s.phaseTaken err).cw with stepped := true }).stepTime
    (wrapTo 64 (((s.phaseTaken err).now : Int) - divHalfAway err 256))

theorem State.cwPhase_eq (s : State) (err : Int) : s.cwPhase err =
    (if !s.cw.stepped && !(s.phaseTaken err).planRuns then (s.phaseStepped err).setCondition srcTimeOffset false 0
      else (s.phaseTaken err).setCondition srcTimeOffset (decide (40000000 < (divHalfAway err 256).natAbs)) 0).cwReady := rfl

theorem State.phaseTaken_holds (s : State) (err : Int) : (s.phaseTaken err).cw.phaseError = err ∧
    (s.phaseTaken err).cw.lockRun = (if err.natAbs ≤ 1024 then s.cw.lockRun + 1 else 0) ∧
    (fbit (s.phaseTaken err).cw.stat F.CW_STAT.LOCKED = true ↔ 200 ≤ (s.phaseTaken err).cw.lockRun) ∧ (s.phaseTaken err).time.up = s.time.up := by
  unfold State.phaseTaken
  dsimp only [State.withCw]
  refine ⟨rfl, if_congr decide_eq_true_iff rfl rfl, ?_, rfl⟩
  rw [fbit_fsetB (by decide) rfl]
  exact decide_eq_true_iff

theorem State.phaseStepped_frame (s : State) (err : Int) : (s.phaseStepped err).cw.phaseError = (s.phaseTaken err).cw.phaseError ∧
    (s.phaseStepped err).cw.lockRun = (s.phaseTaken err).cw.lockRun ∧ (s.phaseStepped err).cw.stat = (s.phaseTaken err).cw.stat ∧
    (s.phaseStepped err).time.up = (s.phaseTaken err).time.up := by
  unfold State.phaseStepped State.stepTime
  exact ⟨rfl, rfl, rfl, rfl⟩

theorem State.cwPhase_takes (err : Int) (s : State) : ∃ (u : State) (b : Bool), s.cwPhase err = (u.setCondition srcTimeOffset b 0).cwReady ∧
    u.cw.phaseError = err ∧ u.cw.lockRun = (if err.natAbs ≤ 1024 then s.cw.lockRun + 1 else 0) ∧
    (fbit u.cw.stat F.CW_STAT.LOCKED = true ↔ 200 ≤ u.cw.lockRun) ∧ u.time.up = s.time.up := by
  rw [State.cwPhase_eq]
  have htaken := State.phaseTaken_holds s err
  split
  · obtain ⟨herr, hrun, hstat, hup⟩ := State.phaseStepped_frame s err
    refine ⟨s.phaseStepped err, false, rfl, ?_⟩
    rw [herr, hrun, hstat, hup]
    exact htaken
  · exact ⟨s.phaseTaken err, _, rfl, htaken⟩

end

/-- Settles O58: the serials stay in order, so the first of them that has the strap is the lowest; links and time by what each row leaves of the
Causeway. -/
theorem ringFollowsItsMembers : Obligations.RingFollowsItsMembers := by
  unfold Obligations.RingFollowsItsMembers
  refine ⟨⟨fun s h => ⟨_, cwHelloSend_sends h, State.helloFrames_ports s, fun f => State.helloFrames_fields⟩, fun s h => if_pos (by simp [h]),
    fun h serial strap sending seen locked s hr hg => ?_, fun m s hm hp => ⟨_, State.cwSee_new hm hp, rfl, rfl, rfl⟩,
    fun f s => ⟨State.changeRing_same, State.changeRing_other⟩, fun s hl hs h8 => ?_, fun s hl hs hr h8 => ?_, fun s => State.cwElect_elects,
    State.cwSerials_sorted, fun p hello s hr hu => ?_, State.cwLinkCause_eq, fun p s hr hf => ?_, fun m0 more s hr hl hm => ringSplit_splits hr hl hm,
    fun s => ringSplit_idle⟩, fun p s hr hu => ?_, fun p s => hopMeasurement_idle, fun h rb s => cwDelayReq_answers, fun h ra rb s hr hg => ?_,
    hopDelay_replicate, fun s => cwTimeSend_sends, fun s => cwTimeSend_idle, fun h time hops own s hr hg hring hm => ?_,
    fun h time hops own s => cwTime_idle, State.cwPhase_takes⟩
  · obtain ⟨pay, hrun⟩ := cwHello_sees (serial := serial) (strap := strap) (sending := sending) (seen := seen) (locked := locked) hr hg
    exact ⟨s.helloHeard h.port.val, pay, rfl, vget_vset_self h.port.isLt, hrun⟩
  · refine ⟨s.cw.noRing, membershipStable_tooMany hl hs h8, rfl, rfl, ?_, ?_⟩
    · unfold Causeway.noRing
      rw [fbit_fset_ne (by decide) (by decide), fbit_fset_ne (by decide) (by decide), fbit_fset (by decide)]
      rfl
    · unfold Causeway.noRing
      rw [fbit_fset_ne (by decide) (by decide), fbit_fset (by decide)]
      rfl
  · refine ⟨s.cw.formRing s.host.serial s.cwSerials, membershipStable_forms hl hs hr h8, rfl, rfl, ?_⟩
    unfold Causeway.formRing
    rw [fget_fset_ne (by decide) (by decide), fget_fset (by decide)]
    exact Nat.mod_eq_of_lt (by simp only [F.CW_STAT.MEMBERS]; omega)
  · obtain ⟨hup, hfallen, hhops, hring, hmembers⟩ := s.cw.portDown_holds p.isLt
    exact ⟨_, _, cwPortDown_falls hr hu, hup, hfallen, hhops, hring, hmembers, by cases hello <;> simp⟩
  · exact ⟨_, cwLinkReturn_returns hr hf, s.cw.linkUp_holds s.time.up p.isLt⟩
  · rw [hopMeasurement_acts hr hu]
    exact ⟨fun h => if_pos h, fun h => if_neg (Nat.not_lt.mpr h)⟩
  · rw [cwDelayResp_counts hr hg]
    exact ⟨fun hlt => ⟨_, if_neg (Nat.not_le.mpr hlt), vget_vmod_self h.port.isLt⟩, fun hge => if_pos hge⟩
  · intro u d
    have hrun := cwTime_takes (time := time) (hops := hops) (own := own) hr hg hring hm
    refine ⟨fun hd => hrun.trans (if_pos ?_), fun hn hd => hrun.trans (if_neg ?_)⟩
    · rw [Bool.or_eq_true, bne_iff_ne, decide_eq_true_iff]
      exact hd
    · rw [Bool.or_eq_true, bne_iff_ne, decide_eq_true_iff]
      exact not_or.mpr ⟨not_not.mpr hn, hd⟩

end Sys2Proof.Machine


/-! SUPPORT. The collector: counting, raising, levels, its check and the watchdog (O59). -/

namespace Sys2Proof.Machine

section
variable {s : State}

/-! ### One occurrence at a source (R389) -/

/-- The record of a source with one more occurrence in its counts and its history. -/
def FaultSource.counted (f : FaultSource) (t detail : Nat) : FaultSource :=
  { f with cnt := finc f.cnt F.FC_CNT.OCCUR, detail := detail % 256, history := (t :: f.history).take f.k }

/-- The record of a source whose occurrence did not raise it. -/
def FaultSource.passed (f : FaultSource) : FaultSource := { f with cnt := fset (finc f.cnt F.FC_CNT.TRANSIENT) F.FC_CNT.SEEN 1 }

/-- The record of a source that is raised, with the reactions of its configuration. -/
def FaultSource.raisedNow (f : FaultSource) : FaultSource := { f with raised := true, applied := fget f.src F.FC_SRC.REACT }

/-- With an occurrence at `t` the window holds k of them. -/
def FaultSource.windowFull (f : FaultSource) (t : Nat) : Bool :=
  decide (f.k ≤ ((t :: f.history).take f.k).length) && decide (t - (((t :: f.history).take f.k).getLast?.getD t) < f.windowMs)

theorem FaultSource.occur_eq (f : FaultSource) (t detail : Nat) (always : Bool) :
    f.occur t detail always =
      if f.raised = true then (f.counted t detail, false)
      else if (!always && !fbit f.src F.FC_SRC.EN) = true then ((f.counted t detail).passed, false)
      else if (always || f.windowFull t) = true then ((f.counted t detail).raisedNow, true)
      else ((f.counted t detail).passed, false) := rfl

/-- The oldest of the last k occurrences is the k-th newest. -/
theorem FaultSource.windowFull_iff (f : FaultSource) (t : Nat) :
    f.windowFull t = true ↔ ∃ old, (t :: f.history)[f.k - 1]? = some old ∧ t - old < f.windowMs := by
  have hk : 1 ≤ f.k := le_max_left _ _
  rw [FaultSource.windowFull, Bool.and_eq_true, decide_eq_true_eq, decide_eq_true_eq, List.length_take]
  by_cases hlen : f.k ≤ (t :: f.history).length
  · have hlast : ((t :: f.history).take f.k).getLast? = (t :: f.history)[f.k - 1]? := by
      rw [List.getLast?_eq_getElem?, List.length_take, Nat.min_eq_left hlen, List.getElem?_take_of_lt (by omega)]
    rw [hlast, List.getElem?_eq_getElem (by omega : f.k - 1 < (t :: f.history).length), Nat.min_eq_left hlen]
    simp only [le_refl, true_and, Option.getD_some, Option.some.injEq, exists_eq_left']
  · rw [List.getElem?_eq_none (by omega)]
    constructor
    · rintro ⟨h, -⟩
      omega
    · rintro ⟨_, ⟨⟩, -⟩

theorem FaultSource.counted_occur (f : FaultSource) (t detail : Nat) :
    fget (f.counted t detail).cnt F.FC_CNT.OCCUR = fget (finc f.cnt F.FC_CNT.OCCUR) F.FC_CNT.OCCUR := rfl

theorem FaultSource.passed_occur (f : FaultSource) : fget f.passed.cnt F.FC_CNT.OCCUR = fget f.cnt F.FC_CNT.OCCUR := by
  rw [FaultSource.passed, fget_fset_ne (by decide) (by decide), fget_finc_ne (by decide) (by decide)]

/-- Neither counting nor passing touches what the source is configured to. -/
theorem FaultSource.passed_counted_frame (f : FaultSource) (t detail : Nat) :
    (f.counted t detail).passed.detail = detail % 256 ∧ (f.counted t detail).passed.src = f.src ∧
    (f.counted t detail).passed.cond = f.cond ∧ (f.counted t detail).passed.raised = f.raised := by
  unfold FaultSource.passed FaultSource.counted
  dsimp only
  exact ⟨rfl, rfl, rfl, rfl⟩

theorem FaultSource.passed_seen (f : FaultSource) : fbit f.passed.cnt F.FC_CNT.SEEN = true := by
  rw [FaultSource.passed, fbit_fset (by decide)]
  decide

/-- The transient count moves by one whatever the other counts of the word do. -/
theorem FaultSource.passed_counted_transient (f : FaultSource) (t detail : Nat) :
    fget (f.counted t detail).passed.cnt F.FC_CNT.TRANSIENT = fget (finc f.cnt F.FC_CNT.TRANSIENT) F.FC_CNT.TRANSIENT := by
  rw [FaultSource.passed, fget_fset_ne (by decide) (by decide), fget_finc (by decide), fget_finc (by decide), FaultSource.counted,
    fget_finc_ne (by decide) (by decide)]

/-- What an occurrence does to the record of its source, and when it raises it. -/
theorem FaultSource.occur_spec (f : FaultSource) (t detail : Nat) (always : Bool) : let e := f.occur t detail always
    fget e.1.cnt F.FC_CNT.OCCUR = fget (finc f.cnt F.FC_CNT.OCCUR) F.FC_CNT.OCCUR ∧ e.1.detail = detail % 256 ∧ e.1.src = f.src ∧ e.1.cond = f.cond ∧
    (f.raised = true → e.2 = false ∧ e.1.raised = true ∧ e.1.applied = f.applied ∧ fget e.1.cnt F.FC_CNT.TRANSIENT = fget f.cnt F.FC_CNT.TRANSIENT) ∧
    (f.raised = false → fbit f.src F.FC_SRC.EN = false → always = false → e.2 = false ∧ e.1.raised = false) ∧
    (f.raised = false → (fbit f.src F.FC_SRC.EN = true ∨ always = true) → always = false →
      (e.2 = true ↔ ∃ old, (t :: f.history)[f.k - 1]? = some old ∧ t - old < f.windowMs)) ∧
    (f.raised = false → always = true → e.2 = true) ∧
    (e.2 = true → e.1.raised = true ∧ e.1.applied = fget f.src F.FC_SRC.REACT) ∧
    (f.raised = false → e.2 = false → e.1.raised = false ∧ fbit e.1.cnt F.FC_CNT.SEEN = true ∧
      fget e.1.cnt F.FC_CNT.TRANSIENT = fget (finc f.cnt F.FC_CNT.TRANSIENT) F.FC_CNT.TRANSIENT) := by
  intro e
  have he : e = _ := f.occur_eq t detail always
  have hpassed : fget (f.counted t detail).passed.cnt F.FC_CNT.OCCUR = fget (finc f.cnt F.FC_CNT.OCCUR) F.FC_CNT.OCCUR := FaultSource.passed_occur _
  obtain ⟨hdetail, hsrc, hcond, hraised⟩ := f.passed_counted_frame t detail
  clear_value e
  split at he
  case isTrue hr =>
    subst he
    refine ⟨rfl, rfl, rfl, rfl, fun _ => ⟨rfl, hr, rfl, fget_finc_ne (by decide) (by decide)⟩, fun h => ?_, fun h => ?_, fun h => ?_,
      fun h => Bool.noConfusion h, fun h => ?_⟩ <;> exact absurd hr (by rw [h]; exact Bool.false_ne_true)
  case isFalse hr =>
    have hr : f.raised = false := (Bool.not_eq_true _).mp hr
    split at he
    case isTrue hoff =>
      obtain ⟨halways, hen⟩ := (Bool.and_eq_true _ _).mp hoff
      rw [Bool.not_eq_true'] at halways hen
      subst he
      refine ⟨hpassed, hdetail, hsrc, hcond, fun h => absurd (h.symm.trans hr) (by decide), fun _ _ _ => ⟨rfl, hraised.trans hr⟩, fun _ hon => ?_, fun _ h => ?_,
        fun h => Bool.noConfusion h, fun _ _ => ⟨hraised.trans hr, FaultSource.passed_seen _, FaultSource.passed_counted_transient f t detail⟩⟩
      · rw [hen, halways] at hon
        exact absurd hon (by decide)
      · exact absurd (h.symm.trans halways) (by decide)
    case isFalse hon =>
      split at he
      case isTrue hup =>
        subst he
        refine ⟨rfl, rfl, rfl, rfl, fun h => absurd (h.symm.trans hr) (by decide), fun _ hen halways => ?_, fun _ _ halways => ?_, fun _ _ => rfl,
          fun _ => ⟨rfl, rfl⟩, fun _ h => Bool.noConfusion h⟩
        · exact absurd (by rw [hen, halways]; rfl) hon
        · rw [halways, Bool.false_or] at hup
          exact ⟨fun _ => (f.windowFull_iff t).mp hup, fun _ => rfl⟩
      case isFalse hup =>
        obtain ⟨halways, hfull⟩ := (Bool.or_eq_false_iff).mp ((Bool.not_eq_true _).mp hup)
        subst he
        refine ⟨hpassed, hdetail, hsrc, hcond, fun h => absurd (h.symm.trans hr) (by decide), fun _ _ _ => ⟨rfl, hraised.trans hr⟩, fun _ _ _ => ?_, fun _ h => ?_,
          fun h => Bool.noConfusion h, fun _ _ => ⟨hraised.trans hr, FaultSource.passed_seen _, FaultSource.passed_counted_transient f t detail⟩⟩
        · rw [← f.windowFull_iff t, hfull]
        · exact absurd (h.symm.trans halways) (by decide)

/-! ### Conditions and FAULT_N (R387, R395) -/

/-- The record of a source whose room tells its condition. -/
def FaultSource.told (f : FaultSource) (cond : Bool) (detail : Nat) : FaultSource :=
  { f with cond, detail := if cond && !f.cond then detail % 256 else f.detail }

theorem State.setCondition_spec (n : Nat) (cond : Bool) (detail : Nat) (s : State) (hn : n < 128) :
    ∃ u : State, (u.source n).cond = cond ∧ (∀ m, m ≠ n → u.source m = s.source m) ∧ u.time = s.time ∧
      u.fw = s.fw ∧ s.setCondition n cond detail = (if cond = true ∧ (s.source n).cond = false ∧ s.fc.watching = true then u.report n detail else u) := by
  refine ⟨s.setSource n ((s.source n).told cond detail), ?_, fun m hm => State.source_setSource_ne hm.symm, rfl, rfl, ?_⟩
  · rw [State.source_setSource_self hn, FaultSource.told]
  · refine if_congr ?_ rfl rfl
    rw [Bool.and_eq_true, Bool.and_eq_true, Bool.not_eq_true', and_assoc]

theorem Collector.driveFaultN_faultN (c : Collector) : fbit c.driveFaultN.stat F.FC_STAT.FAULT_N =
    (!c.watching || c.sources.toList.any (fun f => f.raised && nbit f.applied 4) || fbit c.stat F.FC_STAT.SAFE) :=
  fbit_fsetB (by decide) rfl

/-! ### Reports of a cycle -/

theorem State.isOccurrence_of_level {r : FaultReport} (hl : levelSources.contains r.source.val = true) :
    s.isOccurrence r = true ↔ r.holds = true ∧ (s.source r.source.val).cond = false ∧ s.fc.watching = true := by
  rw [State.isOccurrence, if_pos hl, Bool.and_eq_true, Bool.and_eq_true, Bool.not_eq_true', and_assoc]

theorem State.noteReport_of_level {r : FaultReport} (hl : levelSources.contains r.source.val = true) :
    s.noteReport r = s.setSource r.source.val
      { s.source r.source.val with cond := r.holds, detail := if r.holds then r.detail.val else (s.source r.source.val).detail } :=
  if_pos hl

/-! ### Configuration check and watchdog (R388, R398) -/

theorem exec_collectorCfgCheck_bad (hw : s.fc.watching = true) :
    exec (.collectorCfgCheck true) s =
      .next (({ s with fc := { s.fc with corrupt := true, stat := fset s.fc.stat F.FC_STAT.CFG_ERR 1 } }).report srcCollectorCfg 0) :=
  if_neg (by rw [hw]; decide)

/-- The clock is at the end of the watchdog's 100 ms, which begin anew. -/
def State.watchdogEnded (s : State) : State :=
  let s1 := s.untilUp (s.boot.watchdogUp + 100 * ms)
  { s1 with boot := { s1.boot with watchdogUp := s1.time.up } }

theorem exec_watchdog_of_running (hp : s.boot.phase = .firmware ∨ s.boot.phase = .ready) :
    exec .watchdog s = .next (s.watchdogEnded.report srcWatchdog 0) :=
  if_neg (by obtain h | h := hp <;> rw [h] <;> decide)

theorem exec_watchdog_of_not_running (hf : s.boot.phase ≠ .firmware) (hr : s.boot.phase ≠ .ready) : exec .watchdog s = .next s :=
  if_pos (by rw [bne_iff_ne.mpr hf, bne_iff_ne.mpr hr]; rfl)

end

/-- Settles O59: an occurrence by the three ways its record goes on, a level by the record its report writes. -/
theorem collectorRaisesItsSources : Obligations.CollectorRaisesItsSources := by
  unfold Obligations.CollectorRaisesItsSources
  refine ⟨⟨FaultSource.occur_spec, State.setCondition_spec, Collector.driveFaultN_faultN, fun n detail s h => ?_, fun s => rfl⟩,
    fun rs s => rfl, fun low high hot crit drive s => rfl, fun r s hl => ⟨State.isOccurrence_of_level hl, ?_, fun m hm => ?_⟩,
    fun s hw => ⟨_, exec_collectorCfgCheck_bad hw, ?_⟩, fun s => rfl, fun s hp => ⟨s.watchdogEnded, exec_watchdog_of_running hp, rfl, rfl, rfl⟩,
    fun s hf hr => exec_watchdog_of_not_running hf hr⟩
  · exact if_pos (by rw [h]; rfl)
  · rw [State.noteReport_of_level hl, State.source_setSource_self r.source.isLt]
  · rw [State.noteReport_of_level hl, State.source_setSource_ne hm.symm]
  · rw [fbit_fset (by decide)]
    decide

end Sys2Proof.Machine


/-! SUPPORT. Power, resets, the boot ROM and the start of firmware (O60). -/

namespace Sys2Proof.Machine

section
variable {s : State}

/-! ### Resets of the whole device (R403, R404, R419) -/

theorem State.powerReset_boot (good : Bool) :
    (s.powerReset good).boot.phase = .off ∧ (s.powerReset good).time.up = 0 ∧ (s.powerReset good).power.front = false ∧ (s.powerReset good).power.study = false ∧
    (s.powerReset good).fc.watching = false ∧ (s.powerReset good).mb.dbMask = 0xFFFFFFFF := by
  unfold State.powerReset
  dsimp only
  split <;> exact ⟨rfl, rfl, rfl, rfl, rfl, rfl⟩

/-- What a power-on reset keeps: the queue of commands, the flash and the Larder. -/
theorem State.powerReset_kept (good : Bool) :
    (s.powerReset good).pending = s.pending ∧ (s.powerReset good).porch.flash = s.porch.flash ∧ (s.powerReset good).larder.faultLog = s.larder.faultLog ∧
    (s.powerReset good).larder.rollback = s.larder.rollback ∧ (s.powerReset good).larder.calBase = s.larder.calBase := by
  unfold State.powerReset
  dsimp only
  split <;> exact ⟨rfl, rfl, rfl, rfl, rfl⟩

theorem reset_ilockLow : State.reset.hearth.ilockLow = true := by decide

/-- ILOCK_N keeps its level over a reset. -/
theorem State.powerReset_ilockLow (good : Bool) : (s.powerReset good).hearth.ilockLow = s.hearth.ilockLow := by
  unfold State.powerReset
  dsimp only
  split
  case isTrue h => exact reset_ilockLow.trans h.symm
  case isFalse h =>
    have hlevel : fbit (fset State.reset.hearth.stat F.HEARTH_STAT.ILOCK_LEVEL 1) F.HEARTH_STAT.ILOCK_LEVEL = true := by decide
    exact (congrArg (!·) hlevel).trans ((Bool.not_eq_true _).mp h).symm

/-! ### Release of power-on reset (R405) -/

/-- The state at the release of power-on reset, before the collector watches. -/
def State.released (masterSel : Bool) (s : State) : State :=
  let s1 := s.untilUp (10 * ms)
  let st := fset s1.boot.larderStat F.LARDER_STAT.MOUNTED 1
  { s1 with
    power := { s1.power with study := true, cellar := true, masterSel }
    larder := { s1.larder with torn := false }
    boot := { s1.boot with
      phase := .rom, bootUp := s1.time.up, powerLoss := !s1.larder.shutdownOk
      larderStat := if s1.larder.torn then fset st F.LARDER_STAT.TORN 1 else st } }

theorem exec_porRelease_of_ready (masterSel : Bool) (hp : s.boot.phase = .off) (hg : s.boot.railsGood = true) :
    exec (.porRelease masterSel) s = .next (s.released masterSel).startWatching :=
  if_neg (by rw [hp, hg]; decide)

theorem exec_porRelease_of_not_ready (masterSel : Bool) (h : s.boot.phase ≠ .off ∨ s.boot.railsGood = false) :
    exec (.porRelease masterSel) s = .next s :=
  if_pos (by
    obtain hp | hg := h
    · rw [bne_iff_ne.mpr hp, Bool.true_or]
    · rw [hg, Bool.not_false, Bool.or_true])

theorem State.released_mounted (masterSel : Bool) : fbit (s.released masterSel).boot.larderStat F.LARDER_STAT.MOUNTED = true := by
  have hset : fbit (fset s.boot.larderStat F.LARDER_STAT.MOUNTED 1) F.LARDER_STAT.MOUNTED = true := by
    rw [fbit_fset (by decide)]
    decide
  unfold State.released
  dsimp only
  split
  · rwa [fbit_fset_ne (by decide) (by decide)]
  · exact hset

theorem State.released_torn (masterSel : Bool) (ht : s.larder.torn = true) :
    fbit (s.released masterSel).boot.larderStat F.LARDER_STAT.TORN = true := by
  unfold State.released
  dsimp only
  rw [State.untilUp_larder, if_pos ht, fbit_fset (by decide)]
  decide

/-! ### The boot ROM (R408) -/

/-- The other slot runs. -/
def State.fellBack (s : State) : State := { s with boot := { s.boot with bootStat := fset s.boot.bootStat F.BOOT_STAT.FALLBACK 1 } }

/-- Neither slot holds a good image. -/
def State.romHeld (s : State) : State :=
  { s with boot := { s.boot with phase := .hold, bootStat := fset s.boot.bootStat F.BOOT_STAT.ROM_HOLD 1 } }

/-- Device time after `n` slots have been read by the ROM. -/
def State.afterSlots (n : Nat) (s : State) : State := s.untilUp (s.boot.bootUp + n * 55 * ms)

theorem State.fellBack_fc : s.fellBack.fc = s.fc := by
  unfold State.fellBack
  rfl

theorem State.fellBack_fallback : fbit s.fellBack.boot.bootStat F.BOOT_STAT.FALLBACK = true := by
  unfold State.fellBack
  dsimp only
  rw [fbit_fset (by decide)]
  decide

theorem State.romHeld_stat : fbit s.romHeld.boot.bootStat F.BOOT_STAT.ROM_HOLD = true := by
  unfold State.romHeld
  dsimp only
  rw [fbit_fset (by decide)]
  decide

/-- In the ROM the preferred slot is tried, then the other. -/
theorem exec_bootImageLoaded_of_rom (memDesc : Word) (hp : s.boot.phase = .rom) :
    exec (.bootImageLoaded memDesc) s =
      if s.imageGood s.preferred = true then .next ((s.afterSlots 1).startFirmware s.preferred memDesc)
      else if s.imageGood (1 - s.preferred) = true then
        .next (((s.afterSlots 2).startFirmware (1 - s.preferred) memDesc).fellBack.report srcFwRollback s.preferred)
      else .next ((s.afterSlots 2).romHeld.report srcFwRollback 0xFF) :=
  if_neg (by rw [hp]; decide)

theorem exec_bootImageLoaded_of_not_rom (memDesc : Word) (hp : s.boot.phase ≠ .rom) : exec (.bootImageLoaded memDesc) s = .next s :=
  if_pos (bne_iff_ne.mpr hp)

/-- What the ROM does with the images of its two slots. -/
theorem bootImageLoaded_spec (memDesc : Word) (s : State) (hrom : s.boot.phase = .rom) : let p := s.preferred
    let at_ (n : Nat) : State := s.untilUp (s.boot.bootUp + n * 55 * ms)
    (s.imageGood p = true → exec (.bootImageLoaded memDesc) s = .next ((at_ 1).startFirmware p memDesc)) ∧
    (s.imageGood p = false → s.imageGood (1 - p) = true → ∃ u : State, exec (.bootImageLoaded memDesc) s = .next (u.report srcFwRollback p) ∧
      fbit u.boot.bootStat F.BOOT_STAT.FALLBACK = true ∧ u.fc = ((at_ 2).startFirmware (1 - p) memDesc).fc) ∧
    (s.imageGood p = false → s.imageGood (1 - p) = false → ∃ u : State, exec (.bootImageLoaded memDesc) s = .next (u.report srcFwRollback 0xFF) ∧ u.boot.phase = .hold ∧
      fbit u.boot.bootStat F.BOOT_STAT.ROM_HOLD = true ∧ u.power = s.power) := by
  intro p at_
  have hexec := exec_bootImageLoaded_of_rom memDesc hrom
  refine ⟨fun hgood => hexec.trans (if_pos hgood), fun hbad hother => ?_, fun hbad hother => ?_⟩ <;>
    rw [hexec, if_neg ((Bool.not_eq_true _).mpr hbad)]
  · exact ⟨((s.afterSlots 2).startFirmware (1 - p) memDesc).fellBack, if_pos hother, State.fellBack_fallback, State.fellBack_fc⟩
  · exact ⟨(s.afterSlots 2).romHeld, if_neg ((Bool.not_eq_true _).mpr hother), rfl, State.romHeld_stat, rfl⟩

/-! ### FW_READY (R369, R405, R409) -/

/-- What FW_READY answers once self-calibration and training are over, by the activation that waits. -/
theorem fwReady_spec (ok : Bool) (s : State) (hp : s.boot.phase = .firmware) (hc : s.thr.calUp = none) (ht : s.boot.training = none) :
    (s.boot.activate = none → exec (.fwReady ok) s = .next s.ready) ∧
    (∀ slot, s.boot.activate = some slot → exec (.fwReady true) s =
      .next ((({ s with boot := { s.boot with image := s.imageVersion slot, imageRollback := s.imageRollback slot } }).ready).activated slot)) ∧
    (∀ slot, s.boot.activate = some slot → exec (.fwReady false) s =
      .next (({ s.ready with boot := { s.ready.boot with activate := none } }).finishLong { status := .rollback } [])) := by
  have hguard : ¬ ((s.boot.phase != .firmware || s.thr.calUp.isSome || s.boot.training.isSome) = true) := by
    rw [hp, hc, ht]
    decide
  refine ⟨fun ha => (if_neg hguard).trans ?_, fun slot ha => (if_neg hguard).trans ?_, fun slot ha => (if_neg hguard).trans ?_⟩ <;> rw [ha]
  · exact if_pos rfl
  · exact if_neg Bool.false_ne_true

theorem exec_fwReady_of_not_ready (ok : Bool) (h : s.boot.phase ≠ .firmware ∨ s.thr.calUp ≠ none ∨ s.boot.training ≠ none) :
    exec (.fwReady ok) s = .next s :=
  if_pos (by
    obtain hp | hc | ht := h
    · rw [bne_iff_ne.mpr hp, Bool.true_or, Bool.true_or]
    · rw [Option.isSome_iff_ne_none.mpr hc, Bool.or_true, Bool.true_or]
    · rw [Option.isSome_iff_ne_none.mpr ht, Bool.or_true])

theorem Larder.charge_rollback (up n : Nat) (l : Larder) : (l.charge up n).rollback = l.rollback := by
  have hcount : ∀ x : Larder, x.rollback = l.rollback →
      ({ x with dayBytes := x.dayBytes + n, wearCount := x.wearCount + n / 16 } : Larder).rollback = l.rollback := fun _ hx => hx
  refine hcount (if up < l.dayUp + 86400 * sec then l else { l with dayUp := up / (86400 * sec) * (86400 * sec), dayBytes := 0 }) ?_
  split <;> rfl

theorem State.wrote_rollback (n : Nat) : (s.wrote n).larder.rollback = s.larder.rollback := by
  have hmark : ∀ x : Larder, ({ x with lastTime := s.now, shutdownOk := false } : Larder).rollback = x.rollback := fun _ => rfl
  exact (hmark (s.larder.charge s.time.up n)).trans (Larder.charge_rollback _ _ _)

theorem State.summarise_larder : s.summarise.larder = s.larder := by
  unfold State.summarise
  dsimp only
  split <;> rfl

/-- The Larder's rollback counter only rises (R409). -/
theorem State.ready_rollback : s.ready.larder.rollback = max s.larder.rollback s.boot.imageRollback := by
  unfold State.ready
  dsimp only
  rw [State.summarise_larder]
  by_cases h : s.larder.rollback < s.boot.imageRollback
  · rw [decide_eq_true h, if_pos rfl, State.wrote_rollback, max_eq_right h.le]
    rfl
  · rw [decide_eq_false h, if_neg Bool.false_ne_true, max_eq_left (Nat.le_of_not_lt h)]
    rfl

end

/-- Settles O60: a reset by what it keeps of the state, the ROM by the images it finds, the start of firmware by the activation that waits. -/
theorem startUpFollowsItsSequence : Obligations.StartUpFollowsItsSequence := by
  unfold Obligations.StartUpFollowsItsSequence
  refine ⟨fun s => rfl, fun s => ?_, fun masterSel s hp hg => ?_, fun masterSel s h => exec_porRelease_of_not_ready masterSel h, bootImageLoaded_spec,
    fun memDesc s hp => exec_bootImageLoaded_of_not_rom memDesc hp, fwReady_spec, fun ok s h => exec_fwReady_of_not_ready ok h, fun s => State.ready_rollback⟩
  · obtain ⟨hphase, hup, hfront, hstudy, hwatch, hmask⟩ := s.powerReset_boot false
    obtain ⟨hpending, hflash, hlog, hrollback, hbase⟩ := s.powerReset_kept false
    exact ⟨s.powerReset false, rfl, hphase, hup, hpending, hflash, hlog, hrollback, hbase, hfront, hstudy, hwatch, hmask, s.powerReset_ilockLow false, fun torn => rfl⟩
  · exact ⟨s.released masterSel, exec_porRelease_of_ready masterSel hp hg, rfl, rfl, rfl, rfl, rfl, rfl, State.released_mounted masterSel,
      State.released_torn masterSel, rfl⟩

end Sys2Proof.Machine
